-- ==== Sys2Proof/Word.lean ====
section
/-! DEFINITION. The word types of the machine and their plainest arithmetic (00 R3, R9). -/

namespace Sys2Proof

/-- A 64-bit register value (03 R92). -/
abbrev Word := BitVec 64

/-- One byte of memory. -/
abbrev Byte := BitVec 8

/-- One 32-bit code word (03 R86). -/
abbrev Code := BitVec 32

/-- Unsigned bits [hi:lo] of a natural number (00 R9, helper bits). -/
def bitsOf (v hi lo : Nat) : Nat := (v / 2 ^ lo) % 2 ^ (hi + 1 - lo)

/-- The low w bits of v read as a two's-complement integer (00 R9, helper sext). -/
def sextOf (v w : Nat) : Int :=
  let u := v % 2 ^ w
  if w ≠ 0 ∧ 2 ^ (w - 1) ≤ u then (u : Int) - (2 ^ w : Nat) else (u : Int)

/-- The low w bits of an integer's two's-complement form. -/
def wrapTo (w : Nat) (z : Int) : Nat := (z % (2 ^ w : Nat)).toNat

/-- Ceiling division. -/
def ceilDiv (a b : Nat) : Nat := (a + b - 1) / b

end Sys2Proof
end

