-- ==== Sys2Proof/Config.lean ====
section
/-! DEFINITION. What the spec leaves to the implementation or leaves open: constants without a body, so that no proof can
see their values. Each is named by an entry of the assumption log. -/

namespace Sys2Proof.Config

/-- A value the spec does not state, fresh at each use (DESIGN CHOICE, log 3). -/
opaque freeWord : Nat → Word

/-- Whether an event whose time the spec does not let a program count happens in a given cycle (DESIGN CHOICE, log 5). -/
opaque moment : Nat → Bool

/-- Which of the two neighbouring values the special-function unit gives for function f on an argument's bits, where the spec allows
both (DESIGN CHOICE, log 8). -/
opaque sfuUp : Nat → Nat → Bool

/-- The multiple of a quire's bit 0 that the exact product of two quire elements, m × 2^e, adds where it is not such a multiple (DESIGN CHOICE, log 9). -/
opaque offGrid : Nat → Nat → Int → Nat

/-- The pod's wiring: the peer package and port of a package's Roslys port, where it is wired (15 R410; DESIGN CHOICE, log 11). -/
opaque wiring : Nat → Nat → Option (Nat × Nat)

/-- Whether helm cores go on issuing while a hold freezes the pod, which the spec does not say (10 R305; DESIGN CHOICE, log 12). -/
opaque helmInHold : Bool

/-- The SHA3-256 digest of the boot ROM (15 R411; PRESUMED, log 24). -/
opaque romDigest : BitVec 256

/-- The fused digest of a package's firmware key (15 R411; PRESUMED, log 24). -/
opaque fusedDigest : Nat → BitVec 256

/-- The fused minimum version of a package's firmware (15 R411; PRESUMED, log 24). -/
opaque fusedMinimum : Nat → Nat

/-- Whether an ML-DSA-44 signature verifies over a digest under a public key (15 R411; PRESUMED, log 24). -/
opaque dsaVerify : BitVec 10496 → BitVec 256 → BitVec 19360 → Bool

/-- The public identity key that a package derives from its fused secret at a boot (15 R411; PRESUMED, log 24). -/
opaque identityKey : Nat → BitVec 10496

/-- A package's signature with its identity key over a nonce, its measurements and its position (15 R411; PRESUMED, log 24). -/
opaque identitySign : Nat → BitVec 256 → List (BitVec 256) → Nat → BitVec 19360

/-- What a link adds to a flit and its CRC on the way, by exclusive or (10 R304; DESIGN CHOICE, log 71). -/
opaque lineNoise : Nat → BitVec 528

/-- The links, by their numbers, that residue flits take from one place to another, between the core links at its ends (10 R307; DESIGN CHOICE, log 54). -/
opaque residueRoute : Nat → Nat → List Nat

/-- A flit of a Roslys frame that no channel's slot carries (10 R327; DESIGN CHOICE, log 72). -/
opaque frameFlit : Nat → BitVec 512

/-- The hold and alignment signalling of a Roslys frame (10 R327; DESIGN CHOICE, log 72). -/
opaque frameSignal : Nat → BitVec 48

/-- Whether a package is still above its thermal or power limit a period later (10 R311; DESIGN CHOICE, log 73). -/
opaque stillAbove : Nat → Bool

/-- The address of a word of memory of which a bit is upset in a cycle; a number that is no word's address stands for none (15 R415; DESIGN CHOICE, log 77). -/
opaque upset : Nat → Nat

/-- The register MEASk that firmware extends in a cycle, where k is 2 to 7, and the digest that it extends it by (15 R411; DESIGN CHOICE, log 24). -/
opaque extension : Nat → Nat × BitVec 256

end Sys2Proof.Config
end

