-- ==== Sys2Proof/Machine/Formats.lean ====
section
/-! DEFINITION. Element formats: exact values, decoding, rounding and encoding (02 R49 to R79). A finite value is held exactly
as m × 2^e; a result that no such pair can hold (a quotient, a root) is held with one more bit that is 1 when it is not exact,
far below the last bit of every format, so that one rounding of it is the rounding of the true result. -/

namespace Sys2Proof.Machine

/-- An exact value or a special value (02 R9 helper decode_fmt). In fin, m is not 0. -/
inductive Val where
  | zero (neg : Bool)
  | fin (neg : Bool) (m : Nat) (e : Int)
  | inf (neg : Bool)
  | nan
  | nar
  deriving DecidableEq, Repr

/-- The value (−1)^neg × m × 2^e. -/
def Val.mk (neg : Bool) (m : Nat) (e : Int) : Val := if m = 0 then .zero neg else .fin neg m e

/-- An integer as a value. -/
def Val.ofInt (z : Int) : Val := Val.mk (decide (z < 0)) z.natAbs 0

/-- 2^k for an integer k that is not negative, 1 otherwise. -/
def pow2 (k : Int) : Nat := 2 ^ k.toNat

/-! ### Formats -/

/-- An IEEE-family format (02 R60): widths of exponent and fraction, bias, the largest finite magnitude, infinity if any, canonical NaN. -/
structure FloatFmt where
  eb : Nat
  fb : Nat
  bias : Nat
  max : Nat
  inf : Option Nat
  nan : Nat
  deriving DecidableEq, Repr

/-- binary64. -/
def f64 : FloatFmt := ⟨11, 52, 1023, 0x7FEFFFFFFFFFFFFF, some 0x7FF0000000000000, 0x7FF8000000000000⟩
/-- binary32. -/
def f32 : FloatFmt := ⟨8, 23, 127, 0x7F7FFFFF, some 0x7F800000, 0x7FC00000⟩
/-- binary16. -/
def f16 : FloatFmt := ⟨5, 10, 15, 0x7BFF, some 0x7C00, 0x7E00⟩
/-- bfloat16. -/
def bf16 : FloatFmt := ⟨8, 7, 127, 0x7F7F, some 0x7F80, 0x7FC0⟩
/-- E4M3. -/
def e4m3 : FloatFmt := ⟨4, 3, 7, 0x7E, none, 0x7F⟩
/-- E5M2. -/
def e5m2 : FloatFmt := ⟨5, 2, 15, 0x7B, some 0x7C, 0x7E⟩

/-- A format of the code table (02 R49) by its group. -/
inductive Fmt where
  | int (signed : Bool) (w : Nat)
  | i4o
  | float (f : FloatFmt)
  | tapered (n es : Nat)
  | quire (n : Nat)
  deriving DecidableEq, Repr

/-- The format of a code; none for a reserved code (02 R49). -/
def fmtOf (code : Nat) : Option Fmt :=
  match code with
  | 0x00 => some (.int true 8) | 0x01 => some (.int false 8) | 0x02 => some (.int true 16) | 0x03 => some (.int false 16)
  | 0x04 => some (.int true 32) | 0x05 => some (.int false 32) | 0x06 => some (.int true 64) | 0x07 => some (.int false 64)
  | 0x08 => some (.int true 4) | 0x09 => some .i4o
  | 0x10 => some (.float f64) | 0x11 => some (.float f32) | 0x12 => some (.float f16) | 0x13 => some (.float bf16)
  | 0x14 => some (.float e4m3) | 0x15 => some (.float e5m2)
  | 0x18 => some (.tapered 6 1) | 0x19 => some (.tapered 8 2) | 0x1A => some (.tapered 16 2) | 0x1B => some (.tapered 32 2)
  | 0x1C => some (.quire 8) | 0x1D => some (.quire 16) | 0x1E => some (.quire 32)
  | _ => none

/-- The bits of one element (02 R49). -/
def Fmt.bits : Fmt → Nat
  | .int _ w => w
  | .i4o => 4
  | .float f => 1 + f.eb + f.fb
  | .tapered n _ => n
  | .quire n => 16 * n

/-- Whether SCALE applies to a format (02 R54). -/
def Fmt.scaled : Fmt → Bool
  | .int _ _ | .quire _ => false
  | _ => true

/-! ### Decoding -/

/-- An IEEE-family pattern (02 R60); every NaN reads as the one NaN (02 R61). -/
def decodeFloat (f : FloatFmt) (b : Nat) : Val :=
  let neg := b / 2 ^ (f.eb + f.fb) % 2 = 1
  let mag := b % 2 ^ (f.eb + f.fb)
  let ex := mag / 2 ^ f.fb
  let fr := mag % 2 ^ f.fb
  if f.max < mag then (if f.inf = some mag then .inf neg else .nan)
  else if ex = 0 then Val.mk neg fr (1 - (f.bias : Int) - f.fb)
  else .fin neg (2 ^ f.fb + fr) ((ex : Int) - f.bias - f.fb)

/-- The length of the run of equal bits of a tapered word that starts below its sign (02 R63). -/
def regimeRun (w n : Nat) (first : Nat) : Nat → Nat
  | 0 => 0
  | i + 1 => if i < n - 1 ∧ w / 2 ^ i % 2 = first then regimeRun w n first i + 1 else 0

/-- The fields of a tapered word's magnitude (02 R63, R68): k, reg, e, fw, fraction. -/
structure Tapered where
  k : Nat
  reg : Int
  e : Nat
  fw : Nat
  fr : Nat
  deriving DecidableEq, Repr

/-- The fields of a magnitude word of n bits (02 R63). -/
def taperedFields (w n es : Nat) : Tapered :=
  let first := w / 2 ^ (n - 2) % 2
  let k := regimeRun w n first (n - 1)
  let reg : Int := if first = 1 then (k : Int) - 1 else -(k : Int)
  let m := if k < n - 1 then n - 2 - k else 0
  let eb := Nat.min es m
  let e := w / 2 ^ (m - eb) % 2 ^ eb * 2 ^ (es - eb)
  let fw := m - eb
  ⟨k, reg, e, fw, w % 2 ^ fw⟩

/-- The magnitude word and the sign of a tapered word that is neither 0 nor NaR. -/
def taperedMag (w n : Nat) : Bool × Nat := if 2 ^ (n - 1) ≤ w then (true, 2 ^ n - w) else (false, w)

/-- A tapered word (02 R63). -/
def decodeTapered (n es w : Nat) : Val :=
  if w = 0 then .zero false
  else if w = 2 ^ (n - 1) then .nar
  else
    let (neg, mag) := taperedMag w n
    let t := taperedFields mag n es
    .fin neg (2 ^ t.fw + t.fr) (t.reg * 2 ^ es + t.e - t.fw)

/-- The decode record of a tapered word (02 R68). -/
def decodeRecord (n es w : Nat) : Word :=
  if w = 0 then BitVec.ofNat 64 (2 ^ 62)
  else if w = 2 ^ (n - 1) then BitVec.ofNat 64 (2 ^ 63)
  else
    let (neg, mag) := taperedMag w n
    let t := taperedFields mag n es
    BitVec.ofNat 64 ((if neg then 2 ^ 61 else 0) + t.k * 2 ^ 56 + wrapTo 8 (t.reg * 2 ^ es + t.e) * 2 ^ 48
      + t.fw * 2 ^ 43 + t.e * 2 ^ 41 + t.fr)

/-- The exponent of a quire's bit 0 for n-bit tapered values (02 R69). -/
def quireLsb (n : Nat) : Int := -(8 * (n : Int) - 16)

/-- A quire word of 16n bits (02 R69). -/
def decodeQuire (n w : Nat) : Val :=
  if w = 2 ^ (16 * n - 1) then .nar
  else
    let q := sextOf w (16 * n)
    Val.mk (decide (q < 0)) q.natAbs (quireLsb n)

/-- One element; I4O elements are decoded by granule (02 R58), not here. -/
def decodeFmt (f : Fmt) (b : Nat) : Val :=
  match f with
  | .int true w => Val.ofInt (sextOf b w)
  | .int false w => Val.ofInt (b % 2 ^ w : Nat)
  | .i4o => Val.ofInt (sextOf b 4)
  | .float f => decodeFloat f (b % 2 ^ (1 + f.eb + f.fb))
  | .tapered n es => decodeTapered n es (b % 2 ^ n)
  | .quire n => decodeQuire n (b % 2 ^ (16 * n))

/-- A value times 2^k: exact, special values unchanged (02 R54). -/
def Val.scale (v : Val) (k : Int) : Val :=
  match v with
  | .fin neg m e => .fin neg m (e + k)
  | v => v

/-- Element 4j + i of an I4O granule, and the anomalies that its decode counts (02 R58). -/
def granuleElt (g i : Nat) : Val × Nat :=
  let v := g / 2 ^ (4 * i) % 16
  if g % 16 = 8 ∧ i = 0 then (decodeFloat e4m3 (g / 256 % 256), 0)
  else if g % 16 = 8 ∧ 2 ≤ i then (.zero false, 0)
  else if v = 8 then (.zero false, 1) else (Val.ofInt (sextOf v 4), 0)

/-- Elements 4j to 4j + 3 of an I4O granule, and the anomalies counted (02 R58). -/
def decodeGranule (g : Nat) : List Val × Nat :=
  let xs := (List.range 4).map (granuleElt g)
  (xs.map (·.1), xs.foldl (fun n x => n + x.2) 0)

/-! ### Rounding -/

/-- Whether an inexact magnitude rounds up (02 R79): mode, the random word, the kept integer, the rest r out of 2^d. -/
def roundsUp (mode u lo r d : Nat) : Bool :=
  match mode with
  | 0 => decide (2 ^ d < 2 * r) || (decide (2 * r = 2 ^ d) && lo % 2 == 1)
  | 1 => false
  | 2 => decide (r ≠ 0)
  | _ => decide (u < r * 2 ^ 32 / 2 ^ d)

/-- m × 2^e rounded to a multiple of 2^q, as that multiple. -/
def roundTo (mode u m : Nat) (e q : Int) : Nat :=
  if q ≤ e then m * pow2 (e - q)
  else
    let d := (q - e).toNat
    let lo := m / 2 ^ d
    let r := m % 2 ^ d
    if r ≠ 0 ∧ roundsUp mode u lo r d then lo + 1 else lo

/-- floor(log2(m × 2^e)) for m ≠ 0. -/
def topBit (m : Nat) (e : Int) : Int := (Nat.log2 m : Int) + e

/-! ### Encoding -/

/-- The action of an overflow entry (02 R76): the 2-bit entry of a format code. -/
def ovfEntry (ovf : Word) (code : Nat) : Nat := ovf.toNat / 2 ^ (2 * code) % 4

/-- The overflowed magnitude of an IEEE-family format under an entry (02 R76): its pattern, and whether it keeps the sign. -/
def overflowFloat (f : FloatFmt) (entry : Nat) : Nat × Bool :=
  match entry, f.inf with
  | 1, some i => (i, true)
  | 1, none => (f.nan, false)
  | 2, _ => (f.nan, false)
  | _, _ => (f.max, true)

/-- A value encoded into an IEEE-family format under a mode and an overflow entry (02 R72, R73, R76 to R79). -/
def encodeFloat (f : FloatFmt) (mode u entry : Nat) (v : Val) : Nat :=
  let sign (neg : Bool) (b : Nat) := if neg then 2 ^ (f.eb + f.fb) + b else b
  match v with
  | .zero neg => sign neg 0
  | .nan | .nar => f.nan
  | .inf neg => match f.inf with
    | some i => sign neg i
    | none => let (b, s) := overflowFloat f entry; sign (neg && s) b
  | .fin neg m e =>
    let qmin : Int := 1 - (f.bias : Int) - f.fb
    let q := max (topBit m e - f.fb) qmin
    let bits := (q - qmin).toNat * 2 ^ f.fb + roundTo mode u m e q
    if f.max < bits then let (b, s) := overflowFloat f entry; sign (neg && s) b else sign neg bits

/-- The first n − 1 bits of a tapered magnitude's bit string, and the rest r out of 2^d (02 R66). -/
def taperedString (n es m : Nat) (e : Int) : Nat × Nat × Nat :=
  let x := topBit m e
  let reg := x / (2 ^ es : Nat)
  let ex := (x % (2 ^ es : Nat)).toNat
  let fb := Nat.log2 m
  let rlen := if 0 ≤ reg then reg.toNat + 2 else (-reg).toNat + 1
  let rbits := if 0 ≤ reg then 2 ^ (reg.toNat + 2) - 2 else 1
  let str := (rbits * 2 ^ es + ex) * 2 ^ fb + (m - 2 ^ fb)
  let len := rlen + es + fb
  if len ≤ n - 1 then (str * 2 ^ (n - 1 - len), 0, 0)
  else (str / 2 ^ (len - (n - 1)), str % 2 ^ (len - (n - 1)), len - (n - 1))

/-- The magnitude of a tapered code as m × 2^e. -/
def taperedMagVal (n es p : Nat) : Nat × Int :=
  let t := taperedFields p n es
  (2 ^ t.fw + t.fr, t.reg * 2 ^ es + t.e - t.fw)

/-- Whether a magnitude between codes p and p + 1 rounds up stochastically: by its place between their values (02 R79). -/
def taperedStoch (n es u m : Nat) (e : Int) (p : Nat) : Bool :=
  let (ml, el) := taperedMagVal n es p
  let (mh, eh) := taperedMagVal n es (p + 1)
  let b := min e (min el eh)
  let v := m * pow2 (e - b)
  let lo := ml * pow2 (el - b)
  let hi := mh * pow2 (eh - b)
  decide (u < (v - lo) * 2 ^ 32 / (hi - lo))

/-- The tapered code of a magnitude under a mode and an overflow entry (02 R66, R74, R79). -/
def encodeTaperedMag (n es mode u entry m : Nat) (e : Int) : Nat :=
  let x := topBit m e
  let top : Int := ((n : Int) - 2) * 2 ^ es
  if top < x ∨ (x = top ∧ m ≠ 2 ^ Nat.log2 m) then (if entry = 1 ∨ entry = 2 then 2 ^ (n - 1) else 2 ^ (n - 1) - 1)
  else if x < -top then 1
  else
    let (p, r, d) := taperedString n es m e
    let up : Bool := if r = 0 then false else match mode with
      | 3 => taperedStoch n es u m e p
      | _ => roundsUp mode u p r d
    if up then p + 1 else p

/-- A value encoded into a tapered format (02 R66, R74, R75, R78). -/
def encodeTapered (n es mode u entry : Nat) (v : Val) : Nat :=
  match v with
  | .zero _ => 0
  | .inf _ | .nan | .nar => 2 ^ (n - 1)
  | .fin neg m e =>
    let p := encodeTaperedMag n es mode u entry m e
    if p = 2 ^ (n - 1) then p else if neg then (2 ^ n - p) % 2 ^ n else p

/-- A finite value rounded to an integer under a mode (02 R57). -/
def roundInt (mode u : Nat) (v : Val) : Int :=
  match v with
  | .fin neg m e => let r : Int := roundTo mode u m e 0; if neg then -r else r
  | _ => 0

/-- An integer brought into a range: the nearest bound, or wrapped to w bits (02 R57). -/
def narrowInt (signed : Bool) (w entry : Nat) (z : Int) : Nat :=
  let lo : Int := if signed then -(2 ^ (w - 1) : Nat) else 0
  let hi : Int := if signed then (2 ^ (w - 1) : Nat) - 1 else (2 ^ w : Nat) - 1
  if entry = 3 then wrapTo w z else wrapTo w (max lo (min hi z))

/-- A value converted into an integer format, and the anomalies counted (02 R57). -/
def encodeInt (signed : Bool) (w mode u entry : Nat) (v : Val) : Nat × Nat :=
  match v with
  | .zero _ => (0, 0)
  | .nan | .nar => (0, 1)
  | .inf neg =>
    if entry = 3 then (0, 1)
    else (narrowInt signed w 0 (if neg then -(2 ^ w : Nat) else (2 ^ w : Nat)), 0)
  | .fin _ _ _ => (narrowInt signed w entry (roundInt mode u v), 0)

/-- An integer multiple of the quire's bit 0 as a quire word; a magnitude that reaches the bound gives NaR (02 R70). -/
def quireWord (n : Nat) (q : Int) : Nat :=
  if (2 ^ (16 * n - 1) : Nat) ≤ q.natAbs then 2 ^ (16 * n - 1) else wrapTo (16 * n) q

/-- A value encoded into a quire (02 R76, R78). -/
def encodeQuire (n mode u : Nat) (v : Val) : Nat :=
  match v with
  | .zero _ => 0
  | .inf _ | .nan | .nar => 2 ^ (16 * n - 1)
  | .fin neg m e => let r : Int := roundTo mode u m e (quireLsb n); quireWord n (if neg then -r else r)

/-- A value encoded into a format by its code, under a mode, a random word and the overflow table; and the anomalies counted. -/
def encodeFmt (code mode u : Nat) (ovf : Word) (v : Val) : Nat × Nat :=
  let entry := ovfEntry ovf code
  match fmtOf code with
  | some (.int s w) => encodeInt s w mode u entry v
  | some .i4o => encodeInt true 4 mode u entry v
  | some (.float f) => (encodeFloat f mode u entry v, 0)
  | some (.tapered n es) => (encodeTapered n es mode u entry v, 0)
  | some (.quire n) => (encodeQuire n mode u v, 0)
  | none => (0, 0)

/-- A value clamped to a plain I4O nibble (02 R59). -/
def i4Nibble (mode u : Nat) (v : Val) : Nat :=
  match v with
  | .fin _ _ _ => wrapTo 4 (max (-7) (min 7 (roundInt mode u v)))
  | .inf neg => if neg then 9 else 7
  | _ => 0

/-- An I4O granule from its four values, each with its random word (02 R59). A NaN or NaR among them adds nothing to FANOM: the rule gives what is stored and
names FANOM for the infinite values alone (DESIGN CHOICE, log 64). -/
def encodeGranule (mode entry : Nat) (vs : List (Val × Nat)) : Nat :=
  let at_ (i : Nat) := vs.getD i (.zero false, 0)
  let (v0, u0) := at_ 0
  let plain : Bool := match v0 with
    | .zero _ => true
    | .fin _ _ _ => decide (-7 ≤ roundInt mode u0 v0 ∧ roundInt mode u0 v0 ≤ 7)
    | _ => false
  let nib (i : Nat) := i4Nibble mode (at_ i).2 (at_ i).1
  if plain then i4Nibble mode u0 v0 + 16 * nib 1 + 256 * nib 2 + 4096 * nib 3
  else 8 + 16 * nib 1 + 256 * encodeFloat e4m3 mode u0 entry v0

/-- The bits of a granule that hold its elements below m, as offsets and widths: an entry that stops inside a granule has written these alone
(06 R222; which bits they are the spec does not say: DESIGN CHOICE, log 66). -/
def granuleFields (g m : Nat) : List (Nat × Nat) :=
  if 4 ≤ m then [(0, 16)] else if g % 16 ≠ 8 then [(0, 4 * m)] else if m = 1 then [(0, 4), (8, 8)] else [(0, 16)]

/-! ### Arithmetic on exact values (02 R61, 04 R153 to R158) -/

/-- The sign of a value. -/
def Val.neg? : Val → Bool
  | .zero n | .fin n _ _ | .inf n => n
  | _ => false

/-- The value with its sign inverted. -/
def Val.negate : Val → Val
  | .zero n => .zero (!n)
  | .fin n m e => .fin (!n) m e
  | .inf n => .inf (!n)
  | v => v

/-- A finite value as an integer multiple of 2^b, for b no greater than its exponent. -/
def Val.over (v : Val) (b : Int) : Int :=
  match v with
  | .fin neg m e => let z : Int := m * pow2 (e - b); if neg then -z else z
  | _ => 0

/-- The exact product; a NaN or NaR stays one, and an infinity times zero is NaN. -/
def Val.mul (a b : Val) : Val :=
  match a, b with
  | .nar, _ | _, .nar => .nar
  | .nan, _ | _, .nan => .nan
  | .inf s, .zero _ | .zero s, .inf _ => let _ := s; .nan
  | .inf s, v | v, .inf s => .inf (s != v.neg?)
  | .zero s, v | v, .zero s => .zero (s != v.neg?)
  | .fin s m e, .fin s' m' e' => .fin (s != s') (m * m') (e + e')

/-- The exact sum; a zero sum of opposite signs is +0 (roundTiesToEven). -/
def Val.add (a b : Val) : Val :=
  match a, b with
  | .nar, _ | _, .nar => .nar
  | .nan, _ | _, .nan => .nan
  | .inf s, .inf s' => if s = s' then .inf s else .nan
  | .inf s, _ | _, .inf s => .inf s
  | .zero s, .zero s' => .zero (s && s')
  | .zero _, v | v, .zero _ => v
  | .fin s m e, .fin s' m' e' =>
    let b := min e e'
    let z := (Val.fin s m e).over b + (Val.fin s' m' e').over b
    Val.mk (decide (z < 0)) z.natAbs b

/-- The quotient, with an inexactness bit. -/
def Val.div (a b : Val) : Val :=
  match a, b with
  | .nan, _ | _, .nan | .nar, _ | _, .nar => .nan
  | .inf _, .inf _ | .zero _, .zero _ => .nan
  | .inf s, v => .inf (s != v.neg?)
  | v, .inf s => .zero (s != v.neg?)
  | .zero s, v => .zero (s != v.neg?)
  | v, .zero s => .inf (s != v.neg?)
  | .fin s m e, .fin s' m' e' =>
    let k := 80 + Nat.log2 m'
    let q := m * 2 ^ k / m'
    .fin (s != s') (2 * q + (if m * 2 ^ k % m' = 0 then 0 else 1)) (e - e' - k - 1)

/-- The integer square root of a number below 2^512, bit by bit from the top. -/
def isqrt (n : Nat) : Nat :=
  (List.range 256).foldr (fun b r => if (r + 2 ^ b) * (r + 2 ^ b) ≤ n then r + 2 ^ b else r) 0

/-- The square root, with an inexactness bit. -/
def Val.sqrt (a : Val) : Val :=
  match a with
  | .zero s => .zero s
  | .inf false => .inf false
  | .fin false m e =>
    let odd := (e % 2).toNat
    let n := m * 2 ^ (odd + 160)
    let r := isqrt n
    .fin false (2 * r + (if r * r = n then 0 else 1)) ((e - odd - 160) / 2 - 1)
  | _ => .nan

/-- a < b on values that are not NaN; the sign of a zero counts where zeros is set (04 R155). -/
def Val.lt (zeros : Bool) (a b : Val) : Bool :=
  match a, b with
  | .inf s, .inf s' => s && !s'
  | .inf s, _ => s
  | _, .inf s => !s
  | .zero s, .zero s' => zeros && s && !s'
  | .fin _ _ e, .fin _ _ e' => decide (a.over (min e e') < b.over (min e e'))
  | .fin s _ _, .zero _ => s
  | .zero _, .fin s _ _ => !s
  | _, _ => false

/-- Numeric equality: −0 equals +0 (02 R62). -/
def Val.eq (a b : Val) : Bool := !Val.lt false a b && !Val.lt false b a

/-- Whether a value is a NaN. -/
def Val.isNan : Val → Bool
  | .nan | .nar => true
  | _ => false

/-- The smaller of two values, −0 below +0; a NaN operand gives NaN (04 R155). -/
def Val.min (a b : Val) : Val := if a.isNan || b.isNan then .nan else if Val.lt true b a then b else a

/-- The larger of two values. -/
def Val.max (a b : Val) : Val := if a.isNan || b.isNan then .nan else if Val.lt true a b then b else a

/-- A result in binary64 or binary32 (02 R61): roundTiesToEven, an overflow to an infinity. -/
def encodeCompute (f : FloatFmt) (v : Val) : Nat := encodeFloat f 0 0 1 v

/-! ### Quires (02 R70) -/

/-- A value added into a quire word: exact, with NaR kept and the bound held. The value is a multiple of the quire's bit 0. -/
def quireAdd (n w : Nat) (v : Val) : Nat :=
  let nar := 2 ^ (16 * n - 1)
  if w = nar then nar
  else match v with
    | .nan | .nar | .inf _ => nar
    | .zero _ => w
    | .fin neg m e =>
      let z : Int := roundTo 1 0 m e (quireLsb n)
      quireWord n (sextOf w (16 * n) + (if neg then -z else z))

end Sys2Proof.Machine
end

