-- ==== Sys2Proof/Syntax.lean ====
section
/-! DEFINITION. The ONE instruction type: one constructor per row of spec/opcode_table.json.
The first part holds the slot words (03 R88, R100), each field at the width the table gives it, the guard first;
the second part holds the machine's own steps (95_what_each_step_holds.md), whose arguments name the agent that moves
(p a core or helm unit, j a skiff context, q a quad, d a die, l a Lighter, n a channel, sn a sailing, k a package, u a helm unit)
or carry the data that comes from outside. -/

namespace Sys2Proof

/-- Every row of the opcode table. -/
inductive Instr where
  /-- R142: A-slot register-register integer operation selected by fn: add, sub, and, or, xor, shl, shr or sra. -/
  | addA (g : BitVec 4) (d : BitVec 5) (a : BitVec 5) (b : BitVec 5) (f : BitVec 6)
  /-- R143: A-slot add of a sign-extended 11-bit immediate. -/
  | addiA (g : BitVec 4) (d : BitVec 5) (a : BitVec 5) (i : BitVec 11)
  /-- R143: A-slot load of a sign-extended 16-bit immediate. -/
  | liA (g : BitVec 4) (d : BitVec 5) (i : BitVec 16)
  /-- R143: A-slot shift of the destination left by 16 and insertion of a 16-bit immediate. -/
  | liuA (g : BitVec 4) (d : BitVec 5) (i : BitVec 16)
  /-- R144: A-slot register compare that writes a guard. -/
  | cmpA (g : BitVec 4) (h : BitVec 4) (a : BitVec 5) (b : BitVec 5) (c : BitVec 3)
  /-- R144: A-slot compare with an 8-bit immediate that writes a guard. -/
  | cmpiA (g : BitVec 4) (h : BitVec 4) (a : BitVec 5) (c : BitVec 3) (i : BitVec 8)
  /-- R129: Scalar 1-byte scratchpad load to an a-register or the load queue. -/
  | ldB (g : BitVec 4) (d : BitVec 5) (a : BitVec 5) (c : BitVec 4) (i : BitVec 7)
  /-- R129: Scalar 2-byte scratchpad load. -/
  | ldH (g : BitVec 4) (d : BitVec 5) (a : BitVec 5) (c : BitVec 4) (i : BitVec 7)
  /-- R129: Scalar 4-byte scratchpad load. -/
  | ldW (g : BitVec 4) (d : BitVec 5) (a : BitVec 5) (c : BitVec 4) (i : BitVec 7)
  /-- R129: Scalar 8-byte scratchpad load. -/
  | ldD (g : BitVec 4) (d : BitVec 5) (a : BitVec 5) (c : BitVec 4) (i : BitVec 7)
  /-- R130: Scalar 1-byte scratchpad store from an a-register or the store-queue head. -/
  | stB (g : BitVec 4) (d : BitVec 5) (a : BitVec 5) (c : BitVec 4) (i : BitVec 7)
  /-- R130: Scalar 2-byte scratchpad store. -/
  | stH (g : BitVec 4) (d : BitVec 5) (a : BitVec 5) (c : BitVec 4) (i : BitVec 7)
  /-- R130: Scalar 4-byte scratchpad store. -/
  | stW (g : BitVec 4) (d : BitVec 5) (a : BitVec 5) (c : BitVec 4) (i : BitVec 7)
  /-- R130: Scalar 8-byte scratchpad store. -/
  | stD (g : BitVec 4) (d : BitVec 5) (a : BitVec 5) (c : BitVec 4) (i : BitVec 7)
  /-- R131: Bit-granular field load of 1 to 32 bits from the own scratchpad. -/
  | ldb (g : BitVec 4) (d : BitVec 5) (a : BitVec 5) (c : BitVec 4) (s : BitVec 1) (w : BitVec 5)
  /-- R131: Bit-granular field store of 1 to 32 bits into the own scratchpad. -/
  | stb (g : BitVec 4) (d : BitVec 5) (a : BitVec 5) (c : BitVec 4) (w : BitVec 5)
  /-- R141: Fence that orders the agent's accesses in the masked classes at a scope. -/
  | fenceOc (g : BitVec 4) (s : BitVec 3) (m : BitVec 16)
  /-- R141: Full fence over all classes and engine commands, with the invalidation drain at .pkg and .pod. -/
  | fenceOcAll (g : BitVec 4) (s : BitVec 3) (m : BitVec 16)
  /-- R140: 4-byte scratchpad atomic read-modify-write. -/
  | amoW (g : BitVec 4) (o : BitVec 5) (a : BitVec 5) (b : BitVec 5) (c : BitVec 4)
  /-- R140: 8-byte scratchpad atomic read-modify-write. -/
  | amoD (g : BitVec 4) (o : BitVec 5) (a : BitVec 5) (b : BitVec 5) (c : BitVec 4)
  /-- R132: Binds a stream port to an x or f register from a stream descriptor. -/
  | sbind (g : BitVec 4) (r : BitVec 5) (a : BitVec 5) (f : BitVec 1) (p : BitVec 2)
  /-- R136: Unbinds a stream port and discards its unread elements. -/
  | sbindU (g : BitVec 4) (r : BitVec 5) (f : BitVec 1) (p : BitVec 2)
  /-- R276: Reads a layout record and sends it as a copy command to the die's Lighter. -/
  | lxsend (g : BitVec 4) (a : BitVec 5)
  /-- R276: Gives a refill command to a watermark channel of the core's stream unit. -/
  | lxsendCh (g : BitVec 4) (n : BitVec 3) (a : BitVec 5)
  /-- R276: Closes a watermark channel once it is idle. -/
  | lxsendCls (g : BitVec 4) (n : BitVec 3)
  /-- R289: Publishes the core's own buffer handle by swapping its halves and stamping a tag. -/
  | pub (g : BitVec 4) (s : BitVec 3) (h : BitVec 5) (t : BitVec 5) (c : BitVec 4)
  /-- R286: Maps a publication map entry with its name range and second half. -/
  | pubMap (g : BitVec 4) (n : BitVec 4) (a : BitVec 5)
  /-- R286: Unmaps a publication map entry. -/
  | pubUnmap (g : BitVec 4) (n : BitVec 4)
  /-- R290: Arms a publication tag check for a handle. -/
  | expect (g : BitVec 4) (h : BitVec 5) (t : BitVec 5)
  /-- R290: Disarms the tag check of a handle. -/
  | expectC (g : BitVec 4) (h : BitVec 5)
  /-- R102: Copies 64 bits from a register of another file into the slot's own file. -/
  | cp (g : BitVec 4) (d : BitVec 5) (s : BitVec 5) (q : BitVec 2) (f : BitVec 3)
  /-- R173: Skiff 1-byte global load through the skiff cache. -/
  | sldB (g : BitVec 4) (d : BitVec 5) (a : BitVec 5) (c : BitVec 4) (i : BitVec 7)
  /-- R173: Skiff 2-byte global load through the skiff cache. -/
  | sldH (g : BitVec 4) (d : BitVec 5) (a : BitVec 5) (c : BitVec 4) (i : BitVec 7)
  /-- R173: Skiff 4-byte global load through the skiff cache. -/
  | sldW (g : BitVec 4) (d : BitVec 5) (a : BitVec 5) (c : BitVec 4) (i : BitVec 7)
  /-- R173: Skiff 8-byte global load through the skiff cache. -/
  | sldD (g : BitVec 4) (d : BitVec 5) (a : BitVec 5) (c : BitVec 4) (i : BitVec 7)
  /-- R173: Skiff 1-byte global store into the skiff cache. -/
  | sstB (g : BitVec 4) (d : BitVec 5) (a : BitVec 5) (c : BitVec 4) (i : BitVec 7)
  /-- R173: Skiff 2-byte global store into the skiff cache. -/
  | sstH (g : BitVec 4) (d : BitVec 5) (a : BitVec 5) (c : BitVec 4) (i : BitVec 7)
  /-- R173: Skiff 4-byte global store into the skiff cache. -/
  | sstW (g : BitVec 4) (d : BitVec 5) (a : BitVec 5) (c : BitVec 4) (i : BitVec 7)
  /-- R173: Skiff 8-byte global store into the skiff cache. -/
  | sstD (g : BitVec 4) (d : BitVec 5) (a : BitVec 5) (c : BitVec 4) (i : BitVec 7)
  /-- R173: Skiff 4-byte atomic performed at the line's home. -/
  | samoW (g : BitVec 4) (o : BitVec 5) (a : BitVec 5) (b : BitVec 5) (c : BitVec 4)
  /-- R173: Skiff 8-byte atomic performed at the line's home, also used for special-function requests. -/
  | samoD (g : BitVec 4) (o : BitVec 5) (a : BitVec 5) (b : BitVec 5) (c : BitVec 4)
  /-- R138: Waits until a scratchpad flag word equals a value, then acts as an acquire. -/
  | facqW (g : BitVec 4) (a : BitVec 5) (v : BitVec 5) (i : BitVec 12) (l : BitVec 1) (s : BitVec 3) (m : BitVec 16)
  /-- R138: Tests a flag word once and writes the result to a guard. -/
  | facqT (g : BitVec 4) (h : BitVec 4) (a : BitVec 5) (v : BitVec 5) (i : BitVec 12) (l : BitVec 1) (s : BitVec 3) (m : BitVec 16)
  /-- R138: Release that writes a flag word after the masked earlier accesses have performed. -/
  | frel (g : BitVec 4) (a : BitVec 5) (v : BitVec 5) (i : BitVec 12) (l : BitVec 1) (s : BitVec 3) (m : BitVec 16)
  /-- R142: X-slot register-register integer operation selected by fn. -/
  | addX (g : BitVec 4) (d : BitVec 5) (a : BitVec 5) (b : BitVec 5) (f : BitVec 6)
  /-- R143: X-slot add of a sign-extended 11-bit immediate. -/
  | addiX (g : BitVec 4) (d : BitVec 5) (a : BitVec 5) (i : BitVec 11)
  /-- R143: X-slot AND with a sign-extended immediate. -/
  | andi (g : BitVec 4) (d : BitVec 5) (a : BitVec 5) (i : BitVec 11)
  /-- R143: X-slot OR with a sign-extended immediate. -/
  | ori (g : BitVec 4) (d : BitVec 5) (a : BitVec 5) (i : BitVec 11)
  /-- R143: X-slot XOR with a sign-extended immediate. -/
  | xori (g : BitVec 4) (d : BitVec 5) (a : BitVec 5) (i : BitVec 11)
  /-- R143: X-slot shift left by an immediate. -/
  | shli (g : BitVec 4) (d : BitVec 5) (a : BitVec 5) (s : BitVec 6)
  /-- R143: X-slot logical shift right by an immediate. -/
  | shri (g : BitVec 4) (d : BitVec 5) (a : BitVec 5) (s : BitVec 6)
  /-- R143: X-slot arithmetic shift right by an immediate. -/
  | srai (g : BitVec 4) (d : BitVec 5) (a : BitVec 5) (s : BitVec 6)
  /-- R143: X-slot load of a sign-extended 16-bit immediate. -/
  | liX (g : BitVec 4) (d : BitVec 5) (i : BitVec 16)
  /-- R143: X-slot shift left by 16 and insertion of a 16-bit immediate. -/
  | liuX (g : BitVec 4) (d : BitVec 5) (i : BitVec 16)
  /-- R144: X-slot register compare that writes a guard. -/
  | cmpX (g : BitVec 4) (h : BitVec 4) (a : BitVec 5) (b : BitVec 5) (c : BitVec 3)
  /-- R144: X-slot compare with an immediate that writes a guard. -/
  | cmpiX (g : BitVec 4) (h : BitVec 4) (a : BitVec 5) (c : BitVec 3) (i : BitVec 8)
  /-- R145: Selects one of two x-registers by a guard. -/
  | sel (g : BitVec 4) (d : BitVec 5) (a : BitVec 5) (b : BitVec 5) (h : BitVec 4)
  /-- R146: 64-bit multiply giving the low or high half of the product. -/
  | mul (g : BitVec 4) (d : BitVec 5) (a : BitVec 5) (b : BitVec 5) (f : BitVec 2)
  /-- R146: Multiply giving the whole 128-bit product in a register pair. -/
  | mulw (g : BitVec 4) (d : BitVec 5) (a : BitVec 5) (b : BitVec 5) (u : BitVec 1)
  /-- R147: Signed or unsigned quotient or remainder. -/
  | div (g : BitVec 4) (d : BitVec 5) (a : BitVec 5) (b : BitVec 5) (f : BitVec 2)
  /-- R148: Count leading zeros, trailing zeros or population. -/
  | bcnt (g : BitVec 4) (d : BitVec 5) (a : BitVec 5) (f : BitVec 6)
  /-- R149: Extracts a bit field zero-extended. -/
  | ext (g : BitVec 4) (d : BitVec 5) (a : BitVec 5) (l : BitVec 5) (p : BitVec 6)
  /-- R149: Inserts a bit field into the destination. -/
  | ins (g : BitVec 4) (d : BitVec 5) (a : BitVec 5) (l : BitVec 5) (p : BitVec 6)
  /-- R149: Extracts a bit field sign-extended. -/
  | exts (g : BitVec 4) (d : BitVec 5) (a : BitVec 5) (l : BitVec 5) (p : BitVec 6)
  /-- R150: Advances a CRC-8 over the top n bytes of a register. -/
  | crc8 (g : BitVec 4) (d : BitVec 5) (a : BitVec 5) (b : BitVec 5) (n : BitVec 3)
  /-- R151: Evaluates Philox4x32-10 on a counter and returns half of its output. -/
  | rng (g : BitVec 4) (d : BitVec 5) (a : BitVec 5) (b : BitVec 5) (h : BitVec 1)
  /-- R152: Writes the decode record of a tapered word. -/
  | tdec (g : BitVec 4) (d : BitVec 5) (a : BitVec 5) (t : BitVec 2)
  /-- R152: Compares two tapered words and writes a guard. -/
  | tcmp (g : BitVec 4) (h : BitVec 4) (a : BitVec 5) (b : BitVec 5) (t : BitVec 2) (c : BitVec 2)
  /-- R152: Converts between tapered formats or between tapered and I64. -/
  | tcvt (g : BitVec 4) (d : BitVec 5) (a : BitVec 5) (k : BitVec 2) (e : BitVec 2) (s : BitVec 2)
  /-- R154: Floating add in binary64 or binary32. -/
  | fadd (g : BitVec 4) (d : BitVec 5) (a : BitVec 5) (b : BitVec 5) (p : BitVec 1)
  /-- R154: Floating subtract. -/
  | fsub (g : BitVec 4) (d : BitVec 5) (a : BitVec 5) (b : BitVec 5) (p : BitVec 1)
  /-- R154: Floating multiply. -/
  | fmul (g : BitVec 4) (d : BitVec 5) (a : BitVec 5) (b : BitVec 5) (p : BitVec 1)
  /-- R154: Fused multiply-add with one rounding. -/
  | fma (g : BitVec 4) (d : BitVec 5) (a : BitVec 5) (b : BitVec 5) (c : BitVec 5) (p : BitVec 1)
  /-- R154: Fused multiply-subtract with one rounding. -/
  | fms (g : BitVec 4) (d : BitVec 5) (a : BitVec 5) (b : BitVec 5) (c : BitVec 5) (p : BitVec 1)
  /-- R154: Fused negated multiply-add with one rounding. -/
  | fnma (g : BitVec 4) (d : BitVec 5) (a : BitVec 5) (b : BitVec 5) (c : BitVec 5) (p : BitVec 1)
  /-- R154: Floating divide. -/
  | fdiv (g : BitVec 4) (d : BitVec 5) (a : BitVec 5) (b : BitVec 5) (p : BitVec 1)
  /-- R154: Floating square root. -/
  | fsqrt (g : BitVec 4) (d : BitVec 5) (a : BitVec 5) (p : BitVec 1)
  /-- R155: Smaller of two floating operands. -/
  | fmin (g : BitVec 4) (d : BitVec 5) (a : BitVec 5) (b : BitVec 5) (p : BitVec 1)
  /-- R155: Larger of two floating operands. -/
  | fmax (g : BitVec 4) (d : BitVec 5) (a : BitVec 5) (b : BitVec 5) (p : BitVec 1)
  /-- R155: Floating compare that writes a guard. -/
  | fcmp (g : BitVec 4) (h : BitVec 4) (a : BitVec 5) (b : BitVec 5) (c : BitVec 3) (p : BitVec 1)
  /-- R156: Converts between floating, integer and tapered types. -/
  | fcvt (g : BitVec 4) (d : BitVec 5) (a : BitVec 5) (e : BitVec 3) (s : BitVec 3)
  /-- R157: Magnitude of one operand with a sign derived from the operands. -/
  | fsgn (g : BitVec 4) (d : BitVec 5) (a : BitVec 5) (b : BitVec 5) (o : BitVec 2) (p : BitVec 1)
  /-- R157: Writes the class mask of a floating value. -/
  | fcls (g : BitVec 4) (d : BitVec 5) (a : BitVec 5) (p : BitVec 1)
  /-- R158: Tapered add with one encoding. -/
  | tadd (g : BitVec 4) (d : BitVec 5) (a : BitVec 5) (b : BitVec 5) (t : BitVec 2)
  /-- R158: Tapered subtract with one encoding. -/
  | tsub (g : BitVec 4) (d : BitVec 5) (a : BitVec 5) (b : BitVec 5) (t : BitVec 2)
  /-- R158: Tapered multiply with one encoding. -/
  | tmul (g : BitVec 4) (d : BitVec 5) (a : BitVec 5) (b : BitVec 5) (t : BitVec 2)
  /-- R204: Pushes an element-wise vector add entry. -/
  | vadd (g : BitVec 4) (d : BitVec 4) (a : BitVec 4) (b : BitVec 4) (c : BitVec 4) (k : BitVec 3)
  /-- R204: Pushes an element-wise vector subtract entry. -/
  | vsub (g : BitVec 4) (d : BitVec 4) (a : BitVec 4) (b : BitVec 4) (c : BitVec 4) (k : BitVec 3)
  /-- R204: Pushes an element-wise vector multiply entry. -/
  | vmul (g : BitVec 4) (d : BitVec 4) (a : BitVec 4) (b : BitVec 4) (c : BitVec 4) (k : BitVec 3)
  /-- R204: Pushes a vector fused multiply-add entry. -/
  | vfma (g : BitVec 4) (d : BitVec 4) (a : BitVec 4) (b : BitVec 4) (c : BitVec 4) (k : BitVec 3)
  /-- R204: Pushes a vector fused multiply-subtract entry. -/
  | vfms (g : BitVec 4) (d : BitVec 4) (a : BitVec 4) (b : BitVec 4) (c : BitVec 4) (k : BitVec 3)
  /-- R204: Pushes a vector negated fused multiply-add entry. -/
  | vfnma (g : BitVec 4) (d : BitVec 4) (a : BitVec 4) (b : BitVec 4) (c : BitVec 4) (k : BitVec 3)
  /-- R204: Pushes an element-wise minimum entry. -/
  | vmin (g : BitVec 4) (d : BitVec 4) (a : BitVec 4) (b : BitVec 4) (c : BitVec 4) (k : BitVec 3)
  /-- R204: Pushes an element-wise maximum entry. -/
  | vmax (g : BitVec 4) (d : BitVec 4) (a : BitVec 4) (b : BitVec 4) (c : BitVec 4) (k : BitVec 3)
  /-- R204: Pushes an element-wise absolute value entry. -/
  | vabs (g : BitVec 4) (d : BitVec 4) (a : BitVec 4) (c : BitVec 4) (k : BitVec 3)
  /-- R205: Pushes a direct format conversion entry with a chosen rounding mode. -/
  | vcvt (g : BitVec 4) (d : BitVec 4) (a : BitVec 4) (c : BitVec 4) (m : BitVec 2)
  /-- R217: Pushes a special-function evaluation entry. -/
  | vsf (g : BitVec 4) (d : BitVec 4) (a : BitVec 4) (f : BitVec 4) (c : BitVec 4) (r : BitVec 1) (k : BitVec 3)
  /-- R209: Pushes a canonical-tree reduction entry. -/
  | vred (g : BitVec 4) (d : BitVec 4) (a : BitVec 4) (c : BitVec 4) (o : BitVec 2) (k : BitVec 3)
  /-- R209: Pushes a canonical-tree scan entry. -/
  | vscan (g : BitVec 4) (d : BitVec 4) (a : BitVec 4) (c : BitVec 4) (o : BitVec 2) (k : BitVec 3)
  /-- R207: Pushes an element-wise compare entry writing 1 or 0. -/
  | vcmp (g : BitVec 4) (d : BitVec 4) (a : BitVec 4) (b : BitVec 4) (c : BitVec 4) (o : BitVec 2) (k : BitVec 3)
  /-- R207: Pushes an element-wise select entry conditioned on the destination. -/
  | vsel (g : BitVec 4) (d : BitVec 4) (a : BitVec 4) (b : BitVec 4) (c : BitVec 4) (k : BitVec 3)
  /-- R206: Pushes a move entry through a compute format. -/
  | vmov (g : BitVec 4) (d : BitVec 4) (a : BitVec 4) (c : BitVec 4) (k : BitVec 3)
  /-- R206: Pushes a fill entry writing a small integer into every element. -/
  | vfill (g : BitVec 4) (d : BitVec 4) (i : BitVec 8) (c : BitVec 4)
  /-- R210: Pushes a dot-product entry. -/
  | vdot (g : BitVec 4) (d : BitVec 4) (a : BitVec 4) (b : BitVec 4) (c : BitVec 4) (k : BitVec 3)
  /-- R211: Pushes a vector tapered decode-record entry. -/
  | tdecv (g : BitVec 4) (d : BitVec 4) (a : BitVec 4) (c : BitVec 4)
  /-- R214: Pushes an entry adding exact products into a quire register. -/
  | vqacc (g : BitVec 4) (q : BitVec 4) (a : BitVec 4) (b : BitVec 4) (c : BitVec 4)
  /-- R214: Pushes an entry adding every source element into a quire register. -/
  | vqaccS (g : BitVec 4) (q : BitVec 4) (a : BitVec 4) (c : BitVec 4)
  /-- R215: Pushes an entry reading a quire register into one element. -/
  | vqrd (g : BitVec 4) (d : BitVec 4) (q : BitVec 4) (c : BitVec 4)
  /-- R215: Pushes a quire read entry that also clears the quire register. -/
  | vqrdZ (g : BitVec 4) (d : BitVec 4) (q : BitVec 4) (c : BitVec 4)
  /-- R213: Pushes an entry clearing a quire register with a width. -/
  | vqclr (g : BitVec 4) (q : BitVec 4) (w : BitVec 2)
  /-- R216: Repeats the last n pushed entries count times with advancing bases. -/
  | vloop (g : BitVec 4) (n : BitVec 4) (k : BitVec 16)
  /-- R193: Stalls until earlier sequencer entries of the masked classes have completed. -/
  | vsync (g : BitVec 4) (m : BitVec 16)
  /-- R193: Writes a guard telling whether earlier entries nominally completed. -/
  | vsyncT (g : BitVec 4) (m : BitVec 16) (h : BitVec 4)
  /-- R316: Pushes a bulk channel send entry. -/
  | chs (g : BitVec 4) (e : BitVec 4) (s : BitVec 4) (c : BitVec 4)
  /-- R316: Pushes a bulk channel receive entry. -/
  | chv (g : BitVec 4) (d : BitVec 4) (e : BitVec 4) (c : BitVec 4)
  /-- R228: Requests the quad array's lease for n commands. -/
  | mlease (g : BitVec 4) (n : BitVec 8)
  /-- R229: Ends a held lease or withdraws a lease request. -/
  | mfree (g : BitVec 4)
  /-- R232: Queues an array command that configures a zeroed accumulator tile. -/
  | mcfg (g : BitVec 4) (d : BitVec 4) (s : BitVec 2) (t : BitVec 3)
  /-- R232: Queues a tile configuration loaded from a raw image. -/
  | mcfgLd (g : BitVec 4) (d : BitVec 4) (h : BitVec 4) (c : BitVec 4) (s : BitVec 2) (t : BitVec 3)
  /-- R233: Queues a merge of a raw image into a matching tile, or a fresh load. -/
  | mcfgAdd (g : BitVec 4) (d : BitVec 4) (h : BitVec 4) (c : BitVec 4) (s : BitVec 2) (t : BitVec 3)
  /-- R238: Queues a gather of up to 32 rows into an A latch buffer. -/
  | mgath (g : BitVec 4) (x : BitVec 1) (i : BitVec 4) (r : BitVec 4) (c : BitVec 4)
  /-- R240: Queues a fill of a B latch buffer from the own scratchpad. -/
  | mlatb (g : BitVec 4) (y : BitVec 1) (b : BitVec 4) (c : BitVec 4)
  /-- R242: Queues a dense masked matrix product into a tile. -/
  | mma (g : BitVec 4) (d : BitVec 4) (m : BitVec 4) (k : BitVec 4) (y : BitVec 1) (x : BitVec 1)
  /-- R256: Queues a 4-in-8 sparse matrix product after checking metadata. -/
  | mmas (g : BitVec 4) (d : BitVec 4) (m : BitVec 4) (k : BitVec 4) (j : BitVec 2) (x : BitVec 1)
  /-- R251: Queues a converting store of tile elements to scratchpad. -/
  | mst (g : BitVec 4) (t : BitVec 4) (h : BitVec 4) (m : BitVec 4) (c : BitVec 4)
  /-- R252: Queues a raw store of tile elements. -/
  | mstRaw (g : BitVec 4) (t : BitVec 4) (h : BitVec 4) (m : BitVec 4) (c : BitVec 4)
  /-- R253: Queues a read of a tile's status word, clearing its overflow bit. -/
  | mstSt (g : BitVec 4) (t : BitVec 4) (h : BitVec 4)
  /-- R255: Queues pruning of a weight tile to 4 of 8 with metadata. -/
  | mcomp (g : BitVec 4) (d : BitVec 4) (s : BitVec 4) (k : BitVec 2) (c : BitVec 4)
  /-- R258: Queues a macro tile product over T K-steps. -/
  | mtile (g : BitVec 4) (d : BitVec 4) (x : BitVec 4) (p : BitVec 4) (c : BitVec 4) (z : BitVec 1) (s : BitVec 1)
  /-- R259: Queues a macro walk over a block-sparse topology table. -/
  | mwalk (g : BitVec 4) (d : BitVec 4) (x : BitVec 4) (p : BitVec 4) (c : BitVec 4)
  /-- R257: Loads a 3 KiB metadata register from scratchpad. -/
  | mdld (g : BitVec 4) (k : BitVec 2) (a : BitVec 4) (c : BitVec 4)
  /-- R257: Stores a 3 KiB metadata register to scratchpad. -/
  | mdst (g : BitVec 4) (k : BitVec 2) (a : BitVec 4) (c : BitVec 4)
  /-- R356: Sends an expert selection command block to the Pilot. -/
  | route (g : BitVec 4) (m : BitVec 4) (c : BitVec 4)
  /-- R361: Sends a token-row transmit command block to the Pilot. -/
  | routeTx (g : BitVec 4) (m : BitVec 4) (c : BitVec 4)
  /-- R265: Loads a sign-extended immediate into an m-register. -/
  | mli (g : BitVec 4) (d : BitVec 5) (i : BitVec 16)
  /-- R265: Shifts an m-register left by 16 and inserts an immediate. -/
  | mliu (g : BitVec 4) (d : BitVec 5) (i : BitVec 16)
  /-- R265: M-file register-register integer operation. -/
  | madd (g : BitVec 4) (d : BitVec 5) (a : BitVec 5) (b : BitVec 5) (f : BitVec 6)
  /-- R265: M-file add of an immediate. -/
  | maddi (g : BitVec 4) (d : BitVec 5) (a : BitVec 5) (i : BitVec 11)
  /-- R111: Guarded relative branch. -/
  | br (g : BitVec 4) (o : BitVec 21)
  /-- R111: Relative branch that writes the link register. -/
  | brl (g : BitVec 4) (o : BitVec 21)
  /-- R111: Branch to the address in a c-register. -/
  | brr (g : BitVec 4) (s : BitVec 5)
  /-- R111: Register branch that writes the link register. -/
  | brrL (g : BitVec 4) (s : BitVec 5)
  /-- R103: Starts a hardware loop level with a count and exit. -/
  | lset (g : BitVec 4) (l : BitVec 2) (i : BitVec 1) (k : BitVec 6) (e : BitVec 12)
  /-- R104: Sets a loop level's update-table delta for an a-register. -/
  | lupd (g : BitVec 4) (l : BitVec 2) (a : BitVec 4) (i : BitVec 1) (d : BitVec 14)
  /-- R107: Reads a trim block into loop counts and skip bits. -/
  | ltrim (g : BitVec 4) (s : BitVec 5) (c : BitVec 4)
  /-- R112: Stops the primary's issue; in task mode ends the task. -/
  | halt (g : BitVec 4)
  /-- R113: Boolean operation on guards. -/
  | gop (g : BitVec 4) (d : BitVec 4) (a : BitVec 4) (b : BitVec 4) (f : BitVec 3)
  /-- R114: Loads a sign-extended immediate into a c-register. -/
  | cli (g : BitVec 4) (d : BitVec 5) (i : BitVec 16)
  /-- R115: Copies a control register into a c-register. -/
  | cget (g : BitVec 4) (d : BitVec 5) (n : BitVec 12)
  /-- R115: Writes a c-register into a control register. -/
  | cset (g : BitVec 4) (s : BitVec 5) (n : BitVec 12)
  /-- R118: Creates a child task on its placement-hash target core. -/
  | spawn (g : BitVec 4) (k : BitVec 5) (e : BitVec 5)
  /-- R119: Waits for the oldest outstanding child and takes its return value. -/
  | join (g : BitVec 4) (d : BitVec 5)
  /-- R161: Creates a skiff in the lowest free context and reports success in a guard. -/
  | spawnS (g : BitVec 4) (h : BitVec 4) (e : BitVec 5) (a : BitVec 5) (m : BitVec 3)
  /-- R116: Raises a trap-instruction fault carrying an immediate. -/
  | trap (g : BitVec 4) (i : BitVec 16)
  /-- R313: Puts a word into a scalar channel's send buffer. -/
  | chw (g : BitVec 4) (e : BitVec 5) (s : BitVec 5)
  /-- R313: Channel send that first waits for all earlier accesses, a release. -/
  | chwRel (g : BitVec 4) (e : BitVec 5) (s : BitVec 5)
  /-- R314: Pops the head word of a scalar channel's receive buffer. -/
  | chr (g : BitVec 4) (d : BitVec 5) (e : BitVec 5)
  /-- R314: Channel receive acting as an acquire. -/
  | chrAcq (g : BitVec 4) (d : BitVec 5) (e : BitVec 5)
  /-- R319: Arrives at a barrier and waits for its completion. -/
  | barSync (g : BitVec 4) (b : BitVec 4) (s : BitVec 3)
  /-- R319: Arrives at a barrier without waiting. -/
  | barArr (g : BitVec 4) (b : BitVec 4) (s : BitVec 3)
  /-- R319: Waits for completion of the core's last barrier arrival. -/
  | barWait (g : BitVec 4) (b : BitVec 4) (s : BitVec 3)
  /-- R322: Contributes to a collective sum, max, min or gather at a scope. -/
  | coll (g : BitVec 4) (d : BitVec 5) (s : BitVec 5) (n : BitVec 5) (p : BitVec 3) (o : BitVec 2)
  /-- R325: Sends a MAX combining packet. -/
  | cmbxMax (g : BitVec 4) (p : BitVec 5) (h : BitVec 5)
  /-- R325: Sends a MERGE64 combining packet. -/
  | cmbxMerge (g : BitVec 4) (p : BitVec 5) (h : BitVec 5)
  /-- R325: Arms an owner combining group for a MAX round. -/
  | cmbxArmmax (g : BitVec 4) (p : BitVec 5) (h : BitVec 5)
  /-- R325: Arms an owner combining group for a MERGE64 round. -/
  | cmbxArmmerge (g : BitVec 4) (p : BitVec 5) (h : BitVec 5)
  /-- R343: Opens a sequence record with grammar and stop-set images. -/
  | sqOpen (g : BitVec 4) (b : BitVec 5) (c : BitVec 4)
  /-- R344: Appends an accepted token node at TIP. -/
  | sqFeed (g : BitVec 4) (b : BitVec 5) (c : BitVec 4)
  /-- R344: Accepts a draft node and its draft ancestors. -/
  | sqFeedAcc (g : BitVec 4) (b : BitVec 5) (c : BitVec 4)
  /-- R345: Writes the allowed-token mask after a node. -/
  | sqMask (g : BitVec 4) (b : BitVec 5) (c : BitVec 4)
  /-- R344: Creates a draft child node consuming a token. -/
  | sqFork (g : BitVec 4) (b : BitVec 5) (c : BitVec 4)
  /-- R346: Frees the descendants of an accepted node and sets TIP to it. -/
  | sqRoll (g : BitVec 4) (b : BitVec 5) (c : BitVec 4)
  /-- R351: Local Gumbel sampling over a shard sending one MAX packet. -/
  | sqSampG (g : BitVec 4) (b : BitVec 5) (c : BitVec 4)
  /-- R351: Local top-64 over a shard sending one MERGE64 packet. -/
  | sqSampP (g : BitVec 4) (b : BitVec 5) (c : BitVec 4)
  /-- R352: Finishes a top-p/top-k draw from a MERGE64 result block. -/
  | sqSampFin (g : BitVec 4) (b : BitVec 5) (c : BitVec 4)
  /-- R348: Finalises the path to TIP, releases text and writes a trim block. -/
  | sqCommit (g : BitVec 4) (b : BitVec 5) (c : BitVec 4)
  /-- R347: Frees a draft node with its descendants. -/
  | sqFree (g : BitVec 4) (b : BitVec 5) (c : BitVec 4)
  /-- R347: Closes a sequence record and returns its quota. -/
  | sqFreeRec (g : BitVec 4) (b : BitVec 5) (c : BitVec 4)
  /-- R179: Skiff migrates itself to another core. -/
  | mig (g : BitVec 4) (k : BitVec 5)
  /-- R182: Skiff idles 8 cycles and clears its OWED bit. -/
  | yield (g : BitVec 4)
  /-- R182: Skiff sleeps for a number of cycles. -/
  | snooze (g : BitVec 4) (s : BitVec 5)
  /-- R182: Skiff sleeps until a write to a word or a timeout. -/
  | snoozeW (g : BitVec 4) (s : BitVec 5)
  /-- R182: Skiff retires and frees its context. -/
  | sexit (g : BitVec 4)
  /-- R371: Helm reads a launch record and begins launching a sailing. -/
  | sail (g : BitVec 4) (l : BitVec 5) (s : BitVec 5)
  /-- R375: Helm waits until a sailing reaches a final state. -/
  | swait (g : BitVec 4) (s : BitVec 5)
  /-- R383: Marks every core of a running sailing for pre-emption. -/
  | preempt (g : BitVec 4) (s : BitVec 5)
  /-- R388: Stops a sailing's partition at once and discards its core engine commands. -/
  | preemptKill (g : BitVec 4) (s : BitVec 5)
  /-- R386: Saves a halted sailing's context into a shadow slot. -/
  | ctxsv (g : BitVec 4) (s : BitVec 5) (n : BitVec 1)
  /-- R387: Restores a saved sailing and resumes its clock. -/
  | ctxld (g : BitVec 4) (s : BitVec 5) (n : BitVec 1)
  /-- R382: Removes the next request chosen by the queue policy. -/
  | qpop (g : BitVec 4) (b : BitVec 5)
  /-- R380: Appends a request to a queue. -/
  | qpush (g : BitVec 4) (q : BitVec 5) (b : BitVec 5)
  /-- R379: Configures a queue's attributes. -/
  | qpushCfg (g : BitVec 4) (q : BitVec 5) (b : BitVec 5)
  /-- R393: Copies a parameter block's header and current slot into a capture record. -/
  | pgenCap (g : BitVec 4) (p : BitVec 5) (d : BitVec 5)
  /-- R393: Publishes the staging slot into the current slot and bumps GEN. -/
  | pgenPub (g : BitVec 4) (p : BitVec 5)
  /-- R389: Starts a translation shootdown for a sailing. -/
  | tlbm (g : BitVec 4) (s : BitVec 5) (a : BitVec 5)
  /-- R391: Writes the overflow table given to later launches. -/
  | ovfld (g : BitVec 4) (v : BitVec 5)
  /-- R391: Writes the helm's own overflow table. -/
  | ovfldSelf (g : BitVec 4) (v : BitVec 5)
  /-- R109: LCNT reaches LANDB and the bundle due that cycle raises the landing-overdue fault. -/
  | landingOverdue (p : Nat)
  /-- R106: A bundle whose skip bit is set passes its cycle with no slot effect. -/
  | bundleSkip (p : Nat)
  /-- R397: A stalled bundle whose wait has been satisfied issues and its stall run ends. -/
  | stallEnd (p : Nat)
  /-- R86: A primary or helm bundle issues, its slot operations and header actions taking effect together. -/
  | bundleIssue (p : Nat)
  /-- R404: A core stops before a breakpoint or requested bundle and posts code 0x0D. -/
  | debugStopTaken (p : Nat)
  /-- R171: A skiff's local scratchpad access requests its port one cycle after the grant. -/
  | skiffPortRequest (p : Nat) (j : Nat)
  /-- R165: The barrel grants open A, X and C berths to ready skiffs. -/
  | skiffBarrelGrant (p : Nat)
  /-- R163: A skiff's fetch buffer is refilled with its next bundle. -/
  | skiffFetch (p : Nat) (j : Nat)
  /-- R167: A granted skiff operation completes and the skiff may become ready. -/
  | skiffOpComplete (p : Nat) (j : Nat)
  /-- R176: A missed skiff-cache line is written and waiting loads and fetches proceed. -/
  | skiffCacheFill (p : Nat)
  /-- R175: A skiff TLB miss's walk result arrives. -/
  | skiffTlbWalkResult (p : Nat) (j : Nat)
  /-- R179: A migrating skiff packs its image into an outbound slot and frees its context. -/
  | migrationPack (p : Nat) (j : Nat)
  /-- R178: A migration message arrives and is installed, queued in the inbox or refused. -/
  | migrationMessage (p : Nat)
  /-- R180: A refused image is sent again 64 cycles later. -/
  | migrationResend (p : Nat)
  /-- R183: After the primary halts and all skiffs retire the skiff cache is written back and the core's part ends. -/
  | corePartEnd (p : Nat)
  /-- R220: The special-function unit serves a queued skiff request and writes its result word. -/
  | sfuRequestServe (p : Nat)
  /-- R190: A sequencer entry starts reading its sources once its start conditions hold. -/
  | vectorEntryStart (p : Nat)
  /-- R190: A sequencer entry's last write performs and the entry leaves. -/
  | vectorEntryComplete (p : Nat)
  /-- R135: The stream unit reads the next elements of a bound port's walk. -/
  | streamPortRefill (p : Nat)
  /-- R235: A queued array command starts once its start conditions hold. -/
  | arrayCommandStart (q : Nat)
  /-- R258: A macro command runs its next gather, latch and product step. -/
  | macroKStep (q : Nat)
  /-- R235: An array command's last write performs. -/
  | arrayCommandComplete (q : Nat)
  /-- R226: At a lease boundary the array grants the lease to the next requesting core. -/
  | leaseGrant (q : Nat)
  /-- R257: An mdld's 3 KiB block lands in its metadata register. -/
  | mdldWrite (p : Nat)
  /-- R257: The 64-byte chunk writes of an mdst perform in scratchpad over the 48 cycles after its issue, and its last chunk write releases the primary accesses held under R34 and R268. -/
  | mdstComplete (p : Nat)
  /-- R272: A queued watermark refill command starts and resets its ring. -/
  | refillStart (p : Nat) (n : Nat)
  /-- R272: Refilled ring elements are written and the watermark advances. -/
  | watermarkAdvance (p : Nat) (n : Nat)
  /-- R274: A refill stops on a failed translation or poisoned word and marks the channel faulted. -/
  | refillFault (p : Nat) (n : Nat)
  /-- R279: A Lighter accepts an arriving command message. -/
  | lighterAccept (l : Nat)
  /-- R279: A Lighter starts a command and resolves its handle destination. -/
  | lighterStart (l : Nat)
  /-- R281: A Lighter command's last write performs. -/
  | lighterComplete (l : Nat)
  /-- R307: A residue slot grants the waiting flits by rank and age. -/
  | residueSlot (d : Nat)
  /-- R126: A remote scratchpad access is granted and performs at the target's port. -/
  | remoteAccessPerform (p : Nat)
  /-- R126: The reply of a remote access returns to its issuer. -/
  | remoteReply (p : Nat)
  /-- R310: At each 1,024-cycle boundary the purses are refilled. -/
  | tollPeriodBoundary (p : Nat)
  /-- R313: At a channel's scheduled slot the oldest words leave within the credits. -/
  | channelSlot (sn : Nat) (c : Nat)
  /-- R303: A flit reaches the end of its route at its stated cycle. -/
  | flitDelivery (sn : Nat)
  /-- R323: A collective's result is written at each participant. -/
  | collectiveComplete (sn : Nat)
  /-- R326: A combining packet reaches a router or owner and is combined or dropped. -/
  | combiningPacket (sn : Nat)
  /-- R341: The sequence engine executes a command and writes RESULT then DONE. -/
  | sqCommandComplete (d : Nat)
  /-- R354: The Pilot completes a command and writes RESULT then DONE. -/
  | routeComplete (d : Nat)
  /-- R363: A token row arrives and is counted as bad, stale or written. -/
  | tokenRowArrival (d : Nat)
  /-- R383: The pre-emption mark reaches a core. -/
  | preemptMark (p : Nat)
  /-- R85: A missed segment is read and expanded and issue resumes. -/
  | segmentMiss (p : Nat)
  /-- R84: The prefetch engine finishes expanding the next segment into the other loop-buffer half. -/
  | segmentPrefetch (p : Nat)
  /-- R98: A result of latency L lands in its bound physical register at the end of its cycle. -/
  | resultLanding (p : Nat)
  /-- R127: A load-queue entry is filled when its data lands. -/
  | lqFill (p : Nat)
  /-- R398: A queued drift record drains to the core's drift ring. -/
  | driftRecordDrain (p : Nat)
  /-- R21: A page-table walker completes or fails a translation. -/
  | pageWalk (d : Nat)
  /-- R295: A copy queue passes its translation marker. -/
  | markerPass (d : Nat)
  /-- R294: A die whose retained-line limit is reached starts a shootdown of its own. -/
  | dieShootdown (d : Nat)
  /-- R303: The pod measures its links and sets delay lines, LATR and HLAT. -/
  | linkAlignment (latr : Nat) (hlat : Nat)
  /-- R304: A sender resends a flit in the next slack slot of the lane. -/
  | flitResend (sn : Nat)
  /-- R304: A receiver without a good copy at stated cycle minus HLAT requests a hold. -/
  | holdRequest (h : Nat)
  /-- R305: Every Timetable clock of the pod freezes for the hold length. -/
  | holdFreeze
  /-- R305: A freeze ends and every sailing core writes a hold drift record. -/
  | holdFreezeEnd
  /-- R311: At a thermal or power limit the power manager lowers REFILL and RESV. -/
  | powerLimit (k : Nat) (refill : Nat) (resv : Nat)
  /-- R313: Channel words arrive in the reader's receive buffer. -/
  | channelWordArrival (sn : Nat) (c : Nat)
  /-- R313: A popped word's credit returns to the writer. -/
  | creditReturn (sn : Nat) (c : Nat)
  /-- R319: An arrival reaches the barrier node and is counted or dropped. -/
  | barrierArrival (sn : Nat)
  /-- R319: A barrier completion reaches a participant and sets DONE. -/
  | barrierCompletion (sn : Nat)
  /-- R327: A Roslys port sends or receives a 15-cycle frame. -/
  | roslysFrame (k : Nat) (r : Nat)
  /-- R410: A Roslys port goes down and sailings spanning it are killed. -/
  | portDown (k : Nat) (r : Nat)
  /-- R331: A helm or host write to the grammar store takes effect for later commands. -/
  | grammarStoreWrite (d : Nat) (o : Nat) (v : Nat)
  /-- R371: A launch loads the partition and starts the sailing at its cycle 0. -/
  | sailingStart (sn : Nat)
  /-- R373: A sailing whose cores, commands and rounds have finished becomes done. -/
  | sailingDone (sn : Nat)
  /-- R384: The sailing's clock stops when every core has halted and flits are delivered. -/
  | stopCycle (sn : Nat)
  /-- R388: A killed sailing becomes STATE 8 and frees its quads, lanes and carve-out. -/
  | killComplete (sn : Nat)
  /-- R381: At each budget period boundary every queue's USED returns to 0. -/
  | budgetPeriodBoundary (d : Nat)
  /-- R368: A host word arrives in a helm inbound channel or is dropped. -/
  | hostChannelWrite (u : Nat) (e : Nat) (v : Nat)
  /-- R409: A host read pops a word from a helm outbound endpoint. -/
  | hostOutboundRead (u : Nat) (e : Nat)
  /-- R409: A host read of offset 0x218 pops the die's head fault record. -/
  | hostFaultPop (d : Nat)
  /-- R400: A write of a monitor configuration clears that monitor. -/
  | mcfgWrite (p : Nat) (n : Nat) (v : Nat)
  /-- R399: A write of LMSEL selects a lane and clears LMOFFER and LMUSED. -/
  | lmselWrite (d : Nat) (v : Nat)
  /-- R402: A write that sets ARM starts recording and clears DONE and WAKELAST. -/
  | wakectlWrite (d : Nat) (v : Nat)
  /-- R402: The wake recorder's window ends and DONE is set. -/
  | wakeDone (d : Nat)
  /-- R403: A DBGCTL write of STOP requests a debug stop. -/
  | dbgStop (p : Nat)
  /-- R404: A DBGCTL write of GO resumes a stopped core and writes a debug drift record. -/
  | dbgGo (p : Nat)
  /-- R403: A DBGCTL write of STEP with GO issues one bundle and stops again. -/
  | dbgStep (p : Nat)
  /-- R414: A CLKSEL write marks a clock change pending pod-wide. -/
  | clkselWrite (k : Nat) (v : Nat)
  /-- R414: A pending clock change takes effect once no sailing is live and the pod realigns. -/
  | clockChange
  /-- R412: A package reset stops every sailing, zeroes SRAM and registers and reboots. -/
  | packageReset (k : Nat)
  /-- R411: An RSTCTL write reboots from the image at BOOTADDR. -/
  | reboot (k : Nat)
  /-- R411: The boot ROM checks the firmware image and starts the helms or sets CODE. -/
  | boot (k : Nat)
  /-- R411: A write of 1 to ATTGO starts signing the nonce and measurements. -/
  | attgoWrite (k : Nat) (v : Nat)
  /-- R411: The attestation signature becomes valid and ATTGO reads 0. -/
  | attestationSigned (k : Nat)
  /-- R408: A control-space write to a register with no behaviour of its own. -/
  | controlRegisterWrite (o : Nat) (v : Nat)
  /-- R416: The background scrubber reads an SRAM word in an idle port cycle and corrects it. -/
  | scrub (o : Nat) (b : Nat)
  /-- R416: HBM is patrol-scrubbed once every 24 hours. -/
  | hbmPatrolScrub (k : Nat)
  /-- R413: At 115 °C junction the package removes its own power. -/
  | thermalShutdown (k : Nat)
  /-- R409: A host PCIe write through BAR 2 or BAR 4 writes device memory, such as page tables, launch images or parameter staging slots; under R294 it may stall until a shootdown completes. -/
  | hostMemoryWrite (k : Nat) (o : Nat) (v : Nat)
  /-- R41: An invalidation that a write sent reaches another die's memory-side cache and removes that die's read-only replica of the line. -/
  | invalidationArrival (d : Nat)
  deriving DecidableEq, Repr

/-- The six slot classes of a bundle, in the order of their words (03 R86). -/
inductive SlotClass where
  | a | x | f | v | m | c
  deriving DecidableEq, Repr

end Sys2Proof
end

