-- ==== Sys2Proof/Machine/State.lean ====
section
/-! DEFINITION. The whole state of the machine as plain data, its faults and refusals, and the state after reset.
Tables hold one record per unit, keyed by the unit's number; a unit that no entry lists is at its reset record. -/

namespace Sys2Proof.Machine

/-- A finite table: keys rise, and a key that is not listed has the reader's default. -/
abbrev Tab (α : Type) := List (Nat × α)

/-- Bytes by address, addresses rising; an unlisted address reads 0, and no listed byte is 0 (DESIGN CHOICE, log 4). -/
abbrev Memory := List Host.Cell

/-- The six slot files a cp can name (03 R92, R102). -/
inductive FileId where
  | a | x | f | m | c | v
  deriving DecidableEq, Repr

/-- Where a result lands: a physical register, a guard, a quarter of a shape record, or a queue entry (03 R98, 04 R127). -/
inductive Dest where
  | a (i : BitVec 5)
  | x (i : BitVec 5)
  | f (i : BitVec 5)
  | m (i : BitVec 4)
  | c (i : BitVec 4)
  | g (i : BitVec 4)
  | h (i : BitVec 4) (q : BitVec 2)
  | lq (entry : Nat)
  | sq (entry : Nat)
  deriving DecidableEq, Repr

/-- A result in flight: the cycle at whose end it lands, the cycle that issued it, its slot, where and what (03 R96, R97). -/
structure Pend where
  due : Nat
  issue : Nat
  slot : Nat
  dest : Dest
  val : Word
  deriving DecidableEq, Repr

/-- A control write that takes effect at the end of its cycle, after the loop-back actions (03 R98); and the effects
of sbind.u (04 R136), and of expect, pub, pub.map, pub.unmap and lxsend.cls (09 R276, R286 to R290). -/
inductive EndAct where
  | lset (level : BitVec 2) (count : Word) (start : Nat)
  | lupd (level : BitVec 2) (reg : BitVec 4) (delta : BitVec 32)
  | ctl (num : Nat) (val : Word)
  | arm (handle tag : Nat)
  | disarm (handle : Nat)
  | pub (entry tag : Nat)
  | map (entry : Nat) (val : Word)
  | unmap (entry : Nat)
  | close (chan : Nat)
  | unbind (port : Nat)
  deriving DecidableEq, Repr

/-- The state of one loop level: start address, active bit, update table (03 R103 to R105). -/
structure Loop where
  start : Nat := 0
  active : Bool := false
  upd : Vector (BitVec 32) 16 := Vector.replicate 16 0
  deriving DecidableEq, Repr

/-- The register files of a primary or a helm core (03 R92 to R94), and the metadata registers (07 R223, R254). -/
structure Files where
  a : Vector Word 32 := Vector.replicate 32 0
  x : Vector Word 32 := Vector.replicate 32 0
  f : Vector Word 32 := Vector.replicate 32 0
  h : Vector (BitVec 256) 16 := Vector.replicate 16 0
  m : Vector Word 16 := Vector.replicate 16 0
  c : Vector Word 16 := Vector.replicate 16 0
  g : Vector Bool 16 := Vector.replicate 16 false
  md : Vector (BitVec 24576) 4 := Vector.replicate 4 0
  deriving DecidableEq, Repr

/-- The exposed pipeline's own state: rotation bases, loops, results in flight, end-of-cycle writes, and the skip bits
as they stood at the end of the last two cycles (03 R93, R98, R105, R106). -/
structure Pipe where
  ab : Nat := 0
  fb : Nat := 0
  xb : Nat := 0
  loops : Vector Loop 4 := Vector.replicate 4 {}
  pend : List Pend := []
  eoc : List EndAct := []
  back : Option (BitVec 2) := none
  sk1 : BitVec 8 := 0
  sk2 : BitVec 8 := 0
  deriving DecidableEq, Repr

/-- An entry of lq or sq: its number and, once filled, its value (04 R127), or the fault that its pop raises (09 R291). -/
structure QEntry where
  id : Nat
  val : Option Word
  bad : Option (Nat × Nat) := none
  deriving DecidableEq, Repr

/-- The load queue, the store queue and the number of the next entry reserved (04 R127). -/
structure Queues where
  lq : List QEntry := []
  sq : List QEntry := []
  nextId : Nat := 0
  deriving DecidableEq, Repr

/-- An expanded bundle: its address, its header and its slot words, an extension word after a two-word slot (03 R86);
whether its words run past the segment's end, and the address of a word of it that could not be read (03 R121). -/
structure Bundle where
  addr : Nat
  hdr : Code
  words : List Code
  overrun : Bool := false
  failed : Option Nat := none
  deriving DecidableEq, Repr

/-- A segment in a loop-buffer half (03 R83, R84). -/
structure Segment where
  addr : Nat
  next : Nat := 0
  stop : Bool := true
  pin : Bool := false
  len : Nat := 0
  badHdr : Bool := false
  failed : Option Nat := none
  bundles : List Bundle := []
  deriving DecidableEq, Repr

/-- Instruction supply: the two loop-buffer halves, the half issuing, the address of the next bundle, whether issue has passed
the last bundle of a segment, and the target of a branch taken by the bundle that is issuing (03 R84, R85, R99). -/
structure Fetch where
  half0 : Option Segment := none
  half1 : Option Segment := none
  side : Bool := false
  pc : Nat := 0
  fell : Bool := false
  taken : Option Nat := none
  deriving DecidableEq, Repr

/-- A run of stalled cycles of one cause (14 R397). -/
structure StallRun where
  cause : Nat
  bundle : Nat
  cycles : Nat
  deriving DecidableEq, Repr

/-- A stream descriptor as read at sbind (04 R133). -/
structure Descriptor where
  base : Nat := 0
  width : Nat := 1
  sx : Bool := false
  conv : Bool := false
  oc : Nat := 0
  strides : List Int := []
  counts : List Nat := []
  deriving DecidableEq, Repr

/-- The halves that an engine command keeps to (01 R44, 09 R288): for each handle it has accessed, by its core and entry, whether half 1 is the
half that it reads; it writes the other. -/
abbrev Halves := List (Nat × Nat × Bool)

/-- A stream port: the bound register, the walk, the next element to read from scratchpad and to deliver,
the elements kept ahead of the reads, the captured bank formats, the cycle of the sbind, and the halves it keeps to (04 R132 to R136). -/
structure Port where
  bound : Bool := false
  file : FileId := .x
  reg : BitVec 5 := 0
  desc : Descriptor := {}
  total : Nat := 0
  fetched : Nat := 0
  popped : Nat := 0
  buf : List Word := []
  bfmt : Vector Word 8 := Vector.replicate 8 1
  at_ : Nat := 0
  seq : Nat := 0
  expects : List (Nat × Nat) := []
  fault : Option (Nat × Nat) := none
  baddr : Nat := 0
  word : Code := 0
  halves : Halves := []
  deriving DecidableEq, Repr

/-- Where a flit begins or ends (10 R297, R307): at a core, at another unit of a die, or at a package's host link. -/
inductive Site where
  | core (p : Nat)
  | die (d : Nat)
  | host (k : Nat)
  deriving DecidableEq, Repr

/-- A flit that residue slots carry (10 R307): how many of its links it has passed, whether it is at the end of its way, the lane on which its last copy was
garbled (R304), the WALL cycle from which it waits, and that in which it last passed a link. -/
structure Transit where
  hop : Nat := 0
  there : Bool := false
  lost : Option Nat := none
  at_ : Nat := 0
  last : Nat := 0
  deriving DecidableEq, Repr

/-- What a remote scratchpad access does when it performs (04 R126, R138, R140). -/
inductive RemoteOp where
  | load
  | store (v : Word)
  | amo (op : Nat) (b : Word) (new : Word)
  | flagRead
  | flagWrite (v : Word)
  deriving DecidableEq, Repr

/-- The sub-bank words that a unit has accessed: core, word, and whether it wrote. Further accesses of one of these words in the cycle are part of the one that
has the port (06 R192). -/
abbrev Held := List (Nat × Nat × Bool)

/-- A remote access of a core: its class (16 for a flag operation, which has none of its own), the physical address, its width, what it does, the lq entry it fills,
the expected tag it carries (09 R290), the earliest cycle of the fill, its number among the engine commands of its core, the WALL cycle in which it was sent, its
way to its home, and once it has performed that of its reply (10 R307), the WALL cycle in which it came to its home's port, where it lost (04 R123), and its
result, or the fault of its reply, once performed. -/
structure Remote where
  oc : Nat
  pa : Nat
  width : Nat
  op : RemoteOp
  entry : Option Nat
  tag : Option (Nat × Nat)
  due : Nat
  seq : Nat := 0
  at_ : Nat := 0
  way : Transit := {}
  asked : Option Nat := none
  result : Option Word := none
  bad : Option (Nat × Nat) := none
  deriving DecidableEq, Repr

/-- The engine that runs a command (01 R25). A macro command of the array that has started is marked `stepping` (07 R262). -/
inductive Engine where
  | vector | array | stepping | stream | lighter | collective | metadata | sequence | pilot
  deriving DecidableEq, Repr

/-- The elements that a copy command reads, or writes, one by one (09 R273, R281): the bit address of element 0, the elements' width and
dimensions, how many there are and how many have performed, how many are written together, and the scratchpads that they lie in: the first
address of each and the name of its first byte. -/
structure Elements where
  bit : Int
  width : Nat
  dims : List (Nat × Int)
  total : Nat
  done : Nat := 0
  group : Nat := 1
  parts : List (Nat × Nat)
  deriving DecidableEq, Repr

/-- The elements that a Lighter command writes to a handle whose entry is not mapped yet (09 R281, R286): the home core, the entry, the offset in the
buffer, the used dimensions (counts and byte strides), and whether the command converts. -/
structure HandleWalk where
  core : Nat
  entry : Nat
  ofs : Nat
  counts : List Nat
  strides : List Int
  conv : Bool
  deriving DecidableEq, Repr

/-- An engine command that has not completed: its number, engine, class, and the byte ranges [lo, hi) that it reads and writes and
that have not performed (01 R34, 09 R286), with the elements of a copy command and what it will write to an unmapped handle; and all that it reads. A scratchpad byte is named by its core's base plus its
program address, so that a buffer handle's two halves are one buffer here. -/
structure Flight where
  id : Nat
  engine : Engine
  oc : Nat
  reads : List (Nat × Nat)
  writes : List (Nat × Nat)
  source : Option Elements := none
  sink : Option Elements := none
  area : List (Nat × Nat) := []
  handle : Option HandleWalk := none
  deriving DecidableEq, Repr

/-- What an engine command captures at issue (02 R53, R80; 06 R188). -/
structure Capture where
  bfmt : Vector Word 8 := Vector.replicate 8 1
  srctl : Word := 0
  ovf : Word := 0
  detl : Word := 0
  seed : Word := 0
  lid : Nat := 0
  qcount : Nat := 0
  deriving DecidableEq, Repr

/-- A write that a command will perform: physical address, the bits of the first byte below the field, the field's width and value,
and whether it poisons the words it touches (15 R415). -/
structure Wr where
  pa : Nat
  sh : Nat := 0
  w : Nat
  val : Nat
  poison : Bool := false
  deriving DecidableEq, Repr

/-- A quire register: n of its width 16n, its word, its poison mark (06 R212). -/
structure VQuire where
  n : Nat := 8
  val : Nat := 0
  poison : Bool := false
  deriving DecidableEq, Repr

/-- A pushed entry as the template record keeps it: the operation, its shape records and its captured state (06 R216). -/
structure VTemplate where
  op : Instr
  hd : BitVec 256
  h1 : BitVec 256
  h2 : BitVec 256
  cap : Capture
  deriving DecidableEq, Repr

/-- An element that an execution has read: its operand (1 s1, 2 s2, 3 the old destination), its index, its stored bits and its poison (06 R190). -/
structure Got where
  opn : Nat
  n : Nat
  raw : Nat
  poison : Bool
  deriving DecidableEq, Repr

/-- One execution of a sequencer entry (06 R188 to R190): its command number; whether it is its entry's last execution; the operation,
records, captured state and repetition; the pushing bundle and word; its class; the hulls it reads and writes; the tag checks it
consumed; its nominal start, busy time, depth and rate; the cycle in which it started and the quire register as it then was; how many of its own cycles
have passed, the elements it has read, and those that it has written in the cycle it is in; for chs and chv the flits sent or received, and for chs the
count of its channel's words with which the last one leaves (10 R316, R317); its entry, by the first command, the halves that the entry keeps to, and the delayed
cycles of earlier executions and its own, by which its start comes later (R192). -/
structure VRun where
  id : Nat
  entry : Nat
  last : Bool
  op : Instr
  hd : BitVec 256
  h1 : BitVec 256
  h2 : BitVec 256
  cap : Capture
  rep : Nat
  baddr : Nat
  word : Code
  oc : Nat
  reads : List (Nat × Nat)
  writes : List (Nat × Nat)
  tags : List (Nat × Nat)
  start : Nat
  busy : Nat
  depth : Nat
  rate : Nat
  started : Option Nat := none
  quire : VQuire := {}
  pace : Nat := 0
  got : List Got := []
  put : List Nat := []
  flits : List (BitVec 512) := []
  mark : Nat := 0
  halves : Halves := []
  slip : Nat := 0
  deriving DecidableEq, Repr

/-- The vector sequencer: its executions in push order, the template record (most recent first), and the quire registers (06 R188 to R194). -/
structure Vec where
  runs : List VRun := []
  template : List VTemplate := []
  vq : Vector VQuire 4 := Vector.replicate 4 {}
  deriving DecidableEq, Repr

/-- A step of an array command that waits for ports (04 R123, 07 R236): the words it has been served, the index words of its gather once they are read, and whether
the purse has paid for it (R261). -/
structure StepPart where
  served : Held := []
  index : List Nat := []
  paid : Bool := false
  deriving DecidableEq, Repr

/-- A latch buffer (07 R223, R237): its format tag, its 32 rows (or columns) of 1,536 bits, and for each the elements that are poisoned. -/
structure Latch where
  code : Nat := 0
  scale : Int := 0
  rows : Vector Nat 32 := Vector.replicate 32 0
  bad : Vector Nat 32 := Vector.replicate 32 0
  deriving DecidableEq, Repr

/-- A scratchpad write that an array command is still to perform (07 R235): its cycle, bit address, width, bits and poison, and the anomalies of its encode. -/
structure Put where
  due : Nat
  bit : Nat
  w : Nat
  val : Nat
  poison : Bool := false
  anom : Nat := 0
  deriving DecidableEq, Repr

/-- An accumulator tile (07 R230): first slot, type code, shape code, sticky overflow bit (R248), the bits of its elements by rows (an
element that is not listed is zero), and the positions of poisoned elements. -/
structure Tile where
  first : Nat
  type : Nat := 0
  shape : Nat := 0
  ovf : Bool := false
  elems : List Nat := []
  bad : List Nat := []
  deriving DecidableEq, Repr

/-- A command of a quad's array (07 R224): its number and core, the operation with its captured records, m-registers, metadata and state,
its class, bundle and word, the tag checks it consumed, the hulls it reads and writes as named bytes, the slots (0 to 15) and latch buffers
(16 to 19: A0, A1, B0, B1) that it reads and writes, the cycle of its issue, its nominal
start, busy time and depth (R235); the cycle in which it started, the writes still to perform and the metadata that it brings, the read cycles that have
passed and the tile read so far; the rows of its gathers (R238) and the table entries it has read (R259; none for a bad one); and for a macro command
its entry and step; the first cycle of its next step, the cycle of its completion once known, and the halves it keeps to (R258 to R262); and what a step that
waits for ports has done. -/
structure ACmd where
  id : Nat
  core : Nat
  op : Instr
  recs : List (BitVec 256) := []
  ms : List Word := []
  md : BitVec 24576 := 0
  cap : Capture := {}
  oc : Nat := 16
  baddr : Nat := 0
  word : Code := 0
  tags : List (Nat × Nat) := []
  reads : List (Nat × Nat) := []
  writes : List (Nat × Nat) := []
  uses : List Nat := []
  sets : List Nat := []
  issued : Nat
  nominal : Nat := 0
  busy : Nat := 1
  depth : Nat := 1
  started : Option Nat := none
  puts : List Put := []
  mdw : Option (Nat × BitVec 24576) := none
  stage : Nat := 0
  tile : Option Tile := none
  rows : List (Nat × Nat) := []
  table : List (Option (Nat × Nat × Nat)) := []
  entry : Nat := 0
  step : Nat := 0
  at_ : Nat := 0
  done : Option Nat := none
  halves : Halves := []
  part : StepPart := {}
  deriving DecidableEq, Repr

/-- A quad's matrix array (07 R223 to R227): the last holder of its lease, its tiles, latch buffers and commands in issue order, and the first
cycle in which the next command may start. -/
structure Quad where
  last : Nat := 3
  tiles : List Tile := (List.range 16).map fun i => { first := i }
  a : Vector Latch 2 := Vector.replicate 2 {}
  b : Vector Latch 2 := Vector.replicate 2 {}
  cmds : List ACmd := []
  freeAt : Nat := 0
  deriving DecidableEq, Repr

/-- An mdld or mdst under way (07 R257, R268): its number, direction, register, scratchpad address, class, cycle of issue, the chunks
that have moved and the block's data, its bundle and word, the tag checks it consumed, and the halves it keeps to. -/
structure MdMove where
  id : Nat
  load : Bool
  reg : Nat
  addr : Nat
  oc : Nat
  issued : Nat
  done : Nat := 0
  data : BitVec 24576 := 0
  baddr : Nat := 0
  word : Code := 0
  tags : List (Nat × Nat) := []
  halves : Halves := []
  deriving DecidableEq, Repr

/-- The nominal schedule of a macro command, from which MSEQ is read (07 R260): its number, kind, nominal start, the entry and step it starts at,
its K-steps, the cost of one step and of its store, its entries, and whether it starts with a resumption (R262). -/
structure Plan where
  id : Nat
  kind : Nat
  start : Nat
  entry : Nat := 0
  step : Nat := 0
  steps : Nat
  cost : Nat
  store : Nat
  entries : Nat := 1
  resumed : Bool := false
  deriving DecidableEq, Repr

/-- A skiff's request to the special-function unit (06 R219, R220): context (none once it has retired), form, function, result address, argument, class. -/
structure SfuReq where
  ctx : Option (BitVec 3)
  cr : Bool
  fn : Nat
  raddr : Nat
  arg : Nat
  oc : Nat
  deriving DecidableEq, Repr

/-- A translation held by a TLB, or by a copy command: the page's first virtual and physical address, its size as a power of two, its leaf bits; and for
a failed walk of a copy command, whether it led into control space (15 R408). -/
structure TlbEntry where
  va : Nat
  pa : Nat
  bits : Nat
  rd : Bool
  w : Bool
  x : Bool
  ctl : Bool := false
  deriving DecidableEq, Repr

/-- Where a Lighter command's handle writes go, fixed when it starts (09 R279, R288): the home core, the entry, the physical half's first
scratchpad address, the buffer's first address, its length, and whether the half is half 1. -/
structure HandleDest where
  core : Nat
  entry : Nat
  half : Nat
  base : Nat
  len : Nat
  one : Bool
  deriving DecidableEq, Repr

/-- An element as an engine reads it: its stored bits, its scaled value, its poison, and the anomalies that its decode counts. -/
structure Elt where
  raw : Nat
  val : Val
  poison : Bool := false
  anom : Nat := 0
  deriving DecidableEq, Repr

/-- A copy command: a Lighter copy or a watermark refill (09 R276 to R283). Its number, sender and the sender's sailing, its layout record,
captured state, root table and window; the pushing bundle and word; the tag checks it consumed; how many markers stood ahead of it
in its queue (R293) and the cycle in which it was sent; how far it has come; the formats of the other cores, by logical core id, that its elements may lie in; its destination handle; the
translations that it has; the halves it keeps to; the way of the flit that carries its next elements, or the walk that they need, across links (10 R307); the carve-out's banks (13 R378); the
elements of an I4O granule that it has read and not written yet (02 R59), whether its next element has been read (04 R122); and, for a refill, whether it follows one that has completed (09 R272). -/
structure CopyCmd where
  id : Nat
  core : Nat
  sailing : Option Nat
  rec_ : BitVec 1024
  cap : Capture
  ptroot : Nat
  spwin : Nat
  baddr : Nat
  word : Code
  tags : List (Nat × Nat)
  marks : Nat
  sent : Nat := 0
  accepted : Bool := false
  started : Bool := false
  done : Nat := 0
  bfs : Tab (Vector Word 8) := []
  dest : Option HandleDest := none
  trs : List TlbEntry := []
  halves : Halves := []
  way : Transit := {}
  carve : BitVec 8 := 0xFF
  got : List Elt := []
  half : Bool := false
  follows : Bool := false
  deriving DecidableEq, Repr

/-- A shootdown under way: for each die its number of markers when the marker was placed, and the dies whose queues have not all passed it
(09 R295). -/
structure Shoot where
  marks : List (Nat × Nat)
  left : List Nat
  deriving DecidableEq, Repr

/-- A watermark channel WMCn (09 R271). -/
structure Wmc where
  act : Bool := false
  rbase : Nat := 0
  rlen : Nat := 0
  filled : Nat := 0
  flt : Bool := false
  faddr : Nat := 0
  deriving DecidableEq, Repr

/-- A publication entry PMAPn (09 R285): addresses and length in 64-byte units. -/
structure Pmap where
  v : Bool := false
  base : Nat := 0
  alt : Nat := 0
  len : Nat := 0
  vis : Bool := false
  tag : Nat := 0
  f0 : Bool := false
  fofs0 : Nat := 0
  f1 : Bool := false
  fofs1 : Nat := 0
  faddr0 : Nat := 0
  faddr1 : Nat := 0
  deriving DecidableEq, Repr

/-- The context and control registers of a core that hold a value of their own (03 R115; resets of 01 R27, 02 R52, 03 R109). -/
structure Ctl where
  detl : Word := 0
  seed : Word := 0
  spwin : Nat := 0
  ptroot : Nat := 0
  ovf : Word := 0
  landb : Nat := 0x1D4C0
  srctl : Word := 0
  fanom : Nat := 0
  qcount : Nat := 0
  lid : Nat := 0
  taskpath : Word := 0
  carve : BitVec 8 := 0xFF
  purse : Nat := 0
  tolls : Nat := 0
  resv : Nat := 0x18000
  refill : Nat := 0x20000
  bfmt : Vector Word 8 := Vector.replicate 8 1
  deriving DecidableEq, Repr

/-- The run state of a core: its sailing and that sailing's cycle, whether it runs, has halted, was marked for pre-emption
or faulted, is stopped (1 for pre-emption, 2 by debug), LCNT, the cycle's issue bookkeeping, the lease state of 07 R225
(0 none, 1 requested, 2 holding, 3 holding until this cycle ends), a remote flag's reply with its fault, the task's children and parent (03 R108 to R120), and the scratchpad ports that
this cycle's accesses have taken (04 R123) with whether one was forfeited, the WALL cycle whose end it last went through, the bytes of the scratchpad that this cycle has written, and the bits that the stream unit has written into its rings (09 R272); the cycle of its halt for pre-emption (13 R384), and whether the
bundle that waits has sent its barrier arrival (10 R319). -/
structure Run where
  sailing : Option Nat := none
  t : Nat := 0
  live : Bool := false
  halting : Bool := false
  halted : Bool := false
  faulted : Bool := false
  ended : Bool := false
  preempt : Bool := false
  stopped : Nat := 0
  lcnt : Nat := 0
  moved : Bool := false
  stall : Option StallRun := none
  stallNow : Bool := false
  tollStall : Bool := false
  lease : Nat := 0
  flag : Option (Word × Option (Nat × Nat)) := none
  children : List (Nat × Option Word) := []
  parent : Option Nat := none
  spawnAt : Option (Nat × Nat) := none
  busy : Bool := false
  allow : Nat := 0
  used : List Nat := []
  ringBits : Nat := 0
  forfeited : Bool := false
  closed : Nat := 0
  wrote : List (Nat × Nat) := []
  haltAt : Nat := 0
  arrived : Bool := false
  deriving DecidableEq, Repr

/-- A monitor (14 R400). -/
structure Monitor where
  cfg : Word := 0
  count : Word := 0
  min : Word := BitVec.allOnes 64
  max : Word := 0
  bins : Vector (BitVec 32) 16 := Vector.replicate 16 0
  deriving DecidableEq, Repr

/-- The drift queue, the drift counters and the monitors of a core (14 R395 to R400), its drift ring (15 R406), and the causes of the drift
records written since the wake recorder last looked, with bit 0 for a fault record (14 R402); the way of the oldest record to the ring (10 R307). -/
structure Observe where
  queue : List Word := []
  drwr : Word := 0
  drdrn : Word := 0
  drlost : Word := 0
  fland : Word := 0
  holdn : Word := 0
  holdcyc : Word := 0
  monitors : Vector Monitor 4 := Vector.replicate 4 {}
  drbase : Nat := 0
  drlen : Nat := 0
  now : BitVec 32 := 0
  way : Transit := {}
  deriving DecidableEq, Repr

/-- What a skiff's scratchpad request does at its port (05 R170 to R172). -/
inductive SkKind where
  | load | store | amo (op : Nat) | ldb (sx : Bool) | stb | facqW | facqT | frel
  deriving DecidableEq, Repr

/-- A skiff's scratchpad request: byte address (bit address for ldb and stb), width in bytes (bits there), operands, destination. -/
structure SkAccess where
  kind : SkKind
  addr : Nat
  width : Nat
  val : Word := 0
  val2 : Word := 0
  dst : BitVec 5 := 0
  scope : Nat := 1
  deriving DecidableEq, Repr

/-- A skiff's access to global memory through the skiff cache (05 R173): sld, sst, or samo with its operation code. -/
inductive SkGlobal where
  | sld | sst | samo (op : Nat)
  deriving DecidableEq, Repr

/-- What an occupied context waits for (05 R163, R167, R171, R175, R176, R179, R182): on its way to another core, whether the dirty lines have been written
back, so that it waits for an outbound slot alone. -/
inductive SkWait where
  | none
  | until (t : Nat)
  | port (a : SkAccess) (t : Nat)
  | walk (k : SkGlobal) (va : Nat) (width : Nat) (val val2 : Word) (dst : BitVec 5)
  | fill (va pa width : Nat) (dst : BitVec 5)
  | home (k : SkGlobal) (pa width : Nat) (val val2 : Word) (dst : BitVec 5)
  | drain (scope : Nat) (mask : BitVec 16) (a : Option SkAccess)
  | snooze (t : Nat)
  | snoozeWord (addr t : Nat)
  | migrate (target : Nat) (flushed : Bool)
  deriving DecidableEq, Repr

/-- A skiff context (05 R159), its fetch buffer (R163) and what an empty one waits for (true: a walk of an address, false: a line), the
cycle of its last grant and the bundle granted, its results in flight, its barrel bits (R165) and the last fault's code (R187); the ways of what its access, and its fetch, sends over the fabric: a walk or a samo (10 R307). -/
structure Skiff where
  occupied : Bool := false
  s : Vector Word 16 := Vector.replicate 16 0
  pc : Nat := 0
  g : Vector Bool 4 := Vector.replicate 4 false
  cmask : BitVec 3 := 0
  home : Nat := 0
  migs : Nat := 0
  buf : Option Bundle := none
  fetchAt : Nat := 0
  fetchWait : Option (Bool × Nat) := none
  granted : Nat := 0
  wait : SkWait := .none
  last : Option Bundle := none
  landS : List (BitVec 5 × Word) := []
  landG : List (BitVec 4 × Bool) := []
  owed : Bool := false
  owedAt : Nat := 0
  lastf : Nat := 0
  way : Transit := {}
  fetchWay : Transit := {}
  deriving DecidableEq, Repr

/-- The counters of one context slot (05 R186). -/
structure SkCount where
  a : Word := 0
  x : Word := 0
  c : Word := 0
  forfeit : Word := 0
  miss : Word := 0
  deriving DecidableEq, Repr

/-- A line of the skiff cache: its physical line number, its bytes, which are valid and which are dirty (05 R174), and its poisoned words. -/
structure Line where
  line : Nat
  data : BitVec 512
  valid : BitVec 64
  dirty : BitVec 64
  bad : BitVec 8 := 0
  deriving DecidableEq, Repr

/-- A skiff as it travels: its image of 144 bytes (05 R177). -/
abbrev Image := BitVec 1152

/-- A migration message in an outbound slot (05 R178 to R180): its 192 bytes, the ways of its three flits (10 R307), and when it was refused. -/
structure Message where
  bits : BitVec 1536
  ways : List Transit := List.replicate 3 {}
  refusedAt : Option Nat := none
  deriving DecidableEq, Repr

/-- What a cget finds that the events of a cycle change, as one value: the barrel's counters (05 R186: those of the context slots, berths opened and granted,
forfeits, migrations, misses and lines written back) and the states of the contexts (R187), TOLLP, FANOM, LCNT and TASKPATH (03 R115); and whether the primary was
idle or halted (05 R164). -/
structure Counts where
  cnt : Vector SkCount 8 := Vector.replicate 8 {}
  openB : Vector Word 3 := Vector.replicate 3 0
  usedB : Vector Word 3 := Vector.replicate 3 0
  forfeit : Word := 0
  migOut : Word := 0
  migIn : Word := 0
  migWait : Word := 0
  tlbMiss : Word := 0
  cacheMiss : Word := 0
  wbLines : Word := 0
  states : Vector Word 8 := Vector.replicate 8 0
  purse : Nat := 0
  fanom : Nat := 0
  lcnt : Nat := 0
  taskpath : Word := 0
  idle : Bool := false
  deriving DecidableEq, Repr

/-- The barrel of a core: contexts, slot counters, shared counters (and what a cget found when the cycle began), cache (most recent first), line fills, TLB (most recent first),
inbox and outbound slots (05 R159 to R187). -/
structure Barrel where
  ctx : Vector Skiff 8 := Vector.replicate 8 {}
  cnt : Vector SkCount 8 := Vector.replicate 8 {}
  openB : Vector Word 3 := Vector.replicate 3 0
  usedB : Vector Word 3 := Vector.replicate 3 0
  forfeit : Word := 0
  migOut : Word := 0
  migIn : Word := 0
  migWait : Word := 0
  tlbMiss : Word := 0
  cacheMiss : Word := 0
  wbLines : Word := 0
  before : Counts := {}
  berths : BitVec 3 := 0
  cache : List Line := []
  fills : List Nat := []
  tlb : List TlbEntry := []
  inbox : List Image := []
  out : List Message := []
  deriving DecidableEq, Repr

/-- A channel of a sailing's Timetable (10 R301) with its buffers: the phases of its slots on the writer's injection lanes (R313),
the send buffer with the cycles in which words entered, words under way and received with their arrival cycles, the writer's credits,
the cycles at whose end credits return, and how many words have left. -/
structure Chan where
  wcore : Nat
  wep : Nat
  rcore : Nat
  rep : Nat
  bulk : Bool := false
  width : Nat := 0
  depth : Nat := 8
  route : Nat := 1
  slots : List Nat := []
  send : List (Nat × BitVec 512) := []
  air : List (Nat × BitVec 512) := []
  recv : List (Nat × BitVec 512) := []
  credits : Nat := 8
  back : List Nat := []
  gone : Nat := 0
  deriving DecidableEq, Repr

/-- A flit whose CRC a receiver found bad (10 R304): the link and the lane that it left by, its channel, its contents, the cycle in which it left by that link, the
cycle at whose end it is due, and whether a hold has been requested for it. -/
structure Retry where
  key : Nat
  lane : Nat
  chan : Nat
  flit : BitVec 512
  since : Nat
  due : Nat
  asked : Bool := false
  deriving DecidableEq, Repr

/-- A barrier node: its scope, the instance, the barrier's number, GEN and the arrival count (10 R318). -/
structure BarNode where
  scope : Nat
  inst : Nat
  b : Nat
  gen : Nat := 0
  count : Nat := 0
  deriving DecidableEq, Repr

/-- A barrier message under way: the cycle at whose end it arrives, and for a completion the core it goes to (10 R319). -/
structure BarMsg where
  due : Nat
  scope : Nat
  inst : Nat
  b : Nat
  gen : Nat
  core : Nat
  deriving DecidableEq, Repr

/-- A participant's coll: its core, command number, operands, class, captured state, bundle and word (10 R322, R324); the ways of the flits of its data (R307), and once it
accesses the scratchpad, how many of its words have had their ports (04 R123). -/
structure CollPart where
  core : Nat
  id : Nat
  op : Nat
  n : Nat
  comp : Nat
  src : Nat
  dst : Nat
  oc : Nat
  cap : Capture
  baddr : Nat
  word : Code
  tags : List (Nat × Nat) := []
  ways : List Transit := []
  served : Option Nat := none
  deriving DecidableEq, Repr

/-- The k-th collective of a scope instance, with the participants that have issued it (10 R323). -/
structure Coll where
  scope : Nat
  inst : Nat
  k : Nat
  parts : List CollPart := []
  deriving DecidableEq, Repr

/-- A combining packet: owner (a logical core id), group, round, mode, count and entries of key and index (10 R325, R326); its sender's rank, logical core id
and place, and its way (R307). -/
structure Packet where
  owner : Nat
  group : Nat
  round : Nat
  merge : Bool
  n : Nat
  items : List (Nat × Nat)
  rank : Nat := 1
  lid : Nat := 0
  src : Site := .die 0
  way : Transit := {}
  deriving DecidableEq, Repr

/-- An owner's combining group: the next round NR, the armed mode, contributions expected and result block, and the packets accepted
for rounds NR and NR + 1 (10 R326); once it writes the block, how many of its words have had their ports (04 R123). -/
structure Group where
  nr : Nat := 0
  armed : Option (Bool × Nat × Nat) := none
  held : List Packet := []
  served : Option Nat := none
  deriving DecidableEq, Repr

/-- What a core did in a cycle, as the wake recorder and the stop cycle see it (14 R401, 13 R384). -/
structure Note where
  cost : Nat := 0
  stall : Nat := 0
  grant : BitVec 3 := 0
  tland : Bool := false
  skip : Bool := false
  iss : Bool := false
  occ : Nat := 0
  deriving DecidableEq, Repr

/-- A core's debug module (14 R403, R404): REASON, STEP, GO and STOP, the two breakpoints, the cycle and bundle of the stop, whether the
bundle that it resumes at has still to issue, whether it stops again after that, and whether the cycle is the last stopped one. That the core is stopped is
Run.stopped = 2. -/
structure Debug where
  reason : Nat := 0
  step : Bool := false
  go : Bool := false
  stop : Bool := false
  brk0 : Nat := 0
  brk1 : Nat := 0
  since : Nat := 0
  addr : Nat := 0
  pass : Bool := false
  stepping : Bool := false
  held : Bool := false
  deriving DecidableEq, Repr

/-- One core: a primary with everything of its own (01 R25). A helm core is held in the same form; it uses files, queues,
fetch, control and run state alone (13 R364). Publications of its handles that its Lighters' commands have performed take effect at the end of the cycle, each an
entry and its tag (09 R283, R288). Fault records that wait for its remote accesses stand with the die that they go to (13 R367). -/
structure Core where
  run : Run := {}
  files : Files := {}
  pipe : Pipe := {}
  queues : Queues := {}
  fetch : Fetch := {}
  ctl : Ctl := {}
  ports : Vector Port 4 := Vector.replicate 4 {}
  remotes : List Remote := []
  posts : List (Nat × BitVec 256) := []
  flight : List Flight := []
  nextFlight : Nat := 0
  wmc : Vector Wmc 8 := Vector.replicate 8 {}
  pmap : Vector Pmap 16 := Vector.replicate 16 {}
  swaps : List (Nat × Nat) := []
  expects : List (Nat × Nat) := []
  tagged : List (Nat × Nat × Nat) := []
  refills : Vector (List CopyCmd) 8 := Vector.replicate 8 []
  stlb : List TlbEntry := []
  vec : Vec := {}
  moves : List MdMove := []
  plans : List Plan := []
  sfu : List SfuReq := []
  bars : Vector (Nat × Nat) 64 := Vector.replicate 64 (0, 0)
  colls : Vector Nat 4 := Vector.replicate 4 0
  groups : Vector Group 16 := Vector.replicate 16 {}
  obs : Observe := {}
  note : Note := {}
  dbg : Debug := {}
  barrel : Barrel := {}
  deriving DecidableEq, Repr

/-- A link record of a Timetable image (10 R300): its header's bits, and for each lane from 0 the entries by phase. -/
structure Link where
  key : Nat
  lanes : List (List Nat)
  deriving DecidableEq, Repr

/-- A sailing: its partition in logical order, the helm and status block of its launch, the block's fields (13 R369 to R376), what the
launch captured (R371), its clock, its Timetable (10 R299 to R301) with the links whose lanes it is allotted, its barrier, collective and combining
traffic, the shadow slot that holds it, WALL at its stop cycle, whether it is being killed, whether it is loaded and begins or resumes with the next cycle, and its outstanding shootdowns with the queues that each still has to pass (13 R389, 09 R295);
the flits that have still to be resent (10 R304), the status blocks that it has still to write, each with its WALL cycle (13 R372), and how often its barriers have
been reset (10 R321). -/
structure Sailing where
  quads : List Nat := []
  helm : Nat := 24576
  block : Nat := 0
  sno : Nat := 0
  state : Nat := 8
  cause : Nat := 0
  late : Bool := false
  queue : Nat := 0
  start : Nat := 0
  endW : Nat := 0
  scyc : Nat := 0
  tlbc : Nat := 0
  faults : Nat := 0
  retval : Word := 0
  task : Bool := false
  t : Nat := 0
  running : Bool := false
  entry : Nat := 0
  ptroot : Nat := 0
  spwin : Nat := 0
  image : Nat := 0
  ttbl : Nat := 0
  qlist : Nat := 0
  nquads : Nat := 0
  landb : Nat := 0x1D4C0
  tollr : Nat := 0
  rootarg : Nat := 0
  deadline : Nat := 0
  seed : Word := 0
  ovf : Word := 0
  level : Nat := 0
  redir : Bool := false
  carve : BitVec 8 := 0xFF
  period : Nat := 1
  hlat : Nat := 0
  latr : Nat := 0
  links : List Link := []
  chans : List Chan := []
  nodes : List BarNode := []
  arrivals : List BarMsg := []
  completions : List BarMsg := []
  colls : List Coll := []
  packets : List Packet := []
  slot : Option Nat := none
  stopW : Nat := 0
  killed : Bool := false
  loaded : Bool := false
  shoots : List Shoot := []
  retries : List Retry := []
  blocks : List (Nat × List Nat) := []
  genUp : Nat := 0
  saved : Tab Core := []
  savedQuads : Tab Quad := []
  deriving DecidableEq, Repr

/-- The attributes of a queue (13 R379). -/
structure QAttr where
  conf : Bool := false
  tier : Nat := 0
  level : Nat := 0
  redir : Bool := false
  deadline : Nat := 0
  budget : Nat := 0
  deriving DecidableEq, Repr

/-- A queue of a die (13 R379 to R381): its attributes, those that it had before the WALL cycle in which they were last set, USED, and its requests
(launch record, status block, deadline), oldest first. -/
structure Queue where
  attr : QAttr := {}
  old : QAttr := {}
  setAt : Nat := 0
  used : Nat := 0
  fifo : List (Word × Word × Nat) := []
  deriving DecidableEq, Repr

/-- A die's wake recorder (14 R402): WAKECTL's fields, WAKELAST, the sailing that it follows, and the cycle after the last one that mode 1
records, once triggered. Its entries lie in the memory. -/
structure Wake where
  start : Nat := 0
  trig : Nat := 0
  mode : Bool := false
  done : Bool := false
  arm : Bool := false
  quad : Nat := 0
  last : Nat := 0
  sailing : Option Nat := none
  stop : Option Nat := none
  deriving DecidableEq, Repr

/-- A node of a speculation tree (11 R330): ST, PARENT, TOKEN, DEPTH, the snapshot Q, SP, SCAN, HELD, the marks STOP and EOS, and for a STOP
node the bytes of its text up to the match's end and the match's length. -/
structure SeqNode where
  st : Nat := 0
  parent : Nat := 0
  token : Nat := 0
  depth : Nat := 0
  q : Nat := 0
  sp : Nat := 0
  scan : Nat := 0
  held : Nat := 0
  stop : Bool := false
  eos : Bool := false
  upto : Nat := 0
  mlen : Nat := 0
  deriving DecidableEq, Repr

/-- An open sequence record (11 R329), its owner (R328), its 64 nodes, and its entries of the stack pool: number, symbol, entry below
(R338). The number 0 is the empty stack. -/
structure SeqRec where
  sailing : Option Nat := none
  lid : Nat := 0
  gofs : Nat := 0
  sofs : Option Nat := none
  seqid : Nat := 0
  cgpos : Nat := 0
  step : Nat := 0
  quota : Nat := 0
  hbuf : List Nat := []
  dstate : Bool := true
  fin : Bool := false
  tip : Nat := 0
  nodes : List SeqNode := List.replicate 64 {}
  pool : List (Nat × Nat × Nat) := []
  fresh : Nat := 1
  deriving DecidableEq, Repr

/-- A sequence command that has not completed (11 R339 to R341): its number, core, sailing and logical core id, opcode and variant, block
address, class, captured state, bundle and word, and the context that issued it where it is a skiff's; once it accesses the scratchpad, how many of its words have had
their ports (04 R123). -/
structure SqCmd where
  id : Nat
  core : Nat
  sailing : Option Nat
  lid : Nat
  op : Nat
  variant : Nat
  addr : Nat
  oc : Nat
  cap : Capture
  baddr : Nat
  word : Code
  ctx : Option (BitVec 3) := none
  served : Option Nat := none
  deriving DecidableEq, Repr

/-- A token row under way (12 R361, R363): the sender's sailing, the destination core, the row's address and bytes (header first), and the
arrival block's address; the die that it comes from and its sender's logical core id, the ways of its flits (10 R307), and how many of its words have had their ports. -/
structure TokenRow where
  sailing : Option Nat
  core : Nat
  addr : Nat
  bytes : List Byte
  block : Nat
  src : Nat := 0
  lid : Nat := 0
  ways : List Transit := []
  served : Option Nat := none
  deriving DecidableEq, Repr

/-- Who wrote (01 R41): a core, be it by its primary, a skiff or an engine command, in a class (16 where it has none); the host; or another unit. -/
inductive Writer where
  | core (p oc : Nat)
  | host
  | other
  deriving DecidableEq, Repr

/-- An invalidation in flight: the line, and whose write sent it (01 R41). -/
structure Inval where
  line : Nat
  by_ : Writer := .other
  deriving DecidableEq, Repr

/-- The previous contents of a line of HBM that a helm core or the host has written (09 R294): the line and its bytes before the write, the cycle of the
write, the markers that each die had then placed (none where a die is not listed), and the dies that have dropped it. -/
structure Kept where
  line : Nat
  data : BitVec 512
  at_ : Nat
  marks : Tab Nat := []
  gone : List Nat := []
  deriving DecidableEq, Repr

/-- What the host has sent to the device and has not performed (01 R48): a write of a word of HBM, or a word for an inbound endpoint of helm core u. -/
inductive HostOp where
  | mem (pa v : Nat)
  | word (u e v : Nat)
  deriving DecidableEq, Repr

/-- An error in a word of memory that no read has found (15 R415, R416): the word's number, how many of its bits are wrong, and the WALL cycle of the first. -/
structure Upset where
  word : Nat
  bits : Nat
  at_ : Nat
  deriving DecidableEq, Repr

/-- One die (15 R407, R409; 01 R41): its counters, its host fault buffer, the read-only replicas that its memory-side cache
holds of lines of other dies, the invalidations in flight towards it, the markers placed in its copy queues, the counts of them that followed a marker of
its own (09 R294), the marker of a shootdown of its own; the cycle of the die's reset, the next
sailing number (13 R372), the queues and LASTQ (13 R379 to R382), the wake recorder (14 R402), the sequence engine's open records and its
commands (11 R328, R341), the Pilot's commands (in the same form: variant 0 selects, 1 sends a row) and the rows on their way to the die
(12 R354, R363), and the lane monitor (14 R399): LMSEL, the Timetable cycle from which LMOFFER counts, the cycles since then in which the lane offered
no slot, and LMUSED. -/
structure Die where
  ceSram : Word := 0
  ueSram : Word := 0
  ceHbm : Word := 0
  ueHbm : Word := 0
  poisrd : Word := 0
  lretry : Word := 0
  bardrop : Word := 0
  cmbdrop : Word := 0
  hchdrop : Word := 0
  dlmiss : Word := 0
  faultBuf : List (BitVec 256) := []
  faultLost : Nat := 0
  replicas : List (Nat × BitVec 512) := []
  invals : List Inval := []
  marks : Nat := 0
  ownMarks : List Nat := []
  shoot : Option Nat := none
  zero : Nat := 0
  sno : Nat := 0
  queues : Vector Queue 64 := Vector.replicate 64 {}
  lastq : Nat := 63
  wake : Wake := {}
  records : Tab SeqRec := []
  sq : List SqCmd := []
  pilot : List SqCmd := []
  rows : List TokenRow := []
  lmsel : Word := 0
  lmfrom : Nat := 0
  lmmiss : Nat := 0
  lmused : Word := 0
  deriving DecidableEq, Repr

/-- The context registers that only a helm core has (13 R366), and its host channels, 16 inbound and 16 outbound (13 R368). -/
structure HelmRegs where
  ovfnext : Word := 0
  fring : Word := 0
  fhead : Word := 0
  carve : Vector Word 8 := Vector.replicate 8 0xFF
  inbound : Vector (List Word) 16 := Vector.replicate 16 []
  outbound : Vector (List Word) 16 := Vector.replicate 16 []
  deriving DecidableEq, Repr

/-- The agent whose operation is being executed (01 R25): a primary or a helm core by core number, or context j of core p. -/
inductive Agent where
  | core (p : Nat)
  | skiff (p : Nat) (j : BitVec 3)
  deriving DecidableEq, Repr

/-- Where the executing operation stands: its agent, its bundle's address, its slot and its word (for 03 R121 and branches); and within a bundle of a core, how many
engine commands and remote accesses the core had issued when the bundle began: those that precede the operation in program order. -/
structure Cursor where
  agent : Agent := .core 0
  addr : Nat := 0
  size : Nat := 1
  slot : Nat := 0
  word : Code := 0
  mates : Option (Nat × Nat) := none
  deriving DecidableEq, Repr

/-- A Roslys Link port (10 R327, 15 R410): UP, its peer, and of the last frame that it sent the number, the number that it
acknowledges, the CRCs of its flits and its six bytes of hold and alignment signalling; and the scheduled flits that its lanes carry: lane, Timetable cycle, contents. -/
structure RPort where
  up : Bool := false
  peer : Nat := 0
  peerPort : Nat := 0
  seq : Nat := 0
  ack : Nat := 0
  flits : List (Nat × Nat × BitVec 512) := []
  crcs : List Nat := []
  signal : BitVec 48 := 0
  deriving DecidableEq, Repr

/-- A package's registers (15 R410, R411, R413): boot state, measurements and attestation, its ports, the power manager's caps on REFILL and RESV
(10 R311) and the Timetable cycle in which they were lowered while the package is above its limit, whether it has removed its own power, and whether it has been reset
since the pod's clock and latencies were last set (R412). -/
structure Package where
  code : Nat := 0xFF
  bootAddr : Nat := 0
  ports : Vector RPort 24 := Vector.replicate 24 {}
  meas : Vector (BitVec 256) 8 := Vector.replicate 8 0
  nonce : BitVec 256 := 0
  signing : Option (BitVec 256) := none
  sig : BitVec 19360 := 0
  idpk : BitVec 10496 := 0
  cap : Option (Nat × Nat) := none
  above : Option Nat := none
  off : Bool := false
  fresh : Bool := false
  deriving DecidableEq, Repr

/-- What the whole pod shares: LATR and HLAT (10 R303), the cycles that no hold has frozen, hold requests with the cycle in which each takes
effect and its length, the freeze under way with its first and last WALL cycle (10 R305), the clock (CLKSEL), a change of it that is
pending with the number of the first sailing that waits for it (15 R414), and the cycles for which the clock stood. -/
structure Pod where
  latr : Nat := 64
  hlat : Nat := 8
  tt : Nat := 0
  holds : List (Nat × Nat) := []
  freeze : Option (Nat × Nat) := none
  clk : Nat := 0
  change : Option (Nat × Nat) := none
  stood : Nat := 0
  deriving DecidableEq, Repr

/-- The whole machine. -/
structure State where
  wall : Nat := 0
  cores : Tab Core := []
  helms : Tab HelmRegs := []
  dies : Tab Die := []
  sailings : Tab Sailing := []
  lighters : Tab (List CopyCmd) := []
  quads : Tab Quad := []
  pkgs : Tab Package := []
  pod : Pod := {}
  nextSailing : Nat := 0
  mem : Memory := []
  poison : List Nat := []
  foreign : List Nat := []
  cur : Cursor := {}
  freeIx : Nat := 0
  moves : List Instr := []
  inputs : List (Nat × Instr) := []
  hostWrites : List HostOp := []
  hostWay : Transit := {}
  upsets : List Upset := []
  kept : List Kept := []
  deriving DecidableEq, Repr

/-- A step stops with a fault only where the package has no power (15 R413, after the thermal shutdown): raised by `step`
itself. Safe: the spec gives the machine no further behaviour there. -/
inductive Fault where
  | powerOff
  deriving DecidableEq, Repr

/-- A step is refused only for an instruction without a meaning, raised by the dispatch. Safe: nothing follows from it. -/
inductive Refusal where
  | notModelled (mnemonic : String)
  deriving DecidableEq, Repr

/-- The machine right after reset (15 R412 and the resets of each register's rule): nothing listed anywhere. -/
def State.reset : State := {}

end Sys2Proof.Machine
end

