-- ==== Sys2Proof/Machine/Ops.lean ====
section
/-! DEFINITION. The named operations: tables, unit numbers, memory, the scratchpad's hidden bits, publication halves,
drift records, fault records and taking a fault. -/

namespace Sys2Proof.Machine

/-! ### Short lists in order -/

/-- An entry put into an ordered list, before the first entry that it need not follow. -/
def insertBy {α : Type} (le : α → α → Bool) (a : α) : List α → List α
  | [] => [a]
  | b :: l => if le a b then a :: b :: l else b :: insertBy le a l

/-- A list in order; entries of equal rank keep their order. -/
def sortBy {α : Type} (le : α → α → Bool) (l : List α) : List α := l.foldr (insertBy le) []


/-! ### Tables -/

/-- The record of unit k, the given default where none is listed. -/
def Tab.get (t : Tab α) (d : α) (k : Nat) : α :=
  match t with
  | [] => d
  | (k', v) :: t => if k = k' then v else Tab.get t d k

/-- The table with the record of unit k replaced. -/
def Tab.set (t : Tab α) (k : Nat) (v : α) : Tab α :=
  match t with
  | [] => [(k, v)]
  | (k', v') :: t' => if k = k' then (k, v) :: t' else if k < k' then (k, v) :: (k', v') :: t' else (k', v') :: Tab.set t' k v

/-- Element i of a list replaced. -/
def setAt (l : List α) (i : Nat) (v : α) : List α := l.take i ++ v :: l.drop (i + 1)

/-! ### Bytes -/

/-- The byte at an address; an address that is not listed reads 0 (DESIGN CHOICE, log 4). -/
def Memory.get (m : Memory) (a : Nat) : Byte :=
  match m with
  | [] => 0
  | (a', b) :: m => if a = a' then b else if a < a' then 0 else Memory.get m a

/-- The memory with one byte written, in its canonical form. -/
def Memory.put (m : Memory) (a : Nat) (b : Byte) : Memory :=
  match m with
  | [] => if b = 0 then [] else [(a, b)]
  | (a', b') :: m' =>
    if a = a' then (if b = 0 then m' else (a, b) :: m')
    else if a < a' then (if b = 0 then (a', b') :: m' else (a, b) :: (a', b') :: m')
    else (a', b') :: Memory.put m' a b

/-- Every listed address is above lo, addresses rise strictly, and no listed byte is 0. -/
def Memory.wfFrom (lo : Nat) : Memory → Bool
  | [] => true
  | (a, b) :: m => decide (lo ≤ a) && decide (b ≠ 0) && Memory.wfFrom (a + 1) m

/-- The canonical form of a memory. -/
def Memory.wf (m : Memory) : Bool := Memory.wfFrom 0 m

/-- n bytes from an address, little-endian (00 R3). -/
def Memory.read (m : Memory) (a : Nat) : Nat → Nat
  | 0 => 0
  | n + 1 => (m.get a).toNat + 256 * Memory.read m (a + 1) n

/-- The low n bytes of v at an address, little-endian (00 R3). -/
def Memory.write (m : Memory) (a : Nat) (v : Nat) : Nat → Memory
  | 0 => m
  | n + 1 => Memory.write (m.put a (BitVec.ofNat 8 v)) (a + 1) (v / 256) n

/-- A set of word numbers, rising. -/
def insWord (l : List Nat) (w : Nat) : List Nat :=
  match l with
  | [] => [w]
  | w' :: l' => if w = w' then w' :: l' else if w < w' then w :: w' :: l' else w' :: insWord l' w

/-- A word number taken out of a set. -/
def delWord (l : List Nat) (w : Nat) : List Nat :=
  match l with
  | [] => []
  | w' :: l' => if w = w' then l' else w' :: delWord l' w

/-- The numbers of the 8-byte words that n bytes at an address touch. -/
def wordsOf (a n : Nat) : List Nat := (List.range ((a % 8 + n + 7) / 8)).map (· + a / 8)

/-! ### Unit numbers

A primary's core number is 384 × package + 96 × die + core index, so that its quad is number ÷ 4 and its die number ÷ 96
(01 R22); helm cores follow from helmBase, two to a die. -/

/-- The number of the first helm core. -/
def helmBase : Nat := 24576

/-- Whether a core number names a helm core. -/
def isHelm (p : Nat) : Bool := decide (helmBase ≤ p)

/-- The quad of a primary. -/
def quadOf (p : Nat) : Nat := p / 4

/-- The die of a core, counted over the pod. -/
def dieOf (p : Nat) : Nat := if isHelm p then (p - helmBase) / 2 else p / 96

/-- The package of a core. -/
def pkgOf (p : Nat) : Nat := dieOf p / 4

/-- The first physical address of a package. -/
def pkgBase (k : Nat) : Nat := k * 0x400000000000

/-- The first physical address of a die's control space (15 R405). -/
def dieBase (d : Nat) : Nat := pkgBase (d / 4) + 0x3F0000000000 + d % 4 * 0x40000000

/-- The first physical address of a core's scratchpad (01 R22), or of its die's helm scratchpad (15 R405). -/
def spadBase (p : Nat) : Nat :=
  if isHelm p then dieBase (dieOf p) + 0x2000000 else pkgBase (p / 384) + 0x300000000000 + p % 384 * 0x800000

/-- The bytes of a core's scratchpad. -/
def spadSize (p : Nat) : Nat := if isHelm p then 0x200000 else 0x800000

/-- The core whose scratchpad holds a physical address. -/
def spadOwner (pa : Nat) : Option Nat :=
  let o := pa % 0x400000000000
  if 0x300000000000 ≤ o ∧ o < 0x30C000000000 then some (pa / 0x400000000000 * 384 + (o - 0x300000000000) / 0x800000) else none

/-- Whether a physical address is populated (01 R22), by its place in its package. Of the addresses of package positions at which no package is wired the spec
says nothing: they count as those of a package (DESIGN CHOICE, log 69). -/
def populated (pa : Nat) : Bool :=
  let o := pa % 0x400000000000
  decide (pa < 0x10000000000000) &&
    (decide (o < 0xB2D05E0000) || (decide (0x300000000000 ≤ o) && decide (o < 0x30C000000000)) ||
      (decide (0x3F0000000000 ≤ o) && decide (o < 0x3F0100000000)))

/-- Whether a physical address lies in control space. -/
def isControl (pa : Nat) : Bool :=
  let o := pa % 0x400000000000
  decide (0x3F0000000000 ≤ o) && decide (o < 0x3F0100000000)

/-! ### Records of the state -/

/-- The record of core p. -/
def State.core (s : State) (p : Nat) : Core := s.cores.get {} p

/-- The state with the record of core p replaced. -/
def State.setCore (s : State) (p : Nat) (c : Core) : State := { s with cores := s.cores.set p c }

/-- The state with a core's record changed. -/
def State.modCore (s : State) (p : Nat) (f : Core → Core) : State := s.setCore p (f (s.core p))

/-- The record of die d. -/
def State.die (s : State) (d : Nat) : Die := s.dies.get {} d

/-- The state with a die's record changed. -/
def State.modDie (s : State) (d : Nat) (f : Die → Die) : State := { s with dies := s.dies.set d (f (s.die d)) }

/-- The registers of helm core h. -/
def State.helm (s : State) (h : Nat) : HelmRegs := s.helms.get {} h

/-- The state with a helm core's registers changed. -/
def State.modHelm (s : State) (h : Nat) (f : HelmRegs → HelmRegs) : State := { s with helms := s.helms.set h (f (s.helm h)) }

/-- The record of sailing n. -/
def State.sailing (s : State) (n : Nat) : Sailing := s.sailings.get {} n

/-- The state with a sailing's record changed. -/
def State.modSailing (s : State) (n : Nat) (f : Sailing → Sailing) : State :=
  { s with sailings := s.sailings.set n (f (s.sailing n)) }

/-- The core number of logical core id k of a sailing (01 R17). -/
def Sailing.coreAt (g : Sailing) (k : Nat) : Nat := g.quads.getD (k / 4) 0 * 4 + k % 4

/-- The core number of logical core id k in the sailing of core p; p's own number where it has no sailing. -/
def State.coreAt (s : State) (p k : Nat) : Nat :=
  match (s.core p).run.sailing with
  | some n => (s.sailing n).coreAt k
  | none => p / 4 * 4 + k % 4

/-- The core of an agent. -/
def Agent.home : Agent → Nat
  | .core p => p
  | .skiff p _ => p

/-- The core of the executing operation. -/
def State.me (s : State) : Nat := s.cur.agent.home

/-- The record of the executing core. -/
def State.own (s : State) : Core := s.core s.me

/-- The state with the executing core's record changed. -/
def State.modOwn (s : State) (f : Core → Core) : State := s.modCore s.me f

/-- Whether the executing agent is a helm core. -/
def State.atHelm (s : State) : Bool := isHelm s.me

/-- The record of context j of core p. -/
def State.skiff (s : State) (p : Nat) (j : BitVec 3) : Skiff := (s.core p).barrel.ctx[j.toNat]'(by have := j.isLt; omega)

/-- The state with a core's barrel changed. -/
def State.modBarrel (s : State) (p : Nat) (f : Barrel → Barrel) : State :=
  s.modCore p fun c => { c with barrel := f c.barrel }

/-- The state with a context changed. -/
def State.modSkiff (s : State) (p : Nat) (j : BitVec 3) (f : Skiff → Skiff) : State :=
  s.modBarrel p fun b =>
    { b with ctx := b.ctx.set j.toNat (f (b.ctx[j.toNat]'(by have := j.isLt; omega))) (by have := j.isLt; omega) }

/-- The next fresh value the spec leaves open (DESIGN CHOICE, log 3), and the state that has used it. -/
def State.free (s : State) : Word × State := (Config.freeWord s.freeIx, { s with freeIx := s.freeIx + 1 })

/-! ### Stores and their hidden bits -/

/-- Whether the 8-byte word at an address is poisoned (15 R415). -/
def State.poisoned (s : State) (pa : Nat) : Bool := s.poison.contains (pa / 8)

/-- Whether any of n bytes at an address lies in a poisoned word. -/
def State.anyPoison (s : State) (pa n : Nat) : Bool := (wordsOf pa n).any s.poison.contains

/-- n bytes at a physical address as a reader that knows no poison sees them. -/
def State.read (s : State) (pa n : Nat) : Nat := s.mem.read pa n

/-- A write clears the poison of the words it covers whole and leaves that of the others (15 R415). -/
def clearPoison (l : List Nat) (pa n : Nat) : List Nat :=
  (wordsOf pa n).foldl (fun l w => if pa ≤ 8 * w ∧ 8 * w + 8 ≤ pa + n then delWord l w else l) l

/-- The words that a write of n bytes covers whole have no error left that no read has found (15 R415). -/
def clearUpsets (l : List Upset) (pa n : Nat) : List Upset := l.filter fun u => !(decide (pa ≤ 8 * u.word) && decide (8 * u.word + 8 ≤ pa + n))

/-- A write by the primary of the core that holds the words clears their writer bits, any other write sets them (04 R139). -/
def markWriter (l : List Nat) (own : Bool) (pa n : Nat) : List Nat :=
  (wordsOf pa n).foldl (fun l w => if own then delWord l w else insWord l w) l

/-- A context that snoozes on a word that a write touches wakes at the end of the cycle (05 R182). -/
def Skiff.wake (k : Skiff) (t lo hi : Nat) : Skiff :=
  match k.wait with
  | .snoozeWord a _ => if lo < a + 8 ∧ a < hi then { k with wait := .until t } else k
  | _ => k

/-- The contexts of the core whose scratchpad holds the written bytes see the write: those that snooze now, and those that begin to in this cycle. -/
def wakeSkiffs (s : State) (pa n : Nat) : State :=
  match spadOwner pa with
  | none => s
  | some p =>
    if (s.core p).barrel.ctx.any (·.occupied) then
      let lo := pa - spadBase p
      s.modCore p fun c => { c with
        run := { c.run with wrote := (lo, lo + n) :: c.run.wrote }
        barrel := { c.barrel with ctx := c.barrel.ctx.map (Skiff.wake · c.run.t lo (lo + n)) } }
    else s

/-- The die whose stacks hold an HBM address: blocks of 4 KiB rotate over 12 stacks, three to a die (01 R22, R15). That a die's stacks are three in a row,
3·d to 3·d + 2, the spec does not say (DESIGN CHOICE, log 69). -/
def hbmDie (pa : Nat) : Nat := pa / 0x400000000000 * 4 + pa % 0x400000000000 / 4096 % 12 / 3

/-- Whether bytes [pa, pa + n) touch a line. -/
def onLine (line pa n : Nat) : Bool := decide (64 * line < pa + n) && decide (pa < 64 * line + 64)

/-- A writer is a core of die d. -/
def Writer.onDie (w : Writer) (d : Nat) : Bool := match w with | .core p _ => dieOf p == d | _ => false

/-- A write by a core of die d: the replica that its own die keeps of a line goes with the write, since both pass the die's one memory-side cache (01 R33);
to another die an invalidation is sent (01 R41). -/
def Die.invalidate (r : Die) (d : Nat) (w : Writer) (pa n : Nat) : Die :=
  if w.onDie d then { r with replicas := r.replicas.filter fun x => !onLine x.1 pa n }
  else { r with invals := r.invals ++ ((r.replicas.filter fun x => onLine x.1 pa n && !r.invals.contains ⟨x.1, w⟩).map fun x => ⟨x.1, w⟩) }

/-- Whether a writer's page-table words are retained: a helm core's and the host's are (09 R294). -/
def Writer.retained : Writer → Bool
  | .core p _ => isHelm p
  | .host => true
  | .other => false

/-- A write by an agent whose page-table words are not retained shows in what is retained of the line too (01 R47, 09 R294). -/
def Kept.patch (k : Kept) (pa v n : Nat) : Kept :=
  if onLine k.line pa n then
    let lo := Nat.max pa (64 * k.line)
    let m := 2 ^ (8 * (Nat.min (pa + n) (64 * k.line + 64) - lo))
    let u := 2 ^ (8 * (lo - 64 * k.line))
    let old := k.data.toNat
    { k with data := BitVec.ofNat 512 (old - old / u % m * u + v / 2 ^ (8 * (lo - pa)) % m * u) }
  else k

/-- A write to HBM reaches every die that keeps a replica of a line it touches (01 R41). -/
def sendInvals (s : State) (w : Writer) (pa v n : Nat) : State :=
  if pa % 0x400000000000 < 0x300000000000 then
    { s with
      dies := s.dies.map fun (d, r) => (d, r.invalidate d w pa n)
      kept := if w.retained then s.kept else s.kept.map (·.patch pa v n) }
  else s

/-- n bytes written at a physical address by `w`: the bytes, their poison, their writer bits (scratchpads alone have them),
and the contexts that wait for them. own: the writer is the primary of the core that holds them. -/
def State.writeBy (s : State) (w : Writer) (own : Bool) (pa v n : Nat) : State :=
  let s := { s with mem := s.mem.write pa v n, poison := clearPoison s.poison pa n, upsets := clearUpsets s.upsets pa n }
  match spadOwner pa with
  | none => sendInvals s w pa v n
  | some _ => wakeSkiffs { s with foreign := markWriter s.foreign own pa n } pa n

/-- n bytes written at a physical address by a unit whose writes no release orders. -/
def State.write (s : State) (own : Bool) (pa v n : Nat) : State := s.writeBy .other own pa v n

/-- Whose invalidations a release of core p orders: those of its writes in a class of the mask, and of its writes without a class (01 R41). -/
def Writer.orderedBy (w : Writer) (p : Nat) (mask : BitVec 16) : Bool :=
  match w with
  | .core q oc => q == p && (decide (16 ≤ oc) || mask.getLsbD oc)
  | _ => false

/-- Core p reads bytes of global memory in a class: the invalidations in flight of the lines that it reads are those of writes that it may have seen, so a release
by it waits for them as for those of its own writes (01 R39, R40; DEDUCED, log 18). -/
def State.observe (s : State) (p oc pa n : Nat) : State :=
  { s with dies := s.dies.map fun (x : Nat × Die) =>
      let seen := ((x.2.invals.filter fun i => onLine i.line pa n).map (·.line)).eraseDups.filter fun l => !x.2.invals.contains ⟨l, .core p oc⟩
      (x.1, { x.2 with invals := x.2.invals ++ seen.map fun l => ⟨l, .core p oc⟩ }) }

/-- An invalidation that core p's release of a mask orders is in flight: of its own writes in a class of the mask, or of writes that it has seen (01 R41). -/
def State.owes (s : State) (p : Nat) (mask : BitVec 16) : Bool := s.dies.any fun x => x.2.invals.any fun i => i.by_.orderedBy p mask

/-- The invalidations of some writers, and of what they have seen, arrive in the dies that they go to. -/
def deliverInvals (s : State) (f : Writer → Bool) : State :=
  { s with dies := s.dies.map fun (d, r) =>
      let due := r.invals.filter fun i => f i.by_
      (d, { r with invals := r.invals.filter fun i => !f i.by_, replicas := r.replicas.filter fun x => !due.any fun i => i.line == x.1 }) }

/-- Bytes marked poisoned (15 R415). -/
def State.setPoison (s : State) (pa n : Nat) : State := { s with poison := (wordsOf pa n).foldl insWord s.poison }

/-! ### Publication halves (09 R285 to R287) -/

/-- Whether address a lies in [64 × base, 64 × (base + len)). -/
def Pmap.inRange (e : Pmap) (base a : Nat) : Bool := e.v && decide (64 * base ≤ a) && decide (a < 64 * (base + e.len))

/-- The address of a byte in the half that is (vis) half 1 or half 0. -/
def Pmap.half (e : Pmap) (one : Bool) (a : Nat) : Nat := if one then 64 * e.alt + (a - 64 * e.base) else a

/-- The first mapped entry whose name range holds an address, with its number. -/
def Core.named (c : Core) (a : Nat) : Option (Nat × Pmap) :=
  (List.range 16).findSome? fun i => let e := c.pmap.toList.getD i {}; if e.inRange e.base a then some (i, e) else none

/-- Whether an address lies in half 1 of a mapped entry. -/
def Core.inAlt (c : Core) (a : Nat) : Bool := c.pmap.toList.any fun e => e.inRange e.alt a

/-- Whether the first or the last of n bytes lies in half 1 of a mapped entry. -/
def Core.spanAlt (c : Core) (a n : Nat) : Bool := c.inAlt a || c.inAlt (a + n - 1)

/-- The PMAP entry of a core replaced. -/
def Core.setPmap (c : Core) (n : Nat) (e : Pmap) : Core := { c with pmap := c.pmap.setIfInBounds n e }

/-- The scratchpad byte that a read, or a store, of address a uses: the visible half (09 R287). -/
def Core.visible (c : Core) (a : Nat) : Nat :=
  match c.named a with
  | some (_, e) => e.half e.vis a
  | none => a

/-- The scratchpad byte that an engine write to address a uses: the shadow half (09 R287). -/
def Core.shadow (c : Core) (a : Nat) : Nat :=
  match c.named a with
  | some (_, e) => e.half (!e.vis) a
  | none => a

/-- Bytes [a, a + n) lie in the scratchpad and inside the carve-out's banks (13 R378). -/
def Core.inside (c : Core) (a n : Nat) : Bool :=
  decide (a + n ≤ 0x800000) && (List.range ((a + n - 1) / 0x100000 + 1 - a / 0x100000)).all
    fun i => c.ctl.carve.getLsbD (a / 0x100000 + i)

/-! ### Drift records and monitors -/

/-- One sample of a monitor (14 R400). -/
def Monitor.sample (m : Monitor) (v : Word) : Monitor :=
  let base := (m.cfg.extractLsb' 16 32).toNat
  let shift := (m.cfg.extractLsb' 12 4).toNat
  let bin := if v.toNat < base then 0 else Nat.min 15 ((v.toNat - base) / 2 ^ shift)
  let old := m.bins.toList.getD bin 0
  { m with count := m.count + 1, min := if v < m.min then v else m.min, max := if m.max < v then v else m.max,
           bins := m.bins.setIfInBounds bin (if old = BitVec.allOnes 32 then old else old + 1) }

/-- Every monitor with the given source, and for source 1 the given cause, takes a sample (14 R400). -/
def Observe.sample (o : Observe) (src cause : Nat) (v : Word) : Observe :=
  { o with monitors := o.monitors.map fun m =>
      if (m.cfg.extractLsb' 0 4).toNat = src ∧ (src ≠ 1 ∨ (m.cfg.extractLsb' 4 5).toNat = cause) then m.sample v else m }

/-- A drift record (14 R395). -/
def driftWord (lost cause addr : Nat) : Word :=
  BitVec.ofNat 64 (lost * 2 ^ 51 + cause * 2 ^ 46 + addr / 4 % 2 ^ 46)

/-- A drift record enters the core's queue, or is dropped when 256 wait (14 R398); monitors of its cause sample it. -/
def Observe.drift (o : Observe) (lost cause addr : Nat) : Observe :=
  let o := o.sample 1 cause (BitVec.ofNat 64 lost)
  let o := { o with drwr := o.drwr + 1, now := o.now ||| (1#32 <<< cause) }
  if 256 ≤ o.queue.length then { o with drlost := o.drlost + 1 } else { o with queue := o.queue ++ [driftWord lost cause addr] }

/-- The records of a run of n lost cycles: every record but the last holds 8,191 (14 R397). -/
def Observe.driftRun (o : Observe) (n cause addr : Nat) : Nat → Observe
  | 0 => o
  | fuel + 1 => if n ≤ 8191 then o.drift n cause addr else (o.drift 8191 cause addr).driftRun (n - 8191) cause addr fuel

/-- The stall run of a core ends: its records are written. A helm's stalls write none (13 R364). -/
def Core.endStall (c : Core) (p : Nat) : Core :=
  match c.run.stall with
  | none => c
  | some r =>
    let c := { c with run := { c.run with stall := none } }
    if isHelm p then c else { c with obs := c.obs.driftRun r.cycles r.cause r.bundle (r.cycles / 8191 + 1) }

/-- One stalled cycle of a core, attributed to a cause (14 R397). -/
def Core.noteStall (c : Core) (p cause addr : Nat) : Core :=
  let c := match c.run.stall with
    | some r => if r.cause = cause ∧ r.bundle = addr then c else c.endStall p
    | none => c
  let n := match c.run.stall with | some r => r.cycles | none => 0
  { c with run := { c.run with stall := some ⟨cause, addr, n + 1⟩, moved := true, stallNow := true, tollStall := decide (cause = 16) },
           note := { c.note with stall := cause } }

/-! ### Fault records -/

/-- The fields of a fault record (03 R121). -/
structure FaultRec where
  code : Nat
  detail : Nat
  cycle : Nat
  addr : Nat
  word : Code
  lid : Nat
  helm : Bool
  skiff : Option (BitVec 3)
  slot : Nat
  deriving DecidableEq, Repr

/-- The 32 bytes of a fault record (03 R121). -/
def FaultRec.bits (r : FaultRec) : BitVec 256 :=
  BitVec.ofNat 256 (r.detail % 2 ^ 64 * 2 ^ 192 + r.cycle % 2 ^ 64 * 2 ^ 128 + r.addr % 2 ^ 48 * 2 ^ 64 + r.word.toNat * 2 ^ 32
    + r.lid % 2 ^ 16 * 2 ^ 16 + (if r.helm then 2 ^ 15 else 0)
    + (match r.skiff with | some j => j.toNat * 2 ^ 12 + 2 ^ 11 | none => 0) + r.slot % 8 * 2 ^ 8 + r.code % 256)

/-- One helm core's ring takes a record and FHEAD gains 1 (13 R366, R367). -/
def ringPost (s : State) (h : Nat) (v : BitVec 256) : State :=
  let r := s.helm h
  let len := (r.fring.extractLsb' 32 16).toNat
  let base := (r.fring.extractLsb' 0 21).toNat
  let s := s.modHelm h fun r => { r with fhead := r.fhead + 1 }
  if len = 0 then s else s.write false (spadBase h + base + 32 * (r.fhead.toNat % len)) v.toNat 32

/-- A fault record goes to both helms of a die and to its host buffer (13 R367, 15 R409). -/
def postRecord (s : State) (d : Nat) (v : BitVec 256) : State :=
  let s := ringPost (ringPost s (helmBase + 2 * d) v) (helmBase + 2 * d + 1) v
  s.modDie d fun r =>
    if 64 ≤ r.faultBuf.length then { r with faultLost := r.faultLost + 1 } else { r with faultBuf := r.faultBuf ++ [v] }

/-- WALL of a die: the cycles since its reset in which the clock ran (13 R366). -/
def State.wallOf (s : State) (d : Nat) : Nat := s.wall - s.pod.stood - (s.die d).zero

/-- The eight words of a sailing status block (13 R372). -/
def Sailing.words (g : Sailing) : List Nat :=
  [(if g.late then 2 ^ 40 else 0) + g.queue % 64 * 2 ^ 32 + g.sno % 2 ^ 16 * 2 ^ 16 + g.cause % 256 * 2 ^ 8 + g.state % 256,
   g.start, g.endW, g.scyc, g.tlbc % 2 ^ 32 * 2 ^ 32 + g.faults % 2 ^ 32, g.retval.toNat, 0, 0]

/-- A release for every class by what a sailing's cores have done: the invalidations of their writes, whose time no program can count, have arrived
(01 R41; 13 R372, R389). -/
def releaseSailing (s : State) (n : Nat) : State :=
  deliverInvals s fun w => match w with | .core p _ => (s.core p).run.sailing == some n | _ => false

/-- A remote access of a core of sailing n, sent by a WALL cycle, has not performed. -/
def State.remotesOf (s : State) (n wall : Nat) : Bool :=
  s.cores.any fun (x : Nat × Core) => x.2.run.sailing == some n && x.2.remotes.any fun r => r.result.isNone && decide (r.at_ ≤ wall)

/-- Eight words at an address. -/
def putBlock (s : State) (a : Nat) (ws : List Nat) : State := (List.range 8).foldl (fun s i => s.write false (a + 8 * i) (ws.getD i 0) 8) s

/-- The status blocks that sailing n has still to write reach its block, the oldest first, as far as the remote accesses sent before them have performed
(13 R372). -/
def flushBlocks (s : State) (n : Nat) : State :=
  let g := s.sailing n
  let l := g.blocks.takeWhile fun x => !s.remotesOf n x.1
  if l.isEmpty then s
  else l.foldl (fun s x => putBlock s g.block x.2) ((releaseSailing s n).modSailing n fun g => { g with blocks := g.blocks.drop l.length })

/-- The hardware writes the whole status block of a sailing, as it stands; the write is a release, for the accesses of the sailing's cores (13 R372). -/
def writeBlock (s : State) (n : Nat) : State :=
  flushBlocks (s.modSailing n fun g => { g with blocks := g.blocks ++ [(s.wall, g.words)] }) n

/-- A change of STATE: SCYC is brought up to date, END is set for a state of 5 or above, and the block is written (13 R372). -/
def setSailingState (s : State) (n st : Nat) : State :=
  writeBlock (s.modSailing n fun g =>
    { g with state := st, scyc := g.t, endW := if 5 ≤ st then s.wallOf (dieOf g.helm) else g.endW }) n

/-- FAULTS gains 1, and a fault that halts a primary sets STATE to 6; where it is 6 already it does not change (13 R372, R374). -/
def countFault (s : State) (n : Nat) (halts : Bool) : State :=
  let s := s.modSailing n fun g => { g with faults := g.faults + 1 }
  if halts ∧ (s.sailing n).state ≠ 6 then setSailingState s n 6 else writeBlock s n

/-- The die that receives a core's fault records: that of the launch, its own where it has no sailing. -/
def State.recordDie (s : State) (p : Nat) : Nat :=
  match (s.core p).run.sailing with
  | some n => dieOf (s.sailing n).helm
  | none => dieOf p

/-- Remote accesses of a core have not performed. -/
def Core.remoteBusy (c : Core) : Bool := c.remotes.any (·.result.isNone)

/-- A writeback of core p writes exactly the dirty bytes of a line: a word that is dirty throughout as a whole (01 R43, 15 R415). -/
def writeLine (s : State) (p : Nat) (l : Line) : State :=
  (List.range 8).foldl (fun s w =>
    if l.dirty.extractLsb' (8 * w) 8 = 0xFF then s.writeBy (.core p 16) false (64 * l.line + 8 * w) (l.data.extractLsb' (64 * w) 64).toNat 8
    else (List.range 8).foldl (fun s i =>
      if l.dirty.getLsbD (8 * w + i) then s.writeBy (.core p 16) false (64 * l.line + 8 * w + i) (l.data.extractLsb' (64 * w + 8 * i) 8).toNat 1 else s) s) s

/-- Every dirty line of a core's skiff cache is written back and counted (01 R42, 05 R186). -/
def writeBackAll (s : State) (p : Nat) : State :=
  let ls := (s.core p).barrel.cache.filter fun l => l.dirty ≠ 0
  (ls.foldl (writeLine · p ·) s).modBarrel p fun b =>
    { b with cache := b.cache.map (fun l => { l with dirty := 0 }), wbLines := b.wbLines + BitVec.ofNat 64 ls.length }

/-- A record of core p reaches its rings. The write is a release at .die (13 R367): it waits for the core's remote accesses (`flushPosts`),
and the invalidations of the core's writes, whose time no program can count, have arrived. -/
def postRelease (s : State) (p d : Nat) (v : BitVec 256) : State :=
  if (s.core p).remoteBusy then s.modCore p fun c => { c with posts := c.posts ++ [(d, v)] }
  else postRecord (deliverInvals s fun w => w.orderedBy p 0xFFFF) d v

/-- The records of core p that waited for its remote accesses reach their rings, once none is left to perform. -/
def flushPosts (s : State) (p : Nat) : State :=
  if (s.core p).remoteBusy ∨ (s.core p).posts.isEmpty then s
  else
    let l := (s.core p).posts
    l.foldl (fun s x => postRelease s p x.1 x.2) (s.modCore p fun c => { c with posts := [] })

/-- A skiff's record of core p reaches its rings: a release writes back the dirty lines of the cache (01 R42), and the invalidations of what the core has written
and seen have arrived; the skiff's other accesses perform in its program order. -/
def postSkiff (s : State) (p d : Nat) (v : BitVec 256) : State :=
  postRecord (deliverInvals (writeBackAll s p) fun w => w.orderedBy p 0xFFFF) d v

/-- A fault record posted for core p, with the sailing's count. -/
def postFault (s : State) (p : Nat) (r : FaultRec) (halts : Bool) : State :=
  let s := (if r.skiff.isSome then postSkiff s p (s.recordDie p) r.bits else postRelease s p (s.recordDie p) r.bits).modCore p fun c =>
    { c with obs := { c.obs with now := c.obs.now ||| 1 } }
  match (s.core p).run.sailing with
  | some n => if isHelm p then s else countFault s n halts
  | none => s

/-- The image of a context (05 R177). -/
def Skiff.image (k : Skiff) : Image :=
  BitVec.ofNat 16 k.home ++ BitVec.ofNat 8 k.migs ++ 0#32 ++ k.cmask ++ 0#2 ++ BitVec.ofNat 3 ((List.range 3).foldl (fun n i =>
    if k.g.toList.getD (i + 1) false then n + 2 ^ i else n) 0) ++ 0#16 ++ BitVec.ofNat 48 k.pc ++
    BitVec.ofNat 1024 ((List.range 15).foldl (fun n i => n + (k.s.toList.getD (i + 1) 0).toNat * 2 ^ (64 * (i + 1))) 0)

/-- The context that an image makes: its fetch buffer is empty and nothing of it waits (05 R177, R179). -/
def Skiff.ofImage (m : Image) : Skiff :=
  { occupied := true, home := (m.extractLsb' 1136 16).toNat, migs := (m.extractLsb' 1128 8).toNat, cmask := m.extractLsb' 1093 3,
    g := Vector.ofFn fun i : Fin 4 => decide (0 < i.val) && m.getLsbD (1087 + i.val), pc := (m.extractLsb' 1024 48).toNat,
    s := Vector.ofFn fun i : Fin 16 => m.extractLsb' (64 * i.val) 64 }

/-- The migration message of an image (05 R178): its target, its sender and KIND 0x01. -/
def Message.of (target source : Nat) (m : Image) : Message :=
  { bits := 0#256 ++ m ++ 0#88 ++ 1#8 ++ BitVec.ofNat 16 source ++ BitVec.ofNat 16 target }

/-- TARGET of a migration message. -/
def Message.target (m : Message) : Nat := (m.bits.extractLsb' 0 16).toNat
/-- SOURCE of a migration message. -/
def Message.source (m : Message) : Nat := (m.bits.extractLsb' 16 16).toNat
/-- IMAGE of a migration message. -/
def Message.image (m : Message) : Image := m.bits.extractLsb' 128 1152

/-- An inbox image enters a context that has become free, in arrival order (05 R180). -/
def inboxInstall (s : State) (p : Nat) (j : BitVec 3) : State :=
  match (s.core p).barrel.inbox with
  | [] => s
  | i :: rest =>
    (s.modBarrel p fun b => { b with inbox := rest }).modSkiff p j fun k =>
      { Skiff.ofImage i with fetchAt := (s.core p).run.t + 1, lastf := k.lastf }

/-- A context becomes free (05 R182, R184), and the inbox's oldest image takes it. -/
def freeContext (s : State) (p : Nat) (j : BitVec 3) : State :=
  inboxInstall (s.modSkiff p j fun k => { ({} : Skiff) with lastf := k.lastf }) p j

/-! ### Outcomes of an operation, and taking a fault -/

/-- What a stalled bundle does while it waits: nothing, send a flag read (04 R138), wait for a core to become idle (01 R29),
or send the arrival of a bar.sync (10 R319). -/
inductive StallAct where
  | none
  | send (r : Remote)
  | spawn (target : Nat)
  | arrive (scope b : Nat)
  deriving DecidableEq, Repr

/-- What an operation does at issue: it takes effect, it faults with a code and DETAIL, or its bundle stalls with a cause. -/
inductive Res where
  | ok (s : State)
  | fault (code detail : Nat)
  | stall (cause : Nat) (act : StallAct := .none)
  deriving DecidableEq, Repr

/-- The state of a stalled core moves with its wait: a flag read is sent with the check that it consumes (09 R290), its last reply taken away; a spawn's wait begins. -/
def Core.poll (c : Core) (wall : Nat) (act : StallAct) : Core :=
  match act with
  | .none => c
  | .arrive _ _ => { c with run := { c.run with arrived := true } }
  | .send r => { c with remotes := c.remotes ++ [{ r with at_ := wall, way := { at_ := wall } }], run := { c.run with flag := none },
                        expects := c.expects.filter fun x => !r.tag.any fun y => y.1 == x.1 }
  | .spawn q => { c with run := { c.run with spawnAt := match c.run.spawnAt with
      | some (q', t) => if q' = q then some (q, t) else some (q, c.run.t)
      | none => some (q, c.run.t) } }

/-! ### Barrier arrivals (10 R318, R319) -/

/-- The instance of a scope (2 to 5) that a core lies in. -/
def instanceOf (scope p : Nat) : Nat :=
  match scope with
  | 2 => quadOf p
  | 3 => dieOf p
  | 4 => pkgOf p
  | _ => 0

/-- Half of BL: the cycles of an arrival on its way to the node, and of a completion on its way back (10 R319). -/
def halfBar (latr scope : Nat) : Nat :=
  match scope with
  | 2 => 3
  | 3 => 8
  | 4 => 24
  | _ => latr + 8

/-- The place of LG and DONE of barrier b at a scope. -/
def barIndex (scope b : Nat) : Nat := (scope - 2) * 16 + b

/-- A core's arrival at barrier b of a scope sets out, and LG moves on. -/
def sendArrival (s : State) (p scope b : Nat) : State :=
  let c := s.core p
  let (lg, done) := c.bars.toList.getD (barIndex scope b) (0, 0)
  let m : BarMsg :=
    { due := c.run.t + halfBar s.pod.latr scope, scope := scope, inst := instanceOf scope p, b := b, gen := lg, core := p }
  let s := s.modCore p fun c => { c with bars := c.bars.setIfInBounds (barIndex scope b) ((lg + 1) % 65536, done) }
  match c.run.sailing with
  | some n => s.modSailing n fun g => { g with arrivals := g.arrivals ++ [m] }
  | none => s

/-- A stalled cycle of core p at a bundle, with what the bundle does while it waits. -/
def stallCore (s : State) (p cause addr : Nat) (act : StallAct) : State :=
  let s := match act with | .arrive scope b => sendArrival s p scope b | _ => s
  s.modCore p fun c => (c.noteStall p cause addr).poll s.wall act

/-- A core that a fault has halted: it issues nothing more, and a lease that it held has ended (03 R120, 07 R227). -/
def Run.dead (r : Run) : Run :=
  { r with live := false, halted := true, faulted := true, moved := true, lease := if r.lease = 2 then 3 else r.lease }

/-- A skiff's fault (05 R184): its record is posted, its queued special-function requests are voided (06 R221), its context becomes free
and keeps the code in LASTF. -/
def skiffFault (s : State) (p : Nat) (j : BitVec 3) (cycle addr slot : Nat) (word : Code) (code detail : Nat) : State :=
  let r : FaultRec := ⟨code, detail, cycle, addr, word, (s.core p).ctl.lid, false, some j, slot⟩
  let s := s.modCore p fun c => { c with sfu := c.sfu.filter fun q => q.ctx ≠ some j }
  freeContext ((postFault s p r false).modSkiff p j fun k => { k with lastf := code }) p j

/-- Taking a fault (03 R120, R121; 05 R184): the record is posted; a primary or helm core halts where it stands, its bundle
having no effect; a skiff's context becomes free. -/
def takeFault (s : State) (code detail : Nat) : State :=
  let s := { s with freeIx := s.freeIx + 1 }
  match s.cur.agent with
  | .core p =>
    let c := (s.core p).endStall p
    let r : FaultRec := ⟨code, detail, c.run.t, s.cur.addr, s.cur.word, c.ctl.lid, isHelm p, none, s.cur.slot⟩
    postFault (s.setCore p { c with run := c.run.dead }) p r true
  | .skiff p j => skiffFault s p j (s.core p).run.t (s.skiff p j).pc s.cur.slot s.cur.word code detail

/-- An engine fault (06 R222, 07 R263, 09 R279): the record has SLOT 7 and names the bundle and the word that issued the command;
the primary issues nothing more and holds no lease. -/
def engineFault (s : State) (p code detail baddr : Nat) (word : Code) : State :=
  let c := (s.core p).endStall p
  let r : FaultRec := ⟨code, detail, c.run.t, baddr, word, c.ctl.lid, isHelm p, none, 7⟩
  postFault (s.setCore p { c with run := { c.run.dead with moved := c.run.moved } }) p r true

/-- The outcome of an operation that issues by itself: its effect, the fault taken, or one stalled cycle noted. -/
def finish (s : State) (r : Res) : Host.Outcome State Fault Refusal :=
  match r with
  | .ok s' => .next s'
  | .fault code detail => .next (takeFault s code detail)
  | .stall cause act => .next (stallCore s s.me cause s.cur.addr act)

/-- Operations in sequence: the first that does not take effect decides. -/
def Res.bind (r : Res) (k : State → Res) : Res :=
  match r with
  | .ok s => k s
  | .fault c d => .fault c d
  | .stall c r => .stall c r

/-- A fault where a condition holds, else go on. -/
def Res.check (bad : Bool) (code detail : Nat) (k : Res) : Res := if bad then .fault code detail else k

end Sys2Proof.Machine
end

