-- ==== Sys2Proof/Machine/Links.lean ====
section
/-! DEFINITION. The links of the fabric and the ways of residue flits over them (10 R297, R300, R307). -/

namespace Sys2Proof.Machine

/-- The link with its number's reserved bits zero (10 R300), of kind `kind`. -/
def linkKind (key : Nat) : Nat := bitsOf key 23 21

/-- The lanes of a link of a kind (10 R297). -/
def linkLanes (kind : Nat) : Nat := [8, 8, 32, 272, 2].getD kind 0

/-- A number is that of a link (10 R297, R300): a die's 96 core links either way, the 38 quad links of its 6 × 4 mesh, two die boundaries of the four of the
package's 2 × 2 (00 scope; DEDUCED, log 54), and ports 0 to 23. -/
def linkExists (key : Nat) : Bool :=
  decide (key < 2 ^ 32 ∧ key % 256 = 0 ∧ bitsOf key 20 9 < [96, 96, 38, 2, 24].getD (linkKind key) 0)

/-- The number of a link as its records are looked up: the direction of a core link is its kind. -/
def linkId (key : Nat) : Nat := if linkKind key ≤ 1 then key / 512 * 512 else key

/-- The package and die of a link, as a die number. -/
def linkDie (key : Nat) : Nat := bitsOf key 31 26 * 4 + bitsOf key 25 24

/-- The injection (kind 0) or ejection (kind 1) link of a primary. -/
def coreLink (kind p : Nat) : Nat := p / 384 * 2 ^ 26 + p / 96 % 4 * 2 ^ 24 + kind * 2 ^ 21 + p % 96 * 2 ^ 9

/-- A place as a number, for the free choice of the ways between two. -/
def Site.code : Site → Nat
  | .core p => 3 * p
  | .die d => 3 * d + 1
  | .host k => 3 * k + 2

/-- The core link of a place, of one kind: only a primary has one. -/
def Site.link (kind : Nat) : Site → List Nat
  | .core p => if isHelm p then [] else [coreLink kind p]
  | _ => []

/-- The quad of a place. -/
def Site.quad : Site → Option Nat
  | .core p => if isHelm p then none else some (quadOf p)
  | _ => none

/-- The links between the core links of two places of different quads: which they are is free (10 R307; DESIGN CHOICE, log 54). -/
def linksBetween (a b : Site) : List Nat := (Config.residueRoute a.code b.code).filter fun k => linkExists k && decide (2 ≤ linkKind k)

/-- The links that a flit passes from one place to another. -/
def path (a b : Site) : List Nat :=
  if a = b then []
  else a.link 0 ++ (if a.quad.isSome ∧ a.quad = b.quad then [] else linksBetween a b) ++ b.link 1

/-- The links that a flit passes over a list of places. -/
def pathOver : List Site → List Nat
  | a :: b :: l => path a b ++ pathOver (b :: l)
  | _ => []

/-- The die of an address in control space (15 R405). -/
def controlDie (pa : Nat) : Nat := pa / 0x400000000000 * 4 + (pa % 0x400000000000 - 0x3F0000000000) / 0x40000000

/-- The home of a physical address: the core whose scratchpad holds it, the die whose control space or HBM stacks hold it. -/
def homeOf (pa : Nat) : Site :=
  match spadOwner pa with
  | some q => .core q
  | none => .die (if isControl pa then controlDie pa else hbmDie pa)

/-- A flit is over its way: no link lies on it, or it has passed them all. -/
def Transit.over (w : Transit) (links : List Nat) : Bool := w.there || links.isEmpty

/-- The link that a flit waits at. -/
def Transit.link (w : Transit) (links : List Nat) : Option Nat := links[Nat.min w.hop (links.length - 1)]?

/-- The way of a remote access of core p, or of its reply (04 R126). -/
def Remote.links (r : Remote) (p : Nat) : List Nat := if r.result.isNone then path (.core p) (homeOf r.pa) else path (homeOf r.pa) (.core p)

/-- The way of what the host sends, from its link to the home of the word, or to the helm (15 R409). -/
def HostOp.links : HostOp → List Nat
  | .mem pa _ => path (.host (pa / 0x400000000000)) (homeOf pa)
  | .word u _ _ => path (.host (u / 8)) (.die (u / 2))

/-- The way of core p's oldest drift record to its ring (14 R398). -/
def Observe.links (o : Observe) (p : Nat) : List Nat := path (.core p) (homeOf (o.drbase + 8 * (o.drdrn.toNat % o.drlen)))

end Sys2Proof.Machine
end

