-- ==== Sys2Proof/Machine/Operands.lean ====
section
/-! DEFINITION. Every operand form: register names and their physical registers, queue pops, stream-port pops, the skiff's
registers, destinations and results in flight (03 R92 to R98, 04 R127, R128, R136, 05 R168). -/

namespace Sys2Proof.Machine

/-! ### Names -/

/-- The physical register of an a-name: a16–a31 rotate modulo 16 (03 R105). -/
def Core.physA (c : Core) (r : BitVec 5) : BitVec 5 :=
  if r.toNat < 16 then r else BitVec.ofNat 5 (16 + (r.toNat - c.pipe.ab % 16) % 16)

/-- The physical register of an x- or f-name under a rotation base: 16–29 rotate modulo 14 (03 R105). -/
def physRot (base : Nat) (r : BitVec 5) : BitVec 5 :=
  if 16 ≤ r.toNat ∧ r.toNat < 30 then BitVec.ofNat 5 (16 + (r.toNat - 16 + 14 - base % 14) % 14) else r

/-- A physical register of a 32-entry file. -/
def reg32 (v : Vector Word 32) (r : BitVec 5) : Word := v[r.toNat]'r.isLt

/-- A register of a 16-entry file. -/
def reg16 (v : Vector α 16) (r : BitVec 4) : α := v[r.toNat]'r.isLt

/-- The value of an a-name; a0 reads zero (03 R92). -/
def Core.a (c : Core) (r : BitVec 5) : Word := if r = 0 then 0 else reg32 c.files.a (c.physA r)

/-- The value of an x-name that is neither a queue nor bound; x0 reads zero. -/
def Core.x (c : Core) (r : BitVec 5) : Word := if r = 0 then 0 else reg32 c.files.x (physRot c.pipe.xb r)

/-- The value of an f-name that is neither a queue nor bound. -/
def Core.f (c : Core) (r : BitVec 5) : Word := reg32 c.files.f (physRot c.pipe.fb r)

/-- The value of an m-register. -/
def Core.m (c : Core) (r : BitVec 4) : Word := reg16 c.files.m r

/-- The value of an h-register. -/
def Core.h (c : Core) (r : BitVec 4) : BitVec 256 := reg16 c.files.h r

/-- The value of a c-register; c14 shows the rotation bases, c15 its skip bits (03 R93). -/
def Core.c (c : Core) (r : BitVec 4) : Word :=
  if r = 14 then BitVec.ofNat 64 (c.pipe.ab * 256 + c.pipe.fb * 16 + c.pipe.xb) else reg16 c.files.c r

/-- A guard of a primary; g0 reads true (03 R94). -/
def Core.g (c : Core) (r : BitVec 4) : Bool := if r = 0 then true else reg16 c.files.g r

/-- A register of a skiff; s0 reads zero, and a number past s15 is never reached (05 R168). -/
def Skiff.reg (k : Skiff) (r : BitVec 5) : Word := if r = 0 then 0 else k.s.toList.getD r.toNat 0

/-- A guard of a skiff; g0 reads true (05 R159). -/
def Skiff.guard (k : Skiff) (r : BitVec 4) : Bool := if r = 0 then true else k.g.toList.getD r.toNat false

/-- A guard of the executing agent. -/
def State.guard (s : State) (r : BitVec 4) : Bool :=
  match s.cur.agent with
  | .core p => (s.core p).g r
  | .skiff p j => (s.skiff p j).guard r

/-! ### Stream-port reads (04 R136) -/

/-- The port bound to a register, with its number; the bundle of the sbind itself still finds the register as it was (04 R136, 03 R96). -/
def Core.boundTo (c : Core) (file : FileId) (r : BitVec 5) : Option (Nat × Port) :=
  (List.range 4).findSome? fun i =>
    let q := c.ports.toList.getD i {}
    if q.bound ∧ q.at_ < c.run.t ∧ q.file = file ∧ q.reg = r then some (i, q) else none

/-- The next ring-independent address of a port's walk: element n of its descriptor (04 R134). -/
def Descriptor.at_ (d : Descriptor) (n : Nat) : Nat :=
  let c0 := d.counts.getD 0 1
  let c1 := d.counts.getD 1 1
  let i := [n % c0, n / c0 % c1, n / c0 / c1]
  (((d.base : Int) + (List.range 3).foldl (fun z k => z + (i.getD k 0 : Int) * d.strides.getD k 0) 0)).toNat

/-- A byte of [a, a + n) lies in a channel's ring at or above its watermark (01 R46, 09 R271). -/
def Wmc.above (w : Wmc) (a n : Nat) : Bool := w.act && decide (Nat.max a (w.rbase + w.filled) < Nat.min (a + n) (w.rbase + w.rlen))

/-- The stall or fault that watermark rings put before a read of [a, a + n) (09 R273, R274): none when every byte that lies in a ring is below its
watermark; an inner address where a refill of such a ring has faulted. -/
def Core.watermark (c : Core) (a n : Nat) : Option (Option Nat) :=
  match c.wmc.toList.filter (·.above a n) with
  | [] => none
  | ws => some ((ws.find? (·.flt)).map (·.faddr))

/-- The cause of a stall at a port whose next element cannot be popped (04 R136): 3, watermark, where the element waits on one; else 2, queue. -/
def Core.portCause (c : Core) (q : Port) : Nat :=
  if q.buf.isEmpty ∧ (c.watermark (q.desc.at_ q.popped) q.desc.width).isSome then 3 else 2

/-- A pop of a bound register (04 R136): from the cycle t + 8 on, an element in the port is delivered; a faulted element
raises its fault, an element past the last the shape fault; else the bundle stalls for the watermark or the queue. -/
def popPort (s : State) (i : Nat) (q : Port) (k : Word → State → Res) : Res :=
  if q.total ≤ q.popped then .fault 0x0E (15 * 256 + 11)
  else if s.own.run.t < q.at_ + 8 then .stall (s.own.portCause q)
  else match q.buf with
    | v :: rest => k v (s.modOwn fun c => { c with ports := c.ports.setIfInBounds i { q with buf := rest, popped := q.popped + 1 } })
    | [] => match q.fault with
      | some (code, detail) => .fault code detail
      | none => .stall (s.own.portCause q)

/-! ### Sources -/

/-- A pop of the load queue (04 R128): the head must be reserved and filled. -/
def popLq (s : State) (k : Word → State → Res) : Res :=
  match s.own.queues.lq with
  | ⟨_, some v, none⟩ :: rest => k v (s.modOwn fun c => { c with queues := { c.queues with lq := rest } })
  | ⟨_, some _, some (code, detail)⟩ :: _ => .fault code detail
  | _ => .stall 2

/-- A pop of the store queue (04 R128, R130). -/
def popSq (s : State) (k : Word → State → Res) : Res :=
  match s.own.queues.sq with
  | ⟨_, some v, _⟩ :: rest => k v (s.modOwn fun c => { c with queues := { c.queues with sq := rest } })
  | _ => .stall 2

/-- An a-register operand, an s-register in a skiff. -/
def srcA (r : BitVec 5) (s : State) : Word :=
  match s.cur.agent with
  | .core p => (s.core p).a r
  | .skiff p j => (s.skiff p j).reg r

/-- A c-register operand, an s-register in a skiff (05 R168). -/
def srcC (r : BitVec 5) (s : State) : Word :=
  match s.cur.agent with
  | .core p => (s.core p).c (r.truncate 4)
  | .skiff p j => (s.skiff p j).reg r

/-- A register operand of the X or F file: x30 and f30 pop lq, a bound name pops its port, a skiff reads its own register. -/
def withReg (file : FileId) (r : BitVec 5) (s : State) (k : Word → State → Res) : Res :=
  match s.cur.agent with
  | .skiff p j => k ((s.skiff p j).reg r) s
  | .core p =>
    if r = 30 then popLq s k
    else match (s.core p).boundTo file r with
      | some (i, q) => popPort s i q k
      | none => k (if file = .f then (s.core p).f r else (s.core p).x r) s

/-- An x-register operand. -/
def withX (r : BitVec 5) (s : State) (k : Word → State → Res) : Res := withReg .x r s k

/-- An f-register operand. -/
def withF (r : BitVec 5) (s : State) (k : Word → State → Res) : Res := withReg .f r s k

/-! ### Destinations -/

/-- After its own pops a bundle may leave at most 32 entries reserved in each queue (04 R127). -/
def queueLimit (r : Res) : Res :=
  r.bind fun s => if 32 < s.own.queues.lq.length ∨ 32 < s.own.queues.sq.length then .stall 2 else .ok s

/-- A result that lands at the end of the cycle `lat` cycles after this one (03 R96). -/
def Core.land (c : Core) (slot lat : Nat) (dest : Dest) (v : Word) : Core :=
  { c with pipe := { c.pipe with pend := c.pipe.pend ++ [⟨c.run.t + lat, c.run.t, slot, dest, v⟩] } }

/-- The result of a skiff's operation: its registers and guards change when it completes, at the end of cycle t + lat (05 R167). -/
def skiffResult (s : State) (p : Nat) (j : BitVec 3) (lat : Nat) (rs : List (BitVec 5 × Word)) (gs : List (BitVec 4 × Bool)) : State :=
  let t := (s.core p).run.t
  s.modSkiff p j fun k => { k with wait := .until (t + lat), landS := k.landS ++ rs, landG := k.landG ++ gs }

/-- A new lq entry, and its number (04 R127); the bundle as a whole is held to 32 entries by queueLimit. -/
def reserveLq (s : State) (k : Nat → State → Res) : Res :=
  let q := s.own.queues
  k q.nextId (s.modOwn fun c => { c with queues := { c.queues with lq := q.lq ++ [{ id := q.nextId, val := none }], nextId := q.nextId + 1 } })

/-- A new sq entry, and its number. -/
def reserveSq (s : State) (k : Nat → State → Res) : Res :=
  let q := s.own.queues
  k q.nextId (s.modOwn fun c => { c with queues := { c.queues with sq := q.sq ++ [{ id := q.nextId, val := none }], nextId := q.nextId + 1 } })

/-- A result for an a-name with a latency; a0 ignores it. -/
def writeA (r : BitVec 5) (lat : Nat) (v : Word) (s : State) : Res :=
  match s.cur.agent with
  | .skiff p j => .ok (skiffResult s p j lat [(r, v)] [])
  | .core p => if r = 0 then .ok s else .ok (s.modCore p fun c => c.land s.cur.slot lat (.a (c.physA r)) v)

/-- A result for a name of the X or F file: register 31 pushes sq, a bound name is no destination (04 R136), x0 ignores it. -/
def writeReg (file : FileId) (r : BitVec 5) (lat : Nat) (v : Word) (s : State) : Res :=
  match s.cur.agent with
  | .skiff p j => .ok (skiffResult s p j lat [(r, v)] [])
  | .core p =>
    if r = 31 then reserveSq s fun e s => .ok (s.modCore p fun c => c.land s.cur.slot lat (.sq e) v)
    else match (s.core p).boundTo file r with
      | some _ => .fault 0x02 0
      | none =>
        if file = .f then .ok (s.modCore p fun c => c.land s.cur.slot lat (.f (physRot c.pipe.fb r)) v)
        else if r = 0 then .ok s
        else .ok (s.modCore p fun c => c.land s.cur.slot lat (.x (physRot c.pipe.xb r)) v)

/-- A result for an x-name. -/
def writeX (r : BitVec 5) (lat : Nat) (v : Word) (s : State) : Res := writeReg .x r lat v s

/-- A result for an f-name. -/
def writeF (r : BitVec 5) (lat : Nat) (v : Word) (s : State) : Res := writeReg .f r lat v s

/-- A result for a c-register, an s-register in a skiff. -/
def writeC (r : BitVec 5) (lat : Nat) (v : Word) (s : State) : Res :=
  match s.cur.agent with
  | .skiff p j => .ok (skiffResult s p j lat [(r, v)] [])
  | .core p => .ok (s.modCore p fun c => c.land s.cur.slot lat (.c (r.truncate 4)) v)

/-- A result for a guard, always with latency 1 (03 R94). -/
def writeG (r : BitVec 4) (v : Bool) (s : State) : Res :=
  match s.cur.agent with
  | .skiff p j => .ok (skiffResult s p j 1 [] [(r, v)])
  | .core p => .ok (s.modCore p fun c => c.land s.cur.slot 1 (.g r) (if v then 1 else 0))

/-- An operation with no register result, complete at the end of t + lat for a skiff. -/
def noResult (lat : Nat) (s : State) : State :=
  match s.cur.agent with
  | .skiff p j => skiffResult s p j lat [] []
  | .core _ => s

end Sys2Proof.Machine
end

