-- ==== Sys2Proof/Machine/Access.lean ====
section
/-! DEFINITION. Where an effective address leads, what a read or a write must pass before it performs, and the scalar
accesses themselves, for primaries, helm cores and skiffs (04 R125 to R131, 05 R170 to R173, 09 R273 to R292, 13 R365). -/

namespace Sys2Proof.Machine

/-- Where an effective address leads: own scratchpad, another core's (with its logical core id), a physical address, or nowhere. -/
inductive Place where
  | own (a : Nat)
  | remote (k q a : Nat)
  | phys (pa : Nat)
  | bad
  deriving DecidableEq, Repr

/-- The classification of an effective address for n bytes (04 R125 with 13 R378; 13 R365 for a helm core). -/
def place (s : State) (ea n : Nat) : Place :=
  let c := s.own
  if s.atHelm then
    if ea + n ≤ 0x200000 then .own ea
    else if ea / 2 ^ 52 = 2 ^ 11 ∧ populated (ea % 2 ^ 52) then .phys (ea % 2 ^ 52) else .bad
  else if ea < 0x800000 then (if c.inside ea n then .own ea else .bad)
  else if c.ctl.spwin ≤ ea ∧ ea < c.ctl.spwin + 2 ^ 38 then
    let k := (ea - c.ctl.spwin) / 0x800000
    let a := (ea - c.ctl.spwin) % 0x800000
    if k < 4 * c.ctl.qcount ∧ c.inside a n then
      (if k = c.ctl.lid then .own a else .remote k (s.coreAt s.me k) a)
    else .bad
  else .bad

/-- The word-scaled effective address of the MEM format, modulo 2^64 (04 R129). -/
def effective (base : Word) (i : BitVec 7) (w : Nat) : Nat :=
  (base + BitVec.ofInt 64 (i.toInt * w)).toNat

/-! ### Reading and writing a scratchpad -/

/-- One byte of a core's scratchpad as its readers see it: the visible half, 0 where the word is poisoned (09 R287, 15 R415). -/
def readByte (s : State) (p a : Nat) : Byte :=
  let pa := spadBase p + (s.core p).visible a
  if s.poisoned pa then 0 else s.mem.get pa

/-- n bytes of a core's scratchpad, little-endian. -/
def readSpad (s : State) (p a : Nat) : Nat → Nat
  | 0 => 0
  | n + 1 => (readByte s p a).toNat + 256 * readSpad s p (a + 1) n

/-- The poisoned words consumed as zero are counted (15 R407, R415). -/
def countPoison (s : State) (p a n : Nat) : State :=
  let k := ((wordsOf (spadBase p + (s.core p).visible a) n).filter s.poison.contains).length
  if k = 0 then s else s.modDie (dieOf p) fun d => { d with poisrd := d.poisrd + BitVec.ofNat 64 k }

/-- A store of n bytes by a scalar agent: the visible half (09 R287). own: the agent is the primary of that core. -/
def writeSpad (s : State) (own : Bool) (p a v n : Nat) : State :=
  s.write own (spadBase p + (s.core p).visible a) v n

/-- Whether two byte ranges share a byte. -/
def overlaps (r : Nat × Nat) (lo hi : Nat) : Bool := decide (r.1 < hi) && decide (lo < r.2)

/-- An element that a bound port has still to read overlaps [lo, hi) (04 R135). -/
def Port.touches (q : Port) (addr : Nat → Nat) (lo hi : Nat) : Bool :=
  (List.range (q.total - q.fetched)).any fun n =>
    let a := addr (q.desc.at_ (q.fetched + n))
    overlaps (a, a + q.desc.width) lo hi

/-- The displacement of element n over dimensions, dimension 0 fastest. -/
def dimOffset : List (Nat × Int) → Nat → Int
  | [], _ => 0
  | (c, st) :: ds, n => (n % c : Nat) * st + dimOffset ds (n / c)

/-- The named bytes of element n of a walk; a byte in none of its scratchpads has a name past every one. -/
def Elements.span (w : Elements) (n : Nat) : Nat × Nat :=
  let b := w.bit + dimOffset w.dims n
  let a := wrapTo 72 (b / 8)
  let lo := match w.parts.find? fun x => decide (x.1 ≤ a ∧ a < x.1 + 0x800000) with
    | some (f, m) => m + (a - f)
    | none => 2 ^ 80 + a
  (lo, lo + ((b % 8).toNat + w.width + 7) / 8)

/-- The first element that has not performed: of its row's group where elements are written together (09 R280). -/
def Elements.first (w : Elements) : Nat :=
  let c := (w.dims.headD (1, 0)).1
  w.done / c * c + w.done % c / w.group * w.group

/-- An element that has not performed overlaps [lo, hi). -/
def Elements.touches (w : Elements) (lo hi : Nat) : Bool :=
  let from_ := w.first
  (List.range (w.total - from_)).any fun n => overlaps (w.span (from_ + n)) lo hi

/-- A command has still to read a byte of [lo, hi): of its ranges, and of its elements where it goes by elements. -/
def Flight.reading (f : Flight) (lo hi : Nat) : Bool :=
  f.reads.any (overlaps · lo hi) && match f.source with | some w => w.touches lo hi | none => true

/-- A command has still to write a byte of [lo, hi). -/
def Flight.writing (f : Flight) (lo hi : Nat) : Bool :=
  f.writes.any (overlaps · lo hi) && match f.sink with | some w => w.touches lo hi | none => true

/-- A command has accesses that have not performed: bytes to read or to write, or a handle to write once it is mapped (01 R34). -/
def Flight.unperformed (f : Flight) : Bool := !f.reads.isEmpty || !f.writes.isEmpty || f.handle.isSome

/-- An earlier access of this core holds back an access of class oc to [lo, hi): an engine command of the class that has an
access there (01 R34, 09 R281), a remote access of the class or of the same bytes (04 R126). Class 16 is no class. A refill's writes hold
back writes alone: reads of its ring are ordered by the watermark (09 R273). -/
def Core.heldBack (c : Core) (p oc lo hi : Nat) (write : Bool) : Bool :=
  c.ports.any (fun q => q.bound && q.desc.oc == oc && q.touches (spadBase p + ·) lo hi) ||
  c.flight.any (fun f => f.oc == oc && (f.reading lo hi || ((write || f.engine != .stream) && f.writing lo hi)))
    || c.remotes.any (fun r => r.result.isNone && (decide (r.oc = oc ∧ oc < 16) || overlaps (r.pa, r.pa + r.width) lo hi))

/-- A faulted block of a visible half that a read of [a, a + n) meets: the failed source address (09 R292). -/
def Core.halfFault (c : Core) (a n : Nat) : Option Nat :=
  c.pmap.toList.findSome? fun e =>
    let (f, o, src) := if e.vis then (e.f1, e.fofs1, e.faddr1) else (e.f0, e.fofs0, e.faddr0)
    if e.v ∧ f ∧ overlaps (64 * (e.base + o), 64 * (e.base + e.len)) a (a + n) then some src else none

/-- The armed checks that a read of [a, a + n) of logical core k (core q) consumes, each with its tag and the stamped one (09 R290). -/
def armed (s : State) (k q a n : Nat) : List (Nat × Nat × Nat) :=
  (List.range 16).filterMap fun i =>
    let e := (s.core q).pmap.toList.getD i {}
    if e.v ∧ overlaps (64 * e.base, 64 * (e.base + e.len)) a (a + n) then
      (s.own.expects.find? fun x => x.1 = k * 16 + i).map fun x => (x.1, x.2, e.tag)
    else none

/-- Checks are consumed. -/
def disarm (s : State) (xs : List (Nat × Nat × Nat)) : State :=
  if xs.isEmpty then s else s.modOwn fun c => { c with expects := c.expects.filter fun x => !xs.any fun y => y.1 == x.1 }

/-- The DETAIL of a schedule fault (03 R121). -/
def tagDetail (expected stamped : Nat) : Nat := stamped * 2 ^ 32 + expected

/-- The numbers of the 64-byte sub-bank words that [a, a + n) touches (04 R122). -/
def subWords (a n : Nat) : List Nat := (List.range ((a % 64 + n + 63) / 64)).map (a / 64 + ·)

/-- The port of a 64-byte word: its bank's, of its sub-bank (04 R122). -/
def portNo (w : Nat) : Nat := w / 0x4000 % 8 * 8 + w % 8

/-- The sub-bank ports that [a, a + n) needs: one for each 64-byte word (04 R122). -/
def portsOf (a n : Nat) : List Nat := (subWords a n).map portNo

/-- A primary's access takes its ports for the cycle (04 R123). -/
def usePorts (s : State) (a n : Nat) : State :=
  s.modOwn fun c => { c with run := { c.run with used := c.run.used ++ portsOf a n } }

/-- An access that is not the primary's takes ports of core q's scratchpad, where none of them is taken in this cycle (04 R123). A core that no sailing holds has
no cycles of its own, and nothing contends there. -/
def State.takePorts (s : State) (q : Nat) (ports : List Nat) : Option State :=
  let c := s.core q
  if c.run.sailing.isNone ∨ ports.isEmpty then some s
  else if ports.any c.run.used.contains then none
  else some (s.modCore q fun c => { c with run := { c.run with used := c.run.used ++ ports } })

/-- A unit that holds some words accesses others: it takes their ports, or none where one of them is taken (04 R123). -/
def State.claim (s : State) (held need : Held) : Option (State × Held) :=
  let new := (need.filter fun x => !held.contains x).eraseDups
  (new.foldl (fun o x => o.bind fun s => s.takePorts x.1 [portNo x.2.1]) (some s)).map fun s => (s, held ++ new)

/-- Several accesses of a unit, in order: each takes the ports of its words where they are free, the others lose (04 R123). -/
def State.claimEach (s : State) (held : Held) (needs : List Held) : State × Held :=
  needs.foldl (fun x need => (x.1.claim x.2 need).getD x) (s, held)

/-- The words of [a, a + n) of core q's scratchpad as a unit reads them, in the half that shows (09 R287). -/
def readNeed (s : State) (q a n : Nat) : Held := (subWords a n).map fun w => (q, (s.core q).visible (64 * w) / 64, false)

/-- The 64-byte words of a range of named bytes. -/
def rangeWords (r : Nat × Nat) : Nat := if r.1 < r.2 then (r.2 + 63) / 64 - r.1 / 64 else 0

/-- Word k of some ranges, those that are written marked: whether it is written, and the name of its first byte. -/
def wordIn : List (Bool × Nat × Nat) → Nat → Option (Bool × Nat)
  | [], _ => none
  | (w, r) :: rs, k => if k < rangeWords r then some (w, 64 * (r.1 / 64 + k)) else wordIn rs (k - rangeWords r)

/-- A unit has accessed the first k words of some ranges: its next ones, at most n of them in the cycle, take their ports in order until one is taken (04 R123). -/
def State.serveWords (s : State) (rs : List (Bool × Nat × Nat)) (k : Nat) : Nat → State × Nat
  | 0 => (s, k)
  | n + 1 =>
    match wordIn rs k with
    | none => (s, k)
    | some (w, a) =>
      match spadOwner a with
      | none => s.serveWords rs (k + 1) n
      | some q =>
        let c := s.core q
        match s.takePorts q [portNo ((if w then c.shadow (a - spadBase q) else c.visible (a - spadBase q)) / 64)] with
        | none => (s, k)
        | some s => s.serveWords rs (k + 1) n

/-- The words that a unit reads and writes, as ranges. -/
def readsWrites (reads writes : List (Nat × Nat)) : List (Bool × Nat × Nat) := reads.map (fun r => (false, r)) ++ writes.map fun r => (true, r)

/-- A primary's read of [a, a + n) of its own scratchpad passes its checks, in the order: half 1 named directly, an armed check,
a faulted half, a faulted or late watermark, class order; then it performs (04 R129, 09 R287 to R292). -/
def ownRead (s : State) (oc a n : Nat) (k : State → Res) : Res :=
  let c := s.own
  if c.spanAlt a n then .fault 0x02 7
  else
    let go (s : State) : Res :=
      match c.halfFault a n with
      | some src => .fault 0x07 src
      | none =>
        match c.watermark a n with
        | some (some f) => .fault 0x07 f
        | some none => .stall 3
        | none =>
          let pa := spadBase s.me + a
          if c.heldBack s.me oc pa (pa + n) false then .stall 4 else k (usePorts (countPoison s s.me a n) (c.visible a) n)
    let xs := armed s c.ctl.lid s.me a n
    match xs.find? fun x => x.2.1 ≠ x.2.2 with
    | some (_, tag, stamp) => .fault 0x04 (tagDetail tag stamp)
    | none => go (disarm s xs)

/-- A primary's write of [a, a + n) of its own scratchpad passes its checks and performs at the end of its cycle (04 R130). -/
def ownWrite (s : State) (oc a n : Nat) (k : State → Res) : Res :=
  let c := s.own
  let pa := spadBase s.me + a
  if c.spanAlt a n then .fault 0x02 7 else if c.heldBack s.me oc pa (pa + n) true then .stall 4 else k (usePorts s (c.visible a) n)

/-- A remote access is sent: class order and same-location order hold it back (04 R126); a read carries the check it consumes. -/
def sendRemote (s : State) (r : Remote) (tagOf : Option (Nat × Nat × Nat)) : Res :=
  let c := s.own
  if c.heldBack s.me r.oc r.pa (r.pa + r.width) true then .stall 4
  else
    let s := disarm s tagOf.toList
    .ok (s.modOwn fun c => { c with
      remotes := c.remotes ++ [{ r with tag := (tagOf.map fun x => (x.1, x.2.1)), seq := c.nextFlight, at_ := s.wall, way := { at_ := s.wall } }] })

/-- The target of a remote access as a physical name address: another core's part of the window, or a helm's physical address. -/
def Place.target : Place → Option (Nat × Option (Nat × Nat × Nat))
  | .remote k q a => some (spadBase q + a, some (k, q, a))
  | .phys pa => some (pa, none)
  | _ => none

/-- A primary names half 1 of another core's entry directly (09 R287). -/
def Place.badHalf (s : State) : Place → Bool
  | .remote _ q a => (s.core q).inAlt a
  | _ => false

/-- The check that a remote read of one address consumes. -/
def Place.armed (s : State) : Place → Option (Nat × Nat × Nat)
  | .remote k q a => (Machine.armed s k q a 1).head?
  | _ => none

/-- A physical access of a helm to control space must be one naturally aligned 8-byte word (15 R408). -/
def Place.badControl (w : Nat) : Place → Bool
  | .phys pa => isControl pa && decide (w ≠ 8)
  | _ => false

/-! ### Skiff requests -/

/-- The bytes that a skiff's request covers. -/
def SkAccess.span (a : SkAccess) : Nat × Nat :=
  match a.kind with
  | .ldb _ | .stb => (a.addr / 8, (a.addr % 8 + a.width + 7) / 8)
  | _ => (a.addr, a.width)

/-- A skiff's request to its own scratchpad: the port in the cycle after the grant (05 R171). -/
def skiffPort (s : State) (p : Nat) (j : BitVec 3) (a : SkAccess) : Res :=
  if (s.core p).spanAlt a.span.1 a.span.2 then .fault 0x0B a.addr
  else .ok (s.modSkiff p j fun k => { k with wait := .port a ((s.core p).run.t + 1) })

/-- A skiff's access leads to its own scratchpad, to another core (it migrates there and executes the access again),
or nowhere (05 R170). -/
def skiffAccess (s : State) (p : Nat) (j : BitVec 3) (ea : Nat) (n : Nat) (a : Nat → SkAccess) (lost : Res) : Res :=
  match place s ea n with
  | .own x => skiffPort s p j (a x)
  | .remote k _ _ => .ok (s.modSkiff p j fun x =>
      { x with wait := .migrate k false, pc := s.cur.addr })
  | _ => lost

/-! ### Loads and stores (04 R129, R130) -/

/-- ld of width w. -/
def load (w : Nat) (d base : BitVec 5) (oc : Nat) (i : BitVec 7) (s : State) : Res :=
  let ea := effective (srcA base s) i w
  if ea % w ≠ 0 then .fault 0x02 7
  else match s.cur.agent with
  | .skiff p j => skiffAccess s p j ea w (fun a => { kind := .load, addr := a, width := w, dst := d }) (.fault 0x0B ea)
  | .core p =>
    match place s ea w with
    | .bad => .fault 0x07 ea
    | .own a => ownRead s oc a w fun s =>
        let v := BitVec.ofNat 64 (readSpad s p a w)
        if d = 0 then reserveLq s fun e s => .ok (s.modCore p fun c => c.land s.cur.slot 6 (.lq e) v)
        else writeA d 6 v s
    | pl =>
      if d ≠ 0 then .fault 0x02 0
      else if pl.badHalf s ∨ pl.badControl w then .fault 0x02 7
      else match pl.target with
        | none => .fault 0x07 ea
        | some (pa, _) => reserveLq s fun e s =>
          sendRemote s { oc := oc, pa := pa, width := w, op := .load, entry := some e, tag := none, due := (s.core p).run.t + 6 }
            (pl.armed s)

/-- The data of a store: register d, or the store-queue head where d is 0, which is s0 in a skiff (04 R130, 05 R168). -/
def storeData (d : BitVec 5) (s : State) (k : Word → State → Res) : Res :=
  match s.cur.agent with
  | .skiff _ _ => k (srcA d s) s
  | .core _ => if d = 0 then popSq s k else k (srcA d s) s

/-- st of width w. -/
def store (w : Nat) (d base : BitVec 5) (oc : Nat) (i : BitVec 7) (s : State) : Res :=
  let ea := effective (srcA base s) i w
  if ea % w ≠ 0 then .fault 0x02 7
  else match s.cur.agent with
  | .skiff p j =>
    skiffAccess s p j ea w (fun a => { kind := .store, addr := a, width := w, val := srcA d s }) (.fault 0x0B ea)
  | .core p =>
    match place s ea w with
    | .bad => .fault 0x07 ea
    | .own a =>
      if (s.core p).inAlt a then .fault 0x02 7
      else storeData d s fun v s => ownWrite s oc a w fun s => .ok (writeSpad s true p a v.toNat w)
    | pl =>
      if pl.badHalf s ∨ pl.badControl w then .fault 0x02 7
      else match pl.target with
        | none => .fault 0x07 ea
        | some (pa, _) => storeData d s fun v s =>
          sendRemote s { oc := oc, pa := pa, width := w, op := .store v, entry := none, tag := none, due := (s.core p).run.t } none

/-! ### Bit fields (04 R131) -/

/-- Bits [b + w - 1 : b] of a core's scratchpad. -/
def readBits (s : State) (p b w : Nat) : Nat :=
  readSpad s p (b / 8) ((b % 8 + w + 7) / 8) / 2 ^ (b % 8) % 2 ^ w

/-- The bytes of a field, with the field replaced by the low w bits of v. -/
def putBits (old sh w v : Nat) : Nat := old - old / 2 ^ sh % 2 ^ w * 2 ^ sh + v % 2 ^ w * 2 ^ sh

/-- A field of w bits at bit address b written, every other bit kept: the old bytes as they stand, poisoned or not. -/
def writeBits (s : State) (own : Bool) (p b w v : Nat) : State :=
  let n := (b % 8 + w + 7) / 8
  (List.range n).foldl (fun s i =>
    let a := b / 8 + i
    let pa := spadBase p + (s.core p).visible a
    let lo := 8 * i - b % 8
    let sh := if i = 0 then b % 8 else 0
    let wd := Nat.min (8 - sh) (w - lo)
    s.write own pa (putBits (s.read pa 1) sh wd (v / 2 ^ lo)) 1) s

/-- Whether a field crosses a 64-byte sub-bank word. -/
def straddles (b w : Nat) : Bool := decide (b / 512 ≠ (b + w - 1) / 512)

/-- The bit address is good: bits [63:26] zero, the field inside the scratchpad and the carve-out (04 R131, 13 R378). -/
def bitsInside (s : State) (b w : Nat) : Bool :=
  decide (b + w ≤ 2 ^ 26) && s.own.inside (b / 8) ((b % 8 + w + 7) / 8)

/-- A field sign- or zero-extended to 64 bits. -/
def extendBits (sx : Bool) (v w : Nat) : Word := if sx then BitVec.ofInt 64 (sextOf v w) else BitVec.ofNat 64 v

/-- ldb. -/
def loadBits (d base : BitVec 5) (oc : Nat) (sx : Bool) (w : Nat) (s : State) : Res :=
  let b := (srcA base s).toNat
  if s.atHelm ∧ 2 ^ 24 < b + w then .fault 0x02 7
  else if ¬ s.atHelm ∧ ¬ bitsInside s b w then .fault 0x02 7
  else match s.cur.agent with
  | .skiff p j => skiffPort s p j { kind := .ldb sx, addr := b, width := w, dst := d }
  | .core p =>
    ownRead s oc (b / 8) ((b % 8 + w + 7) / 8) fun s =>
      let v := extendBits sx (readBits s p b w) w
      let lat := if straddles b w then 7 else 6
      if d = 0 then reserveLq s fun e s => .ok (s.modCore p fun c => c.land s.cur.slot lat (.lq e) v) else writeA d lat v s

/-- stb. -/
def storeBits (d base : BitVec 5) (oc : Nat) (w : Nat) (s : State) : Res :=
  let b := (srcA base s).toNat
  if s.atHelm ∧ 2 ^ 24 < b + w then .fault 0x02 7
  else if ¬ s.atHelm ∧ ¬ bitsInside s b w then .fault 0x02 7
  else match s.cur.agent with
  | .skiff p j => skiffPort s p j { kind := .stb, addr := b, width := w, val := srcA d s }
  | .core p =>
    if (s.core p).spanAlt (b / 8) ((b % 8 + w + 7) / 8) then .fault 0x02 7
    else storeData d s fun v s => ownWrite s oc (b / 8) ((b % 8 + w + 7) / 8) fun s => .ok (writeBits s true p b w v.toNat)

/-! ### Atomics (04 R140) -/

/-- The new value of an atomic on w bytes: op, old value, operand, and the second operand of cas. -/
def amoNew (op w old b new : Nat) : Nat :=
  let m := 2 ^ (8 * w)
  let signed (v : Nat) : Int := sextOf v (8 * w)
  match op with
  | 0 => b
  | 1 => (old + b) % m
  | 2 => Nat.land old b
  | 3 => Nat.lor old b
  | 4 => Nat.xor old b
  | 5 => if signed b < signed old then b else old
  | 6 => if signed old < signed b then b else old
  | 7 => Nat.min old b
  | 8 => Nat.max old b
  | _ => if old = b then new % m else old

/-- amo of width w: d holds the operation code o, register b the operand, register b + 1 the new value of cas. -/
def atomic (w : Nat) (o base b : BitVec 5) (oc : Nat) (s : State) : Res :=
  let ea := (srcA base s).toNat
  let v := (srcA b s).toNat % 2 ^ (8 * w)
  let v2 := srcA (b + 1) s
  if ea % w ≠ 0 then .fault 0x02 7
  else match s.cur.agent with
  | .skiff p j => skiffAccess s p j ea w
      (fun a => { kind := .amo o.toNat, addr := a, width := w, val := BitVec.ofNat 64 v, val2 := v2, dst := b }) (.fault 0x0B ea)
  | .core p =>
    match place s ea w with
    | .bad => .fault 0x07 ea
    | .own a => ownRead s oc a w fun s =>
        let old := readSpad s p a w
        reserveLq (writeSpad s true p a (amoNew o.toNat w old v v2.toNat) w) fun e s =>
          .ok (s.modCore p fun c => c.land s.cur.slot 8 (.lq e) (BitVec.ofNat 64 old))
    | pl =>
      if pl.badHalf s ∨ pl.badControl w then .fault 0x02 7
      else match pl.target with
        | none => .fault 0x07 ea
        | some (pa, _) => reserveLq s fun e s =>
          sendRemote s { oc := oc, pa := pa, width := w, op := .amo o.toNat (BitVec.ofNat 64 v) v2, entry := some e, tag := none,
                         due := (s.core p).run.t } (pl.armed s)

end Sys2Proof.Machine
end

