-- ==== Sys2Proof/Machine/Flags.lean ====
section
/-! DEFINITION. Every comparison that writes a guard, and the guard logic of gop (03 R94, R113, 04 R144, R152, R155). -/

namespace Sys2Proof.Machine

/-- The integer conditions of cmp and cmpi (04 R144): eq, ne, lt, ge, ltu, geu. -/
def condition (c : Nat) (a b : Word) : Bool :=
  match c with
  | 0 => a == b
  | 1 => a != b
  | 2 => a.slt b
  | 3 => !a.slt b
  | 4 => a.ult b
  | _ => !a.ult b

/-- The functions of gop (03 R113). -/
def guardFn (f : BitVec 3) (a b : Bool) : Bool :=
  match f.toNat with
  | 0 => a && b
  | 1 => a || b
  | 2 => a != b
  | 3 => a && !b
  | 4 => a || !b
  | 5 => !a
  | 6 => true
  | _ => false

/-- The conditions of tcmp on sign-extended tapered words (04 R152). -/
def taperedCondition (c : Nat) (a b : Int) : Bool :=
  match c with
  | 0 => a == b
  | 1 => a != b
  | 2 => decide (a < b)
  | _ => decide (b ≤ a)

end Sys2Proof.Machine
end

