-- ==== Sys2Proof/WellFormed.lean ====
section
/-! DEFINITION. The field checks of one instruction that do not depend on who issues it (03 R90; each instruction's own rule):
a code that is not listed, a register its file does not have, a guard destination of g0, an odd pair, a bad scope. -/

namespace Sys2Proof

/-- The first bad field of an instruction as the operand number of 03 R121 (0 d, 1 s1, 2 s2, 4 fn, 5 immediate,
6 extension word), or none when every field is as its rule lays down. -/
def Instr.badField : Instr → Option Nat
  | .addA _ _ _ _ f => if 7 < f.toNat then some 4 else none
  | .addiA _ _ _ _ => none
  | .liA _ _ _ => none
  | .liuA _ _ _ => none
  | .cmpA _ h _ _ c => if h = 0 then some 0 else if 5 < c.toNat then some 4 else none
  | .cmpiA _ h _ c _ => if h = 0 then some 0 else if 5 < c.toNat then some 5 else none
  | .ldB _ _ _ _ _ => none
  | .ldH _ _ _ _ _ => none
  | .ldW _ _ _ _ _ => none
  | .ldD _ _ _ _ _ => none
  | .stB _ _ _ _ _ => none
  | .stH _ _ _ _ _ => none
  | .stW _ _ _ _ _ => none
  | .stD _ _ _ _ _ => none
  | .ldb _ _ _ _ _ _ => none
  | .stb _ _ _ _ _ => none
  | .fenceOc _ s _ => if s = 0 ∨ 5 < s.toNat then some 4 else none
  | .fenceOcAll _ s _ => if s = 0 ∨ 5 < s.toNat then some 4 else none
  | .amoW _ o _ b _ => if 9 < o.toNat then some 0 else if o = 9 ∧ b.toNat % 2 = 1 then some 2 else none
  | .amoD _ o _ b _ => if 9 < o.toNat then some 0 else if o = 9 ∧ b.toNat % 2 = 1 then some 2 else none
  | .sbind _ r _ f _ => if (f = 0 ∧ r = 0) ∨ 15 < r.toNat then some 0 else none
  | .sbindU _ r f _ => if (f = 0 ∧ r = 0) ∨ 15 < r.toNat then some 0 else none
  | .lxsend _ _ => none
  | .lxsendCh _ _ _ => none
  | .lxsendCls _ _ => none
  | .pub _ s _ _ _ => if s = 0 ∨ 5 < s.toNat then some 0 else none
  | .pubMap _ _ _ => none
  | .pubUnmap _ _ => none
  | .expect _ _ _ => none
  | .expectC _ _ => none
  | .cp _ _ _ _ f => if 5 < f.toNat then some 4 else none
  | .sldB _ _ _ _ _ => none
  | .sldH _ _ _ _ _ => none
  | .sldW _ _ _ _ _ => none
  | .sldD _ _ _ _ _ => none
  | .sstB _ _ _ _ _ => none
  | .sstH _ _ _ _ _ => none
  | .sstW _ _ _ _ _ => none
  | .sstD _ _ _ _ _ => none
  | .samoW _ o _ b _ => if 9 < o.toNat then some 0 else if o = 9 ∧ b.toNat % 2 = 1 then some 2 else none
  | .samoD _ o _ b _ => if 9 < o.toNat then some 0 else if o = 9 ∧ b.toNat % 2 = 1 then some 2 else none
  | .facqW _ _ _ _ _ s _ => if s = 0 ∨ 5 < s.toNat then some 6 else none
  | .facqT _ h _ _ _ _ s _ => if h = 0 then some 0 else if s = 0 ∨ 5 < s.toNat then some 6 else none
  | .frel _ _ _ _ _ s _ => if s = 0 ∨ 5 < s.toNat then some 6 else none
  | .addX _ _ _ _ f => if 13 < f.toNat then some 4 else none
  | .addiX _ _ _ _ => none
  | .andi _ _ _ _ => none
  | .ori _ _ _ _ => none
  | .xori _ _ _ _ => none
  | .shli _ _ _ _ => none
  | .shri _ _ _ _ => none
  | .srai _ _ _ _ => none
  | .liX _ _ _ => none
  | .liuX _ _ _ => none
  | .cmpX _ h _ _ c => if h = 0 then some 0 else if 5 < c.toNat then some 4 else none
  | .cmpiX _ h _ c _ => if h = 0 then some 0 else if 5 < c.toNat then some 5 else none
  | .sel _ _ _ _ _ => none
  | .mul _ _ _ _ f => if f = 3 then some 4 else none
  | .mulw _ d _ _ _ => if d.toNat % 2 = 1 then some 0 else none
  | .div _ _ _ _ _ => none
  | .bcnt _ _ _ f => if 2 < f.toNat then some 4 else none
  | .ext _ _ _ l p => if 64 < p.toNat + l.toNat + 1 then some 5 else none
  | .ins _ _ _ l p => if 64 < p.toNat + l.toNat + 1 then some 5 else none
  | .exts _ _ _ l p => if 64 < p.toNat + l.toNat + 1 then some 5 else none
  | .crc8 _ _ _ _ _ => none
  | .rng _ _ _ _ _ => none
  | .tdec _ _ _ _ => none
  | .tcmp _ h _ _ _ _ => if h = 0 then some 0 else none
  | .tcvt _ _ _ k e s => if k = 3 then some 4 else if k = 1 ∧ s ≠ 0 then some 4 else if k = 2 ∧ e ≠ 0 then some 4 else none
  | .fadd _ _ _ _ _ => none
  | .fsub _ _ _ _ _ => none
  | .fmul _ _ _ _ _ => none
  | .fma _ _ _ _ _ _ => none
  | .fms _ _ _ _ _ _ => none
  | .fnma _ _ _ _ _ _ => none
  | .fdiv _ _ _ _ _ => none
  | .fsqrt _ _ _ _ => none
  | .fmin _ _ _ _ _ => none
  | .fmax _ _ _ _ _ => none
  | .fcmp _ h _ _ c _ => if h = 0 then some 0 else if 4 < c.toNat then some 4 else none
  | .fcvt _ _ _ _ _ => none
  | .fsgn _ _ _ _ o _ => if o = 3 then some 4 else none
  | .fcls _ _ _ _ => none
  | .tadd _ _ _ _ _ => none
  | .tsub _ _ _ _ _ => none
  | .tmul _ _ _ _ _ => none
  | .vadd _ _ _ _ _ k => if 3 < k.toNat then some 4 else none
  | .vsub _ _ _ _ _ k => if 3 < k.toNat then some 4 else none
  | .vmul _ _ _ _ _ k => if 3 < k.toNat then some 4 else none
  | .vfma _ _ _ _ _ k => if 3 < k.toNat then some 4 else none
  | .vfms _ _ _ _ _ k => if 3 < k.toNat then some 4 else none
  | .vfnma _ _ _ _ _ k => if 3 < k.toNat then some 4 else none
  | .vmin _ _ _ _ _ k => if 3 < k.toNat then some 4 else none
  | .vmax _ _ _ _ _ k => if 3 < k.toNat then some 4 else none
  | .vabs _ _ _ _ k => if 3 < k.toNat then some 4 else none
  | .vcvt _ _ _ _ _ => none
  | .vsf _ _ _ f _ r k => if 11 < f.toNat then some 2 else if 1 < k.toNat ∨ (k = 0 ∧ r = 0) then some 4 else none
  | .vred _ _ _ _ o k => if o = 3 ∨ 4 < k.toNat ∨ (k = 4 ∧ o ≠ 0) then some 4 else none
  | .vscan _ _ _ _ o k => if o = 3 ∨ 4 < k.toNat ∨ (k = 4 ∧ o ≠ 0) then some 4 else none
  | .vcmp _ _ _ _ _ _ k => if 4 < k.toNat then some 4 else none
  | .vsel _ _ _ _ _ k => if 3 < k.toNat then some 4 else none
  | .vmov _ _ _ _ k => if 3 < k.toNat then some 4 else none
  | .vfill _ _ _ _ => none
  | .vdot _ _ _ _ _ k => if 4 < k.toNat then some 4 else none
  | .tdecv _ _ _ _ => none
  | .vqacc _ q _ _ _ => if 3 < q.toNat then some 0 else none
  | .vqaccS _ q _ _ => if 3 < q.toNat then some 0 else none
  | .vqrd _ _ q _ => if 3 < q.toNat then some 1 else none
  | .vqrdZ _ _ q _ => if 3 < q.toNat then some 1 else none
  | .vqclr _ q w => if 3 < q.toNat then some 0 else if w = 3 then some 4 else none
  | .vloop _ _ _ => none
  | .vsync _ _ => none
  | .vsyncT _ _ h => if h = 0 then some 0 else none
  | .chs _ _ _ _ => none
  | .chv _ _ _ _ => none
  | .mlease _ n => if n = 0 ∨ 64 < n.toNat then some 5 else none
  | .mfree _ => none
  | .mcfg _ d _ t => if 4 < t.toNat then some 4 else if (t = 2 ∧ d.toNat % 2 ≠ 0) ∨ (t = 3 ∧ d.toNat % 4 ≠ 0) ∨ (t = 4 ∧ d.toNat % 8 ≠ 0) then some 0 else none
  | .mcfgLd _ d _ _ _ t => if 4 < t.toNat then some 4 else if (t = 2 ∧ d.toNat % 2 ≠ 0) ∨ (t = 3 ∧ d.toNat % 4 ≠ 0) ∨ (t = 4 ∧ d.toNat % 8 ≠ 0) then some 0 else none
  | .mcfgAdd _ d _ _ _ t => if 4 < t.toNat ∨ t = 2 then some 4 else if (t = 2 ∧ d.toNat % 2 ≠ 0) ∨ (t = 3 ∧ d.toNat % 4 ≠ 0) ∨ (t = 4 ∧ d.toNat % 8 ≠ 0) then some 0 else none
  | .mgath _ _ _ _ _ => none
  | .mlatb _ _ _ _ => none
  | .mma _ _ _ _ _ _ => none
  | .mmas _ _ _ _ _ _ => none
  | .mst _ _ _ _ _ => none
  | .mstRaw _ _ _ _ _ => none
  | .mstSt _ _ _ => none
  | .mcomp _ _ _ _ _ => none
  | .mtile _ _ x p _ _ _ => if 12 < x.toNat then some 1 else if 14 < p.toNat then some 2 else none
  | .mwalk _ _ x p _ => if 12 < x.toNat then some 1 else if 12 < p.toNat then some 2 else none
  | .mdld _ _ _ _ => none
  | .mdst _ _ _ _ => none
  | .route _ _ _ => none
  | .routeTx _ _ _ => none
  | .mli _ d _ => if 15 < d.toNat then some 0 else none
  | .mliu _ d _ => if 15 < d.toNat then some 0 else none
  | .madd _ d a b f => if 15 < d.toNat then some 0 else if 15 < a.toNat then some 1 else if 15 < b.toNat then some 2 else if 6 < f.toNat then some 4 else none
  | .maddi _ d a _ => if 15 < d.toNat then some 0 else if 15 < a.toNat then some 1 else none
  | .br _ _ => none
  | .brl _ _ => none
  | .brr _ s => if 15 < s.toNat then some 1 else none
  | .brrL _ s => if 15 < s.toNat then some 1 else none
  | .lset _ _ i k _ => if i = 0 ∧ 15 < k.toNat then some 5 else none
  | .lupd _ _ a i d => if a = 0 then some 0 else if i = 0 ∧ 15 < d.toNat then some 5 else none
  | .ltrim _ s _ => if 15 < s.toNat then some 1 else none
  | .halt _ => none
  | .gop _ d _ _ _ => if d = 0 then some 0 else none
  | .cli _ d _ => if 15 < d.toNat then some 0 else none
  | .cget _ d _ => if 15 < d.toNat then some 0 else none
  | .cset _ s _ => if 15 < s.toNat ∨ s = 14 then some 0 else none
  | .spawn _ _ e => if 15 < e.toNat then some 1 else none
  | .join _ d => if 15 < d.toNat then some 0 else none
  | .spawnS _ h e a _ => if h = 0 then some 0 else if 15 < e.toNat then some 1 else if 15 < a.toNat then some 2 else none
  | .trap _ _ => none
  | .chw _ e _ => if 15 < e.toNat then some 1 else none
  | .chwRel _ e _ => if 15 < e.toNat then some 1 else none
  | .chr _ d e => if d = 0 ∨ 29 < d.toNat then some 0 else if 15 < e.toNat then some 1 else none
  | .chrAcq _ d e => if d = 0 ∨ 29 < d.toNat then some 0 else if 15 < e.toNat then some 1 else none
  | .barSync _ _ s => if s.toNat < 2 ∨ 5 < s.toNat then some 4 else none
  | .barArr _ _ s => if s.toNat < 2 ∨ 5 < s.toNat then some 4 else none
  | .barWait _ _ s => if s.toNat < 2 ∨ 5 < s.toNat then some 4 else none
  | .coll _ d s n p _ => if 15 < d.toNat then some 0 else if 15 < s.toNat then some 1 else if 15 < n.toNat then some 2 else if p.toNat < 2 ∨ 5 < p.toNat then some 4 else none
  | .cmbxMax _ p h => if 15 < p.toNat then some 1 else if 15 < h.toNat then some 2 else none
  | .cmbxMerge _ p h => if 15 < p.toNat then some 1 else if 15 < h.toNat then some 2 else none
  | .cmbxArmmax _ p h => if 15 < p.toNat then some 1 else if 15 < h.toNat then some 2 else none
  | .cmbxArmmerge _ p h => if 15 < p.toNat then some 1 else if 15 < h.toNat then some 2 else none
  | .sqOpen _ b _ => if 15 < b.toNat then some 1 else none
  | .sqFeed _ b _ => if 15 < b.toNat then some 1 else none
  | .sqFeedAcc _ b _ => if 15 < b.toNat then some 1 else none
  | .sqMask _ b _ => if 15 < b.toNat then some 1 else none
  | .sqFork _ b _ => if 15 < b.toNat then some 1 else none
  | .sqRoll _ b _ => if 15 < b.toNat then some 1 else none
  | .sqSampG _ b _ => if 15 < b.toNat then some 1 else none
  | .sqSampP _ b _ => if 15 < b.toNat then some 1 else none
  | .sqSampFin _ b _ => if 15 < b.toNat then some 1 else none
  | .sqCommit _ b _ => if 15 < b.toNat then some 1 else none
  | .sqFree _ b _ => if 15 < b.toNat then some 1 else none
  | .sqFreeRec _ b _ => if 15 < b.toNat then some 1 else none
  | .mig _ k => if 15 < k.toNat then some 1 else none
  | .yield _ => none
  | .snooze _ s => if 15 < s.toNat then some 1 else none
  | .snoozeW _ s => if 15 < s.toNat then some 1 else none
  | .sexit _ => none
  | .sail _ l s => if 15 < l.toNat then some 1 else if 15 < s.toNat then some 2 else none
  | .swait _ s => if 15 < s.toNat then some 1 else none
  | .preempt _ s => if 15 < s.toNat then some 1 else none
  | .preemptKill _ s => if 15 < s.toNat then some 1 else none
  | .ctxsv _ s _ => if 15 < s.toNat then some 1 else none
  | .ctxld _ s _ => if 15 < s.toNat then some 1 else none
  | .qpop _ b => if 15 < b.toNat then some 1 else none
  | .qpush _ q b => if 15 < q.toNat then some 1 else if 15 < b.toNat then some 2 else none
  | .qpushCfg _ q b => if 15 < q.toNat then some 1 else if 15 < b.toNat then some 2 else none
  | .pgenCap _ p d => if 15 < p.toNat then some 1 else if 15 < d.toNat then some 2 else none
  | .pgenPub _ p => if 15 < p.toNat then some 1 else none
  | .tlbm _ s a => if 15 < s.toNat then some 1 else if 15 < a.toNat then some 2 else none
  | .ovfld _ v => if 15 < v.toNat then some 1 else none
  | .ovfldSelf _ v => if 15 < v.toNat then some 1 else none
  | .bundleIssue _ => none
  | .bundleSkip _ => none
  | .stallEnd _ => none
  | .driftRecordDrain _ => none
  | .resultLanding _ => none
  | .lqFill _ => none
  | .landingOverdue _ => none
  | .segmentPrefetch _ => none
  | .segmentMiss _ => none
  | .remoteAccessPerform _ => none
  | .remoteReply _ => none
  | .streamPortRefill _ => none
  | .skiffBarrelGrant _ => none
  | .skiffFetch _ _ => none
  | .skiffOpComplete _ _ => none
  | .skiffPortRequest _ _ => none
  | .skiffCacheFill _ => none
  | .skiffTlbWalkResult _ _ => none
  | .migrationPack _ _ => none
  | .migrationMessage _ => none
  | .migrationResend _ => none
  | .corePartEnd _ => none
  | .sfuRequestServe _ => none
  | .vectorEntryStart _ => none
  | .vectorEntryComplete _ => none
  | .leaseGrant _ => none
  | .arrayCommandStart _ => none
  | .arrayCommandComplete _ => none
  | .macroKStep _ => none
  | .mdldWrite _ => none
  | .refillStart _ _ => none
  | .watermarkAdvance _ _ => none
  | .refillFault _ _ => none
  | .lighterAccept _ => none
  | .lighterStart _ => none
  | .lighterComplete _ => none
  | .pageWalk _ => none
  | .markerPass _ => none
  | .dieShootdown _ => none
  | .linkAlignment _ _ => none
  | .flitDelivery _ => none
  | .flitResend _ => none
  | .holdRequest _ => none
  | .holdFreeze => none
  | .holdFreezeEnd => none
  | .residueSlot _ => none
  | .tollPeriodBoundary _ => none
  | .powerLimit _ _ _ => none
  | .channelSlot _ _ => none
  | .channelWordArrival _ _ => none
  | .creditReturn _ _ => none
  | .barrierArrival _ => none
  | .barrierCompletion _ => none
  | .collectiveComplete _ => none
  | .combiningPacket _ => none
  | .roslysFrame _ _ => none
  | .portDown _ _ => none
  | .sqCommandComplete _ => none
  | .grammarStoreWrite _ _ _ => none
  | .routeComplete _ => none
  | .tokenRowArrival _ => none
  | .sailingStart _ => none
  | .sailingDone _ => none
  | .preemptMark _ => none
  | .stopCycle _ => none
  | .killComplete _ => none
  | .budgetPeriodBoundary _ => none
  | .hostChannelWrite _ _ _ => none
  | .hostOutboundRead _ _ => none
  | .hostFaultPop _ => none
  | .mcfgWrite _ _ _ => none
  | .lmselWrite _ _ => none
  | .wakectlWrite _ _ => none
  | .wakeDone _ => none
  | .dbgStop _ => none
  | .dbgGo _ => none
  | .dbgStep _ => none
  | .debugStopTaken _ => none
  | .clkselWrite _ _ => none
  | .clockChange => none
  | .packageReset _ => none
  | .reboot _ => none
  | .boot _ => none
  | .attgoWrite _ _ => none
  | .attestationSigned _ => none
  | .controlRegisterWrite _ _ => none
  | .scrub _ _ => none
  | .hbmPatrolScrub _ => none
  | .thermalShutdown _ => none
  | .hostMemoryWrite _ _ _ => none
  | .invalidationArrival _ => none
  | .mdstComplete _ => none

/-- An instruction whose fields are all as the spec lays down. -/
abbrev Instr.WellFormed (i : Instr) : Prop := i.badField = none

end Sys2Proof
end

