-- ==== Sys2Proof/Decode.lean ====
section
/-! DEFINITION. From code words to instructions and back, both written from the encoding tables (03 R86 to R90, R100):
decodeSlot is total and rejects by name; encode writes the words of a well-formed instruction. -/

namespace Sys2Proof

/-- Why a slot word is no instruction (03 R90): its opcode is illegal in its class, or a field of it
is (operand numbered as in the DETAIL of 03 R121). -/
inductive Bad where
  | illegalOpcode
  | operand (n : Nat)
  deriving DecidableEq, Repr

/-- The A class of the opcode map (03 R100): opcode, then the fields its rows fix, then the operands. -/
def parseA (w e : Code) : Except Bad Instr :=
  match (w.extractLsb' 25 7).toNat with
  | 1 => .ok (.addA (w.extractLsb' 21 4) (w.extractLsb' 16 5) (w.extractLsb' 11 5) (w.extractLsb' 6 5) (w.extractLsb' 0 6))
  | 2 => .ok (.addiA (w.extractLsb' 21 4) (w.extractLsb' 16 5) (w.extractLsb' 11 5) (w.extractLsb' 0 11))
  | 3 => .ok (.liA (w.extractLsb' 21 4) (w.extractLsb' 16 5) (w.extractLsb' 0 16))
  | 4 => .ok (.liuA (w.extractLsb' 21 4) (w.extractLsb' 16 5) (w.extractLsb' 0 16))
  | 5 => if w.extractLsb' 20 1 ≠ 0 then .error (.operand 0) else if w.extractLsb' 3 3 ≠ 0 then .error (.operand 4) else .ok (.cmpA (w.extractLsb' 21 4) (w.extractLsb' 16 4) (w.extractLsb' 11 5) (w.extractLsb' 6 5) (w.extractLsb' 0 3))
  | 6 => if w.extractLsb' 20 1 ≠ 0 then .error (.operand 0) else .ok (.cmpiA (w.extractLsb' 21 4) (w.extractLsb' 16 4) (w.extractLsb' 11 5) (w.extractLsb' 8 3) (w.extractLsb' 0 8))
  | 8 => .ok (.ldB (w.extractLsb' 21 4) (w.extractLsb' 16 5) (w.extractLsb' 11 5) (w.extractLsb' 7 4) (w.extractLsb' 0 7))
  | 9 => .ok (.ldH (w.extractLsb' 21 4) (w.extractLsb' 16 5) (w.extractLsb' 11 5) (w.extractLsb' 7 4) (w.extractLsb' 0 7))
  | 10 => .ok (.ldW (w.extractLsb' 21 4) (w.extractLsb' 16 5) (w.extractLsb' 11 5) (w.extractLsb' 7 4) (w.extractLsb' 0 7))
  | 11 => .ok (.ldD (w.extractLsb' 21 4) (w.extractLsb' 16 5) (w.extractLsb' 11 5) (w.extractLsb' 7 4) (w.extractLsb' 0 7))
  | 12 => .ok (.stB (w.extractLsb' 21 4) (w.extractLsb' 16 5) (w.extractLsb' 11 5) (w.extractLsb' 7 4) (w.extractLsb' 0 7))
  | 13 => .ok (.stH (w.extractLsb' 21 4) (w.extractLsb' 16 5) (w.extractLsb' 11 5) (w.extractLsb' 7 4) (w.extractLsb' 0 7))
  | 14 => .ok (.stW (w.extractLsb' 21 4) (w.extractLsb' 16 5) (w.extractLsb' 11 5) (w.extractLsb' 7 4) (w.extractLsb' 0 7))
  | 15 => .ok (.stD (w.extractLsb' 21 4) (w.extractLsb' 16 5) (w.extractLsb' 11 5) (w.extractLsb' 7 4) (w.extractLsb' 0 7))
  | 16 => if w.extractLsb' 10 1 ≠ 0 then .error (.operand 2) else .ok (.ldb (w.extractLsb' 21 4) (w.extractLsb' 16 5) (w.extractLsb' 11 5) (w.extractLsb' 6 4) (w.extractLsb' 5 1) (w.extractLsb' 0 5))
  | 17 => if w.extractLsb' 10 1 ≠ 0 then .error (.operand 2) else if w.extractLsb' 5 1 ≠ 0 then .error (.operand 4) else .ok (.stb (w.extractLsb' 21 4) (w.extractLsb' 16 5) (w.extractLsb' 11 5) (w.extractLsb' 6 4) (w.extractLsb' 0 5))
  | 18 =>
    if w.extractLsb' 20 1 = 0 then if w.extractLsb' 16 1 ≠ 0 then .error (.operand 4) else .ok (.fenceOc (w.extractLsb' 21 4) (w.extractLsb' 17 3) (w.extractLsb' 0 16)) else
    if w.extractLsb' 20 1 = 1 then if w.extractLsb' 16 1 ≠ 0 then .error (.operand 4) else .ok (.fenceOcAll (w.extractLsb' 21 4) (w.extractLsb' 17 3) (w.extractLsb' 0 16)) else
    .error (.operand 4)
  | 19 => if w.extractLsb' 4 2 ≠ 0 then .error (.operand 4) else .ok (.amoW (w.extractLsb' 21 4) (w.extractLsb' 16 5) (w.extractLsb' 11 5) (w.extractLsb' 6 5) (w.extractLsb' 0 4))
  | 20 => if w.extractLsb' 4 2 ≠ 0 then .error (.operand 4) else .ok (.amoD (w.extractLsb' 21 4) (w.extractLsb' 16 5) (w.extractLsb' 11 5) (w.extractLsb' 6 5) (w.extractLsb' 0 4))
  | 21 =>
    if w.extractLsb' 3 1 = 0 then if w.extractLsb' 6 5 ≠ 0 then .error (.operand 2) else if w.extractLsb' 4 2 ≠ 0 then .error (.operand 4) else .ok (.sbind (w.extractLsb' 21 4) (w.extractLsb' 16 5) (w.extractLsb' 11 5) (w.extractLsb' 2 1) (w.extractLsb' 0 2)) else
    if w.extractLsb' 3 1 = 1 then if w.extractLsb' 11 5 ≠ 0 then .error (.operand 1) else if w.extractLsb' 6 5 ≠ 0 then .error (.operand 2) else if w.extractLsb' 4 2 ≠ 0 then .error (.operand 4) else .ok (.sbindU (w.extractLsb' 21 4) (w.extractLsb' 16 5) (w.extractLsb' 2 1) (w.extractLsb' 0 2)) else
    .error (.operand 4)
  | 22 =>
    if w.extractLsb' 0 2 = 0 then if w.extractLsb' 16 5 ≠ 0 then .error (.operand 0) else if w.extractLsb' 6 5 ≠ 0 then .error (.operand 2) else if w.extractLsb' 2 4 ≠ 0 then .error (.operand 4) else .ok (.lxsend (w.extractLsb' 21 4) (w.extractLsb' 11 5)) else
    if w.extractLsb' 0 2 = 1 then if w.extractLsb' 19 2 ≠ 0 then .error (.operand 0) else if w.extractLsb' 6 5 ≠ 0 then .error (.operand 2) else if w.extractLsb' 2 4 ≠ 0 then .error (.operand 4) else .ok (.lxsendCh (w.extractLsb' 21 4) (w.extractLsb' 16 3) (w.extractLsb' 11 5)) else
    if w.extractLsb' 0 2 = 2 then if w.extractLsb' 19 2 ≠ 0 then .error (.operand 0) else if w.extractLsb' 11 5 ≠ 0 then .error (.operand 1) else if w.extractLsb' 6 5 ≠ 0 then .error (.operand 2) else if w.extractLsb' 2 4 ≠ 0 then .error (.operand 4) else .ok (.lxsendCls (w.extractLsb' 21 4) (w.extractLsb' 16 3)) else
    .error (.operand 4)
  | 23 =>
    if w.extractLsb' 4 2 = 0 then if w.extractLsb' 19 2 ≠ 0 then .error (.operand 0) else .ok (.pub (w.extractLsb' 21 4) (w.extractLsb' 16 3) (w.extractLsb' 11 5) (w.extractLsb' 6 5) (w.extractLsb' 0 4)) else
    if w.extractLsb' 4 2 = 1 then if w.extractLsb' 20 1 ≠ 0 then .error (.operand 0) else if w.extractLsb' 6 5 ≠ 0 then .error (.operand 2) else if w.extractLsb' 0 4 ≠ 0 then .error (.operand 4) else .ok (.pubMap (w.extractLsb' 21 4) (w.extractLsb' 16 4) (w.extractLsb' 11 5)) else
    if w.extractLsb' 4 2 = 2 then if w.extractLsb' 20 1 ≠ 0 then .error (.operand 0) else if w.extractLsb' 11 5 ≠ 0 then .error (.operand 1) else if w.extractLsb' 6 5 ≠ 0 then .error (.operand 2) else if w.extractLsb' 0 4 ≠ 0 then .error (.operand 4) else .ok (.pubUnmap (w.extractLsb' 21 4) (w.extractLsb' 16 4)) else
    .error (.operand 4)
  | 24 =>
    if w.extractLsb' 0 1 = 0 then if w.extractLsb' 16 5 ≠ 0 then .error (.operand 0) else if w.extractLsb' 1 5 ≠ 0 then .error (.operand 4) else .ok (.expect (w.extractLsb' 21 4) (w.extractLsb' 11 5) (w.extractLsb' 6 5)) else
    if w.extractLsb' 0 1 = 1 then if w.extractLsb' 16 5 ≠ 0 then .error (.operand 0) else if w.extractLsb' 6 5 ≠ 0 then .error (.operand 2) else if w.extractLsb' 1 5 ≠ 0 then .error (.operand 4) else .ok (.expectC (w.extractLsb' 21 4) (w.extractLsb' 11 5)) else
    .error (.operand 4)
  | 63 => if w.extractLsb' 6 5 ≠ 0 then .error (.operand 2) else if w.extractLsb' 5 1 ≠ 0 then .error (.operand 4) else .ok (.cp (w.extractLsb' 21 4) (w.extractLsb' 16 5) (w.extractLsb' 11 5) (w.extractLsb' 3 2) (w.extractLsb' 0 3))
  | 64 => .ok (.sldB (w.extractLsb' 21 4) (w.extractLsb' 16 5) (w.extractLsb' 11 5) (w.extractLsb' 7 4) (w.extractLsb' 0 7))
  | 65 => .ok (.sldH (w.extractLsb' 21 4) (w.extractLsb' 16 5) (w.extractLsb' 11 5) (w.extractLsb' 7 4) (w.extractLsb' 0 7))
  | 66 => .ok (.sldW (w.extractLsb' 21 4) (w.extractLsb' 16 5) (w.extractLsb' 11 5) (w.extractLsb' 7 4) (w.extractLsb' 0 7))
  | 67 => .ok (.sldD (w.extractLsb' 21 4) (w.extractLsb' 16 5) (w.extractLsb' 11 5) (w.extractLsb' 7 4) (w.extractLsb' 0 7))
  | 68 => .ok (.sstB (w.extractLsb' 21 4) (w.extractLsb' 16 5) (w.extractLsb' 11 5) (w.extractLsb' 7 4) (w.extractLsb' 0 7))
  | 69 => .ok (.sstH (w.extractLsb' 21 4) (w.extractLsb' 16 5) (w.extractLsb' 11 5) (w.extractLsb' 7 4) (w.extractLsb' 0 7))
  | 70 => .ok (.sstW (w.extractLsb' 21 4) (w.extractLsb' 16 5) (w.extractLsb' 11 5) (w.extractLsb' 7 4) (w.extractLsb' 0 7))
  | 71 => .ok (.sstD (w.extractLsb' 21 4) (w.extractLsb' 16 5) (w.extractLsb' 11 5) (w.extractLsb' 7 4) (w.extractLsb' 0 7))
  | 72 => if w.extractLsb' 4 2 ≠ 0 then .error (.operand 4) else .ok (.samoW (w.extractLsb' 21 4) (w.extractLsb' 16 5) (w.extractLsb' 11 5) (w.extractLsb' 6 5) (w.extractLsb' 0 4))
  | 73 => if w.extractLsb' 4 2 ≠ 0 then .error (.operand 4) else .ok (.samoD (w.extractLsb' 21 4) (w.extractLsb' 16 5) (w.extractLsb' 11 5) (w.extractLsb' 6 5) (w.extractLsb' 0 4))
  | 96 => if w.extractLsb' 16 5 ≠ 0 then .error (.operand 0) else if w.extractLsb' 0 6 ≠ 0 then .error (.operand 4) else .ok (.facqW (w.extractLsb' 21 4) (w.extractLsb' 11 5) (w.extractLsb' 6 5) (e.extractLsb' 20 12) (e.extractLsb' 19 1) (e.extractLsb' 16 3) (e.extractLsb' 0 16))
  | 97 => if w.extractLsb' 20 1 ≠ 0 then .error (.operand 0) else if w.extractLsb' 0 6 ≠ 0 then .error (.operand 4) else .ok (.facqT (w.extractLsb' 21 4) (w.extractLsb' 16 4) (w.extractLsb' 11 5) (w.extractLsb' 6 5) (e.extractLsb' 20 12) (e.extractLsb' 19 1) (e.extractLsb' 16 3) (e.extractLsb' 0 16))
  | 98 => if w.extractLsb' 16 5 ≠ 0 then .error (.operand 0) else if w.extractLsb' 0 6 ≠ 0 then .error (.operand 4) else .ok (.frel (w.extractLsb' 21 4) (w.extractLsb' 11 5) (w.extractLsb' 6 5) (e.extractLsb' 20 12) (e.extractLsb' 19 1) (e.extractLsb' 16 3) (e.extractLsb' 0 16))
  | _ => .error .illegalOpcode

/-- The X class of the opcode map (03 R100): opcode, then the fields its rows fix, then the operands. -/
def parseX (w : Code) : Except Bad Instr :=
  match (w.extractLsb' 25 7).toNat with
  | 1 => .ok (.addX (w.extractLsb' 21 4) (w.extractLsb' 16 5) (w.extractLsb' 11 5) (w.extractLsb' 6 5) (w.extractLsb' 0 6))
  | 2 => .ok (.addiX (w.extractLsb' 21 4) (w.extractLsb' 16 5) (w.extractLsb' 11 5) (w.extractLsb' 0 11))
  | 3 => .ok (.andi (w.extractLsb' 21 4) (w.extractLsb' 16 5) (w.extractLsb' 11 5) (w.extractLsb' 0 11))
  | 4 => .ok (.ori (w.extractLsb' 21 4) (w.extractLsb' 16 5) (w.extractLsb' 11 5) (w.extractLsb' 0 11))
  | 5 => .ok (.xori (w.extractLsb' 21 4) (w.extractLsb' 16 5) (w.extractLsb' 11 5) (w.extractLsb' 0 11))
  | 6 => if w.extractLsb' 6 5 ≠ 0 then .error (.operand 5) else .ok (.shli (w.extractLsb' 21 4) (w.extractLsb' 16 5) (w.extractLsb' 11 5) (w.extractLsb' 0 6))
  | 7 => if w.extractLsb' 6 5 ≠ 0 then .error (.operand 5) else .ok (.shri (w.extractLsb' 21 4) (w.extractLsb' 16 5) (w.extractLsb' 11 5) (w.extractLsb' 0 6))
  | 8 => if w.extractLsb' 6 5 ≠ 0 then .error (.operand 5) else .ok (.srai (w.extractLsb' 21 4) (w.extractLsb' 16 5) (w.extractLsb' 11 5) (w.extractLsb' 0 6))
  | 9 => .ok (.liX (w.extractLsb' 21 4) (w.extractLsb' 16 5) (w.extractLsb' 0 16))
  | 10 => .ok (.liuX (w.extractLsb' 21 4) (w.extractLsb' 16 5) (w.extractLsb' 0 16))
  | 11 => if w.extractLsb' 20 1 ≠ 0 then .error (.operand 0) else if w.extractLsb' 3 3 ≠ 0 then .error (.operand 4) else .ok (.cmpX (w.extractLsb' 21 4) (w.extractLsb' 16 4) (w.extractLsb' 11 5) (w.extractLsb' 6 5) (w.extractLsb' 0 3))
  | 12 => if w.extractLsb' 20 1 ≠ 0 then .error (.operand 0) else .ok (.cmpiX (w.extractLsb' 21 4) (w.extractLsb' 16 4) (w.extractLsb' 11 5) (w.extractLsb' 8 3) (w.extractLsb' 0 8))
  | 13 => if w.extractLsb' 4 2 ≠ 0 then .error (.operand 4) else .ok (.sel (w.extractLsb' 21 4) (w.extractLsb' 16 5) (w.extractLsb' 11 5) (w.extractLsb' 6 5) (w.extractLsb' 0 4))
  | 14 => if w.extractLsb' 2 4 ≠ 0 then .error (.operand 4) else .ok (.mul (w.extractLsb' 21 4) (w.extractLsb' 16 5) (w.extractLsb' 11 5) (w.extractLsb' 6 5) (w.extractLsb' 0 2))
  | 15 => if w.extractLsb' 1 5 ≠ 0 then .error (.operand 4) else .ok (.mulw (w.extractLsb' 21 4) (w.extractLsb' 16 5) (w.extractLsb' 11 5) (w.extractLsb' 6 5) (w.extractLsb' 0 1))
  | 16 => if w.extractLsb' 2 4 ≠ 0 then .error (.operand 4) else .ok (.div (w.extractLsb' 21 4) (w.extractLsb' 16 5) (w.extractLsb' 11 5) (w.extractLsb' 6 5) (w.extractLsb' 0 2))
  | 17 => if w.extractLsb' 6 5 ≠ 0 then .error (.operand 2) else .ok (.bcnt (w.extractLsb' 21 4) (w.extractLsb' 16 5) (w.extractLsb' 11 5) (w.extractLsb' 0 6))
  | 18 => .ok (.ext (w.extractLsb' 21 4) (w.extractLsb' 16 5) (w.extractLsb' 11 5) (w.extractLsb' 6 5) (w.extractLsb' 0 6))
  | 19 => .ok (.ins (w.extractLsb' 21 4) (w.extractLsb' 16 5) (w.extractLsb' 11 5) (w.extractLsb' 6 5) (w.extractLsb' 0 6))
  | 20 => .ok (.exts (w.extractLsb' 21 4) (w.extractLsb' 16 5) (w.extractLsb' 11 5) (w.extractLsb' 6 5) (w.extractLsb' 0 6))
  | 21 => if w.extractLsb' 3 3 ≠ 0 then .error (.operand 4) else .ok (.crc8 (w.extractLsb' 21 4) (w.extractLsb' 16 5) (w.extractLsb' 11 5) (w.extractLsb' 6 5) (w.extractLsb' 0 3))
  | 22 => if w.extractLsb' 1 5 ≠ 0 then .error (.operand 4) else .ok (.rng (w.extractLsb' 21 4) (w.extractLsb' 16 5) (w.extractLsb' 11 5) (w.extractLsb' 6 5) (w.extractLsb' 0 1))
  | 23 => if w.extractLsb' 6 5 ≠ 0 then .error (.operand 2) else if w.extractLsb' 2 4 ≠ 0 then .error (.operand 4) else .ok (.tdec (w.extractLsb' 21 4) (w.extractLsb' 16 5) (w.extractLsb' 11 5) (w.extractLsb' 0 2))
  | 24 => if w.extractLsb' 20 1 ≠ 0 then .error (.operand 0) else if w.extractLsb' 4 2 ≠ 0 then .error (.operand 4) else .ok (.tcmp (w.extractLsb' 21 4) (w.extractLsb' 16 4) (w.extractLsb' 11 5) (w.extractLsb' 6 5) (w.extractLsb' 2 2) (w.extractLsb' 0 2))
  | 25 => if w.extractLsb' 6 5 ≠ 0 then .error (.operand 2) else .ok (.tcvt (w.extractLsb' 21 4) (w.extractLsb' 16 5) (w.extractLsb' 11 5) (w.extractLsb' 4 2) (w.extractLsb' 2 2) (w.extractLsb' 0 2))
  | 63 => if w.extractLsb' 6 5 ≠ 0 then .error (.operand 2) else if w.extractLsb' 5 1 ≠ 0 then .error (.operand 4) else .ok (.cp (w.extractLsb' 21 4) (w.extractLsb' 16 5) (w.extractLsb' 11 5) (w.extractLsb' 3 2) (w.extractLsb' 0 3))
  | _ => .error .illegalOpcode

/-- The F class of the opcode map (03 R100): opcode, then the fields its rows fix, then the operands. -/
def parseF (w : Code) : Except Bad Instr :=
  match (w.extractLsb' 25 7).toNat with
  | 1 => if w.extractLsb' 1 5 ≠ 0 then .error (.operand 4) else .ok (.fadd (w.extractLsb' 21 4) (w.extractLsb' 16 5) (w.extractLsb' 11 5) (w.extractLsb' 6 5) (w.extractLsb' 0 1))
  | 2 => if w.extractLsb' 1 5 ≠ 0 then .error (.operand 4) else .ok (.fsub (w.extractLsb' 21 4) (w.extractLsb' 16 5) (w.extractLsb' 11 5) (w.extractLsb' 6 5) (w.extractLsb' 0 1))
  | 3 => if w.extractLsb' 1 5 ≠ 0 then .error (.operand 4) else .ok (.fmul (w.extractLsb' 21 4) (w.extractLsb' 16 5) (w.extractLsb' 11 5) (w.extractLsb' 6 5) (w.extractLsb' 0 1))
  | 4 => .ok (.fma (w.extractLsb' 21 4) (w.extractLsb' 16 5) (w.extractLsb' 11 5) (w.extractLsb' 6 5) (w.extractLsb' 1 5) (w.extractLsb' 0 1))
  | 5 => .ok (.fms (w.extractLsb' 21 4) (w.extractLsb' 16 5) (w.extractLsb' 11 5) (w.extractLsb' 6 5) (w.extractLsb' 1 5) (w.extractLsb' 0 1))
  | 6 => .ok (.fnma (w.extractLsb' 21 4) (w.extractLsb' 16 5) (w.extractLsb' 11 5) (w.extractLsb' 6 5) (w.extractLsb' 1 5) (w.extractLsb' 0 1))
  | 7 => if w.extractLsb' 1 5 ≠ 0 then .error (.operand 4) else .ok (.fdiv (w.extractLsb' 21 4) (w.extractLsb' 16 5) (w.extractLsb' 11 5) (w.extractLsb' 6 5) (w.extractLsb' 0 1))
  | 8 => if w.extractLsb' 6 5 ≠ 0 then .error (.operand 2) else if w.extractLsb' 1 5 ≠ 0 then .error (.operand 4) else .ok (.fsqrt (w.extractLsb' 21 4) (w.extractLsb' 16 5) (w.extractLsb' 11 5) (w.extractLsb' 0 1))
  | 9 => if w.extractLsb' 1 5 ≠ 0 then .error (.operand 4) else .ok (.fmin (w.extractLsb' 21 4) (w.extractLsb' 16 5) (w.extractLsb' 11 5) (w.extractLsb' 6 5) (w.extractLsb' 0 1))
  | 10 => if w.extractLsb' 1 5 ≠ 0 then .error (.operand 4) else .ok (.fmax (w.extractLsb' 21 4) (w.extractLsb' 16 5) (w.extractLsb' 11 5) (w.extractLsb' 6 5) (w.extractLsb' 0 1))
  | 11 => if w.extractLsb' 20 1 ≠ 0 then .error (.operand 0) else if w.extractLsb' 4 2 ≠ 0 then .error (.operand 4) else .ok (.fcmp (w.extractLsb' 21 4) (w.extractLsb' 16 4) (w.extractLsb' 11 5) (w.extractLsb' 6 5) (w.extractLsb' 1 3) (w.extractLsb' 0 1))
  | 12 => if w.extractLsb' 6 5 ≠ 0 then .error (.operand 2) else .ok (.fcvt (w.extractLsb' 21 4) (w.extractLsb' 16 5) (w.extractLsb' 11 5) (w.extractLsb' 3 3) (w.extractLsb' 0 3))
  | 13 => if w.extractLsb' 3 3 ≠ 0 then .error (.operand 4) else .ok (.fsgn (w.extractLsb' 21 4) (w.extractLsb' 16 5) (w.extractLsb' 11 5) (w.extractLsb' 6 5) (w.extractLsb' 1 2) (w.extractLsb' 0 1))
  | 14 => if w.extractLsb' 6 5 ≠ 0 then .error (.operand 2) else if w.extractLsb' 1 5 ≠ 0 then .error (.operand 4) else .ok (.fcls (w.extractLsb' 21 4) (w.extractLsb' 16 5) (w.extractLsb' 11 5) (w.extractLsb' 0 1))
  | 15 =>
    if w.extractLsb' 2 1 = 0 then if w.extractLsb' 3 3 ≠ 0 then .error (.operand 4) else .ok (.tadd (w.extractLsb' 21 4) (w.extractLsb' 16 5) (w.extractLsb' 11 5) (w.extractLsb' 6 5) (w.extractLsb' 0 2)) else
    if w.extractLsb' 2 1 = 1 then if w.extractLsb' 3 3 ≠ 0 then .error (.operand 4) else .ok (.tsub (w.extractLsb' 21 4) (w.extractLsb' 16 5) (w.extractLsb' 11 5) (w.extractLsb' 6 5) (w.extractLsb' 0 2)) else
    .error (.operand 4)
  | 16 => if w.extractLsb' 2 4 ≠ 0 then .error (.operand 4) else .ok (.tmul (w.extractLsb' 21 4) (w.extractLsb' 16 5) (w.extractLsb' 11 5) (w.extractLsb' 6 5) (w.extractLsb' 0 2))
  | 63 => if w.extractLsb' 6 5 ≠ 0 then .error (.operand 2) else if w.extractLsb' 5 1 ≠ 0 then .error (.operand 4) else .ok (.cp (w.extractLsb' 21 4) (w.extractLsb' 16 5) (w.extractLsb' 11 5) (w.extractLsb' 3 2) (w.extractLsb' 0 3))
  | _ => .error .illegalOpcode

/-- The V class of the opcode map (03 R100): opcode, then the fields its rows fix, then the operands. -/
def parseV (w : Code) : Except Bad Instr :=
  match (w.extractLsb' 25 7).toNat with
  | 1 => if w.extractLsb' 3 2 ≠ 0 then .error (.operand 4) else .ok (.vadd (w.extractLsb' 21 4) (w.extractLsb' 17 4) (w.extractLsb' 13 4) (w.extractLsb' 9 4) (w.extractLsb' 5 4) (w.extractLsb' 0 3))
  | 2 => if w.extractLsb' 3 2 ≠ 0 then .error (.operand 4) else .ok (.vsub (w.extractLsb' 21 4) (w.extractLsb' 17 4) (w.extractLsb' 13 4) (w.extractLsb' 9 4) (w.extractLsb' 5 4) (w.extractLsb' 0 3))
  | 3 => if w.extractLsb' 3 2 ≠ 0 then .error (.operand 4) else .ok (.vmul (w.extractLsb' 21 4) (w.extractLsb' 17 4) (w.extractLsb' 13 4) (w.extractLsb' 9 4) (w.extractLsb' 5 4) (w.extractLsb' 0 3))
  | 4 =>
    if w.extractLsb' 3 2 = 0 then .ok (.vfma (w.extractLsb' 21 4) (w.extractLsb' 17 4) (w.extractLsb' 13 4) (w.extractLsb' 9 4) (w.extractLsb' 5 4) (w.extractLsb' 0 3)) else
    if w.extractLsb' 3 2 = 1 then .ok (.vfms (w.extractLsb' 21 4) (w.extractLsb' 17 4) (w.extractLsb' 13 4) (w.extractLsb' 9 4) (w.extractLsb' 5 4) (w.extractLsb' 0 3)) else
    if w.extractLsb' 3 2 = 2 then .ok (.vfnma (w.extractLsb' 21 4) (w.extractLsb' 17 4) (w.extractLsb' 13 4) (w.extractLsb' 9 4) (w.extractLsb' 5 4) (w.extractLsb' 0 3)) else
    .error (.operand 4)
  | 5 => if w.extractLsb' 3 2 ≠ 0 then .error (.operand 4) else .ok (.vmin (w.extractLsb' 21 4) (w.extractLsb' 17 4) (w.extractLsb' 13 4) (w.extractLsb' 9 4) (w.extractLsb' 5 4) (w.extractLsb' 0 3))
  | 6 => if w.extractLsb' 3 2 ≠ 0 then .error (.operand 4) else .ok (.vmax (w.extractLsb' 21 4) (w.extractLsb' 17 4) (w.extractLsb' 13 4) (w.extractLsb' 9 4) (w.extractLsb' 5 4) (w.extractLsb' 0 3))
  | 7 => if w.extractLsb' 9 4 ≠ 0 then .error (.operand 2) else if w.extractLsb' 3 2 ≠ 0 then .error (.operand 4) else .ok (.vabs (w.extractLsb' 21 4) (w.extractLsb' 17 4) (w.extractLsb' 13 4) (w.extractLsb' 5 4) (w.extractLsb' 0 3))
  | 8 => if w.extractLsb' 9 4 ≠ 0 then .error (.operand 2) else if w.extractLsb' 0 3 ≠ 0 then .error (.operand 4) else .ok (.vcvt (w.extractLsb' 21 4) (w.extractLsb' 17 4) (w.extractLsb' 13 4) (w.extractLsb' 5 4) (w.extractLsb' 3 2))
  | 9 => if w.extractLsb' 4 1 ≠ 0 then .error (.operand 4) else .ok (.vsf (w.extractLsb' 21 4) (w.extractLsb' 17 4) (w.extractLsb' 13 4) (w.extractLsb' 9 4) (w.extractLsb' 5 4) (w.extractLsb' 3 1) (w.extractLsb' 0 3))
  | 10 => if w.extractLsb' 9 4 ≠ 0 then .error (.operand 2) else .ok (.vred (w.extractLsb' 21 4) (w.extractLsb' 17 4) (w.extractLsb' 13 4) (w.extractLsb' 5 4) (w.extractLsb' 3 2) (w.extractLsb' 0 3))
  | 11 => if w.extractLsb' 9 4 ≠ 0 then .error (.operand 2) else .ok (.vscan (w.extractLsb' 21 4) (w.extractLsb' 17 4) (w.extractLsb' 13 4) (w.extractLsb' 5 4) (w.extractLsb' 3 2) (w.extractLsb' 0 3))
  | 12 => .ok (.vcmp (w.extractLsb' 21 4) (w.extractLsb' 17 4) (w.extractLsb' 13 4) (w.extractLsb' 9 4) (w.extractLsb' 5 4) (w.extractLsb' 3 2) (w.extractLsb' 0 3))
  | 13 => if w.extractLsb' 3 2 ≠ 0 then .error (.operand 4) else .ok (.vsel (w.extractLsb' 21 4) (w.extractLsb' 17 4) (w.extractLsb' 13 4) (w.extractLsb' 9 4) (w.extractLsb' 5 4) (w.extractLsb' 0 3))
  | 14 => if w.extractLsb' 9 4 ≠ 0 then .error (.operand 2) else if w.extractLsb' 3 2 ≠ 0 then .error (.operand 4) else .ok (.vmov (w.extractLsb' 21 4) (w.extractLsb' 17 4) (w.extractLsb' 13 4) (w.extractLsb' 5 4) (w.extractLsb' 0 3))
  | 15 => if w.extractLsb' 0 5 ≠ 0 then .error (.operand 4) else .ok (.vfill (w.extractLsb' 21 4) (w.extractLsb' 17 4) (w.extractLsb' 9 8) (w.extractLsb' 5 4))
  | 16 => if w.extractLsb' 3 2 ≠ 0 then .error (.operand 4) else .ok (.vdot (w.extractLsb' 21 4) (w.extractLsb' 17 4) (w.extractLsb' 13 4) (w.extractLsb' 9 4) (w.extractLsb' 5 4) (w.extractLsb' 0 3))
  | 17 => if w.extractLsb' 9 4 ≠ 0 then .error (.operand 2) else if w.extractLsb' 0 5 ≠ 0 then .error (.operand 4) else .ok (.tdecv (w.extractLsb' 21 4) (w.extractLsb' 17 4) (w.extractLsb' 13 4) (w.extractLsb' 5 4))
  | 18 =>
    if w.extractLsb' 3 1 = 0 then if w.extractLsb' 4 1 ≠ 0 then .error (.operand 4) else if w.extractLsb' 0 3 ≠ 0 then .error (.operand 4) else .ok (.vqacc (w.extractLsb' 21 4) (w.extractLsb' 17 4) (w.extractLsb' 13 4) (w.extractLsb' 9 4) (w.extractLsb' 5 4)) else
    if w.extractLsb' 3 1 = 1 then if w.extractLsb' 9 4 ≠ 0 then .error (.operand 2) else if w.extractLsb' 4 1 ≠ 0 then .error (.operand 4) else if w.extractLsb' 0 3 ≠ 0 then .error (.operand 4) else .ok (.vqaccS (w.extractLsb' 21 4) (w.extractLsb' 17 4) (w.extractLsb' 13 4) (w.extractLsb' 5 4)) else
    .error (.operand 4)
  | 19 =>
    if w.extractLsb' 0 1 = 0 then if w.extractLsb' 9 4 ≠ 0 then .error (.operand 2) else if w.extractLsb' 1 4 ≠ 0 then .error (.operand 4) else .ok (.vqrd (w.extractLsb' 21 4) (w.extractLsb' 17 4) (w.extractLsb' 13 4) (w.extractLsb' 5 4)) else
    if w.extractLsb' 0 1 = 1 then if w.extractLsb' 9 4 ≠ 0 then .error (.operand 2) else if w.extractLsb' 1 4 ≠ 0 then .error (.operand 4) else .ok (.vqrdZ (w.extractLsb' 21 4) (w.extractLsb' 17 4) (w.extractLsb' 13 4) (w.extractLsb' 5 4)) else
    .error (.operand 4)
  | 20 => if w.extractLsb' 13 4 ≠ 0 then .error (.operand 1) else if w.extractLsb' 9 4 ≠ 0 then .error (.operand 2) else if w.extractLsb' 5 4 ≠ 0 then .error (.operand 4) else if w.extractLsb' 2 3 ≠ 0 then .error (.operand 4) else .ok (.vqclr (w.extractLsb' 21 4) (w.extractLsb' 17 4) (w.extractLsb' 0 2))
  | 21 => if w.extractLsb' 0 1 ≠ 0 then .error (.operand 4) else .ok (.vloop (w.extractLsb' 21 4) (w.extractLsb' 17 4) (w.extractLsb' 1 16))
  | 22 =>
    if w.extractLsb' 4 1 = 0 then if w.extractLsb' 0 4 ≠ 0 then .error (.operand 0) else .ok (.vsync (w.extractLsb' 21 4) (w.extractLsb' 5 16)) else
    if w.extractLsb' 4 1 = 1 then .ok (.vsyncT (w.extractLsb' 21 4) (w.extractLsb' 5 16) (w.extractLsb' 0 4)) else
    .error (.operand 4)
  | 32 => if w.extractLsb' 9 4 ≠ 0 then .error (.operand 2) else if w.extractLsb' 0 5 ≠ 0 then .error (.operand 4) else .ok (.chs (w.extractLsb' 21 4) (w.extractLsb' 17 4) (w.extractLsb' 13 4) (w.extractLsb' 5 4))
  | 33 => if w.extractLsb' 9 4 ≠ 0 then .error (.operand 2) else if w.extractLsb' 0 5 ≠ 0 then .error (.operand 4) else .ok (.chv (w.extractLsb' 21 4) (w.extractLsb' 17 4) (w.extractLsb' 13 4) (w.extractLsb' 5 4))
  | 63 => if w.extractLsb' 6 5 ≠ 0 then .error (.operand 2) else if w.extractLsb' 5 1 ≠ 0 then .error (.operand 4) else .ok (.cp (w.extractLsb' 21 4) (w.extractLsb' 16 5) (w.extractLsb' 11 5) (w.extractLsb' 3 2) (w.extractLsb' 0 3))
  | _ => .error .illegalOpcode

/-- The M class of the opcode map (03 R100): opcode, then the fields its rows fix, then the operands. -/
def parseM (w : Code) : Except Bad Instr :=
  match (w.extractLsb' 25 7).toNat with
  | 1 => if w.extractLsb' 17 4 ≠ 0 then .error (.operand 0) else if w.extractLsb' 0 9 ≠ 0 then .error (.operand 4) else .ok (.mlease (w.extractLsb' 21 4) (w.extractLsb' 9 8))
  | 2 => if w.extractLsb' 17 4 ≠ 0 then .error (.operand 0) else if w.extractLsb' 13 4 ≠ 0 then .error (.operand 1) else if w.extractLsb' 9 4 ≠ 0 then .error (.operand 2) else if w.extractLsb' 5 4 ≠ 0 then .error (.operand 4) else if w.extractLsb' 0 5 ≠ 0 then .error (.operand 4) else .ok (.mfree (w.extractLsb' 21 4))
  | 3 =>
    if w.extractLsb' 13 2 = 0 then if w.extractLsb' 15 2 ≠ 0 then .error (.operand 1) else if w.extractLsb' 9 4 ≠ 0 then .error (.operand 2) else if w.extractLsb' 5 4 ≠ 0 then .error (.operand 4) else .ok (.mcfg (w.extractLsb' 21 4) (w.extractLsb' 17 4) (w.extractLsb' 3 2) (w.extractLsb' 0 3)) else
    if w.extractLsb' 13 2 = 1 then if w.extractLsb' 15 2 ≠ 0 then .error (.operand 1) else .ok (.mcfgLd (w.extractLsb' 21 4) (w.extractLsb' 17 4) (w.extractLsb' 9 4) (w.extractLsb' 5 4) (w.extractLsb' 3 2) (w.extractLsb' 0 3)) else
    if w.extractLsb' 13 2 = 2 then if w.extractLsb' 15 2 ≠ 0 then .error (.operand 1) else .ok (.mcfgAdd (w.extractLsb' 21 4) (w.extractLsb' 17 4) (w.extractLsb' 9 4) (w.extractLsb' 5 4) (w.extractLsb' 3 2) (w.extractLsb' 0 3)) else
    .error (.operand 1)
  | 4 => if w.extractLsb' 18 3 ≠ 0 then .error (.operand 0) else if w.extractLsb' 0 5 ≠ 0 then .error (.operand 4) else .ok (.mgath (w.extractLsb' 21 4) (w.extractLsb' 17 1) (w.extractLsb' 13 4) (w.extractLsb' 9 4) (w.extractLsb' 5 4))
  | 5 => if w.extractLsb' 18 3 ≠ 0 then .error (.operand 0) else if w.extractLsb' 9 4 ≠ 0 then .error (.operand 2) else if w.extractLsb' 0 5 ≠ 0 then .error (.operand 4) else .ok (.mlatb (w.extractLsb' 21 4) (w.extractLsb' 17 1) (w.extractLsb' 13 4) (w.extractLsb' 5 4))
  | 6 => if w.extractLsb' 5 4 ≠ 0 then .error (.operand 4) else if w.extractLsb' 2 3 ≠ 0 then .error (.operand 4) else .ok (.mma (w.extractLsb' 21 4) (w.extractLsb' 17 4) (w.extractLsb' 13 4) (w.extractLsb' 9 4) (w.extractLsb' 1 1) (w.extractLsb' 0 1))
  | 7 => if w.extractLsb' 5 4 ≠ 0 then .error (.operand 4) else if w.extractLsb' 4 1 ≠ 0 then .error (.operand 4) else if w.extractLsb' 1 1 ≠ 0 then .error (.operand 4) else .ok (.mmas (w.extractLsb' 21 4) (w.extractLsb' 17 4) (w.extractLsb' 13 4) (w.extractLsb' 9 4) (w.extractLsb' 2 2) (w.extractLsb' 0 1))
  | 8 =>
    if w.extractLsb' 0 2 = 0 then if w.extractLsb' 2 3 ≠ 0 then .error (.operand 4) else .ok (.mst (w.extractLsb' 21 4) (w.extractLsb' 17 4) (w.extractLsb' 13 4) (w.extractLsb' 9 4) (w.extractLsb' 5 4)) else
    if w.extractLsb' 0 2 = 1 then if w.extractLsb' 2 3 ≠ 0 then .error (.operand 4) else .ok (.mstRaw (w.extractLsb' 21 4) (w.extractLsb' 17 4) (w.extractLsb' 13 4) (w.extractLsb' 9 4) (w.extractLsb' 5 4)) else
    if w.extractLsb' 0 2 = 2 then if w.extractLsb' 9 4 ≠ 0 then .error (.operand 2) else if w.extractLsb' 5 4 ≠ 0 then .error (.operand 4) else if w.extractLsb' 2 3 ≠ 0 then .error (.operand 4) else .ok (.mstSt (w.extractLsb' 21 4) (w.extractLsb' 17 4) (w.extractLsb' 13 4)) else
    .error (.operand 4)
  | 9 => if w.extractLsb' 11 2 ≠ 0 then .error (.operand 2) else if w.extractLsb' 0 5 ≠ 0 then .error (.operand 4) else .ok (.mcomp (w.extractLsb' 21 4) (w.extractLsb' 17 4) (w.extractLsb' 13 4) (w.extractLsb' 9 2) (w.extractLsb' 5 4))
  | 10 => if w.extractLsb' 2 3 ≠ 0 then .error (.operand 4) else .ok (.mtile (w.extractLsb' 21 4) (w.extractLsb' 17 4) (w.extractLsb' 13 4) (w.extractLsb' 9 4) (w.extractLsb' 5 4) (w.extractLsb' 1 1) (w.extractLsb' 0 1))
  | 11 => if w.extractLsb' 0 5 ≠ 0 then .error (.operand 4) else .ok (.mwalk (w.extractLsb' 21 4) (w.extractLsb' 17 4) (w.extractLsb' 13 4) (w.extractLsb' 9 4) (w.extractLsb' 5 4))
  | 12 => if w.extractLsb' 19 2 ≠ 0 then .error (.operand 0) else if w.extractLsb' 9 4 ≠ 0 then .error (.operand 2) else if w.extractLsb' 0 5 ≠ 0 then .error (.operand 4) else .ok (.mdld (w.extractLsb' 21 4) (w.extractLsb' 17 2) (w.extractLsb' 13 4) (w.extractLsb' 5 4))
  | 13 => if w.extractLsb' 19 2 ≠ 0 then .error (.operand 0) else if w.extractLsb' 9 4 ≠ 0 then .error (.operand 2) else if w.extractLsb' 0 5 ≠ 0 then .error (.operand 4) else .ok (.mdst (w.extractLsb' 21 4) (w.extractLsb' 17 2) (w.extractLsb' 13 4) (w.extractLsb' 5 4))
  | 14 =>
    if w.extractLsb' 0 1 = 0 then if w.extractLsb' 17 4 ≠ 0 then .error (.operand 0) else if w.extractLsb' 9 4 ≠ 0 then .error (.operand 2) else if w.extractLsb' 1 4 ≠ 0 then .error (.operand 4) else .ok (.route (w.extractLsb' 21 4) (w.extractLsb' 13 4) (w.extractLsb' 5 4)) else
    if w.extractLsb' 0 1 = 1 then if w.extractLsb' 17 4 ≠ 0 then .error (.operand 0) else if w.extractLsb' 9 4 ≠ 0 then .error (.operand 2) else if w.extractLsb' 1 4 ≠ 0 then .error (.operand 4) else .ok (.routeTx (w.extractLsb' 21 4) (w.extractLsb' 13 4) (w.extractLsb' 5 4)) else
    .error (.operand 4)
  | 16 => .ok (.mli (w.extractLsb' 21 4) (w.extractLsb' 16 5) (w.extractLsb' 0 16))
  | 17 => .ok (.mliu (w.extractLsb' 21 4) (w.extractLsb' 16 5) (w.extractLsb' 0 16))
  | 18 => .ok (.madd (w.extractLsb' 21 4) (w.extractLsb' 16 5) (w.extractLsb' 11 5) (w.extractLsb' 6 5) (w.extractLsb' 0 6))
  | 19 => .ok (.maddi (w.extractLsb' 21 4) (w.extractLsb' 16 5) (w.extractLsb' 11 5) (w.extractLsb' 0 11))
  | 63 => if w.extractLsb' 6 5 ≠ 0 then .error (.operand 2) else if w.extractLsb' 5 1 ≠ 0 then .error (.operand 4) else .ok (.cp (w.extractLsb' 21 4) (w.extractLsb' 16 5) (w.extractLsb' 11 5) (w.extractLsb' 3 2) (w.extractLsb' 0 3))
  | _ => .error .illegalOpcode

/-- The C class of the opcode map (03 R100): opcode, then the fields its rows fix, then the operands. -/
def parseC (w : Code) : Except Bad Instr :=
  match (w.extractLsb' 25 7).toNat with
  | 1 => .ok (.br (w.extractLsb' 21 4) (w.extractLsb' 0 21))
  | 2 => .ok (.brl (w.extractLsb' 21 4) (w.extractLsb' 0 21))
  | 3 =>
    if w.extractLsb' 0 1 = 0 then if w.extractLsb' 16 5 ≠ 0 then .error (.operand 0) else if w.extractLsb' 6 5 ≠ 0 then .error (.operand 2) else if w.extractLsb' 1 5 ≠ 0 then .error (.operand 4) else .ok (.brr (w.extractLsb' 21 4) (w.extractLsb' 11 5)) else
    if w.extractLsb' 0 1 = 1 then if w.extractLsb' 16 5 ≠ 0 then .error (.operand 0) else if w.extractLsb' 6 5 ≠ 0 then .error (.operand 2) else if w.extractLsb' 1 5 ≠ 0 then .error (.operand 4) else .ok (.brrL (w.extractLsb' 21 4) (w.extractLsb' 11 5)) else
    .error (.operand 4)
  | 4 => .ok (.lset (w.extractLsb' 21 4) (w.extractLsb' 19 2) (w.extractLsb' 18 1) (w.extractLsb' 12 6) (w.extractLsb' 0 12))
  | 5 => .ok (.lupd (w.extractLsb' 21 4) (w.extractLsb' 19 2) (w.extractLsb' 15 4) (w.extractLsb' 14 1) (w.extractLsb' 0 14))
  | 6 => if w.extractLsb' 16 5 ≠ 0 then .error (.operand 0) else if w.extractLsb' 6 5 ≠ 0 then .error (.operand 2) else if w.extractLsb' 4 2 ≠ 0 then .error (.operand 4) else .ok (.ltrim (w.extractLsb' 21 4) (w.extractLsb' 11 5) (w.extractLsb' 0 4))
  | 7 => if w.extractLsb' 16 5 ≠ 0 then .error (.operand 0) else if w.extractLsb' 11 5 ≠ 0 then .error (.operand 1) else if w.extractLsb' 6 5 ≠ 0 then .error (.operand 2) else if w.extractLsb' 0 6 ≠ 0 then .error (.operand 4) else .ok (.halt (w.extractLsb' 21 4))
  | 8 => if w.extractLsb' 20 1 ≠ 0 then .error (.operand 0) else if w.extractLsb' 15 1 ≠ 0 then .error (.operand 1) else if w.extractLsb' 10 1 ≠ 0 then .error (.operand 2) else if w.extractLsb' 3 3 ≠ 0 then .error (.operand 4) else .ok (.gop (w.extractLsb' 21 4) (w.extractLsb' 16 4) (w.extractLsb' 11 4) (w.extractLsb' 6 4) (w.extractLsb' 0 3))
  | 9 => .ok (.cli (w.extractLsb' 21 4) (w.extractLsb' 16 5) (w.extractLsb' 0 16))
  | 10 => if w.extractLsb' 0 4 ≠ 0 then .error (.operand 4) else .ok (.cget (w.extractLsb' 21 4) (w.extractLsb' 16 5) (w.extractLsb' 4 12))
  | 11 => if w.extractLsb' 0 4 ≠ 0 then .error (.operand 4) else .ok (.cset (w.extractLsb' 21 4) (w.extractLsb' 16 5) (w.extractLsb' 4 12))
  | 12 => if w.extractLsb' 6 5 ≠ 0 then .error (.operand 2) else if w.extractLsb' 0 6 ≠ 0 then .error (.operand 4) else .ok (.spawn (w.extractLsb' 21 4) (w.extractLsb' 16 5) (w.extractLsb' 11 5))
  | 13 => if w.extractLsb' 11 5 ≠ 0 then .error (.operand 1) else if w.extractLsb' 6 5 ≠ 0 then .error (.operand 2) else if w.extractLsb' 0 6 ≠ 0 then .error (.operand 4) else .ok (.join (w.extractLsb' 21 4) (w.extractLsb' 16 5))
  | 14 => if w.extractLsb' 20 1 ≠ 0 then .error (.operand 0) else if w.extractLsb' 3 3 ≠ 0 then .error (.operand 4) else .ok (.spawnS (w.extractLsb' 21 4) (w.extractLsb' 16 4) (w.extractLsb' 11 5) (w.extractLsb' 6 5) (w.extractLsb' 0 3))
  | 15 => if w.extractLsb' 16 5 ≠ 0 then .error (.operand 0) else .ok (.trap (w.extractLsb' 21 4) (w.extractLsb' 0 16))
  | 16 =>
    if w.extractLsb' 0 1 = 0 then if w.extractLsb' 16 5 ≠ 0 then .error (.operand 0) else if w.extractLsb' 1 5 ≠ 0 then .error (.operand 4) else .ok (.chw (w.extractLsb' 21 4) (w.extractLsb' 11 5) (w.extractLsb' 6 5)) else
    if w.extractLsb' 0 1 = 1 then if w.extractLsb' 16 5 ≠ 0 then .error (.operand 0) else if w.extractLsb' 1 5 ≠ 0 then .error (.operand 4) else .ok (.chwRel (w.extractLsb' 21 4) (w.extractLsb' 11 5) (w.extractLsb' 6 5)) else
    .error (.operand 4)
  | 17 =>
    if w.extractLsb' 0 1 = 0 then if w.extractLsb' 6 5 ≠ 0 then .error (.operand 2) else if w.extractLsb' 1 5 ≠ 0 then .error (.operand 4) else .ok (.chr (w.extractLsb' 21 4) (w.extractLsb' 16 5) (w.extractLsb' 11 5)) else
    if w.extractLsb' 0 1 = 1 then if w.extractLsb' 6 5 ≠ 0 then .error (.operand 2) else if w.extractLsb' 1 5 ≠ 0 then .error (.operand 4) else .ok (.chrAcq (w.extractLsb' 21 4) (w.extractLsb' 16 5) (w.extractLsb' 11 5)) else
    .error (.operand 4)
  | 18 =>
    if w.extractLsb' 3 2 = 0 then if w.extractLsb' 20 1 ≠ 0 then .error (.operand 0) else if w.extractLsb' 11 5 ≠ 0 then .error (.operand 1) else if w.extractLsb' 6 5 ≠ 0 then .error (.operand 2) else if w.extractLsb' 5 1 ≠ 0 then .error (.operand 4) else .ok (.barSync (w.extractLsb' 21 4) (w.extractLsb' 16 4) (w.extractLsb' 0 3)) else
    if w.extractLsb' 3 2 = 1 then if w.extractLsb' 20 1 ≠ 0 then .error (.operand 0) else if w.extractLsb' 11 5 ≠ 0 then .error (.operand 1) else if w.extractLsb' 6 5 ≠ 0 then .error (.operand 2) else if w.extractLsb' 5 1 ≠ 0 then .error (.operand 4) else .ok (.barArr (w.extractLsb' 21 4) (w.extractLsb' 16 4) (w.extractLsb' 0 3)) else
    if w.extractLsb' 3 2 = 2 then if w.extractLsb' 20 1 ≠ 0 then .error (.operand 0) else if w.extractLsb' 11 5 ≠ 0 then .error (.operand 1) else if w.extractLsb' 6 5 ≠ 0 then .error (.operand 2) else if w.extractLsb' 5 1 ≠ 0 then .error (.operand 4) else .ok (.barWait (w.extractLsb' 21 4) (w.extractLsb' 16 4) (w.extractLsb' 0 3)) else
    .error (.operand 4)
  | 19 => if w.extractLsb' 5 1 ≠ 0 then .error (.operand 4) else .ok (.coll (w.extractLsb' 21 4) (w.extractLsb' 16 5) (w.extractLsb' 11 5) (w.extractLsb' 6 5) (w.extractLsb' 2 3) (w.extractLsb' 0 2))
  | 20 =>
    if w.extractLsb' 0 2 = 0 then if w.extractLsb' 16 5 ≠ 0 then .error (.operand 0) else if w.extractLsb' 2 4 ≠ 0 then .error (.operand 4) else .ok (.cmbxMax (w.extractLsb' 21 4) (w.extractLsb' 11 5) (w.extractLsb' 6 5)) else
    if w.extractLsb' 0 2 = 1 then if w.extractLsb' 16 5 ≠ 0 then .error (.operand 0) else if w.extractLsb' 2 4 ≠ 0 then .error (.operand 4) else .ok (.cmbxMerge (w.extractLsb' 21 4) (w.extractLsb' 11 5) (w.extractLsb' 6 5)) else
    if w.extractLsb' 0 2 = 2 then if w.extractLsb' 16 5 ≠ 0 then .error (.operand 0) else if w.extractLsb' 2 4 ≠ 0 then .error (.operand 4) else .ok (.cmbxArmmax (w.extractLsb' 21 4) (w.extractLsb' 11 5) (w.extractLsb' 6 5)) else
    if w.extractLsb' 0 2 = 3 then if w.extractLsb' 16 5 ≠ 0 then .error (.operand 0) else if w.extractLsb' 2 4 ≠ 0 then .error (.operand 4) else .ok (.cmbxArmmerge (w.extractLsb' 21 4) (w.extractLsb' 11 5) (w.extractLsb' 6 5)) else
    .error (.operand 4)
  | 21 => if w.extractLsb' 16 5 ≠ 0 then .error (.operand 0) else if w.extractLsb' 6 5 ≠ 0 then .error (.operand 2) else if w.extractLsb' 4 2 ≠ 0 then .error (.operand 4) else .ok (.sqOpen (w.extractLsb' 21 4) (w.extractLsb' 11 5) (w.extractLsb' 0 4))
  | 22 =>
    if w.extractLsb' 4 1 = 0 then if w.extractLsb' 16 5 ≠ 0 then .error (.operand 0) else if w.extractLsb' 6 5 ≠ 0 then .error (.operand 2) else if w.extractLsb' 5 1 ≠ 0 then .error (.operand 4) else .ok (.sqFeed (w.extractLsb' 21 4) (w.extractLsb' 11 5) (w.extractLsb' 0 4)) else
    if w.extractLsb' 4 1 = 1 then if w.extractLsb' 16 5 ≠ 0 then .error (.operand 0) else if w.extractLsb' 6 5 ≠ 0 then .error (.operand 2) else if w.extractLsb' 5 1 ≠ 0 then .error (.operand 4) else .ok (.sqFeedAcc (w.extractLsb' 21 4) (w.extractLsb' 11 5) (w.extractLsb' 0 4)) else
    .error (.operand 4)
  | 23 => if w.extractLsb' 16 5 ≠ 0 then .error (.operand 0) else if w.extractLsb' 6 5 ≠ 0 then .error (.operand 2) else if w.extractLsb' 4 2 ≠ 0 then .error (.operand 4) else .ok (.sqMask (w.extractLsb' 21 4) (w.extractLsb' 11 5) (w.extractLsb' 0 4))
  | 24 => if w.extractLsb' 16 5 ≠ 0 then .error (.operand 0) else if w.extractLsb' 6 5 ≠ 0 then .error (.operand 2) else if w.extractLsb' 4 2 ≠ 0 then .error (.operand 4) else .ok (.sqFork (w.extractLsb' 21 4) (w.extractLsb' 11 5) (w.extractLsb' 0 4))
  | 25 => if w.extractLsb' 16 5 ≠ 0 then .error (.operand 0) else if w.extractLsb' 6 5 ≠ 0 then .error (.operand 2) else if w.extractLsb' 4 2 ≠ 0 then .error (.operand 4) else .ok (.sqRoll (w.extractLsb' 21 4) (w.extractLsb' 11 5) (w.extractLsb' 0 4))
  | 26 =>
    if w.extractLsb' 4 2 = 0 then if w.extractLsb' 16 5 ≠ 0 then .error (.operand 0) else if w.extractLsb' 6 5 ≠ 0 then .error (.operand 2) else .ok (.sqSampG (w.extractLsb' 21 4) (w.extractLsb' 11 5) (w.extractLsb' 0 4)) else
    if w.extractLsb' 4 2 = 1 then if w.extractLsb' 16 5 ≠ 0 then .error (.operand 0) else if w.extractLsb' 6 5 ≠ 0 then .error (.operand 2) else .ok (.sqSampP (w.extractLsb' 21 4) (w.extractLsb' 11 5) (w.extractLsb' 0 4)) else
    if w.extractLsb' 4 2 = 2 then if w.extractLsb' 16 5 ≠ 0 then .error (.operand 0) else if w.extractLsb' 6 5 ≠ 0 then .error (.operand 2) else .ok (.sqSampFin (w.extractLsb' 21 4) (w.extractLsb' 11 5) (w.extractLsb' 0 4)) else
    .error (.operand 4)
  | 27 => if w.extractLsb' 16 5 ≠ 0 then .error (.operand 0) else if w.extractLsb' 6 5 ≠ 0 then .error (.operand 2) else if w.extractLsb' 4 2 ≠ 0 then .error (.operand 4) else .ok (.sqCommit (w.extractLsb' 21 4) (w.extractLsb' 11 5) (w.extractLsb' 0 4))
  | 28 =>
    if w.extractLsb' 4 1 = 0 then if w.extractLsb' 16 5 ≠ 0 then .error (.operand 0) else if w.extractLsb' 6 5 ≠ 0 then .error (.operand 2) else if w.extractLsb' 5 1 ≠ 0 then .error (.operand 4) else .ok (.sqFree (w.extractLsb' 21 4) (w.extractLsb' 11 5) (w.extractLsb' 0 4)) else
    if w.extractLsb' 4 1 = 1 then if w.extractLsb' 16 5 ≠ 0 then .error (.operand 0) else if w.extractLsb' 6 5 ≠ 0 then .error (.operand 2) else if w.extractLsb' 5 1 ≠ 0 then .error (.operand 4) else .ok (.sqFreeRec (w.extractLsb' 21 4) (w.extractLsb' 11 5) (w.extractLsb' 0 4)) else
    .error (.operand 4)
  | 32 => if w.extractLsb' 16 5 ≠ 0 then .error (.operand 0) else if w.extractLsb' 6 5 ≠ 0 then .error (.operand 2) else if w.extractLsb' 0 6 ≠ 0 then .error (.operand 4) else .ok (.mig (w.extractLsb' 21 4) (w.extractLsb' 11 5))
  | 33 => if w.extractLsb' 16 5 ≠ 0 then .error (.operand 0) else if w.extractLsb' 11 5 ≠ 0 then .error (.operand 1) else if w.extractLsb' 6 5 ≠ 0 then .error (.operand 2) else if w.extractLsb' 0 6 ≠ 0 then .error (.operand 4) else .ok (.yield (w.extractLsb' 21 4))
  | 34 =>
    if w.extractLsb' 0 1 = 0 then if w.extractLsb' 16 5 ≠ 0 then .error (.operand 0) else if w.extractLsb' 6 5 ≠ 0 then .error (.operand 2) else if w.extractLsb' 1 5 ≠ 0 then .error (.operand 4) else .ok (.snooze (w.extractLsb' 21 4) (w.extractLsb' 11 5)) else
    if w.extractLsb' 0 1 = 1 then if w.extractLsb' 16 5 ≠ 0 then .error (.operand 0) else if w.extractLsb' 6 5 ≠ 0 then .error (.operand 2) else if w.extractLsb' 1 5 ≠ 0 then .error (.operand 4) else .ok (.snoozeW (w.extractLsb' 21 4) (w.extractLsb' 11 5)) else
    .error (.operand 4)
  | 35 => if w.extractLsb' 16 5 ≠ 0 then .error (.operand 0) else if w.extractLsb' 11 5 ≠ 0 then .error (.operand 1) else if w.extractLsb' 6 5 ≠ 0 then .error (.operand 2) else if w.extractLsb' 0 6 ≠ 0 then .error (.operand 4) else .ok (.sexit (w.extractLsb' 21 4))
  | 48 => if w.extractLsb' 16 5 ≠ 0 then .error (.operand 0) else if w.extractLsb' 0 6 ≠ 0 then .error (.operand 4) else .ok (.sail (w.extractLsb' 21 4) (w.extractLsb' 11 5) (w.extractLsb' 6 5))
  | 49 => if w.extractLsb' 16 5 ≠ 0 then .error (.operand 0) else if w.extractLsb' 6 5 ≠ 0 then .error (.operand 2) else if w.extractLsb' 0 6 ≠ 0 then .error (.operand 4) else .ok (.swait (w.extractLsb' 21 4) (w.extractLsb' 11 5))
  | 50 =>
    if w.extractLsb' 0 1 = 0 then if w.extractLsb' 16 5 ≠ 0 then .error (.operand 0) else if w.extractLsb' 6 5 ≠ 0 then .error (.operand 2) else if w.extractLsb' 1 5 ≠ 0 then .error (.operand 4) else .ok (.preempt (w.extractLsb' 21 4) (w.extractLsb' 11 5)) else
    if w.extractLsb' 0 1 = 1 then if w.extractLsb' 16 5 ≠ 0 then .error (.operand 0) else if w.extractLsb' 6 5 ≠ 0 then .error (.operand 2) else if w.extractLsb' 1 5 ≠ 0 then .error (.operand 4) else .ok (.preemptKill (w.extractLsb' 21 4) (w.extractLsb' 11 5)) else
    .error (.operand 4)
  | 51 => if w.extractLsb' 16 5 ≠ 0 then .error (.operand 0) else if w.extractLsb' 6 5 ≠ 0 then .error (.operand 2) else if w.extractLsb' 1 5 ≠ 0 then .error (.operand 4) else .ok (.ctxsv (w.extractLsb' 21 4) (w.extractLsb' 11 5) (w.extractLsb' 0 1))
  | 52 => if w.extractLsb' 16 5 ≠ 0 then .error (.operand 0) else if w.extractLsb' 6 5 ≠ 0 then .error (.operand 2) else if w.extractLsb' 1 5 ≠ 0 then .error (.operand 4) else .ok (.ctxld (w.extractLsb' 21 4) (w.extractLsb' 11 5) (w.extractLsb' 0 1))
  | 53 => if w.extractLsb' 16 5 ≠ 0 then .error (.operand 0) else if w.extractLsb' 6 5 ≠ 0 then .error (.operand 2) else if w.extractLsb' 0 6 ≠ 0 then .error (.operand 4) else .ok (.qpop (w.extractLsb' 21 4) (w.extractLsb' 11 5))
  | 54 =>
    if w.extractLsb' 0 1 = 0 then if w.extractLsb' 16 5 ≠ 0 then .error (.operand 0) else if w.extractLsb' 1 5 ≠ 0 then .error (.operand 4) else .ok (.qpush (w.extractLsb' 21 4) (w.extractLsb' 11 5) (w.extractLsb' 6 5)) else
    if w.extractLsb' 0 1 = 1 then if w.extractLsb' 16 5 ≠ 0 then .error (.operand 0) else if w.extractLsb' 1 5 ≠ 0 then .error (.operand 4) else .ok (.qpushCfg (w.extractLsb' 21 4) (w.extractLsb' 11 5) (w.extractLsb' 6 5)) else
    .error (.operand 4)
  | 55 =>
    if w.extractLsb' 0 1 = 0 then if w.extractLsb' 16 5 ≠ 0 then .error (.operand 0) else if w.extractLsb' 1 5 ≠ 0 then .error (.operand 4) else .ok (.pgenCap (w.extractLsb' 21 4) (w.extractLsb' 11 5) (w.extractLsb' 6 5)) else
    if w.extractLsb' 0 1 = 1 then if w.extractLsb' 16 5 ≠ 0 then .error (.operand 0) else if w.extractLsb' 6 5 ≠ 0 then .error (.operand 2) else if w.extractLsb' 1 5 ≠ 0 then .error (.operand 4) else .ok (.pgenPub (w.extractLsb' 21 4) (w.extractLsb' 11 5)) else
    .error (.operand 4)
  | 56 => if w.extractLsb' 16 5 ≠ 0 then .error (.operand 0) else if w.extractLsb' 0 6 ≠ 0 then .error (.operand 4) else .ok (.tlbm (w.extractLsb' 21 4) (w.extractLsb' 11 5) (w.extractLsb' 6 5))
  | 57 =>
    if w.extractLsb' 0 1 = 0 then if w.extractLsb' 16 5 ≠ 0 then .error (.operand 0) else if w.extractLsb' 6 5 ≠ 0 then .error (.operand 2) else if w.extractLsb' 1 5 ≠ 0 then .error (.operand 4) else .ok (.ovfld (w.extractLsb' 21 4) (w.extractLsb' 11 5)) else
    if w.extractLsb' 0 1 = 1 then if w.extractLsb' 16 5 ≠ 0 then .error (.operand 0) else if w.extractLsb' 6 5 ≠ 0 then .error (.operand 2) else if w.extractLsb' 1 5 ≠ 0 then .error (.operand 4) else .ok (.ovfldSelf (w.extractLsb' 21 4) (w.extractLsb' 11 5)) else
    .error (.operand 4)
  | 63 => if w.extractLsb' 6 5 ≠ 0 then .error (.operand 2) else if w.extractLsb' 5 1 ≠ 0 then .error (.operand 4) else .ok (.cp (w.extractLsb' 21 4) (w.extractLsb' 16 5) (w.extractLsb' 11 5) (w.extractLsb' 3 2) (w.extractLsb' 0 3))
  | _ => .error .illegalOpcode

/-- The class of a word picks its table. -/
def parseSlot (k : SlotClass) (w e : Code) : Except Bad Instr :=
  match k with
  | .a => parseA w e
  | .x => parseX w
  | .f => parseF w
  | .v => parseV w
  | .m => parseM w
  | .c => parseC w

/-- The decoder of one slot word and the word after it (used by the two-word forms alone): the tables, then the field checks of 03 R90. -/
def decodeSlot (k : SlotClass) (w e : Code) : Except Bad Instr :=
  match parseSlot k w e with
  | .error b => .error b
  | .ok i => match i.badField with
    | some n => .error (.operand n)
    | none => .ok i

/-- The flag forms of the A class carry an extension word (03 R86, format FLG). -/
def twoWords (k : SlotClass) (w : Code) : Bool :=
  k == .a && decide (0x60 ≤ (w.extractLsb' 25 7).toNat) && decide ((w.extractLsb' 25 7).toNat ≤ 0x62)

/-- The slot class whose table holds an instruction; cp, which every class has, is listed under A; an event has none. -/
def Instr.slotClass : Instr → Option SlotClass
  | .addA _ _ _ _ _ => some .a
  | .addiA _ _ _ _ => some .a
  | .liA _ _ _ => some .a
  | .liuA _ _ _ => some .a
  | .cmpA _ _ _ _ _ => some .a
  | .cmpiA _ _ _ _ _ => some .a
  | .ldB _ _ _ _ _ => some .a
  | .ldH _ _ _ _ _ => some .a
  | .ldW _ _ _ _ _ => some .a
  | .ldD _ _ _ _ _ => some .a
  | .stB _ _ _ _ _ => some .a
  | .stH _ _ _ _ _ => some .a
  | .stW _ _ _ _ _ => some .a
  | .stD _ _ _ _ _ => some .a
  | .ldb _ _ _ _ _ _ => some .a
  | .stb _ _ _ _ _ => some .a
  | .fenceOc _ _ _ => some .a
  | .fenceOcAll _ _ _ => some .a
  | .amoW _ _ _ _ _ => some .a
  | .amoD _ _ _ _ _ => some .a
  | .sbind _ _ _ _ _ => some .a
  | .sbindU _ _ _ _ => some .a
  | .lxsend _ _ => some .a
  | .lxsendCh _ _ _ => some .a
  | .lxsendCls _ _ => some .a
  | .pub _ _ _ _ _ => some .a
  | .pubMap _ _ _ => some .a
  | .pubUnmap _ _ => some .a
  | .expect _ _ _ => some .a
  | .expectC _ _ => some .a
  | .cp _ _ _ _ _ => some .a
  | .sldB _ _ _ _ _ => some .a
  | .sldH _ _ _ _ _ => some .a
  | .sldW _ _ _ _ _ => some .a
  | .sldD _ _ _ _ _ => some .a
  | .sstB _ _ _ _ _ => some .a
  | .sstH _ _ _ _ _ => some .a
  | .sstW _ _ _ _ _ => some .a
  | .sstD _ _ _ _ _ => some .a
  | .samoW _ _ _ _ _ => some .a
  | .samoD _ _ _ _ _ => some .a
  | .facqW _ _ _ _ _ _ _ => some .a
  | .facqT _ _ _ _ _ _ _ _ => some .a
  | .frel _ _ _ _ _ _ _ => some .a
  | .addX _ _ _ _ _ => some .x
  | .addiX _ _ _ _ => some .x
  | .andi _ _ _ _ => some .x
  | .ori _ _ _ _ => some .x
  | .xori _ _ _ _ => some .x
  | .shli _ _ _ _ => some .x
  | .shri _ _ _ _ => some .x
  | .srai _ _ _ _ => some .x
  | .liX _ _ _ => some .x
  | .liuX _ _ _ => some .x
  | .cmpX _ _ _ _ _ => some .x
  | .cmpiX _ _ _ _ _ => some .x
  | .sel _ _ _ _ _ => some .x
  | .mul _ _ _ _ _ => some .x
  | .mulw _ _ _ _ _ => some .x
  | .div _ _ _ _ _ => some .x
  | .bcnt _ _ _ _ => some .x
  | .ext _ _ _ _ _ => some .x
  | .ins _ _ _ _ _ => some .x
  | .exts _ _ _ _ _ => some .x
  | .crc8 _ _ _ _ _ => some .x
  | .rng _ _ _ _ _ => some .x
  | .tdec _ _ _ _ => some .x
  | .tcmp _ _ _ _ _ _ => some .x
  | .tcvt _ _ _ _ _ _ => some .x
  | .fadd _ _ _ _ _ => some .f
  | .fsub _ _ _ _ _ => some .f
  | .fmul _ _ _ _ _ => some .f
  | .fma _ _ _ _ _ _ => some .f
  | .fms _ _ _ _ _ _ => some .f
  | .fnma _ _ _ _ _ _ => some .f
  | .fdiv _ _ _ _ _ => some .f
  | .fsqrt _ _ _ _ => some .f
  | .fmin _ _ _ _ _ => some .f
  | .fmax _ _ _ _ _ => some .f
  | .fcmp _ _ _ _ _ _ => some .f
  | .fcvt _ _ _ _ _ => some .f
  | .fsgn _ _ _ _ _ _ => some .f
  | .fcls _ _ _ _ => some .f
  | .tadd _ _ _ _ _ => some .f
  | .tsub _ _ _ _ _ => some .f
  | .tmul _ _ _ _ _ => some .f
  | .vadd _ _ _ _ _ _ => some .v
  | .vsub _ _ _ _ _ _ => some .v
  | .vmul _ _ _ _ _ _ => some .v
  | .vfma _ _ _ _ _ _ => some .v
  | .vfms _ _ _ _ _ _ => some .v
  | .vfnma _ _ _ _ _ _ => some .v
  | .vmin _ _ _ _ _ _ => some .v
  | .vmax _ _ _ _ _ _ => some .v
  | .vabs _ _ _ _ _ => some .v
  | .vcvt _ _ _ _ _ => some .v
  | .vsf _ _ _ _ _ _ _ => some .v
  | .vred _ _ _ _ _ _ => some .v
  | .vscan _ _ _ _ _ _ => some .v
  | .vcmp _ _ _ _ _ _ _ => some .v
  | .vsel _ _ _ _ _ _ => some .v
  | .vmov _ _ _ _ _ => some .v
  | .vfill _ _ _ _ => some .v
  | .vdot _ _ _ _ _ _ => some .v
  | .tdecv _ _ _ _ => some .v
  | .vqacc _ _ _ _ _ => some .v
  | .vqaccS _ _ _ _ => some .v
  | .vqrd _ _ _ _ => some .v
  | .vqrdZ _ _ _ _ => some .v
  | .vqclr _ _ _ => some .v
  | .vloop _ _ _ => some .v
  | .vsync _ _ => some .v
  | .vsyncT _ _ _ => some .v
  | .chs _ _ _ _ => some .v
  | .chv _ _ _ _ => some .v
  | .mlease _ _ => some .m
  | .mfree _ => some .m
  | .mcfg _ _ _ _ => some .m
  | .mcfgLd _ _ _ _ _ _ => some .m
  | .mcfgAdd _ _ _ _ _ _ => some .m
  | .mgath _ _ _ _ _ => some .m
  | .mlatb _ _ _ _ => some .m
  | .mma _ _ _ _ _ _ => some .m
  | .mmas _ _ _ _ _ _ => some .m
  | .mst _ _ _ _ _ => some .m
  | .mstRaw _ _ _ _ _ => some .m
  | .mstSt _ _ _ => some .m
  | .mcomp _ _ _ _ _ => some .m
  | .mtile _ _ _ _ _ _ _ => some .m
  | .mwalk _ _ _ _ _ => some .m
  | .mdld _ _ _ _ => some .m
  | .mdst _ _ _ _ => some .m
  | .route _ _ _ => some .m
  | .routeTx _ _ _ => some .m
  | .mli _ _ _ => some .m
  | .mliu _ _ _ => some .m
  | .madd _ _ _ _ _ => some .m
  | .maddi _ _ _ _ => some .m
  | .br _ _ => some .c
  | .brl _ _ => some .c
  | .brr _ _ => some .c
  | .brrL _ _ => some .c
  | .lset _ _ _ _ _ => some .c
  | .lupd _ _ _ _ _ => some .c
  | .ltrim _ _ _ => some .c
  | .halt _ => some .c
  | .gop _ _ _ _ _ => some .c
  | .cli _ _ _ => some .c
  | .cget _ _ _ => some .c
  | .cset _ _ _ => some .c
  | .spawn _ _ _ => some .c
  | .join _ _ => some .c
  | .spawnS _ _ _ _ _ => some .c
  | .trap _ _ => some .c
  | .chw _ _ _ => some .c
  | .chwRel _ _ _ => some .c
  | .chr _ _ _ => some .c
  | .chrAcq _ _ _ => some .c
  | .barSync _ _ _ => some .c
  | .barArr _ _ _ => some .c
  | .barWait _ _ _ => some .c
  | .coll _ _ _ _ _ _ => some .c
  | .cmbxMax _ _ _ => some .c
  | .cmbxMerge _ _ _ => some .c
  | .cmbxArmmax _ _ _ => some .c
  | .cmbxArmmerge _ _ _ => some .c
  | .sqOpen _ _ _ => some .c
  | .sqFeed _ _ _ => some .c
  | .sqFeedAcc _ _ _ => some .c
  | .sqMask _ _ _ => some .c
  | .sqFork _ _ _ => some .c
  | .sqRoll _ _ _ => some .c
  | .sqSampG _ _ _ => some .c
  | .sqSampP _ _ _ => some .c
  | .sqSampFin _ _ _ => some .c
  | .sqCommit _ _ _ => some .c
  | .sqFree _ _ _ => some .c
  | .sqFreeRec _ _ _ => some .c
  | .mig _ _ => some .c
  | .yield _ => some .c
  | .snooze _ _ => some .c
  | .snoozeW _ _ => some .c
  | .sexit _ => some .c
  | .sail _ _ _ => some .c
  | .swait _ _ => some .c
  | .preempt _ _ => some .c
  | .preemptKill _ _ => some .c
  | .ctxsv _ _ _ => some .c
  | .ctxld _ _ _ => some .c
  | .qpop _ _ => some .c
  | .qpush _ _ _ => some .c
  | .qpushCfg _ _ _ => some .c
  | .pgenCap _ _ _ => some .c
  | .pgenPub _ _ => some .c
  | .tlbm _ _ _ => some .c
  | .ovfld _ _ => some .c
  | .ovfldSelf _ _ => some .c
  | .landingOverdue _ => none
  | .bundleSkip _ => none
  | .stallEnd _ => none
  | .bundleIssue _ => none
  | .debugStopTaken _ => none
  | .skiffPortRequest _ _ => none
  | .skiffBarrelGrant _ => none
  | .skiffFetch _ _ => none
  | .skiffOpComplete _ _ => none
  | .skiffCacheFill _ => none
  | .skiffTlbWalkResult _ _ => none
  | .migrationPack _ _ => none
  | .migrationMessage _ => none
  | .migrationResend _ => none
  | .corePartEnd _ => none
  | .sfuRequestServe _ => none
  | .vectorEntryStart _ => none
  | .vectorEntryComplete _ => none
  | .streamPortRefill _ => none
  | .arrayCommandStart _ => none
  | .macroKStep _ => none
  | .arrayCommandComplete _ => none
  | .leaseGrant _ => none
  | .mdldWrite _ => none
  | .mdstComplete _ => none
  | .refillStart _ _ => none
  | .watermarkAdvance _ _ => none
  | .refillFault _ _ => none
  | .lighterAccept _ => none
  | .lighterStart _ => none
  | .lighterComplete _ => none
  | .residueSlot _ => none
  | .remoteAccessPerform _ => none
  | .remoteReply _ => none
  | .tollPeriodBoundary _ => none
  | .channelSlot _ _ => none
  | .flitDelivery _ => none
  | .collectiveComplete _ => none
  | .combiningPacket _ => none
  | .sqCommandComplete _ => none
  | .routeComplete _ => none
  | .tokenRowArrival _ => none
  | .preemptMark _ => none
  | .segmentMiss _ => none
  | .segmentPrefetch _ => none
  | .resultLanding _ => none
  | .lqFill _ => none
  | .driftRecordDrain _ => none
  | .pageWalk _ => none
  | .markerPass _ => none
  | .dieShootdown _ => none
  | .linkAlignment _ _ => none
  | .flitResend _ => none
  | .holdRequest _ => none
  | .holdFreeze => none
  | .holdFreezeEnd => none
  | .powerLimit _ _ _ => none
  | .channelWordArrival _ _ => none
  | .creditReturn _ _ => none
  | .barrierArrival _ => none
  | .barrierCompletion _ => none
  | .roslysFrame _ _ => none
  | .portDown _ _ => none
  | .grammarStoreWrite _ _ _ => none
  | .sailingStart _ => none
  | .sailingDone _ => none
  | .stopCycle _ => none
  | .killComplete _ => none
  | .budgetPeriodBoundary _ => none
  | .hostChannelWrite _ _ _ => none
  | .hostOutboundRead _ _ => none
  | .hostFaultPop _ => none
  | .mcfgWrite _ _ _ => none
  | .lmselWrite _ _ => none
  | .wakectlWrite _ _ => none
  | .wakeDone _ => none
  | .dbgStop _ => none
  | .dbgGo _ => none
  | .dbgStep _ => none
  | .clkselWrite _ _ => none
  | .clockChange => none
  | .packageReset _ => none
  | .reboot _ => none
  | .boot _ => none
  | .attgoWrite _ _ => none
  | .attestationSigned _ => none
  | .controlRegisterWrite _ _ => none
  | .scrub _ _ => none
  | .hbmPatrolScrub _ => none
  | .thermalShutdown _ => none
  | .hostMemoryWrite _ _ _ => none
  | .invalidationArrival _ => none

/-- Fields side by side, from the lowest bit up: each with its width and its value. -/
def pack : List (Nat × Nat) → Nat
  | [] => 0
  | (n, x) :: l => x + 2 ^ n * pack l

/-- A code word of a number. -/
def word (v : Nat) : Code := BitVec.ofNat 32 v

/-- The words of an instruction (03 R88, R100), their fields from bit 0 up: the slot word, and the extension word of a two-word form; none
for an event. -/
def encode : Instr → List Code
  | .addA g d a b f => [word (pack [(6, f.toNat), (5, b.toNat), (5, a.toNat), (5, d.toNat), (4, g.toNat), (7, 1)])]
  | .addiA g d a i => [word (pack [(11, i.toNat), (5, a.toNat), (5, d.toNat), (4, g.toNat), (7, 2)])]
  | .liA g d i => [word (pack [(16, i.toNat), (5, d.toNat), (4, g.toNat), (7, 3)])]
  | .liuA g d i => [word (pack [(16, i.toNat), (5, d.toNat), (4, g.toNat), (7, 4)])]
  | .cmpA g h a b c => [word (pack [(3, c.toNat), (3, 0), (5, b.toNat), (5, a.toNat), (4, h.toNat), (1, 0), (4, g.toNat), (7, 5)])]
  | .cmpiA g h a c i => [word (pack [(8, i.toNat), (3, c.toNat), (5, a.toNat), (4, h.toNat), (1, 0), (4, g.toNat), (7, 6)])]
  | .ldB g d a c i => [word (pack [(7, i.toNat), (4, c.toNat), (5, a.toNat), (5, d.toNat), (4, g.toNat), (7, 8)])]
  | .ldH g d a c i => [word (pack [(7, i.toNat), (4, c.toNat), (5, a.toNat), (5, d.toNat), (4, g.toNat), (7, 9)])]
  | .ldW g d a c i => [word (pack [(7, i.toNat), (4, c.toNat), (5, a.toNat), (5, d.toNat), (4, g.toNat), (7, 10)])]
  | .ldD g d a c i => [word (pack [(7, i.toNat), (4, c.toNat), (5, a.toNat), (5, d.toNat), (4, g.toNat), (7, 11)])]
  | .stB g d a c i => [word (pack [(7, i.toNat), (4, c.toNat), (5, a.toNat), (5, d.toNat), (4, g.toNat), (7, 12)])]
  | .stH g d a c i => [word (pack [(7, i.toNat), (4, c.toNat), (5, a.toNat), (5, d.toNat), (4, g.toNat), (7, 13)])]
  | .stW g d a c i => [word (pack [(7, i.toNat), (4, c.toNat), (5, a.toNat), (5, d.toNat), (4, g.toNat), (7, 14)])]
  | .stD g d a c i => [word (pack [(7, i.toNat), (4, c.toNat), (5, a.toNat), (5, d.toNat), (4, g.toNat), (7, 15)])]
  | .ldb g d a c s w => [word (pack [(5, w.toNat), (1, s.toNat), (4, c.toNat), (1, 0), (5, a.toNat), (5, d.toNat), (4, g.toNat), (7, 16)])]
  | .stb g d a c w => [word (pack [(5, w.toNat), (1, 0), (4, c.toNat), (1, 0), (5, a.toNat), (5, d.toNat), (4, g.toNat), (7, 17)])]
  | .fenceOc g s m => [word (pack [(16, m.toNat), (1, 0), (3, s.toNat), (1, 0), (4, g.toNat), (7, 18)])]
  | .fenceOcAll g s m => [word (pack [(16, m.toNat), (1, 0), (3, s.toNat), (1, 1), (4, g.toNat), (7, 18)])]
  | .amoW g o a b c => [word (pack [(4, c.toNat), (2, 0), (5, b.toNat), (5, a.toNat), (5, o.toNat), (4, g.toNat), (7, 19)])]
  | .amoD g o a b c => [word (pack [(4, c.toNat), (2, 0), (5, b.toNat), (5, a.toNat), (5, o.toNat), (4, g.toNat), (7, 20)])]
  | .sbind g r a f p => [word (pack [(2, p.toNat), (1, f.toNat), (1, 0), (2, 0), (5, 0), (5, a.toNat), (5, r.toNat), (4, g.toNat), (7, 21)])]
  | .sbindU g r f p => [word (pack [(2, p.toNat), (1, f.toNat), (1, 1), (2, 0), (5, 0), (5, 0), (5, r.toNat), (4, g.toNat), (7, 21)])]
  | .lxsend g a => [word (pack [(2, 0), (4, 0), (5, 0), (5, a.toNat), (5, 0), (4, g.toNat), (7, 22)])]
  | .lxsendCh g n a => [word (pack [(2, 1), (4, 0), (5, 0), (5, a.toNat), (3, n.toNat), (2, 0), (4, g.toNat), (7, 22)])]
  | .lxsendCls g n => [word (pack [(2, 2), (4, 0), (5, 0), (5, 0), (3, n.toNat), (2, 0), (4, g.toNat), (7, 22)])]
  | .pub g s h t c => [word (pack [(4, c.toNat), (2, 0), (5, t.toNat), (5, h.toNat), (3, s.toNat), (2, 0), (4, g.toNat), (7, 23)])]
  | .pubMap g n a => [word (pack [(4, 0), (2, 1), (5, 0), (5, a.toNat), (4, n.toNat), (1, 0), (4, g.toNat), (7, 23)])]
  | .pubUnmap g n => [word (pack [(4, 0), (2, 2), (5, 0), (5, 0), (4, n.toNat), (1, 0), (4, g.toNat), (7, 23)])]
  | .expect g h t => [word (pack [(1, 0), (5, 0), (5, t.toNat), (5, h.toNat), (5, 0), (4, g.toNat), (7, 24)])]
  | .expectC g h => [word (pack [(1, 1), (5, 0), (5, 0), (5, h.toNat), (5, 0), (4, g.toNat), (7, 24)])]
  | .cp g d s q f => [word (pack [(3, f.toNat), (2, q.toNat), (1, 0), (5, 0), (5, s.toNat), (5, d.toNat), (4, g.toNat), (7, 63)])]
  | .sldB g d a c i => [word (pack [(7, i.toNat), (4, c.toNat), (5, a.toNat), (5, d.toNat), (4, g.toNat), (7, 64)])]
  | .sldH g d a c i => [word (pack [(7, i.toNat), (4, c.toNat), (5, a.toNat), (5, d.toNat), (4, g.toNat), (7, 65)])]
  | .sldW g d a c i => [word (pack [(7, i.toNat), (4, c.toNat), (5, a.toNat), (5, d.toNat), (4, g.toNat), (7, 66)])]
  | .sldD g d a c i => [word (pack [(7, i.toNat), (4, c.toNat), (5, a.toNat), (5, d.toNat), (4, g.toNat), (7, 67)])]
  | .sstB g d a c i => [word (pack [(7, i.toNat), (4, c.toNat), (5, a.toNat), (5, d.toNat), (4, g.toNat), (7, 68)])]
  | .sstH g d a c i => [word (pack [(7, i.toNat), (4, c.toNat), (5, a.toNat), (5, d.toNat), (4, g.toNat), (7, 69)])]
  | .sstW g d a c i => [word (pack [(7, i.toNat), (4, c.toNat), (5, a.toNat), (5, d.toNat), (4, g.toNat), (7, 70)])]
  | .sstD g d a c i => [word (pack [(7, i.toNat), (4, c.toNat), (5, a.toNat), (5, d.toNat), (4, g.toNat), (7, 71)])]
  | .samoW g o a b c => [word (pack [(4, c.toNat), (2, 0), (5, b.toNat), (5, a.toNat), (5, o.toNat), (4, g.toNat), (7, 72)])]
  | .samoD g o a b c => [word (pack [(4, c.toNat), (2, 0), (5, b.toNat), (5, a.toNat), (5, o.toNat), (4, g.toNat), (7, 73)])]
  | .facqW g a v i l s m => [word (pack [(6, 0), (5, v.toNat), (5, a.toNat), (5, 0), (4, g.toNat), (7, 96)]), word (pack [(16, m.toNat), (3, s.toNat), (1, l.toNat), (12, i.toNat)])]
  | .facqT g h a v i l s m => [word (pack [(6, 0), (5, v.toNat), (5, a.toNat), (4, h.toNat), (1, 0), (4, g.toNat), (7, 97)]), word (pack [(16, m.toNat), (3, s.toNat), (1, l.toNat), (12, i.toNat)])]
  | .frel g a v i l s m => [word (pack [(6, 0), (5, v.toNat), (5, a.toNat), (5, 0), (4, g.toNat), (7, 98)]), word (pack [(16, m.toNat), (3, s.toNat), (1, l.toNat), (12, i.toNat)])]
  | .addX g d a b f => [word (pack [(6, f.toNat), (5, b.toNat), (5, a.toNat), (5, d.toNat), (4, g.toNat), (7, 1)])]
  | .addiX g d a i => [word (pack [(11, i.toNat), (5, a.toNat), (5, d.toNat), (4, g.toNat), (7, 2)])]
  | .andi g d a i => [word (pack [(11, i.toNat), (5, a.toNat), (5, d.toNat), (4, g.toNat), (7, 3)])]
  | .ori g d a i => [word (pack [(11, i.toNat), (5, a.toNat), (5, d.toNat), (4, g.toNat), (7, 4)])]
  | .xori g d a i => [word (pack [(11, i.toNat), (5, a.toNat), (5, d.toNat), (4, g.toNat), (7, 5)])]
  | .shli g d a s => [word (pack [(6, s.toNat), (5, 0), (5, a.toNat), (5, d.toNat), (4, g.toNat), (7, 6)])]
  | .shri g d a s => [word (pack [(6, s.toNat), (5, 0), (5, a.toNat), (5, d.toNat), (4, g.toNat), (7, 7)])]
  | .srai g d a s => [word (pack [(6, s.toNat), (5, 0), (5, a.toNat), (5, d.toNat), (4, g.toNat), (7, 8)])]
  | .liX g d i => [word (pack [(16, i.toNat), (5, d.toNat), (4, g.toNat), (7, 9)])]
  | .liuX g d i => [word (pack [(16, i.toNat), (5, d.toNat), (4, g.toNat), (7, 10)])]
  | .cmpX g h a b c => [word (pack [(3, c.toNat), (3, 0), (5, b.toNat), (5, a.toNat), (4, h.toNat), (1, 0), (4, g.toNat), (7, 11)])]
  | .cmpiX g h a c i => [word (pack [(8, i.toNat), (3, c.toNat), (5, a.toNat), (4, h.toNat), (1, 0), (4, g.toNat), (7, 12)])]
  | .sel g d a b h => [word (pack [(4, h.toNat), (2, 0), (5, b.toNat), (5, a.toNat), (5, d.toNat), (4, g.toNat), (7, 13)])]
  | .mul g d a b f => [word (pack [(2, f.toNat), (4, 0), (5, b.toNat), (5, a.toNat), (5, d.toNat), (4, g.toNat), (7, 14)])]
  | .mulw g d a b u => [word (pack [(1, u.toNat), (5, 0), (5, b.toNat), (5, a.toNat), (5, d.toNat), (4, g.toNat), (7, 15)])]
  | .div g d a b f => [word (pack [(2, f.toNat), (4, 0), (5, b.toNat), (5, a.toNat), (5, d.toNat), (4, g.toNat), (7, 16)])]
  | .bcnt g d a f => [word (pack [(6, f.toNat), (5, 0), (5, a.toNat), (5, d.toNat), (4, g.toNat), (7, 17)])]
  | .ext g d a l p => [word (pack [(6, p.toNat), (5, l.toNat), (5, a.toNat), (5, d.toNat), (4, g.toNat), (7, 18)])]
  | .ins g d a l p => [word (pack [(6, p.toNat), (5, l.toNat), (5, a.toNat), (5, d.toNat), (4, g.toNat), (7, 19)])]
  | .exts g d a l p => [word (pack [(6, p.toNat), (5, l.toNat), (5, a.toNat), (5, d.toNat), (4, g.toNat), (7, 20)])]
  | .crc8 g d a b n => [word (pack [(3, n.toNat), (3, 0), (5, b.toNat), (5, a.toNat), (5, d.toNat), (4, g.toNat), (7, 21)])]
  | .rng g d a b h => [word (pack [(1, h.toNat), (5, 0), (5, b.toNat), (5, a.toNat), (5, d.toNat), (4, g.toNat), (7, 22)])]
  | .tdec g d a t => [word (pack [(2, t.toNat), (4, 0), (5, 0), (5, a.toNat), (5, d.toNat), (4, g.toNat), (7, 23)])]
  | .tcmp g h a b t c => [word (pack [(2, c.toNat), (2, t.toNat), (2, 0), (5, b.toNat), (5, a.toNat), (4, h.toNat), (1, 0), (4, g.toNat), (7, 24)])]
  | .tcvt g d a k e s => [word (pack [(2, s.toNat), (2, e.toNat), (2, k.toNat), (5, 0), (5, a.toNat), (5, d.toNat), (4, g.toNat), (7, 25)])]
  | .fadd g d a b p => [word (pack [(1, p.toNat), (5, 0), (5, b.toNat), (5, a.toNat), (5, d.toNat), (4, g.toNat), (7, 1)])]
  | .fsub g d a b p => [word (pack [(1, p.toNat), (5, 0), (5, b.toNat), (5, a.toNat), (5, d.toNat), (4, g.toNat), (7, 2)])]
  | .fmul g d a b p => [word (pack [(1, p.toNat), (5, 0), (5, b.toNat), (5, a.toNat), (5, d.toNat), (4, g.toNat), (7, 3)])]
  | .fma g d a b c p => [word (pack [(1, p.toNat), (5, c.toNat), (5, b.toNat), (5, a.toNat), (5, d.toNat), (4, g.toNat), (7, 4)])]
  | .fms g d a b c p => [word (pack [(1, p.toNat), (5, c.toNat), (5, b.toNat), (5, a.toNat), (5, d.toNat), (4, g.toNat), (7, 5)])]
  | .fnma g d a b c p => [word (pack [(1, p.toNat), (5, c.toNat), (5, b.toNat), (5, a.toNat), (5, d.toNat), (4, g.toNat), (7, 6)])]
  | .fdiv g d a b p => [word (pack [(1, p.toNat), (5, 0), (5, b.toNat), (5, a.toNat), (5, d.toNat), (4, g.toNat), (7, 7)])]
  | .fsqrt g d a p => [word (pack [(1, p.toNat), (5, 0), (5, 0), (5, a.toNat), (5, d.toNat), (4, g.toNat), (7, 8)])]
  | .fmin g d a b p => [word (pack [(1, p.toNat), (5, 0), (5, b.toNat), (5, a.toNat), (5, d.toNat), (4, g.toNat), (7, 9)])]
  | .fmax g d a b p => [word (pack [(1, p.toNat), (5, 0), (5, b.toNat), (5, a.toNat), (5, d.toNat), (4, g.toNat), (7, 10)])]
  | .fcmp g h a b c p => [word (pack [(1, p.toNat), (3, c.toNat), (2, 0), (5, b.toNat), (5, a.toNat), (4, h.toNat), (1, 0), (4, g.toNat), (7, 11)])]
  | .fcvt g d a e s => [word (pack [(3, s.toNat), (3, e.toNat), (5, 0), (5, a.toNat), (5, d.toNat), (4, g.toNat), (7, 12)])]
  | .fsgn g d a b o p => [word (pack [(1, p.toNat), (2, o.toNat), (3, 0), (5, b.toNat), (5, a.toNat), (5, d.toNat), (4, g.toNat), (7, 13)])]
  | .fcls g d a p => [word (pack [(1, p.toNat), (5, 0), (5, 0), (5, a.toNat), (5, d.toNat), (4, g.toNat), (7, 14)])]
  | .tadd g d a b t => [word (pack [(2, t.toNat), (1, 0), (3, 0), (5, b.toNat), (5, a.toNat), (5, d.toNat), (4, g.toNat), (7, 15)])]
  | .tsub g d a b t => [word (pack [(2, t.toNat), (1, 1), (3, 0), (5, b.toNat), (5, a.toNat), (5, d.toNat), (4, g.toNat), (7, 15)])]
  | .tmul g d a b t => [word (pack [(2, t.toNat), (4, 0), (5, b.toNat), (5, a.toNat), (5, d.toNat), (4, g.toNat), (7, 16)])]
  | .vadd g d a b c k => [word (pack [(3, k.toNat), (2, 0), (4, c.toNat), (4, b.toNat), (4, a.toNat), (4, d.toNat), (4, g.toNat), (7, 1)])]
  | .vsub g d a b c k => [word (pack [(3, k.toNat), (2, 0), (4, c.toNat), (4, b.toNat), (4, a.toNat), (4, d.toNat), (4, g.toNat), (7, 2)])]
  | .vmul g d a b c k => [word (pack [(3, k.toNat), (2, 0), (4, c.toNat), (4, b.toNat), (4, a.toNat), (4, d.toNat), (4, g.toNat), (7, 3)])]
  | .vfma g d a b c k => [word (pack [(3, k.toNat), (2, 0), (4, c.toNat), (4, b.toNat), (4, a.toNat), (4, d.toNat), (4, g.toNat), (7, 4)])]
  | .vfms g d a b c k => [word (pack [(3, k.toNat), (2, 1), (4, c.toNat), (4, b.toNat), (4, a.toNat), (4, d.toNat), (4, g.toNat), (7, 4)])]
  | .vfnma g d a b c k => [word (pack [(3, k.toNat), (2, 2), (4, c.toNat), (4, b.toNat), (4, a.toNat), (4, d.toNat), (4, g.toNat), (7, 4)])]
  | .vmin g d a b c k => [word (pack [(3, k.toNat), (2, 0), (4, c.toNat), (4, b.toNat), (4, a.toNat), (4, d.toNat), (4, g.toNat), (7, 5)])]
  | .vmax g d a b c k => [word (pack [(3, k.toNat), (2, 0), (4, c.toNat), (4, b.toNat), (4, a.toNat), (4, d.toNat), (4, g.toNat), (7, 6)])]
  | .vabs g d a c k => [word (pack [(3, k.toNat), (2, 0), (4, c.toNat), (4, 0), (4, a.toNat), (4, d.toNat), (4, g.toNat), (7, 7)])]
  | .vcvt g d a c m => [word (pack [(3, 0), (2, m.toNat), (4, c.toNat), (4, 0), (4, a.toNat), (4, d.toNat), (4, g.toNat), (7, 8)])]
  | .vsf g d a f c r k => [word (pack [(3, k.toNat), (1, r.toNat), (1, 0), (4, c.toNat), (4, f.toNat), (4, a.toNat), (4, d.toNat), (4, g.toNat), (7, 9)])]
  | .vred g d a c o k => [word (pack [(3, k.toNat), (2, o.toNat), (4, c.toNat), (4, 0), (4, a.toNat), (4, d.toNat), (4, g.toNat), (7, 10)])]
  | .vscan g d a c o k => [word (pack [(3, k.toNat), (2, o.toNat), (4, c.toNat), (4, 0), (4, a.toNat), (4, d.toNat), (4, g.toNat), (7, 11)])]
  | .vcmp g d a b c o k => [word (pack [(3, k.toNat), (2, o.toNat), (4, c.toNat), (4, b.toNat), (4, a.toNat), (4, d.toNat), (4, g.toNat), (7, 12)])]
  | .vsel g d a b c k => [word (pack [(3, k.toNat), (2, 0), (4, c.toNat), (4, b.toNat), (4, a.toNat), (4, d.toNat), (4, g.toNat), (7, 13)])]
  | .vmov g d a c k => [word (pack [(3, k.toNat), (2, 0), (4, c.toNat), (4, 0), (4, a.toNat), (4, d.toNat), (4, g.toNat), (7, 14)])]
  | .vfill g d i c => [word (pack [(5, 0), (4, c.toNat), (8, i.toNat), (4, d.toNat), (4, g.toNat), (7, 15)])]
  | .vdot g d a b c k => [word (pack [(3, k.toNat), (2, 0), (4, c.toNat), (4, b.toNat), (4, a.toNat), (4, d.toNat), (4, g.toNat), (7, 16)])]
  | .tdecv g d a c => [word (pack [(5, 0), (4, c.toNat), (4, 0), (4, a.toNat), (4, d.toNat), (4, g.toNat), (7, 17)])]
  | .vqacc g q a b c => [word (pack [(3, 0), (1, 0), (1, 0), (4, c.toNat), (4, b.toNat), (4, a.toNat), (4, q.toNat), (4, g.toNat), (7, 18)])]
  | .vqaccS g q a c => [word (pack [(3, 0), (1, 1), (1, 0), (4, c.toNat), (4, 0), (4, a.toNat), (4, q.toNat), (4, g.toNat), (7, 18)])]
  | .vqrd g d q c => [word (pack [(1, 0), (4, 0), (4, c.toNat), (4, 0), (4, q.toNat), (4, d.toNat), (4, g.toNat), (7, 19)])]
  | .vqrdZ g d q c => [word (pack [(1, 1), (4, 0), (4, c.toNat), (4, 0), (4, q.toNat), (4, d.toNat), (4, g.toNat), (7, 19)])]
  | .vqclr g q w => [word (pack [(2, w.toNat), (3, 0), (4, 0), (4, 0), (4, 0), (4, q.toNat), (4, g.toNat), (7, 20)])]
  | .vloop g n k => [word (pack [(1, 0), (16, k.toNat), (4, n.toNat), (4, g.toNat), (7, 21)])]
  | .vsync g m => [word (pack [(4, 0), (1, 0), (16, m.toNat), (4, g.toNat), (7, 22)])]
  | .vsyncT g m h => [word (pack [(4, h.toNat), (1, 1), (16, m.toNat), (4, g.toNat), (7, 22)])]
  | .chs g e s c => [word (pack [(5, 0), (4, c.toNat), (4, 0), (4, s.toNat), (4, e.toNat), (4, g.toNat), (7, 32)])]
  | .chv g d e c => [word (pack [(5, 0), (4, c.toNat), (4, 0), (4, e.toNat), (4, d.toNat), (4, g.toNat), (7, 33)])]
  | .mlease g n => [word (pack [(9, 0), (8, n.toNat), (4, 0), (4, g.toNat), (7, 1)])]
  | .mfree g => [word (pack [(5, 0), (4, 0), (4, 0), (4, 0), (4, 0), (4, g.toNat), (7, 2)])]
  | .mcfg g d s t => [word (pack [(3, t.toNat), (2, s.toNat), (4, 0), (4, 0), (2, 0), (2, 0), (4, d.toNat), (4, g.toNat), (7, 3)])]
  | .mcfgLd g d h c s t => [word (pack [(3, t.toNat), (2, s.toNat), (4, c.toNat), (4, h.toNat), (2, 1), (2, 0), (4, d.toNat), (4, g.toNat), (7, 3)])]
  | .mcfgAdd g d h c s t => [word (pack [(3, t.toNat), (2, s.toNat), (4, c.toNat), (4, h.toNat), (2, 2), (2, 0), (4, d.toNat), (4, g.toNat), (7, 3)])]
  | .mgath g x i r c => [word (pack [(5, 0), (4, c.toNat), (4, r.toNat), (4, i.toNat), (1, x.toNat), (3, 0), (4, g.toNat), (7, 4)])]
  | .mlatb g y b c => [word (pack [(5, 0), (4, c.toNat), (4, 0), (4, b.toNat), (1, y.toNat), (3, 0), (4, g.toNat), (7, 5)])]
  | .mma g d m k y x => [word (pack [(1, x.toNat), (1, y.toNat), (3, 0), (4, 0), (4, k.toNat), (4, m.toNat), (4, d.toNat), (4, g.toNat), (7, 6)])]
  | .mmas g d m k j x => [word (pack [(1, x.toNat), (1, 0), (2, j.toNat), (1, 0), (4, 0), (4, k.toNat), (4, m.toNat), (4, d.toNat), (4, g.toNat), (7, 7)])]
  | .mst g t h m c => [word (pack [(2, 0), (3, 0), (4, c.toNat), (4, m.toNat), (4, h.toNat), (4, t.toNat), (4, g.toNat), (7, 8)])]
  | .mstRaw g t h m c => [word (pack [(2, 1), (3, 0), (4, c.toNat), (4, m.toNat), (4, h.toNat), (4, t.toNat), (4, g.toNat), (7, 8)])]
  | .mstSt g t h => [word (pack [(2, 2), (3, 0), (4, 0), (4, 0), (4, h.toNat), (4, t.toNat), (4, g.toNat), (7, 8)])]
  | .mcomp g d s k c => [word (pack [(5, 0), (4, c.toNat), (2, k.toNat), (2, 0), (4, s.toNat), (4, d.toNat), (4, g.toNat), (7, 9)])]
  | .mtile g d x p c z s => [word (pack [(1, s.toNat), (1, z.toNat), (3, 0), (4, c.toNat), (4, p.toNat), (4, x.toNat), (4, d.toNat), (4, g.toNat), (7, 10)])]
  | .mwalk g d x p c => [word (pack [(5, 0), (4, c.toNat), (4, p.toNat), (4, x.toNat), (4, d.toNat), (4, g.toNat), (7, 11)])]
  | .mdld g k a c => [word (pack [(5, 0), (4, c.toNat), (4, 0), (4, a.toNat), (2, k.toNat), (2, 0), (4, g.toNat), (7, 12)])]
  | .mdst g k a c => [word (pack [(5, 0), (4, c.toNat), (4, 0), (4, a.toNat), (2, k.toNat), (2, 0), (4, g.toNat), (7, 13)])]
  | .route g m c => [word (pack [(1, 0), (4, 0), (4, c.toNat), (4, 0), (4, m.toNat), (4, 0), (4, g.toNat), (7, 14)])]
  | .routeTx g m c => [word (pack [(1, 1), (4, 0), (4, c.toNat), (4, 0), (4, m.toNat), (4, 0), (4, g.toNat), (7, 14)])]
  | .mli g d i => [word (pack [(16, i.toNat), (5, d.toNat), (4, g.toNat), (7, 16)])]
  | .mliu g d i => [word (pack [(16, i.toNat), (5, d.toNat), (4, g.toNat), (7, 17)])]
  | .madd g d a b f => [word (pack [(6, f.toNat), (5, b.toNat), (5, a.toNat), (5, d.toNat), (4, g.toNat), (7, 18)])]
  | .maddi g d a i => [word (pack [(11, i.toNat), (5, a.toNat), (5, d.toNat), (4, g.toNat), (7, 19)])]
  | .br g o => [word (pack [(21, o.toNat), (4, g.toNat), (7, 1)])]
  | .brl g o => [word (pack [(21, o.toNat), (4, g.toNat), (7, 2)])]
  | .brr g s => [word (pack [(1, 0), (5, 0), (5, 0), (5, s.toNat), (5, 0), (4, g.toNat), (7, 3)])]
  | .brrL g s => [word (pack [(1, 1), (5, 0), (5, 0), (5, s.toNat), (5, 0), (4, g.toNat), (7, 3)])]
  | .lset g l i k e => [word (pack [(12, e.toNat), (6, k.toNat), (1, i.toNat), (2, l.toNat), (4, g.toNat), (7, 4)])]
  | .lupd g l a i d => [word (pack [(14, d.toNat), (1, i.toNat), (4, a.toNat), (2, l.toNat), (4, g.toNat), (7, 5)])]
  | .ltrim g s c => [word (pack [(4, c.toNat), (2, 0), (5, 0), (5, s.toNat), (5, 0), (4, g.toNat), (7, 6)])]
  | .halt g => [word (pack [(6, 0), (5, 0), (5, 0), (5, 0), (4, g.toNat), (7, 7)])]
  | .gop g d a b f => [word (pack [(3, f.toNat), (3, 0), (4, b.toNat), (1, 0), (4, a.toNat), (1, 0), (4, d.toNat), (1, 0), (4, g.toNat), (7, 8)])]
  | .cli g d i => [word (pack [(16, i.toNat), (5, d.toNat), (4, g.toNat), (7, 9)])]
  | .cget g d n => [word (pack [(4, 0), (12, n.toNat), (5, d.toNat), (4, g.toNat), (7, 10)])]
  | .cset g s n => [word (pack [(4, 0), (12, n.toNat), (5, s.toNat), (4, g.toNat), (7, 11)])]
  | .spawn g k e => [word (pack [(6, 0), (5, 0), (5, e.toNat), (5, k.toNat), (4, g.toNat), (7, 12)])]
  | .join g d => [word (pack [(6, 0), (5, 0), (5, 0), (5, d.toNat), (4, g.toNat), (7, 13)])]
  | .spawnS g h e a m => [word (pack [(3, m.toNat), (3, 0), (5, a.toNat), (5, e.toNat), (4, h.toNat), (1, 0), (4, g.toNat), (7, 14)])]
  | .trap g i => [word (pack [(16, i.toNat), (5, 0), (4, g.toNat), (7, 15)])]
  | .chw g e s => [word (pack [(1, 0), (5, 0), (5, s.toNat), (5, e.toNat), (5, 0), (4, g.toNat), (7, 16)])]
  | .chwRel g e s => [word (pack [(1, 1), (5, 0), (5, s.toNat), (5, e.toNat), (5, 0), (4, g.toNat), (7, 16)])]
  | .chr g d e => [word (pack [(1, 0), (5, 0), (5, 0), (5, e.toNat), (5, d.toNat), (4, g.toNat), (7, 17)])]
  | .chrAcq g d e => [word (pack [(1, 1), (5, 0), (5, 0), (5, e.toNat), (5, d.toNat), (4, g.toNat), (7, 17)])]
  | .barSync g b s => [word (pack [(3, s.toNat), (2, 0), (1, 0), (5, 0), (5, 0), (4, b.toNat), (1, 0), (4, g.toNat), (7, 18)])]
  | .barArr g b s => [word (pack [(3, s.toNat), (2, 1), (1, 0), (5, 0), (5, 0), (4, b.toNat), (1, 0), (4, g.toNat), (7, 18)])]
  | .barWait g b s => [word (pack [(3, s.toNat), (2, 2), (1, 0), (5, 0), (5, 0), (4, b.toNat), (1, 0), (4, g.toNat), (7, 18)])]
  | .coll g d s n p o => [word (pack [(2, o.toNat), (3, p.toNat), (1, 0), (5, n.toNat), (5, s.toNat), (5, d.toNat), (4, g.toNat), (7, 19)])]
  | .cmbxMax g p h => [word (pack [(2, 0), (4, 0), (5, h.toNat), (5, p.toNat), (5, 0), (4, g.toNat), (7, 20)])]
  | .cmbxMerge g p h => [word (pack [(2, 1), (4, 0), (5, h.toNat), (5, p.toNat), (5, 0), (4, g.toNat), (7, 20)])]
  | .cmbxArmmax g p h => [word (pack [(2, 2), (4, 0), (5, h.toNat), (5, p.toNat), (5, 0), (4, g.toNat), (7, 20)])]
  | .cmbxArmmerge g p h => [word (pack [(2, 3), (4, 0), (5, h.toNat), (5, p.toNat), (5, 0), (4, g.toNat), (7, 20)])]
  | .sqOpen g b c => [word (pack [(4, c.toNat), (2, 0), (5, 0), (5, b.toNat), (5, 0), (4, g.toNat), (7, 21)])]
  | .sqFeed g b c => [word (pack [(4, c.toNat), (1, 0), (1, 0), (5, 0), (5, b.toNat), (5, 0), (4, g.toNat), (7, 22)])]
  | .sqFeedAcc g b c => [word (pack [(4, c.toNat), (1, 1), (1, 0), (5, 0), (5, b.toNat), (5, 0), (4, g.toNat), (7, 22)])]
  | .sqMask g b c => [word (pack [(4, c.toNat), (2, 0), (5, 0), (5, b.toNat), (5, 0), (4, g.toNat), (7, 23)])]
  | .sqFork g b c => [word (pack [(4, c.toNat), (2, 0), (5, 0), (5, b.toNat), (5, 0), (4, g.toNat), (7, 24)])]
  | .sqRoll g b c => [word (pack [(4, c.toNat), (2, 0), (5, 0), (5, b.toNat), (5, 0), (4, g.toNat), (7, 25)])]
  | .sqSampG g b c => [word (pack [(4, c.toNat), (2, 0), (5, 0), (5, b.toNat), (5, 0), (4, g.toNat), (7, 26)])]
  | .sqSampP g b c => [word (pack [(4, c.toNat), (2, 1), (5, 0), (5, b.toNat), (5, 0), (4, g.toNat), (7, 26)])]
  | .sqSampFin g b c => [word (pack [(4, c.toNat), (2, 2), (5, 0), (5, b.toNat), (5, 0), (4, g.toNat), (7, 26)])]
  | .sqCommit g b c => [word (pack [(4, c.toNat), (2, 0), (5, 0), (5, b.toNat), (5, 0), (4, g.toNat), (7, 27)])]
  | .sqFree g b c => [word (pack [(4, c.toNat), (1, 0), (1, 0), (5, 0), (5, b.toNat), (5, 0), (4, g.toNat), (7, 28)])]
  | .sqFreeRec g b c => [word (pack [(4, c.toNat), (1, 1), (1, 0), (5, 0), (5, b.toNat), (5, 0), (4, g.toNat), (7, 28)])]
  | .mig g k => [word (pack [(6, 0), (5, 0), (5, k.toNat), (5, 0), (4, g.toNat), (7, 32)])]
  | .yield g => [word (pack [(6, 0), (5, 0), (5, 0), (5, 0), (4, g.toNat), (7, 33)])]
  | .snooze g s => [word (pack [(1, 0), (5, 0), (5, 0), (5, s.toNat), (5, 0), (4, g.toNat), (7, 34)])]
  | .snoozeW g s => [word (pack [(1, 1), (5, 0), (5, 0), (5, s.toNat), (5, 0), (4, g.toNat), (7, 34)])]
  | .sexit g => [word (pack [(6, 0), (5, 0), (5, 0), (5, 0), (4, g.toNat), (7, 35)])]
  | .sail g l s => [word (pack [(6, 0), (5, s.toNat), (5, l.toNat), (5, 0), (4, g.toNat), (7, 48)])]
  | .swait g s => [word (pack [(6, 0), (5, 0), (5, s.toNat), (5, 0), (4, g.toNat), (7, 49)])]
  | .preempt g s => [word (pack [(1, 0), (5, 0), (5, 0), (5, s.toNat), (5, 0), (4, g.toNat), (7, 50)])]
  | .preemptKill g s => [word (pack [(1, 1), (5, 0), (5, 0), (5, s.toNat), (5, 0), (4, g.toNat), (7, 50)])]
  | .ctxsv g s n => [word (pack [(1, n.toNat), (5, 0), (5, 0), (5, s.toNat), (5, 0), (4, g.toNat), (7, 51)])]
  | .ctxld g s n => [word (pack [(1, n.toNat), (5, 0), (5, 0), (5, s.toNat), (5, 0), (4, g.toNat), (7, 52)])]
  | .qpop g b => [word (pack [(6, 0), (5, 0), (5, b.toNat), (5, 0), (4, g.toNat), (7, 53)])]
  | .qpush g q b => [word (pack [(1, 0), (5, 0), (5, b.toNat), (5, q.toNat), (5, 0), (4, g.toNat), (7, 54)])]
  | .qpushCfg g q b => [word (pack [(1, 1), (5, 0), (5, b.toNat), (5, q.toNat), (5, 0), (4, g.toNat), (7, 54)])]
  | .pgenCap g p d => [word (pack [(1, 0), (5, 0), (5, d.toNat), (5, p.toNat), (5, 0), (4, g.toNat), (7, 55)])]
  | .pgenPub g p => [word (pack [(1, 1), (5, 0), (5, 0), (5, p.toNat), (5, 0), (4, g.toNat), (7, 55)])]
  | .tlbm g s a => [word (pack [(6, 0), (5, a.toNat), (5, s.toNat), (5, 0), (4, g.toNat), (7, 56)])]
  | .ovfld g v => [word (pack [(1, 0), (5, 0), (5, 0), (5, v.toNat), (5, 0), (4, g.toNat), (7, 57)])]
  | .ovfldSelf g v => [word (pack [(1, 1), (5, 0), (5, 0), (5, v.toNat), (5, 0), (4, g.toNat), (7, 57)])]
  | .landingOverdue _ => []
  | .bundleSkip _ => []
  | .stallEnd _ => []
  | .bundleIssue _ => []
  | .debugStopTaken _ => []
  | .skiffPortRequest _ _ => []
  | .skiffBarrelGrant _ => []
  | .skiffFetch _ _ => []
  | .skiffOpComplete _ _ => []
  | .skiffCacheFill _ => []
  | .skiffTlbWalkResult _ _ => []
  | .migrationPack _ _ => []
  | .migrationMessage _ => []
  | .migrationResend _ => []
  | .corePartEnd _ => []
  | .sfuRequestServe _ => []
  | .vectorEntryStart _ => []
  | .vectorEntryComplete _ => []
  | .streamPortRefill _ => []
  | .arrayCommandStart _ => []
  | .macroKStep _ => []
  | .arrayCommandComplete _ => []
  | .leaseGrant _ => []
  | .mdldWrite _ => []
  | .mdstComplete _ => []
  | .refillStart _ _ => []
  | .watermarkAdvance _ _ => []
  | .refillFault _ _ => []
  | .lighterAccept _ => []
  | .lighterStart _ => []
  | .lighterComplete _ => []
  | .residueSlot _ => []
  | .remoteAccessPerform _ => []
  | .remoteReply _ => []
  | .tollPeriodBoundary _ => []
  | .channelSlot _ _ => []
  | .flitDelivery _ => []
  | .collectiveComplete _ => []
  | .combiningPacket _ => []
  | .sqCommandComplete _ => []
  | .routeComplete _ => []
  | .tokenRowArrival _ => []
  | .preemptMark _ => []
  | .segmentMiss _ => []
  | .segmentPrefetch _ => []
  | .resultLanding _ => []
  | .lqFill _ => []
  | .driftRecordDrain _ => []
  | .pageWalk _ => []
  | .markerPass _ => []
  | .dieShootdown _ => []
  | .linkAlignment _ _ => []
  | .flitResend _ => []
  | .holdRequest _ => []
  | .holdFreeze => []
  | .holdFreezeEnd => []
  | .powerLimit _ _ _ => []
  | .channelWordArrival _ _ => []
  | .creditReturn _ _ => []
  | .barrierArrival _ => []
  | .barrierCompletion _ => []
  | .roslysFrame _ _ => []
  | .portDown _ _ => []
  | .grammarStoreWrite _ _ _ => []
  | .sailingStart _ => []
  | .sailingDone _ => []
  | .stopCycle _ => []
  | .killComplete _ => []
  | .budgetPeriodBoundary _ => []
  | .hostChannelWrite _ _ _ => []
  | .hostOutboundRead _ _ => []
  | .hostFaultPop _ => []
  | .mcfgWrite _ _ _ => []
  | .lmselWrite _ _ => []
  | .wakectlWrite _ _ => []
  | .wakeDone _ => []
  | .dbgStop _ => []
  | .dbgGo _ => []
  | .dbgStep _ => []
  | .clkselWrite _ _ => []
  | .clockChange => []
  | .packageReset _ => []
  | .reboot _ => []
  | .boot _ => []
  | .attgoWrite _ _ => []
  | .attestationSigned _ => []
  | .controlRegisterWrite _ _ => []
  | .scrub _ _ => []
  | .hbmPatrolScrub _ => []
  | .thermalShutdown _ => []
  | .hostMemoryWrite _ _ _ => []
  | .invalidationArrival _ => []

/-- The words after the first, 0 where there is none. -/
def secondWord (ws : List Code) : Code := ws.getD 1 0

/-- decodeSlot over the words of an instruction in its own class. -/
def decodeWords (k : SlotClass) (ws : List Code) : Except Bad Instr :=
  decodeSlot k (ws.getD 0 0) (secondWord ws)

/-- The first class, in slot order, whose table holds the word. The opcode numbers of the six classes overlap
and the table's words do not name their class (DESIGN CHOICE, log 2). -/
def decodeAny (w e : Code) : Option (SlotClass × Instr) :=
  let t (k : SlotClass) : Option (SlotClass × Instr) :=
    match decodeSlot k w e with
    | .ok i => some (k, i)
    | .error _ => none
  (t .a) <|> (t .x) <|> (t .f) <|> (t .v) <|> (t .m) <|> (t .c)

/-- What the decoder reads from an instruction numbered as the opcode table numbers its bits: bit 0 is the
least significant bit of the first word, and the second word is bits 63..32. -/
def decodeTableWord (_nbits w : Nat) : Option Instr :=
  (decodeAny (BitVec.ofNat 32 w) (BitVec.ofNat 32 (w / 2 ^ 32))).map (·.2)

end Sys2Proof
end

