-- ==== Sys2Proof/Machine/RegUse.lean ====
section
/-! DEFINITION. What an encoding names: the opcode of an instruction, the registers it reads and writes, the guards it names
(03 R92, R100), for the checks that depend on the issuing agent. -/

namespace Sys2Proof

/-- The opcode of a slot instruction (03 R100); an event has none. -/
def Instr.opcode : Instr → Nat
  | .addA _ _ _ _ _ => 1
  | .addiA _ _ _ _ => 2
  | .liA _ _ _ => 3
  | .liuA _ _ _ => 4
  | .cmpA _ _ _ _ _ => 5
  | .cmpiA _ _ _ _ _ => 6
  | .ldB _ _ _ _ _ => 8
  | .ldH _ _ _ _ _ => 9
  | .ldW _ _ _ _ _ => 10
  | .ldD _ _ _ _ _ => 11
  | .stB _ _ _ _ _ => 12
  | .stH _ _ _ _ _ => 13
  | .stW _ _ _ _ _ => 14
  | .stD _ _ _ _ _ => 15
  | .ldb _ _ _ _ _ _ => 16
  | .stb _ _ _ _ _ => 17
  | .fenceOc _ _ _ => 18
  | .fenceOcAll _ _ _ => 18
  | .amoW _ _ _ _ _ => 19
  | .amoD _ _ _ _ _ => 20
  | .sbind _ _ _ _ _ => 21
  | .sbindU _ _ _ _ => 21
  | .lxsend _ _ => 22
  | .lxsendCh _ _ _ => 22
  | .lxsendCls _ _ => 22
  | .pub _ _ _ _ _ => 23
  | .pubMap _ _ _ => 23
  | .pubUnmap _ _ => 23
  | .expect _ _ _ => 24
  | .expectC _ _ => 24
  | .cp _ _ _ _ _ => 63
  | .sldB _ _ _ _ _ => 64
  | .sldH _ _ _ _ _ => 65
  | .sldW _ _ _ _ _ => 66
  | .sldD _ _ _ _ _ => 67
  | .sstB _ _ _ _ _ => 68
  | .sstH _ _ _ _ _ => 69
  | .sstW _ _ _ _ _ => 70
  | .sstD _ _ _ _ _ => 71
  | .samoW _ _ _ _ _ => 72
  | .samoD _ _ _ _ _ => 73
  | .facqW _ _ _ _ _ _ _ => 96
  | .facqT _ _ _ _ _ _ _ _ => 97
  | .frel _ _ _ _ _ _ _ => 98
  | .addX _ _ _ _ _ => 1
  | .addiX _ _ _ _ => 2
  | .andi _ _ _ _ => 3
  | .ori _ _ _ _ => 4
  | .xori _ _ _ _ => 5
  | .shli _ _ _ _ => 6
  | .shri _ _ _ _ => 7
  | .srai _ _ _ _ => 8
  | .liX _ _ _ => 9
  | .liuX _ _ _ => 10
  | .cmpX _ _ _ _ _ => 11
  | .cmpiX _ _ _ _ _ => 12
  | .sel _ _ _ _ _ => 13
  | .mul _ _ _ _ _ => 14
  | .mulw _ _ _ _ _ => 15
  | .div _ _ _ _ _ => 16
  | .bcnt _ _ _ _ => 17
  | .ext _ _ _ _ _ => 18
  | .ins _ _ _ _ _ => 19
  | .exts _ _ _ _ _ => 20
  | .crc8 _ _ _ _ _ => 21
  | .rng _ _ _ _ _ => 22
  | .tdec _ _ _ _ => 23
  | .tcmp _ _ _ _ _ _ => 24
  | .tcvt _ _ _ _ _ _ => 25
  | .fadd _ _ _ _ _ => 1
  | .fsub _ _ _ _ _ => 2
  | .fmul _ _ _ _ _ => 3
  | .fma _ _ _ _ _ _ => 4
  | .fms _ _ _ _ _ _ => 5
  | .fnma _ _ _ _ _ _ => 6
  | .fdiv _ _ _ _ _ => 7
  | .fsqrt _ _ _ _ => 8
  | .fmin _ _ _ _ _ => 9
  | .fmax _ _ _ _ _ => 10
  | .fcmp _ _ _ _ _ _ => 11
  | .fcvt _ _ _ _ _ => 12
  | .fsgn _ _ _ _ _ _ => 13
  | .fcls _ _ _ _ => 14
  | .tadd _ _ _ _ _ => 15
  | .tsub _ _ _ _ _ => 15
  | .tmul _ _ _ _ _ => 16
  | .vadd _ _ _ _ _ _ => 1
  | .vsub _ _ _ _ _ _ => 2
  | .vmul _ _ _ _ _ _ => 3
  | .vfma _ _ _ _ _ _ => 4
  | .vfms _ _ _ _ _ _ => 4
  | .vfnma _ _ _ _ _ _ => 4
  | .vmin _ _ _ _ _ _ => 5
  | .vmax _ _ _ _ _ _ => 6
  | .vabs _ _ _ _ _ => 7
  | .vcvt _ _ _ _ _ => 8
  | .vsf _ _ _ _ _ _ _ => 9
  | .vred _ _ _ _ _ _ => 10
  | .vscan _ _ _ _ _ _ => 11
  | .vcmp _ _ _ _ _ _ _ => 12
  | .vsel _ _ _ _ _ _ => 13
  | .vmov _ _ _ _ _ => 14
  | .vfill _ _ _ _ => 15
  | .vdot _ _ _ _ _ _ => 16
  | .tdecv _ _ _ _ => 17
  | .vqacc _ _ _ _ _ => 18
  | .vqaccS _ _ _ _ => 18
  | .vqrd _ _ _ _ => 19
  | .vqrdZ _ _ _ _ => 19
  | .vqclr _ _ _ => 20
  | .vloop _ _ _ => 21
  | .vsync _ _ => 22
  | .vsyncT _ _ _ => 22
  | .chs _ _ _ _ => 32
  | .chv _ _ _ _ => 33
  | .mlease _ _ => 1
  | .mfree _ => 2
  | .mcfg _ _ _ _ => 3
  | .mcfgLd _ _ _ _ _ _ => 3
  | .mcfgAdd _ _ _ _ _ _ => 3
  | .mgath _ _ _ _ _ => 4
  | .mlatb _ _ _ _ => 5
  | .mma _ _ _ _ _ _ => 6
  | .mmas _ _ _ _ _ _ => 7
  | .mst _ _ _ _ _ => 8
  | .mstRaw _ _ _ _ _ => 8
  | .mstSt _ _ _ => 8
  | .mcomp _ _ _ _ _ => 9
  | .mtile _ _ _ _ _ _ _ => 10
  | .mwalk _ _ _ _ _ => 11
  | .mdld _ _ _ _ => 12
  | .mdst _ _ _ _ => 13
  | .route _ _ _ => 14
  | .routeTx _ _ _ => 14
  | .mli _ _ _ => 16
  | .mliu _ _ _ => 17
  | .madd _ _ _ _ _ => 18
  | .maddi _ _ _ _ => 19
  | .br _ _ => 1
  | .brl _ _ => 2
  | .brr _ _ => 3
  | .brrL _ _ => 3
  | .lset _ _ _ _ _ => 4
  | .lupd _ _ _ _ _ => 5
  | .ltrim _ _ _ => 6
  | .halt _ => 7
  | .gop _ _ _ _ _ => 8
  | .cli _ _ _ => 9
  | .cget _ _ _ => 10
  | .cset _ _ _ => 11
  | .spawn _ _ _ => 12
  | .join _ _ => 13
  | .spawnS _ _ _ _ _ => 14
  | .trap _ _ => 15
  | .chw _ _ _ => 16
  | .chwRel _ _ _ => 16
  | .chr _ _ _ => 17
  | .chrAcq _ _ _ => 17
  | .barSync _ _ _ => 18
  | .barArr _ _ _ => 18
  | .barWait _ _ _ => 18
  | .coll _ _ _ _ _ _ => 19
  | .cmbxMax _ _ _ => 20
  | .cmbxMerge _ _ _ => 20
  | .cmbxArmmax _ _ _ => 20
  | .cmbxArmmerge _ _ _ => 20
  | .sqOpen _ _ _ => 21
  | .sqFeed _ _ _ => 22
  | .sqFeedAcc _ _ _ => 22
  | .sqMask _ _ _ => 23
  | .sqFork _ _ _ => 24
  | .sqRoll _ _ _ => 25
  | .sqSampG _ _ _ => 26
  | .sqSampP _ _ _ => 26
  | .sqSampFin _ _ _ => 26
  | .sqCommit _ _ _ => 27
  | .sqFree _ _ _ => 28
  | .sqFreeRec _ _ _ => 28
  | .mig _ _ => 32
  | .yield _ => 33
  | .snooze _ _ => 34
  | .snoozeW _ _ => 34
  | .sexit _ => 35
  | .sail _ _ _ => 48
  | .swait _ _ => 49
  | .preempt _ _ => 50
  | .preemptKill _ _ => 50
  | .ctxsv _ _ _ => 51
  | .ctxld _ _ _ => 52
  | .qpop _ _ => 53
  | .qpush _ _ _ => 54
  | .qpushCfg _ _ _ => 54
  | .pgenCap _ _ _ => 55
  | .pgenPub _ _ => 55
  | .tlbm _ _ _ => 56
  | .ovfld _ _ => 57
  | .ovfldSelf _ _ => 57
  | _ => 0

/-- A register that an encoding names: as destination or as source, the operand it is (03 R121), its number. -/
structure RegUse where
  dest : Bool
  operand : Nat
  reg : BitVec 5
  deriving DecidableEq, Repr

/-- The registers of the slot's own file that an A, X, F or C instruction names. -/
def Instr.regUse : Instr → List RegUse
  | .addA _ d a b _ => [⟨true, 0, d⟩, ⟨false, 1, a⟩, ⟨false, 2, b⟩]
  | .addiA _ d a _ => [⟨true, 0, d⟩, ⟨false, 1, a⟩]
  | .liA _ d _ => [⟨true, 0, d⟩]
  | .liuA _ d _ => [⟨true, 0, d⟩, ⟨false, 0, d⟩]
  | .cmpA _ _ a b _ => [⟨false, 1, a⟩, ⟨false, 2, b⟩]
  | .cmpiA _ _ a _ _ => [⟨false, 1, a⟩]
  | .ldB _ d a _ _ => [⟨true, 0, d⟩, ⟨false, 1, a⟩]
  | .ldH _ d a _ _ => [⟨true, 0, d⟩, ⟨false, 1, a⟩]
  | .ldW _ d a _ _ => [⟨true, 0, d⟩, ⟨false, 1, a⟩]
  | .ldD _ d a _ _ => [⟨true, 0, d⟩, ⟨false, 1, a⟩]
  | .stB _ d a _ _ => [⟨false, 0, d⟩, ⟨false, 1, a⟩]
  | .stH _ d a _ _ => [⟨false, 0, d⟩, ⟨false, 1, a⟩]
  | .stW _ d a _ _ => [⟨false, 0, d⟩, ⟨false, 1, a⟩]
  | .stD _ d a _ _ => [⟨false, 0, d⟩, ⟨false, 1, a⟩]
  | .ldb _ d a _ _ _ => [⟨true, 0, d⟩, ⟨false, 1, a⟩]
  | .stb _ d a _ _ => [⟨false, 0, d⟩, ⟨false, 1, a⟩]
  | .amoW _ _ a b _ => [⟨false, 1, a⟩, ⟨false, 2, b⟩]
  | .amoD _ _ a b _ => [⟨false, 1, a⟩, ⟨false, 2, b⟩]
  | .sbind _ _ a _ _ => [⟨false, 1, a⟩]
  | .lxsend _ a => [⟨false, 1, a⟩]
  | .lxsendCh _ _ a => [⟨false, 1, a⟩]
  | .pub _ _ h t _ => [⟨false, 1, h⟩, ⟨false, 2, t⟩]
  | .pubMap _ _ a => [⟨false, 1, a⟩]
  | .expect _ h t => [⟨false, 1, h⟩, ⟨false, 2, t⟩]
  | .expectC _ h => [⟨false, 1, h⟩]
  | .sldB _ d a _ _ => [⟨true, 0, d⟩, ⟨false, 1, a⟩]
  | .sldH _ d a _ _ => [⟨true, 0, d⟩, ⟨false, 1, a⟩]
  | .sldW _ d a _ _ => [⟨true, 0, d⟩, ⟨false, 1, a⟩]
  | .sldD _ d a _ _ => [⟨true, 0, d⟩, ⟨false, 1, a⟩]
  | .sstB _ d a _ _ => [⟨false, 0, d⟩, ⟨false, 1, a⟩]
  | .sstH _ d a _ _ => [⟨false, 0, d⟩, ⟨false, 1, a⟩]
  | .sstW _ d a _ _ => [⟨false, 0, d⟩, ⟨false, 1, a⟩]
  | .sstD _ d a _ _ => [⟨false, 0, d⟩, ⟨false, 1, a⟩]
  | .samoW _ _ a b _ => [⟨false, 1, a⟩, ⟨false, 2, b⟩]
  | .samoD _ _ a b _ => [⟨false, 1, a⟩, ⟨false, 2, b⟩]
  | .facqW _ a v _ l _ _ => [⟨false, 1, a⟩] ++ (if l = 0 then [⟨false, 2, v⟩] else [])
  | .facqT _ _ a v _ l _ _ => [⟨false, 1, a⟩] ++ (if l = 0 then [⟨false, 2, v⟩] else [])
  | .frel _ a v _ l _ _ => [⟨false, 1, a⟩] ++ (if l = 0 then [⟨false, 2, v⟩] else [])
  | .addX _ d a b _ => [⟨true, 0, d⟩, ⟨false, 1, a⟩, ⟨false, 2, b⟩]
  | .addiX _ d a _ => [⟨true, 0, d⟩, ⟨false, 1, a⟩]
  | .andi _ d a _ => [⟨true, 0, d⟩, ⟨false, 1, a⟩]
  | .ori _ d a _ => [⟨true, 0, d⟩, ⟨false, 1, a⟩]
  | .xori _ d a _ => [⟨true, 0, d⟩, ⟨false, 1, a⟩]
  | .shli _ d a _ => [⟨true, 0, d⟩, ⟨false, 1, a⟩]
  | .shri _ d a _ => [⟨true, 0, d⟩, ⟨false, 1, a⟩]
  | .srai _ d a _ => [⟨true, 0, d⟩, ⟨false, 1, a⟩]
  | .liX _ d _ => [⟨true, 0, d⟩]
  | .liuX _ d _ => [⟨true, 0, d⟩, ⟨false, 0, d⟩]
  | .cmpX _ _ a b _ => [⟨false, 1, a⟩, ⟨false, 2, b⟩]
  | .cmpiX _ _ a _ _ => [⟨false, 1, a⟩]
  | .sel _ d a b _ => [⟨true, 0, d⟩, ⟨false, 1, a⟩, ⟨false, 2, b⟩]
  | .mul _ d a b _ => [⟨true, 0, d⟩, ⟨false, 1, a⟩, ⟨false, 2, b⟩]
  | .mulw _ d a b _ => [⟨true, 0, d⟩, ⟨false, 1, a⟩, ⟨false, 2, b⟩]
  | .div _ d a b _ => [⟨true, 0, d⟩, ⟨false, 1, a⟩, ⟨false, 2, b⟩]
  | .bcnt _ d a _ => [⟨true, 0, d⟩, ⟨false, 1, a⟩]
  | .ext _ d a _ _ => [⟨true, 0, d⟩, ⟨false, 1, a⟩]
  | .ins _ d a _ _ => [⟨true, 0, d⟩, ⟨false, 0, d⟩, ⟨false, 1, a⟩]
  | .exts _ d a _ _ => [⟨true, 0, d⟩, ⟨false, 1, a⟩]
  | .crc8 _ d a b _ => [⟨true, 0, d⟩, ⟨false, 1, a⟩, ⟨false, 2, b⟩]
  | .rng _ d a b _ => [⟨true, 0, d⟩, ⟨false, 1, a⟩, ⟨false, 2, b⟩]
  | .tdec _ d a _ => [⟨true, 0, d⟩, ⟨false, 1, a⟩]
  | .tcmp _ _ a b _ _ => [⟨false, 1, a⟩, ⟨false, 2, b⟩]
  | .tcvt _ d a _ _ _ => [⟨true, 0, d⟩, ⟨false, 1, a⟩]
  | .fadd _ d a b _ => [⟨true, 0, d⟩, ⟨false, 1, a⟩, ⟨false, 2, b⟩]
  | .fsub _ d a b _ => [⟨true, 0, d⟩, ⟨false, 1, a⟩, ⟨false, 2, b⟩]
  | .fmul _ d a b _ => [⟨true, 0, d⟩, ⟨false, 1, a⟩, ⟨false, 2, b⟩]
  | .fma _ d a b c _ => [⟨true, 0, d⟩, ⟨false, 1, a⟩, ⟨false, 2, b⟩, ⟨false, 3, c⟩]
  | .fms _ d a b c _ => [⟨true, 0, d⟩, ⟨false, 1, a⟩, ⟨false, 2, b⟩, ⟨false, 3, c⟩]
  | .fnma _ d a b c _ => [⟨true, 0, d⟩, ⟨false, 1, a⟩, ⟨false, 2, b⟩, ⟨false, 3, c⟩]
  | .fdiv _ d a b _ => [⟨true, 0, d⟩, ⟨false, 1, a⟩, ⟨false, 2, b⟩]
  | .fsqrt _ d a _ => [⟨true, 0, d⟩, ⟨false, 1, a⟩]
  | .fmin _ d a b _ => [⟨true, 0, d⟩, ⟨false, 1, a⟩, ⟨false, 2, b⟩]
  | .fmax _ d a b _ => [⟨true, 0, d⟩, ⟨false, 1, a⟩, ⟨false, 2, b⟩]
  | .fcmp _ _ a b _ _ => [⟨false, 1, a⟩, ⟨false, 2, b⟩]
  | .fcvt _ d a _ _ => [⟨true, 0, d⟩, ⟨false, 1, a⟩]
  | .fsgn _ d a b _ _ => [⟨true, 0, d⟩, ⟨false, 1, a⟩, ⟨false, 2, b⟩]
  | .fcls _ d a _ => [⟨true, 0, d⟩, ⟨false, 1, a⟩]
  | .tadd _ d a b _ => [⟨true, 0, d⟩, ⟨false, 1, a⟩, ⟨false, 2, b⟩]
  | .tsub _ d a b _ => [⟨true, 0, d⟩, ⟨false, 1, a⟩, ⟨false, 2, b⟩]
  | .tmul _ d a b _ => [⟨true, 0, d⟩, ⟨false, 1, a⟩, ⟨false, 2, b⟩]
  | .brr _ s => [⟨false, 1, s⟩]
  | .brrL _ s => [⟨false, 1, s⟩]
  | .ltrim _ s _ => [⟨false, 1, s⟩]
  | .cli _ d _ => [⟨true, 0, d⟩]
  | .cget _ d _ => [⟨true, 0, d⟩]
  | .cset _ s _ => [⟨false, 0, s⟩]
  | .spawn _ _ e => [⟨false, 1, e⟩]
  | .join _ d => [⟨true, 0, d⟩]
  | .spawnS _ _ e a _ => [⟨false, 1, e⟩, ⟨false, 2, a⟩]
  | .chw _ e _ => [⟨false, 1, e⟩]
  | .chwRel _ e _ => [⟨false, 1, e⟩]
  | .chr _ _ e => [⟨false, 1, e⟩]
  | .chrAcq _ _ e => [⟨false, 1, e⟩]
  | .coll _ d s n _ _ => [⟨true, 0, d⟩, ⟨false, 1, s⟩, ⟨false, 2, n⟩]
  | .cmbxMax _ p h => [⟨false, 1, p⟩, ⟨false, 2, h⟩]
  | .cmbxMerge _ p h => [⟨false, 1, p⟩, ⟨false, 2, h⟩]
  | .cmbxArmmax _ p h => [⟨false, 1, p⟩, ⟨false, 2, h⟩]
  | .cmbxArmmerge _ p h => [⟨false, 1, p⟩, ⟨false, 2, h⟩]
  | .sqOpen _ b _ => [⟨false, 1, b⟩]
  | .sqFeed _ b _ => [⟨false, 1, b⟩]
  | .sqFeedAcc _ b _ => [⟨false, 1, b⟩]
  | .sqMask _ b _ => [⟨false, 1, b⟩]
  | .sqFork _ b _ => [⟨false, 1, b⟩]
  | .sqRoll _ b _ => [⟨false, 1, b⟩]
  | .sqSampG _ b _ => [⟨false, 1, b⟩]
  | .sqSampP _ b _ => [⟨false, 1, b⟩]
  | .sqSampFin _ b _ => [⟨false, 1, b⟩]
  | .sqCommit _ b _ => [⟨false, 1, b⟩]
  | .sqFree _ b _ => [⟨false, 1, b⟩]
  | .sqFreeRec _ b _ => [⟨false, 1, b⟩]
  | .mig _ k => [⟨false, 1, k⟩]
  | .snooze _ s => [⟨false, 1, s⟩]
  | .snoozeW _ s => [⟨false, 1, s⟩]
  | .sail _ l s => [⟨false, 1, l⟩, ⟨false, 2, s⟩]
  | .swait _ s => [⟨false, 1, s⟩]
  | .preempt _ s => [⟨false, 1, s⟩]
  | .preemptKill _ s => [⟨false, 1, s⟩]
  | .ctxsv _ s _ => [⟨false, 1, s⟩]
  | .ctxld _ s _ => [⟨false, 1, s⟩]
  | .qpop _ b => [⟨false, 1, b⟩]
  | .qpush _ q b => [⟨false, 1, q⟩, ⟨false, 2, b⟩]
  | .qpushCfg _ q b => [⟨false, 1, q⟩, ⟨false, 2, b⟩]
  | .pgenCap _ p d => [⟨false, 1, p⟩, ⟨false, 2, d⟩]
  | .pgenPub _ p => [⟨false, 1, p⟩]
  | .tlbm _ s a => [⟨false, 1, s⟩, ⟨false, 2, a⟩]
  | .ovfld _ v => [⟨false, 1, v⟩]
  | .ovfldSelf _ v => [⟨false, 1, v⟩]
  | _ => []

/-- The guards that an A, X or C instruction names, with the operand each is; the guard field itself is operand 8. -/
def Instr.guardUse : Instr → List (Nat × BitVec 4)
  | .addA g _ _ _ _ => [(8, g)]
  | .addiA g _ _ _ => [(8, g)]
  | .liA g _ _ => [(8, g)]
  | .liuA g _ _ => [(8, g)]
  | .cmpA g h _ _ _ => [(8, g), (0, h)]
  | .cmpiA g h _ _ _ => [(8, g), (0, h)]
  | .ldB g _ _ _ _ => [(8, g)]
  | .ldH g _ _ _ _ => [(8, g)]
  | .ldW g _ _ _ _ => [(8, g)]
  | .ldD g _ _ _ _ => [(8, g)]
  | .stB g _ _ _ _ => [(8, g)]
  | .stH g _ _ _ _ => [(8, g)]
  | .stW g _ _ _ _ => [(8, g)]
  | .stD g _ _ _ _ => [(8, g)]
  | .ldb g _ _ _ _ _ => [(8, g)]
  | .stb g _ _ _ _ => [(8, g)]
  | .fenceOc g _ _ => [(8, g)]
  | .fenceOcAll g _ _ => [(8, g)]
  | .amoW g _ _ _ _ => [(8, g)]
  | .amoD g _ _ _ _ => [(8, g)]
  | .sbind g _ _ _ _ => [(8, g)]
  | .sbindU g _ _ _ => [(8, g)]
  | .lxsend g _ => [(8, g)]
  | .lxsendCh g _ _ => [(8, g)]
  | .lxsendCls g _ => [(8, g)]
  | .pub g _ _ _ _ => [(8, g)]
  | .pubMap g _ _ => [(8, g)]
  | .pubUnmap g _ => [(8, g)]
  | .expect g _ _ => [(8, g)]
  | .expectC g _ => [(8, g)]
  | .cp g _ _ _ _ => [(8, g)]
  | .sldB g _ _ _ _ => [(8, g)]
  | .sldH g _ _ _ _ => [(8, g)]
  | .sldW g _ _ _ _ => [(8, g)]
  | .sldD g _ _ _ _ => [(8, g)]
  | .sstB g _ _ _ _ => [(8, g)]
  | .sstH g _ _ _ _ => [(8, g)]
  | .sstW g _ _ _ _ => [(8, g)]
  | .sstD g _ _ _ _ => [(8, g)]
  | .samoW g _ _ _ _ => [(8, g)]
  | .samoD g _ _ _ _ => [(8, g)]
  | .facqW g _ _ _ _ _ _ => [(8, g)]
  | .facqT g h _ _ _ _ _ _ => [(8, g), (0, h)]
  | .frel g _ _ _ _ _ _ => [(8, g)]
  | .addX g _ _ _ _ => [(8, g)]
  | .addiX g _ _ _ => [(8, g)]
  | .andi g _ _ _ => [(8, g)]
  | .ori g _ _ _ => [(8, g)]
  | .xori g _ _ _ => [(8, g)]
  | .shli g _ _ _ => [(8, g)]
  | .shri g _ _ _ => [(8, g)]
  | .srai g _ _ _ => [(8, g)]
  | .liX g _ _ => [(8, g)]
  | .liuX g _ _ => [(8, g)]
  | .cmpX g h _ _ _ => [(8, g), (0, h)]
  | .cmpiX g h _ _ _ => [(8, g), (0, h)]
  | .sel g _ _ _ h => [(8, g), (4, h)]
  | .mul g _ _ _ _ => [(8, g)]
  | .mulw g _ _ _ _ => [(8, g)]
  | .div g _ _ _ _ => [(8, g)]
  | .bcnt g _ _ _ => [(8, g)]
  | .ext g _ _ _ _ => [(8, g)]
  | .ins g _ _ _ _ => [(8, g)]
  | .exts g _ _ _ _ => [(8, g)]
  | .crc8 g _ _ _ _ => [(8, g)]
  | .rng g _ _ _ _ => [(8, g)]
  | .tdec g _ _ _ => [(8, g)]
  | .tcmp g h _ _ _ _ => [(8, g), (0, h)]
  | .tcvt g _ _ _ _ _ => [(8, g)]
  | .br g _ => [(8, g)]
  | .brl g _ => [(8, g)]
  | .brr g _ => [(8, g)]
  | .brrL g _ => [(8, g)]
  | .lset g _ _ _ _ => [(8, g)]
  | .lupd g _ _ _ _ => [(8, g)]
  | .ltrim g _ _ => [(8, g)]
  | .halt g => [(8, g)]
  | .gop g d a b _ => [(8, g), (0, d), (1, a), (2, b)]
  | .cli g _ _ => [(8, g)]
  | .cget g _ _ => [(8, g)]
  | .cset g _ _ => [(8, g)]
  | .spawn g _ _ => [(8, g)]
  | .join g _ => [(8, g)]
  | .spawnS g h _ _ _ => [(8, g), (0, h)]
  | .trap g _ => [(8, g)]
  | .chw g _ _ => [(8, g)]
  | .chwRel g _ _ => [(8, g)]
  | .chr g _ _ => [(8, g)]
  | .chrAcq g _ _ => [(8, g)]
  | .barSync g _ _ => [(8, g)]
  | .barArr g _ _ => [(8, g)]
  | .barWait g _ _ => [(8, g)]
  | .coll g _ _ _ _ _ => [(8, g)]
  | .cmbxMax g _ _ => [(8, g)]
  | .cmbxMerge g _ _ => [(8, g)]
  | .cmbxArmmax g _ _ => [(8, g)]
  | .cmbxArmmerge g _ _ => [(8, g)]
  | .sqOpen g _ _ => [(8, g)]
  | .sqFeed g _ _ => [(8, g)]
  | .sqFeedAcc g _ _ => [(8, g)]
  | .sqMask g _ _ => [(8, g)]
  | .sqFork g _ _ => [(8, g)]
  | .sqRoll g _ _ => [(8, g)]
  | .sqSampG g _ _ => [(8, g)]
  | .sqSampP g _ _ => [(8, g)]
  | .sqSampFin g _ _ => [(8, g)]
  | .sqCommit g _ _ => [(8, g)]
  | .sqFree g _ _ => [(8, g)]
  | .sqFreeRec g _ _ => [(8, g)]
  | .mig g _ => [(8, g)]
  | .yield g => [(8, g)]
  | .snooze g _ => [(8, g)]
  | .snoozeW g _ => [(8, g)]
  | .sexit g => [(8, g)]
  | .sail g _ _ => [(8, g)]
  | .swait g _ => [(8, g)]
  | .preempt g _ => [(8, g)]
  | .preemptKill g _ => [(8, g)]
  | .ctxsv g _ _ => [(8, g)]
  | .ctxld g _ _ => [(8, g)]
  | .qpop g _ => [(8, g)]
  | .qpush g _ _ => [(8, g)]
  | .qpushCfg g _ _ => [(8, g)]
  | .pgenCap g _ _ => [(8, g)]
  | .pgenPub g _ => [(8, g)]
  | .tlbm g _ _ => [(8, g)]
  | .ovfld g _ => [(8, g)]
  | .ovfldSelf g _ => [(8, g)]
  | _ => []

end Sys2Proof
end

