-- ==== Sys2Proof/Machine/Issue.lean ====
section
/-! DEFINITION. What is checked of a slot operation before its meaning: the agents an opcode is for (03 R101, 05 R168, 13 R364),
its fields (03 R90), the registers and guards that the agent has (03 R92 to R95, 05 R168); then its guard (03 R91). -/

namespace Sys2Proof.Machine

/-- The number of a slot (03 R121). -/
def slotNo : SlotClass → Nat
  | .a => 0 | .x => 1 | .f => 2 | .v => 3 | .m => 4 | .c => 5

/-- The class of a slot number. -/
def slotAt (n : Nat) : SlotClass :=
  match n with
  | 0 => .a | 1 => .x | 2 => .f | 3 => .v | 4 => .m | _ => .c

/-- The class in which an instruction stands: cp takes that of its slot, every other instruction has its own. -/
def slotClassIn (s : State) (i : Instr) : SlotClass :=
  match i with
  | .cp _ _ _ _ _ => slotAt s.cur.slot
  | _ => i.slotClass.getD .a

/-- A word that only a skiff issues (03 R100, R101). -/
def skiffOnly (k : SlotClass) (op : Nat) : Bool :=
  (k == .a && decide (0x40 ≤ op ∧ op ≤ 0x49)) || (k == .c && decide (0x20 ≤ op ∧ op ≤ 0x23))

/-- A word that only a helm core issues (03 R100, R101). -/
def helmOnly (k : SlotClass) (op : Nat) : Bool := k == .c && decide (0x30 ≤ op ∧ op ≤ 0x39)

/-- A word that 13 R364 forbids to a helm core. -/
def notHelm (k : SlotClass) (op : Nat) : Bool :=
  match k with
  | .v | .m => true
  | .a => decide (0x15 ≤ op ∧ op ≤ 0x18)
  | .c => decide (op = 0x06) || decide (0x0C ≤ op ∧ op ≤ 0x0E) || decide (0x12 ≤ op ∧ op ≤ 0x1C)
  | _ => false

/-- A word that 05 R168 forbids to a skiff. -/
def notSkiff (k : SlotClass) (op : Nat) : Bool :=
  match k with
  | .a => decide (0x15 ≤ op ∧ op ≤ 0x18) || decide (op = 0x3F)
  | .x => decide (op = 0x3F)
  | .c => decide (0x04 ≤ op ∧ op ≤ 0x07) || decide (0x0B ≤ op ∧ op ≤ 0x0E) || decide (0x10 ≤ op ∧ op ≤ 0x13) || decide (op = 0x3F)
  | _ => true

/-- The fault of a word that is not for its agent: code and DETAIL (03 R101, R121). -/
def agentFault (s : State) (k : SlotClass) (op : Nat) : Option (Nat × Nat) :=
  match s.cur.agent with
  | .skiff _ _ =>
    if helmOnly k op then some (0x03, slotNo k * 256 + op) else if notSkiff k op then some (0x01, 9) else none
  | .core p =>
    if skiffOnly k op then some (0x01, 9)
    else if isHelm p then (if notHelm k op then some (0x01, 9) else none)
    else if helmOnly k op then some (0x03, slotNo k * 256 + op) else none

/-- The first register that the agent's files do not have for its use: a write of x30 or f30, a read of x31 or f31,
a register past s15 (03 R92, 05 R168). -/
def badReg (s : State) (k : SlotClass) (us : List RegUse) : Option Nat :=
  (us.find? fun u => match s.cur.agent with
    | .skiff _ _ => decide (16 ≤ u.reg.toNat)
    | .core _ => (k == .x || k == .f) && u.reg == (if u.dest then 30 else 31)).map (·.operand)

/-- The first guard that a skiff does not have (05 R168). -/
def badGuard (s : State) (gs : List (Nat × BitVec 4)) : Option Nat :=
  match s.cur.agent with
  | .skiff _ _ => (gs.find? fun x => decide (4 ≤ x.2.toNat)).map (·.1)
  | .core _ => none

/-- Whether a cp's operands are good in its slot (03 R92, R102): the registers its files have, the quarter of an h register. -/
def badCp (k : SlotClass) (d src : BitVec 5) (q : BitVec 2) (f : BitVec 3) : Option Nat :=
  let small (n : Nat) (r : BitVec 5) := n ≤ 2 ∨ r.toNat < 16
  if ¬ small (match k with | .a => 0 | .x => 1 | .f => 2 | _ => 3) d then some 0
  else if (k = .x ∨ k = .f) ∧ d = 30 then some 0
  else if k = .c ∧ d = 14 then some 0
  else if ¬ small f.toNat src then some 1
  else if (f = 1 ∨ f = 2) ∧ src = 31 then some 1
  else if q ≠ 0 ∧ k ≠ .v ∧ f ≠ 5 then some 4
  else none

/-- The checks of registers that the table of names does not cover: pairs (03 R95), c14 (R93, R114, R115), cp, the queues of chw,
the count of vloop (06 R216). -/
def badSpecial (s : State) (k : SlotClass) (i : Instr) : Option Nat :=
  let skiff : Bool := match s.cur.agent with | .skiff _ _ => true | .core _ => false
  match i with
  | .mulw _ d _ _ _ => if d = 0 ∨ (if skiff then 14 < d.toNat else 28 < d.toNat) then some 0 else none
  | .cli _ d _ => if ¬ skiff ∧ d = 14 then some 0 else none
  | .cget _ d _ => if ¬ skiff ∧ d = 14 then some 0 else none
  | .chw _ _ r => if r = 31 then some 2 else none
  | .chwRel _ _ r => if r = 31 then some 2 else none
  | .cp _ d src q f => badCp k d src q f
  | .vloop _ _ n => if n = 0 then some 5 else none
  | _ => none

/-- The numbers of control registers that are listed (03 R115; 05 R186; 14 R399, R400; 13 R366). -/
def ctlListed (n : Nat) : Bool :=
  decide (n ≤ 0x17) || decide (0x20 ≤ n ∧ n ≤ 0x29) || (decide (0x30 ≤ n ∧ n ≤ 0x6F) && decide (n % 8 < 6))
    || decide (0x70 ≤ n ∧ n ≤ 0x72) || decide (0x80 ≤ n ∧ n ≤ 0x85) || (decide (0xC0 ≤ n ∧ n ≤ 0xFF) && decide (n % 16 < 12))
    || decide (0x100 ≤ n ∧ n ≤ 0x105) || decide (0x110 ≤ n ∧ n ≤ 0x117)

/-- The numbers that a primary, or a helm core, may cset (03 R115, 13 R366). -/
def ctlWritable (helm : Bool) (n : Nat) : Bool :=
  n == 0x0B || decide (0x10 ≤ n ∧ n ≤ 0x17)
    || (helm && (n == 0x04 || n == 0x08 || n == 0x103 || decide (0x110 ≤ n ∧ n ≤ 0x117)))

/-- The fault of the number that a cget or cset names: a helm register outside a helm core is privileged, any other that its agent may
not name is an illegal operand (03 R115, 05 R169). -/
def ctlFault (s : State) (i : Instr) : Option (Nat × Nat) :=
  let helmReg (n : BitVec 12) : Bool := decide (0x100 ≤ n.toNat ∧ n.toNat ≤ 0x1FF)
  match i, s.cur.agent with
  | .cget _ _ n, .core p =>
    if helmReg n ∧ ¬ isHelm p then some (0x03, 0x50A) else if ctlListed n.toNat then none else some (0x02, 5)
  | .cget _ _ n, .skiff _ _ =>
    if helmReg n then some (0x03, 0x50A) else if ctlListed n.toNat ∧ n.toNat < 0x80 then none else some (0x02, 5)
  | .cset _ _ n, .core p =>
    if helmReg n ∧ ¬ isHelm p then some (0x03, 0x50B) else if ctlWritable (isHelm p) n.toNat then none else some (0x02, 5)
  | _, _ => none

/-- The encoding fault of an operation for its agent, if any (03 R90, R120): code and DETAIL. -/
def encodingFault (s : State) (i : Instr) : Option (Nat × Nat) :=
  let k := slotClassIn s i
  match agentFault s k i.opcode with
  | some f => some f
  | none =>
    match (((badGuard s i.guardUse).orElse fun _ => i.badField).orElse fun _ => badReg s k i.regUse).orElse
      fun _ => badSpecial s k i with
    | some n => some (0x02, n)
    | none => ctlFault s i

/-! ### The lease fault comes first (07 R225, 08 R269) -/

/-- The logical core id of the holder of a quad's lease, or all ones (07 R225). -/
def holderId (s : State) (q : Nat) : Nat :=
  match (List.range 4).find? fun i => 2 ≤ (s.core (4 * q + i)).run.lease with
  | some i => (s.core (4 * q + i)).ctl.lid
  | none => 2 ^ 64 - 1

/-- Whether an opcode of the M slot is an array command (07 R224). -/
def isArrayOp (op : Nat) : Bool := decide (0x03 ≤ op ∧ op ≤ 0x0B)

/-- The fault of an operation with an encoding fault: an array command of a core without a lease reports the lease instead. -/
def leaseFirst (s : State) (k : SlotClass) (op : Nat) (g : BitVec 4) (f : Nat × Nat) : Nat × Nat :=
  if k = .m ∧ isArrayOp op ∧ f.1 = 0x02 ∧ s.guard g ∧ s.own.run.lease = 0 then (0x08, holderId s (quadOf s.me)) else f

/-- The stall cause of an X or F source that cannot be popped, k earlier sources of its operation being of the same name: an empty queue's, or its port's
(04 R128, R136). -/
def sourceCause (s : State) (file : FileId) (r : BitVec 5) (k : Nat) : Option Nat :=
  match s.cur.agent with
  | .skiff _ _ => none
  | .core p =>
    let c := s.core p
    if r = 30 then (match c.queues.lq[k]? with | some ⟨_, some _, _⟩ => none | _ => some 2)
    else match c.boundTo file r with
      | some (_, q) =>
        if q.popped + k < q.total ∧ (c.run.t < q.at_ + 8 ∨ (q.buf.length ≤ k ∧ q.fault.isNone)) then
          some (c.portCause { q with popped := q.popped + k, buf := q.buf.drop k })
        else none
      | none => none

/-- An operation that stalls does so with the lowest cause among those of its own and of the sources that it waits for (14 R397). -/
def Res.lowest (r : Res) (causes : List Nat) : Res :=
  match r with
  | .stall c a => match causes.filter fun x => decide (x < c) with
    | [] => .stall c a
    | x :: xs => .stall (xs.foldl Nat.min x)
  | r => r

/-- What the sources of an X or F operation wait for. -/
def sourceCauses (s : State) (k : SlotClass) (i : Instr) : List Nat :=
  let rs := i.regUse.filterMap fun u => if u.dest then none else some u.reg
  if k = .x ∨ k = .f then
    (List.range rs.length).filterMap fun n => rs[n]?.bind fun r => sourceCause s (if k = .f then .f else .x) r ((rs.take n).count r)
  else []

/-- One operation at issue: its encoding checks, then, where its guard reads true, its meaning; a false guard has no effect (03 R91). -/
def issue (i : Instr) (g : BitVec 4) (body : State → Res) (s : State) : Res :=
  match encodingFault s i with
  | some f => let f := leaseFirst s (slotClassIn s i) i.opcode g f; .fault f.1 f.2
  | none => if s.guard g then (body s).lowest (sourceCauses s (slotClassIn s i) i) else .ok (noResult 0 s)

end Sys2Proof.Machine
end

