-- ==== Sys2Proof/Machine/Control.lean ====
section
/-! DEFINITION. The C-slot control instructions, cp, tasks, and the control registers (03 R99, R102 to R119). -/

namespace Sys2Proof.Machine

/-! ### Branches (03 R99, R111, R85) -/

/-- The bundle area of a segment holds an address. -/
def Segment.holds (g : Segment) (a : Nat) : Bool := decide (g.addr + 16 ≤ a) && decide (a < g.addr + 16 + 4 * g.len)

/-- The bundle of a segment that starts at an address. -/
def Segment.at_ (g : Segment) (a : Nat) : Option Bundle := g.bundles.find? (·.addr = a)

/-- A target inside a resident segment that is not the start of one of its bundles (03 R85). -/
def Fetch.midBundle (f : Fetch) (a : Nat) : Bool :=
  let bad (g : Option Segment) : Bool := match g with | some g => g.holds a && (g.at_ a).isNone | none => false
  bad f.half0 || bad f.half1

/-- The half that holds (true: half 1) the given side. -/
def Fetch.half (f : Fetch) (side : Bool) : Option Segment := if side then f.half1 else f.half0

/-- The resident segment of the bundle at an address, the half that issues first. -/
def Fetch.segmentAt (f : Fetch) (a : Nat) : Option Segment :=
  ([f.half f.side, f.half (!f.side)].filterMap id).find? fun g => (g.at_ a).isSome

/-- Where the bundle at an address is the last of a segment that goes on, the first bundle of the segment that follows (03 R84). -/
def Segment.follow (g : Segment) (a : Nat) : Option Nat :=
  if ¬ g.stop ∧ (g.bundles.getLast?.map (·.addr)) = some a then some (g.next + 16) else none

/-- The address of the next bundle in sequence; after the last bundle of a segment it is that at which issue goes on (03 R84). -/
def State.nextAddr (s : State) : Nat :=
  let seq := s.cur.addr + 4 * s.cur.size
  match s.cur.agent with
  | .core p => (((s.core p).fetch.segmentAt s.cur.addr).bind (·.follow s.cur.addr)).getD seq
  | .skiff _ _ => seq

/-- A taken branch: an illegal target faults at the branching bundle, else the target is the next bundle (03 R111). -/
def branchTo (target : Nat) (s : State) : Res :=
  if target % 4 ≠ 0 ∨ 2 ^ 48 ≤ target then .fault 0x01 6
  else match s.cur.agent with
  | .core p =>
    if (s.core p).fetch.midBundle target then .fault 0x01 6
    else .ok (s.modCore p fun c => { c with fetch := { c.fetch with taken := some target } })
  | .skiff p j => .ok ((skiffResult s p j 1 [] []).modSkiff p j fun k => { k with pc := target })

/-- The link register: c13 in a primary or helm core, s15 in a skiff (03 R93, 05 R169). -/
def writeLink (s : State) : Res := writeC (match s.cur.agent with | .core _ => 13 | .skiff _ _ => 15) 1 (BitVec.ofNat 64 s.nextAddr) s

/-- The target of br and brl, and the exit of an lset: bundle address + 4 × offset, a 48-bit code address. One below 0 or past 2^48 - 1 wraps: of these the spec says
nothing (DESIGN CHOICE, log 74). -/
def relTarget (o : BitVec 21) (s : State) : Nat := wrapTo 48 ((s.cur.addr : Int) + 4 * o.toInt)

/-- br (03 R111). -/
def bodyBr (o : BitVec 21) (s : State) : Res := branchTo (relTarget o s) s
/-- brl (03 R111). -/
def bodyBrl (o : BitVec 21) (s : State) : Res := (branchTo (relTarget o s) s).bind writeLink
/-- brr (03 R111). -/
def bodyBrr (r : BitVec 5) (s : State) : Res := branchTo (srcC r s).toNat s
/-- brr.l (03 R111). -/
def bodyBrrL (r : BitVec 5) (s : State) : Res := (branchTo (srcC r s).toNat s).bind writeLink

/-! ### Loops (03 R103, R104, R107) -/

/-- A write that takes effect at the end of the cycle. -/
def Core.later (c : Core) (e : EndAct) : Core := { c with pipe := { c.pipe with eoc := c.pipe.eoc ++ [e] } }

/-- lset (03 R103): with a count of 0 it branches past the body. -/
def bodyLset (l : BitVec 2) (i : BitVec 1) (k : BitVec 6) (e : BitVec 12) (s : State) : Res :=
  let count : Word := if i = 1 then k.zeroExtend 64 else srcC (k.truncate 5) s
  if count = 0 then branchTo (wrapTo 48 ((s.cur.addr : Int) + 4 * e.toNat)) s
  else .ok (s.modOwn (·.later (.lset l (count - 1) s.nextAddr)))

/-- lupd (03 R104). -/
def bodyLupd (l : BitVec 2) (a : BitVec 4) (i : BitVec 1) (d : BitVec 14) (s : State) : Res :=
  let delta : BitVec 32 := if i = 1 then d.signExtend 32 else (srcC (d.truncate 5) s).truncate 32
  .ok (s.modOwn (·.later (.lupd l a delta)))

/-- The results of a trim block (03 R107): each loop count that LMASK selects, and the skip bits, landing at the end of t + 6. -/
def landTrim (s : State) (block : Nat) : State :=
  let lmask := bitsOf block 143 136
  let s := (List.range 4).foldl (fun s n =>
    if lmask / 2 ^ n % 2 = 1 then
      s.modOwn fun c => c.land 5 6 (.c (BitVec.ofNat 4 (8 + n))) (BitVec.ofNat 64 (bitsOf block (32 * n + 31) (32 * n)))
    else s) s
  s.modOwn fun c => c.land 5 6 (.c 15) (BitVec.ofNat 64 (bitsOf block 135 128))

/-- ltrim (03 R107). -/
def bodyLtrim (r : BitVec 5) (oc : BitVec 4) (s : State) : Res :=
  let a := (srcC r s).toNat
  if a % 32 ≠ 0 ∨ ¬ s.own.inside a 32 then .fault 0x02 7
  else ownRead s oc.toNat a 32 fun s => .ok (landTrim s (readSpad s s.me a 32))

/-- halt (03 R112): it takes precedence over a branch or loop-back of its bundle. -/
def bodyHalt (s : State) : Res := .ok (s.modOwn fun c => { c with run := { c.run with halting := true } })

/-- gop (03 R113). -/
def bodyGop (d a b : BitVec 4) (f : BitVec 3) (s : State) : Res := writeG d (guardFn f (s.guard a) (s.guard b)) s

/-- cli (03 R114). -/
def bodyCli (d : BitVec 5) (i : BitVec 16) (s : State) : Res := writeC d 1 (liResult i) s
where liResult (i : BitVec 16) : Word := i.signExtend 64

/-- trap (03 R116). -/
def bodyTrap (i : BitVec 16) (_s : State) : Res := .fault 0x0C i.toNat

/-! ### cp (03 R102) -/

/-- The source of a cp: the file named by f, a quarter of an h register for f = 5. -/
def cpSource (f : BitVec 3) (r : BitVec 5) (q : BitVec 2) (s : State) (k : Word → State → Res) : Res :=
  match f.toNat with
  | 0 => k (srcA r s) s
  | 1 => withX r s k
  | 2 => withF r s k
  | 3 => k (s.own.m (r.truncate 4)) s
  | 4 => k (s.own.c (r.truncate 4)) s
  | _ => k ((s.own.h (r.truncate 4)).extractLsb' (64 * q.toNat) 64) s

/-- The destination of a cp: a register of the slot's own file, landing at the end of t + 2. -/
def cpDest (k : SlotClass) (d : BitVec 5) (q : BitVec 2) (v : Word) (s : State) : Res :=
  match k with
  | .a => writeA d 2 v s
  | .x => writeX d 2 v s
  | .f => writeF d 2 v s
  | .v => .ok (s.modOwn (·.land 3 2 (.h (d.truncate 4) q) v))
  | .m => .ok (s.modOwn (·.land 4 2 (.m (d.truncate 4)) v))
  | .c => writeC d 2 v s

/-- cp (03 R102), in the slot in which it stands. -/
def bodyCp (d r : BitVec 5) (q : BitVec 2) (f : BitVec 3) (s : State) : Res :=
  cpSource f r q s fun v s => cpDest (match s.cur.slot with | 0 => .a | 1 => .x | 2 => .f | 3 => .v | 4 => .m | _ => .c) d q v s

/-! ### Control registers (03 R115; 05 R186, R187; 14 R399, R400; 13 R366) -/

/-- SKj_STATE (05 R187). -/
def Skiff.stateWord (k : Skiff) (t : Nat) : Word :=
  let st := if ¬ k.occupied then 0 else match k.wait with
    | .none => if k.buf.isSome then 1 else 2
    | .until u => if u < t ∧ k.buf.isSome then 1 else 2
    | .snooze _ | .snoozeWord _ _ => 3
    | .migrate _ _ => 4
    | _ => 2
  BitVec.ofNat 64 (k.home * 2 ^ 48 + k.migs * 2 ^ 40 + k.lastf * 2 ^ 32 + k.cmask.toNat * 2 ^ 5 + (if k.owed then 16 else 0) + st)

/-- What a cget would find as the core stands. -/
def Core.counts (c : Core) : Counts :=
  let b := c.barrel
  { cnt := b.cnt, openB := b.openB, usedB := b.usedB, forfeit := b.forfeit, migOut := b.migOut, migIn := b.migIn, migWait := b.migWait,
    tlbMiss := b.tlbMiss, cacheMiss := b.cacheMiss, wbLines := b.wbLines, states := b.ctx.map fun k => k.stateWord c.run.t,
    purse := c.ctl.purse, fanom := c.ctl.fanom, lcnt := c.run.lcnt, taskpath := c.ctl.taskpath, idle := c.run.halted || !c.run.live }

/-- The core with TOLLP, FANOM, LCNT and TASKPATH as they were. -/
def Core.asOf (c : Core) (b : Counts) : Core :=
  { c with ctl := { c.ctl with purse := b.purse, fanom := b.fanom, taskpath := b.taskpath }, run := { c.run with lcnt := b.lcnt } }

/-- The residue counters 0x020–0x072 (05 R186), from given counts; none for a number that is not listed. -/
def residueCounter (b : Counts) (n : Nat) : Option Word :=
  if 0x20 ≤ n ∧ n ≤ 0x22 then some (b.openB.toList.getD (n - 0x20) 0)
  else if 0x23 ≤ n ∧ n ≤ 0x25 then some (b.usedB.toList.getD (n - 0x23) 0)
  else if n = 0x26 then some b.forfeit
  else if n = 0x27 then some b.migOut
  else if n = 0x28 then some b.migIn
  else if n = 0x29 then some b.migWait
  else if 0x30 ≤ n ∧ n ≤ 0x6F then
    let j := (n - 0x30) / 8
    let k := b.cnt.toList.getD j {}
    match (n - 0x30) % 8 with
    | 0 => some k.a
    | 1 => some k.x
    | 2 => some k.c
    | 3 => some k.forfeit
    | 4 => some k.miss
    | 5 => some (b.states.toList.getD j 0)
    | _ => none
  else if n = 0x70 then some b.tlbMiss
  else if n = 0x71 then some b.cacheMiss
  else if n = 0x72 then some b.wbLines
  else none

/-- The drift-queue pointers and monitors 0x080–0x0FF (14 R399, R400). -/
def monitorWord (c : Core) (n : Nat) : Option Word :=
  let o := c.obs
  match n with
  | 0x80 => some o.drwr
  | 0x81 => some o.drdrn
  | 0x82 => some o.drlost
  | 0x83 => some o.fland
  | 0x84 => some o.holdn
  | 0x85 => some o.holdcyc
  | _ =>
    if n < 0xC0 ∨ 0xFF < n then none
    else
      let m := o.monitors.toList.getD ((n - 0xC0) / 16) {}
      let i := (n - 0xC0) % 16
      match i with
      | 0 => some m.cfg
      | 1 => some m.count
      | 2 => some m.min
      | 3 => some m.max
      | _ => if 12 ≤ i then none
        else some ((m.bins.toList.getD (2 * (i - 4) + 1) 0) ++ (m.bins.toList.getD (2 * (i - 4)) 0))

/-- The entry and the step of a macro command's nominal schedule at the end of cycle u; none outside its run (07 R260, R235). A step ends
with its cost in cycles from the start. A resumed command is reported from the end of the cycle before the one in which it goes on. -/
def Plan.at_ (p : Plan) (u : Nat) : Option (Nat × Nat) :=
  let x := u + 1 - p.start
  let first := 4 + (p.steps - p.step) * p.cost + p.store
  let len := 4 + p.steps * p.cost + p.store
  if u + (if p.resumed then 1 else 0) < p.start ∨ first + (p.entries - 1 - p.entry) * len + 5 < x then none
  else if x < first ∨ p.entry + 1 = p.entries then some (p.entry, p.step + Nat.min (p.steps - p.step) (x / p.cost))
  else
    let y := x - first
    some (Nat.min (p.entry + 1 + y / len) (p.entries - 1), Nat.min p.steps (y % len / p.cost))

/-- MSEQ as of the end of cycle u: the macro command of the core that started last (07 R260). -/
def Core.mseq (c : Core) (u : Nat) : Word :=
  match c.plans.reverse.findSome? fun p => (p.at_ u).map fun x => (p.kind, x) with
  | some (kind, entry, step) => BitVec.ofNat 64 (kind * 2 ^ 62 + entry * 2 ^ 32 + step)
  | none => 0

/-- The registers 0x000–0x01F of a core (03 R115, 10 R308, R309). -/
def contextWord (c : Core) (n : Nat) : Option Word :=
  match n with
  | 0x00 => some (BitVec.ofNat 64 c.run.t)
  | 0x01 => some (BitVec.ofNat 64 c.ctl.lid)
  | 0x02 => some (BitVec.ofNat 64 c.ctl.qcount)
  | 0x03 => some c.ctl.detl
  | 0x04 => some c.ctl.seed
  | 0x05 => some (BitVec.ofNat 64 c.ctl.spwin)
  | 0x06 => some (BitVec.ofNat 64 c.ctl.ptroot)
  | 0x07 => some c.ctl.ovf
  | 0x08 => some (BitVec.ofNat 64 c.ctl.landb)
  | 0x09 => some (BitVec.ofNat 64 c.ctl.purse)
  | 0x0A => some (BitVec.ofNat 64 (c.ctl.resv * 2 ^ 24 + c.ctl.refill))
  | 0x0B => some c.ctl.srctl
  | 0x0C => some (c.mseq (c.run.t - 1))
  | 0x0D => some (BitVec.ofNat 64 c.ctl.fanom)
  | 0x0E => some c.ctl.taskpath
  | 0x0F => some (BitVec.ofNat 64 c.run.lcnt)
  | _ => if 0x10 ≤ n ∧ n ≤ 0x17 then some (c.ctl.bfmt.toList.getD (n - 0x10) 0) else none

/-- The start of the current budget period (13 R381). -/
def pstart (wall : Nat) : Nat := wall / 12000000 * 12000000

/-- The context registers of a helm core (13 R366). -/
def helmWord (s : State) (h n : Nat) : Option Word :=
  let r := s.helm h
  match n with
  | 0x100 => some (BitVec.ofNat 64 (s.wallOf (dieOf h)))
  | 0x101 => some (BitVec.ofNat 64 (pkgOf h * 8 + dieOf h % 4 * 2 + (h - helmBase) % 2))
  | 0x102 => some r.ovfnext
  | 0x103 => some r.fring
  | 0x104 => some r.fhead
  | 0x105 => some (BitVec.ofNat 64 (pstart (s.wallOf (dieOf h))))
  | _ => if 0x110 ≤ n ∧ n ≤ 0x117 then some (r.carve.toList.getD (n - 0x110) 0) else none

/-- The registers that a cget marks as monitors (03 R115, 10 R309, 13 R366). -/
def isMonitor (n : Nat) : Bool :=
  n == 0x00 || n == 0x09 || n == 0x0A || n == 0x0D || n == 0x0F || decide (0x20 ≤ n ∧ n ≤ 0xFF) || n == 0x100 || n == 0x105

/-- The value of a control register as the executing agent's cget finds it, or the determinism fault of a monitor (03 R115, 05 R169); the
numbers that the agent may not name are encoding faults. What the cycle's own events change reads as it stood at the end of the cycle before, also in a
skiff's cget, which comes after the primary's bundle and the engines (03 R96). -/
def ctlGet (s : State) (n : Nat) (k : Word → Res) : Res :=
  let c := s.own
  let counts := match s.cur.agent with | .skiff _ _ => c.barrel.before | .core _ => c.counts
  let value := ((contextWord (c.asOf counts) n).orElse fun _ => residueCounter counts n).orElse fun _ => monitorWord c n
  match s.cur.agent with
  | .skiff _ _ => (match value with | some v => k v | none => .fault 0x02 5)
  | .core p =>
    match value.orElse (fun _ => if isHelm p then helmWord s p n else none) with
    | none => .fault 0x02 5
    | some v => if isMonitor n ∧ c.ctl.detl.extractLsb' 0 2 ≠ 0 then .fault 0x06 0x50A else k v

/-- cget (03 R115). -/
def bodyCget (d : BitVec 5) (n : BitVec 12) (s : State) : Res := ctlGet s n.toNat fun v => writeC d 2 v s

/-- Whether a helm's cset of FRING is good (13 R366). -/
def fringOk (v : Word) : Bool :=
  let base := (v.extractLsb' 0 21).toNat
  let len := (v.extractLsb' 32 16).toNat
  v.extractLsb' 48 16 == 0 && v.extractLsb' 21 11 == 0 && decide (base % 32 = 0) && decide (base + 32 * len ≤ 0x200000)

/-- Whether the value of a cset is good for its number: its reserved fields zero, its range kept (03 R115, 13 R366). -/
def csetOk (n : Nat) (v : Word) : Bool :=
  if n = 0x0B then v.extractLsb' 2 14 == 0
  else if 0x10 ≤ n ∧ n ≤ 0x17 then v.extractLsb' 16 48 == 0
  else if n = 0x08 then decide (1 ≤ v.toNat ∧ v.toNat ≤ 0x100000)
  else if n = 0x103 then fringOk v
  else if 0x110 ≤ n ∧ n ≤ 0x117 then v.extractLsb' 8 56 == 0
  else true

/-- cset (03 R115): the new value holds from t + 1. A number that its core may not write is an encoding fault. -/
def bodyCset (r : BitVec 5) (n : BitVec 12) (s : State) : Res :=
  let v := srcC r s
  if csetOk n.toNat v then .ok (s.modOwn (·.later (.ctl n.toNat v))) else .fault 0x02 5

/-! ### Tasks (03 R117 to R119) -/

/-- The indices of a task path, from the root down (03 R117). -/
def pathList (path : Word) : List Nat :=
  (List.range (path.extractLsb' 60 4).toNat).map fun j => (path.extractLsb' (5 * j) 5).toNat

/-- The path of child k (03 R117). -/
def childPath (path : Word) (k : BitVec 5) : Word :=
  let d := (path.extractLsb' 60 4).toNat
  BitVec.ofNat 64 ((d + 1) * 2 ^ 60 + path.toNat % 2 ^ 55 + k.toNat * 2 ^ (5 * d))

/-- The placement hash of a path (03 R117). -/
def placement (path : Word) : Nat :=
  (pathList path).foldl (fun h i => Nat.xor h i * 0x01000193 % 2 ^ 32) 0x811C9DC5

/-- Another core's spawn waits on core q since an earlier cycle, or since the same from a lower logical core id (01 R29). -/
def waitedOn (s : State) (n q since lid : Nat) : Bool :=
  s.cores.any fun x => x.2.run.sailing == some n && x.2.ctl.lid != lid &&
    match x.2.run.spawnAt with
    | some (q', t) => q' == q && (decide (t < since) || (t == since && decide (x.2.ctl.lid < lid)))
    | none => false

/-- A task starts on an idle core: x1–x8 copied, every other register zero (03 R118). Control registers are none of these: SRCTL and BFMT0 to BFMT7 stay as the
core's last task left them, and so do what the queues lq and sq still hold, bound stream ports, the page map, watermark channels and the quire registers; and LCNT is
cleared, as it is at a sailing's start: of all this the spec says nothing (DESIGN CHOICE, log 69). -/
def startTask (c : Core) (parent : Option Nat) (path : Word) (xs : List Word) (entry : Nat) : Core :=
  { c with
    run := { c.run with live := true, halting := false, halted := false, ended := false, lcnt := 0, busy := true, children := [], parent := parent }
    files := { ({} : Files) with x := (List.range 8).foldl (fun v i => v.setIfInBounds (i + 1) (xs.getD i 0)) (Vector.replicate 32 0) }
    pipe := {}
    ctl := { c.ctl with taskpath := path }
    fetch := { c.fetch with pc := entry, fell := false, taken := none } }

/-- The target of a spawn, or the fault or wait that its placement brings (03 R118, 01 R29). -/
def spawnTarget (s : State) (n : Nat) (k : BitVec 5) (go : Nat → Res) : Res :=
  let c := s.own
  let g := s.sailing n
  let q := g.coreAt (placement (childPath c.ctl.taskpath k) % (4 * c.ctl.qcount))
  let since := match c.run.spawnAt with | some (q', t) => if q' = q then t else c.run.t | none => c.run.t
  if ¬ (s.core q).run.busy then (if waitedOn s n q since c.ctl.lid then .stall 21 (.spawn q) else go q)
  else
    let idle := if c.ctl.detl.getLsbD 2 then (List.range (4 * g.quads.length)).find? fun l => !(s.core (g.coreAt l)).run.busy else none
    match idle with
    | some l => go (g.coreAt l)
    | none => if c.ctl.detl.extractLsb' 0 2 = 0 ∨ q = s.me then .fault 0x0A (s.core q).ctl.lid else .stall 21 (.spawn q)

/-- spawn (03 R118). An entry address that is misaligned or past 2^48 - 1 is no fault of the spawn: the spec names none, and the child faults at its first fetch
(DESIGN CHOICE, log 74). -/
def bodySpawn (k e : BitVec 5) (s : State) : Res :=
  let c := s.own
  match c.run.sailing with
  | none => .fault 0x02 0
  | some n =>
    if ¬ (s.sailing n).task ∨ c.ctl.taskpath.extractLsb' 60 4 = 11 ∨ c.run.children.length = 16 then .fault 0x02 0
    else spawnTarget s n k fun q =>
      let xs := (List.range 8).map fun i => c.x (BitVec.ofNat 5 (i + 1))
      let s := s.modCore q fun d => startTask d (some s.me) (childPath c.ctl.taskpath k) xs (srcC e s).toNat
      .ok (s.modOwn fun c => { c with run := { c.run with children := c.run.children ++ [(q, none)], spawnAt := none } })

/-- join (03 R119). -/
def bodyJoin (d : BitVec 5) (s : State) : Res :=
  match s.own.run.children with
  | [] => .fault 0x02 0
  | (_, none) :: _ => .stall 7
  | (_, some v) :: rest => writeC d 2 v (s.modOwn fun c => { c with run := { c.run with children := rest } })

/-! ### The instructions of this file at issue -/

/-- CP issued by itself (R102). -/
def execCp (g : BitVec 4) (d : BitVec 5) (r : BitVec 5) (q : BitVec 2) (f : BitVec 3) (s : State) : Host.Outcome State Fault Refusal :=
  finish s (queueLimit (issue (.cp g d r q f) g (bodyCp d r q f) s))
/-- BR issued by itself (R111). -/
def execBr (g : BitVec 4) (o : BitVec 21) (s : State) : Host.Outcome State Fault Refusal :=
  finish s (queueLimit (issue (.br g o) g (bodyBr o) s))
/-- BRL issued by itself (R111). -/
def execBrl (g : BitVec 4) (o : BitVec 21) (s : State) : Host.Outcome State Fault Refusal :=
  finish s (queueLimit (issue (.brl g o) g (bodyBrl o) s))
/-- BRR issued by itself (R111). -/
def execBrr (g : BitVec 4) (r : BitVec 5) (s : State) : Host.Outcome State Fault Refusal :=
  finish s (queueLimit (issue (.brr g r) g (bodyBrr r) s))
/-- BRR_L issued by itself (R111). -/
def execBrrL (g : BitVec 4) (r : BitVec 5) (s : State) : Host.Outcome State Fault Refusal :=
  finish s (queueLimit (issue (.brrL g r) g (bodyBrrL r) s))
/-- LSET issued by itself (R103). -/
def execLset (g : BitVec 4) (l : BitVec 2) (v : BitVec 1) (k : BitVec 6) (e : BitVec 12) (s : State) : Host.Outcome State Fault Refusal :=
  finish s (queueLimit (issue (.lset g l v k e) g (bodyLset l v k e) s))
/-- LUPD issued by itself (R104). -/
def execLupd (g : BitVec 4) (l : BitVec 2) (a : BitVec 4) (v : BitVec 1) (d : BitVec 14) (s : State) : Host.Outcome State Fault Refusal :=
  finish s (queueLimit (issue (.lupd g l a v d) g (bodyLupd l a v d) s))
/-- LTRIM issued by itself (R107). -/
def execLtrim (g : BitVec 4) (r : BitVec 5) (c : BitVec 4) (s : State) : Host.Outcome State Fault Refusal :=
  finish s (queueLimit (issue (.ltrim g r c) g (bodyLtrim r c) s))
/-- HALT issued by itself (R112). -/
def execHalt (g : BitVec 4) (s : State) : Host.Outcome State Fault Refusal :=
  finish s (queueLimit (issue (.halt g) g (bodyHalt) s))
/-- GOP issued by itself (R113). -/
def execGop (g : BitVec 4) (d : BitVec 4) (a : BitVec 4) (b : BitVec 4) (f : BitVec 3) (s : State) : Host.Outcome State Fault Refusal :=
  finish s (queueLimit (issue (.gop g d a b f) g (bodyGop d a b f) s))
/-- CLI issued by itself (R114). -/
def execCli (g : BitVec 4) (d : BitVec 5) (v : BitVec 16) (s : State) : Host.Outcome State Fault Refusal :=
  finish s (queueLimit (issue (.cli g d v) g (bodyCli d v) s))
/-- CGET issued by itself (R115). -/
def execCget (g : BitVec 4) (d : BitVec 5) (n : BitVec 12) (s : State) : Host.Outcome State Fault Refusal :=
  finish s (queueLimit (issue (.cget g d n) g (bodyCget d n) s))
/-- CSET issued by itself (R115). -/
def execCset (g : BitVec 4) (r : BitVec 5) (n : BitVec 12) (s : State) : Host.Outcome State Fault Refusal :=
  finish s (queueLimit (issue (.cset g r n) g (bodyCset r n) s))
/-- SPAWN issued by itself (R118). -/
def execSpawn (g : BitVec 4) (k : BitVec 5) (e : BitVec 5) (s : State) : Host.Outcome State Fault Refusal :=
  finish s (queueLimit (issue (.spawn g k e) g (bodySpawn k e) s))
/-- JOIN issued by itself (R119). -/
def execJoin (g : BitVec 4) (d : BitVec 5) (s : State) : Host.Outcome State Fault Refusal :=
  finish s (queueLimit (issue (.join g d) g (bodyJoin d) s))
/-- TRAP issued by itself (R116). -/
def execTrap (g : BitVec 4) (v : BitVec 16) (s : State) : Host.Outcome State Fault Refusal :=
  finish s (queueLimit (issue (.trap g v) g (bodyTrap v) s))

end Sys2Proof.Machine
end

