-- ==== Sys2Proof/Machine/SkiffCache.lean ====
section
/-! DEFINITION. The skiff cache and TLB of a core (05 R174, R175; 01 R42, R43), the page-table walk (01 R19 to R21),
and reads of global memory through a die's memory-side cache (01 R41). -/

namespace Sys2Proof.Machine

/-! ### Translation -/

/-- The leaf that a walk finds, or nothing where it fails (01 R21): level, the table's physical address, and the virtual address. -/
def walkFrom (word : Nat → Option Nat) (va : Nat) : Nat → Nat → Option TlbEntry
  | 0, _ => none
  | left + 1, table =>
    let level := 3 - left
    let bits := 16 + 14 * left
    match word (table + 8 * (va / 2 ^ bits % 2 ^ 14)) with
    | none => none
    | some e =>
      let addr := bitsOf e 51 16 * 65536
      if e % 2 = 0 ∨ bitsOf e 63 52 ≠ 0 ∨ bitsOf e 15 5 ≠ 0 then none
      else if bitsOf e 1 1 = 1 then
        if level = 0 ∨ addr % 2 ^ bits ≠ 0 then none
        else some { va := va / 2 ^ bits * 2 ^ bits, pa := addr, bits := bits, rd := bitsOf e 2 2 = 1, w := bitsOf e 3 3 = 1, x := bitsOf e 4 4 = 1 }
      else if level = 3 ∨ addr % 2 ^ 17 ≠ 0 then none
      else walkFrom word va left addr

/-- A walk comes to an entry in control space (15 R408). -/
def walkControl (word : Nat → Option Nat) (va : Nat) : Nat → Nat → Bool
  | 0, _ => false
  | left + 1, table =>
    let a := table + 8 * (va / 2 ^ (16 + 14 * left) % 2 ^ 14)
    isControl a || match word a with
      | none => false
      | some e => e % 2 == 1 && bitsOf e 1 1 == 0 && walkControl word va left (bitsOf e 51 16 * 65536)

/-- The addresses of the entries that a walk reads. -/
def walkReads (word : Nat → Option Nat) (va : Nat) : Nat → Nat → List Nat
  | 0, _ => []
  | left + 1, table =>
    let a := table + 8 * (va / 2 ^ (16 + 14 * left) % 2 ^ 14)
    a :: match word a with
      | some e => if e % 2 = 1 ∧ bitsOf e 1 1 = 0 then walkReads word va left (bitsOf e 51 16 * 65536) else []
      | none => []

/-- The links that a walker of die d passes on a walk: to the home of each entry that it reads, and back (10 R307). -/
def walkLinks (word : Nat → Option Nat) (d root va : Nat) : List Nat :=
  pathOver (.die d :: (walkReads word va 4 root).map homeOf ++ [.die d])

/-- A page-table word as a walker reads it; a poisoned word fails the walk, and so does one in control space (15 R408), with the fault of the agent that
needed the translation. -/
def State.pteWord (s : State) (pa : Nat) : Option Nat :=
  if s.poisoned pa ∨ ¬ populated pa ∨ isControl pa then none else some (s.read pa 8)

/-- The walk of a virtual address through the tables as they stand. -/
def State.walk (s : State) (root va : Nat) : Option TlbEntry := walkFrom s.pteWord va 4 root

/-- The kinds of a translated access. -/
inductive AccessKind where
  | fetch | read | write
  deriving DecidableEq, Repr

/-- The physical address under a leaf, where the leaf allows the access and the address is populated (01 R21). -/
def TlbEntry.translate (e : TlbEntry) (k : AccessKind) (va : Nat) : Option Nat :=
  let ok : Bool := match k with | .fetch => e.x | .read => e.rd | .write => e.w
  let pa := e.pa + va % 2 ^ e.bits
  if ok ∧ populated pa then some pa else none

/-- Whether a TLB entry covers a virtual address. -/
def TlbEntry.covers (e : TlbEntry) (va : Nat) : Bool := va / 2 ^ e.bits * 2 ^ e.bits == e.va

/-- A virtual address in the partition's window (01 R23): logical core id and scratchpad address, or beyond its last core. -/
def windowOf (c : Core) (va : Nat) : Option (Option (Nat × Nat)) :=
  if c.ctl.spwin ≤ va ∧ va < c.ctl.spwin + 2 ^ 38 then
    let k := (va - c.ctl.spwin) / 0x800000
    some (if k < 4 * c.ctl.qcount then some (k, (va - c.ctl.spwin) % 0x800000) else none)
  else none

/-! ### Memory-side caches -/

/-- n bytes of global memory as die d reads them: from its replica of the line where it keeps one (01 R41). -/
def State.readVia (s : State) (d pa n : Nat) : Nat :=
  match (s.die d).replicas.find? fun x => x.1 = pa / 64 with
  | some (_, data) => data.toNat / 2 ^ (8 * (pa % 64)) % 2 ^ (8 * n)
  | none => s.read pa n

/-- n bytes of global memory at their home, where those of a poisoned word count as 0 (15 R415). -/
def State.seenWord (s : State) (pa : Nat) : Nat → Nat
  | 0 => 0
  | n + 1 => (if s.poisoned pa then 0 else (s.mem.get pa).toNat) + 256 * State.seenWord s (pa + 1) n

/-- The poisoned words of global memory among n bytes are counted as consumed, at the die of their stacks (15 R407, R415). -/
def State.countPoisonAt (s : State) (pa n : Nat) : State :=
  let k := ((wordsOf pa n).filter s.poison.contains).length
  if k = 0 then s else s.modDie (hbmDie pa) fun d => { d with poisrd := d.poisrd + BitVec.ofNat 64 k }

/-- A read by die d of a line of another die's HBM may leave a replica in d's memory-side cache (01 R41). -/
def State.keepReplica (s : State) (d pa : Nat) : State :=
  if pa % 0x400000000000 < 0x300000000000 ∧ hbmDie pa ≠ d ∧ Config.moment s.freeIx then
    { s with freeIx := s.freeIx + 1 }.modDie d fun r =>
      if r.replicas.any (·.1 = pa / 64) then r
      else { r with replicas := r.replicas ++ [(pa / 64, BitVec.ofNat 512 (s.read (pa / 64 * 64) 64))] }
  else { s with freeIx := s.freeIx + 1 }

/-! ### The skiff cache -/

/-- The bytes of a line selected by a mask, one per byte of the line. -/
def byteMask (m : BitVec 64) : BitVec 512 :=
  (List.range 64).foldl (fun v i => if m.getLsbD i then v ||| (0xFF#512 <<< (8 * i)) else v) 0

/-- The bits of a mask for bytes [o, o + n). -/
def spanMask (o n : Nat) : BitVec 64 := BitVec.ofNat 64 ((2 ^ n - 1) * 2 ^ o)

/-- The cached line of a physical address. -/
def Barrel.line (b : Barrel) (pa : Nat) : Option Line := b.cache.find? fun l => l.line = pa / 64

/-- A skiff acquire at .quad or wider leaves only the dirty bytes of the cache valid (01 R42). -/
def invalidateClean (s : State) (p : Nat) : State :=
  s.modBarrel p fun b =>
    { b with cache := (b.cache.filter fun l => l.dirty ≠ 0).map fun l => { l with valid := l.dirty } }

/-- A line enters the cache as the most recent of its set; a fifth line of the set drives out the least recent,
whose dirty bytes are written back (05 R174). -/
def insertLine (s : State) (p : Nat) (l : Line) : State :=
  let b := (s.core p).barrel
  let rest := b.cache.filter fun x => x.line ≠ l.line
  let set := rest.filter fun x => x.line % 128 = l.line % 128
  match set[3]? with
  | none => s.modBarrel p fun b => { b with cache := l :: rest }
  | some victim =>
    let s := if victim.dirty = 0 then s else writeLine s p victim
    s.modBarrel p fun b =>
      { b with cache := l :: rest.filter (fun x => x.line ≠ victim.line),
               wbLines := if victim.dirty = 0 then b.wbLines else b.wbLines + 1 }

end Sys2Proof.Machine
end

