-- ==== Sys2Proof/Machine/Fetching.lean ====
section
/-! DEFINITION. Instruction supply: reading code words, segment headers, the expansion of a segment, the loop buffer's prefetch
and misses (03 R83 to R86, R121). -/

namespace Sys2Proof.Machine

/-- One code word at a virtual address as core p fetches it; none where the fetch fails (01 R21, R23; 03 R121).
A helm core's code is its firmware, read at the address as a physical one (DEDUCED, log 6). -/
def fetchWord (s : State) (p va : Nat) : Option Code :=
  let c := s.core p
  let read (pa : Nat) : Option Code := if s.poisoned pa then none else some (BitVec.ofNat 32 (s.readVia (dieOf p) pa 4))
  if isHelm p then (if populated va then read va else none)
  else match windowOf c va with
  | some none => none
  | some (some (k, a)) => if c.inside a 4 then read (spadBase (s.coreAt p k) + (s.core (s.coreAt p k)).visible a) else none
  | none => match s.walk c.ctl.ptroot va with
    | none => none
    | some e => match e.translate .fetch va with
      | none => none
      | some pa => read pa

/-- n code words from a virtual address, each with its address; a word that cannot be read is none. -/
def fetchWords (s : State) (p va : Nat) (n : Nat) : List (Nat × Option Code) :=
  (List.range n).map fun i => (va + 4 * i, fetchWord s p (va + 4 * i))

/-- The occupied slots of a header, in the order A, X, F, V, M, C (03 R86). -/
def occupied (hdr : Code) : List SlotClass := [SlotClass.a, .x, .f, .v, .m, .c].filter fun k => hdr.getLsbD (slotNo k)

/-- The words that follow a header: as many as its occupied slots need, two for a slot of format FLG. The remaining words,
the slot words read, and whether they all were there (03 R86). -/
def takeSlots : List SlotClass → List (Nat × Option Code) → List (Nat × Option Code) × List (Nat × Option Code) × Bool
  | [], ws => (ws, [], true)
  | _ :: _, [] => ([], [], false)
  | k :: ks, w :: ws =>
    let two := match w.2 with | some v => twoWords k v | none => false
    if two then match ws with
      | [] => ([], [w], false)
      | e :: ws =>
        let (rest, got, all) := takeSlots ks ws
        (rest, w :: e :: got, all)
    else
      let (rest, got, all) := takeSlots ks ws
      (rest, w :: got, all)

/-- The bundle at the head of a list of words. -/
def oneBundle (h : Nat × Option Code) (ws : List (Nat × Option Code)) : Bundle × List (Nat × Option Code) :=
  match h.2 with
  | none => (⟨h.1, 0, [], false, some h.1⟩, ws)
  | some hdr =>
    let (rest, got, all) := takeSlots (occupied hdr) ws
    (⟨h.1, hdr, got.map (·.2.getD 0), !all, (got.find? (·.2.isNone)).map (·.1)⟩, rest)

/-- The bundles of a bundle area, as many as the fuel allows. -/
def expandWords : Nat → List (Nat × Option Code) → List Bundle
  | 0, _ => []
  | _, [] => []
  | n + 1, h :: ws => let (b, rest) := oneBundle h ws; b :: expandWords n rest

/-- The segment whose header lies at a virtual address, read and expanded (03 R83 to R85). -/
def readSegment (s : State) (p a : Nat) : Segment :=
  match (fetchWords s p a 4).map (·.2) with
  | [some w0, some w1, some w2, some w3] =>
    let len := (w1.extractLsb' 16 16).toNat
    if w2.extractLsb' 2 30 ≠ 0 ∨ w3 ≠ 0 ∨ len = 0 then { addr := a, badHdr := true }
    else
      { addr := a, next := w0.toNat + (w1.extractLsb' 0 16).toNat * 2 ^ 32, stop := w2.getLsbD 0, pin := w2.getLsbD 1, len := len,
        bundles := expandWords 513 (fetchWords s p (a + 16) len) }
  | _ => { addr := a, failed := some (((fetchWords s p a 4).find? (·.2.isNone)).map (·.1) |>.getD a) }

/-- A half replaced. -/
def Fetch.setHalf (f : Fetch) (side : Bool) (g : Segment) : Fetch :=
  if side then { f with half1 := some g } else { f with half0 := some g }

/-- Whether a loop level whose body lies in a segment is active (03 R83). -/
def Core.loopIn (c : Core) (g : Segment) : Bool := c.pipe.loops.any fun l => l.active && g.holds l.start

/-- Whether the prefetch engine may overwrite a half: PIN holds it while a loop level whose body lies in it is active (03 R83). -/
def Core.mayPrefetch (c : Core) (side : Bool) : Bool :=
  match c.fetch.half side with
  | some g => !(g.pin && c.loopIn g)
  | none => true

/-- Whether a half holds the bundle, or the segment head, at an address. -/
def Segment.starts (g : Segment) (a : Nat) : Bool := g.addr + 16 == a || (g.at_ a).isSome

/-- Where the next bundle is found (03 R84, R85, R120): in a half; at a fault with its DETAIL; or nowhere, a segment miss. -/
inductive Found where
  | bundle (side : Bool) (b : Bundle)
  | fault (code detail : Nat)
  | miss
  deriving DecidableEq, Repr

/-- The next bundle within a half that holds its address. -/
def Segment.find (g : Segment) (side : Bool) (a : Nat) : Found :=
  match g.failed with
  | some va => .fault 0x07 va
  | none =>
    if g.badHdr then .fault 0x01 8
    else if 512 < g.bundles.length then .fault 0x01 7
    else match g.at_ a with
      | none => .fault 0x01 6
      | some b => match b.failed with
        | some va => .fault 0x07 va
        | none => .bundle side b

/-- Passing the last bundle of a segment: the address to go on at, or the fault of falling past STOP or of a bad pointer (03 R84, R24). -/
def Fetch.fallTo (f : Fetch) : Except Nat Nat :=
  match f.half f.side with
  | some g => if g.stop then .error 10 else if g.next % 4 ≠ 0 then .error 6 else .ok (g.next + 16)
  | none => .ok f.pc

/-- The address of the next bundle, past the end of a segment at its successor's first bundle. -/
def Fetch.next (f : Fetch) : Except Nat Nat := if f.fell then f.fallTo else .ok f.pc

/-- The address of the bundle that is due, whether or not it is resident: past the end of a segment that of its successor's first bundle (03 R85). Where that
cannot be told, past STOP or with a pointer that is no multiple of 4, the spec names no BADDR: it is the address behind the segment's last bundle, which has
taken effect, the fault being raised in the cycle after it (DESIGN CHOICE, log 65). -/
def Core.nextBaddr (c : Core) : Nat := match c.fetch.next with | .ok a => a | .error _ => c.fetch.pc

/-- SEGMENT_PREFETCH: the segment that the issuing one names as next is expanded into the other half (03 R84). A taken branch whose target
lies in the other half alone goes there first: its target is resident (03 R99). -/
def execSegmentPrefetch (p : Nat) (s : State) : Host.Outcome State Fault Refusal :=
  let c := s.core p
  let f := c.fetch
  match f.half f.side with
  | none => .next s
  | some g =>
    let other := f.half (!f.side)
    let leaving : Bool := !f.fell && !g.starts f.pc && other.any (·.starts f.pc)
    if g.stop ∨ g.next % 4 ≠ 0 ∨ (other.map (·.addr)) = some g.next ∨ ¬ c.mayPrefetch (!f.side) ∨ leaving then .next s
    else .next (s.modCore p fun c => { c with fetch := c.fetch.setHalf (!f.side) (readSegment s p g.next) })

/-- The next bundle of a core. -/
def Core.nextBundle (c : Core) : Found :=
  let f := c.fetch
  match f.next with
  | .error cause => .fault 0x01 cause
  | .ok a =>
    if a % 4 ≠ 0 ∨ 2 ^ 48 ≤ a then .fault 0x01 6
    else
      let try_ (side : Bool) (k : Found) : Found :=
        match f.half side with
        | some g => if g.starts a then g.find side a else k
        | none => k
      try_ f.side (try_ (!f.side) .miss)

/-- Issue has stalled on the miss of the bundle at a: a miss costs a cycle and leaves its record (03 R85). A core that starts, its buffer empty, has missed
nothing. -/
def Core.missing (c : Core) (a : Nat) : Bool :=
  (c.fetch.half c.fetch.side).isNone || match c.run.stall with | some r => r.cause == 1 && r.bundle == a | none => false

/-- SEGMENT_MISS: the segment of the bundle that issue waits for is read into the half that does not hold the bundle that branched or fell through
(03 R85). Its header lies 16 bytes before the bundle, or at 0 for a target below 16, of which the spec says nothing (DESIGN CHOICE, log 74). -/
def execSegmentMiss (p : Nat) (s : State) : Host.Outcome State Fault Refusal :=
  let c := s.core p
  match c.nextBundle, c.fetch.next with
  | .miss, .ok a =>
    let side := if (c.fetch.half c.fetch.side).isNone then c.fetch.side else !c.fetch.side
    .next (if c.missing a then s.modCore p fun c => { c with fetch := c.fetch.setHalf side (readSegment s p (a - 16)) } else s)
  | _, _ => .next s

end Sys2Proof.Machine
end

