-- ==== Sys2Proof/Machine/Integer.lean ====
section
/-! DEFINITION. The integer instructions of the A and X slots (04 R142 to R151). -/

namespace Sys2Proof.Machine

/-! ### Results -/

/-- The functions of add (04 R142); the A slot has those up to 7. -/
def aluFn (f : Nat) (a b : Word) : Word :=
  let sh := b.toNat % 64
  match f with
  | 0 => a + b
  | 1 => a - b
  | 2 => a &&& b
  | 3 => a ||| b
  | 4 => a ^^^ b
  | 5 => a <<< sh
  | 6 => a >>> sh
  | 7 => a.sshiftRight sh
  | 8 => a &&& ~~~b
  | 9 => a.rotateLeft sh
  | 10 => if a.slt b then a else b
  | 11 => if a.slt b then b else a
  | 12 => if a.ult b then a else b
  | _ => if a.ult b then b else a

/-- li (04 R143). -/
def liResult (i : BitVec 16) : Word := i.signExtend 64

/-- liu (04 R143): d shifted left by 16 with the immediate below. -/
def liuResult (d : Word) (i : BitVec 16) : Word := (d <<< 16) ||| i.zeroExtend 64

/-- mul (04 R146): low half, high half of the signed product, high half of the unsigned product. -/
def mulResult (f : Nat) (a b : Word) : Word :=
  match f with
  | 0 => a * b
  | 1 => BitVec.ofInt 64 (a.toInt * b.toInt / 2 ^ 64)
  | _ => BitVec.ofNat 64 (a.toNat * b.toNat / 2 ^ 64)

/-- mulw (04 R146): the whole product, signed or unsigned. -/
def mulwResult (unsigned : Bool) (a b : Word) : BitVec 128 :=
  if unsigned then BitVec.ofNat 128 (a.toNat * b.toNat) else BitVec.ofInt 128 (a.toInt * b.toInt)

/-- div (04 R147): signed and unsigned quotient and remainder, with division by zero and −2^63 ÷ −1 as the rule lays down. -/
def divResult (f : Nat) (a b : Word) : Word :=
  match f with
  | 0 => if b = 0 then BitVec.allOnes 64 else BitVec.ofInt 64 (a.toInt.tdiv b.toInt)
  | 1 => if b = 0 then BitVec.allOnes 64 else BitVec.ofNat 64 (a.toNat / b.toNat)
  | 2 => if b = 0 then a else BitVec.ofInt 64 (a.toInt.tmod b.toInt)
  | _ => if b = 0 then a else BitVec.ofNat 64 (a.toNat % b.toNat)

/-- The number of zero bits before the first one, scanning bit positions in order. -/
def leadingZeros (v : Word) : List Nat → Nat
  | [] => 0
  | i :: is => if v.getLsbD i then 0 else leadingZeros v is + 1

/-- bcnt (04 R148): clz, ctz, popc. -/
def bcntResult (f : Nat) (v : Word) : Word :=
  match f with
  | 0 => BitVec.ofNat 64 (leadingZeros v (List.range 64).reverse)
  | 1 => BitVec.ofNat 64 (leadingZeros v (List.range 64))
  | _ => BitVec.ofNat 64 ((List.range 64).filter v.getLsbD).length

/-- ext and exts (04 R149): bits [pos + len − 1 : pos], zero- or sign-extended. -/
def extResult (sx : Bool) (v : Word) (pos len : Nat) : Word :=
  let f := v.toNat / 2 ^ pos % 2 ^ len
  if sx then BitVec.ofInt 64 (sextOf f len) else BitVec.ofNat 64 f

/-- ins (04 R149): d with bits [pos + len − 1 : pos] replaced by the low bits of v. -/
def insResult (d v : Word) (pos len : Nat) : Word :=
  let m : Word := BitVec.ofNat 64 ((2 ^ len - 1) * 2 ^ pos)
  (d &&& ~~~m) ||| ((v <<< pos) &&& m)

/-- One step of the CRC-8 (04 R150) on the next message bit. -/
def crcStep (c : BitVec 8) (b : Bool) : BitVec 8 :=
  let c' := c <<< 1
  if c.getLsbD 7 != b then c' ^^^ 0x07 else c'

/-- crc8 (04 R150): the CRC of the top n bytes of v, from c. -/
def crc8Result (c v : Word) (n : Nat) : Word :=
  (((List.range (8 * n)).foldl (fun c k => crcStep c (v.getLsbD (63 - k))) (c.truncate 8 : BitVec 8))).zeroExtend 64

/-- One multiplication of Philox4x32 (02 R80): the high and low 32 bits of a product. -/
def mulHiLo (a b : Nat) : Nat × Nat := (a * b / 2 ^ 32 % 2 ^ 32, a * b % 2 ^ 32)

/-- n rounds of Philox4x32 on four counter words under a key (02 R80). -/
def philox (n : Nat) (k : Nat × Nat) (c : Nat × Nat × Nat × Nat) : Nat × Nat × Nat × Nat :=
  match n with
  | 0 => c
  | n + 1 =>
    let (c0, c1, c2, c3) := c
    let (hi0, lo0) := mulHiLo 0xD2511F53 c0
    let (hi1, lo1) := mulHiLo 0xCD9E8D57 c2
    philox n ((k.1 + 0x9E3779B9) % 2 ^ 32, (k.2 + 0xBB67AE85) % 2 ^ 32)
      (Nat.xor (Nat.xor hi1 c1) k.1, lo1, Nat.xor (Nat.xor hi0 c3) k.2, lo0)

/-- rng (04 R151): two of the four output words of Philox4x32-10 keyed by SEED. -/
def rngResult (seed : Word) (high : Bool) (a b : Word) : Word :=
  let (w0, w1, w2, w3) := philox 10 (bitsOf seed.toNat 31 0, bitsOf seed.toNat 63 32)
    (bitsOf a.toNat 31 0, bitsOf a.toNat 63 32, bitsOf b.toNat 31 0, bitsOf b.toNat 63 32)
  if high then BitVec.ofNat 64 (w3 * 2 ^ 32 + w2) else BitVec.ofNat 64 (w1 * 2 ^ 32 + w0)

/-! ### A slot -/

/-- add in the A slot (04 R142). -/
def bodyAddA (d a b : BitVec 5) (f : BitVec 6) (s : State) : Res := writeA d 1 (aluFn f.toNat (srcA a s) (srcA b s)) s
/-- addi in the A slot (04 R143). -/
def bodyAddiA (d a : BitVec 5) (i : BitVec 11) (s : State) : Res := writeA d 1 (srcA a s + i.signExtend 64) s
/-- li in the A slot (04 R143). -/
def bodyLiA (d : BitVec 5) (i : BitVec 16) (s : State) : Res := writeA d 1 (liResult i) s
/-- liu in the A slot (04 R143). -/
def bodyLiuA (d : BitVec 5) (i : BitVec 16) (s : State) : Res := writeA d 1 (liuResult (srcA d s) i) s
/-- cmp in the A slot (04 R144). -/
def bodyCmpA (h : BitVec 4) (a b : BitVec 5) (c : BitVec 3) (s : State) : Res :=
  writeG h (condition c.toNat (srcA a s) (srcA b s)) s
/-- cmpi in the A slot (04 R144). -/
def bodyCmpiA (h : BitVec 4) (a : BitVec 5) (c : BitVec 3) (i : BitVec 8) (s : State) : Res :=
  writeG h (condition c.toNat (srcA a s) (i.signExtend 64)) s

/-! ### X slot -/

/-- A one-operand X operation with its latency. -/
def unaryX (d a : BitVec 5) (lat : Nat) (f : Word → Word) (s : State) : Res :=
  withX a s fun v s => writeX d lat (f v) s

/-- A two-operand X operation with its latency; the operands are read in the order s1, s2 (03 R92). -/
def binaryX (d a b : BitVec 5) (lat : Nat) (f : Word → Word → Word) (s : State) : Res :=
  withX a s fun v s => withX b s fun w s => writeX d lat (f v w) s

/-- add in the X slot (04 R142). -/
def bodyAddX (d a b : BitVec 5) (f : BitVec 6) (s : State) : Res := binaryX d a b 1 (aluFn f.toNat) s
/-- addi in the X slot (04 R143). -/
def bodyAddiX (d a : BitVec 5) (i : BitVec 11) (s : State) : Res := unaryX d a 1 (· + i.signExtend 64) s
/-- andi (04 R143). -/
def bodyAndi (d a : BitVec 5) (i : BitVec 11) (s : State) : Res := unaryX d a 1 (· &&& i.signExtend 64) s
/-- ori (04 R143). -/
def bodyOri (d a : BitVec 5) (i : BitVec 11) (s : State) : Res := unaryX d a 1 (· ||| i.signExtend 64) s
/-- xori (04 R143). -/
def bodyXori (d a : BitVec 5) (i : BitVec 11) (s : State) : Res := unaryX d a 1 (· ^^^ i.signExtend 64) s
/-- shli (04 R143). -/
def bodyShli (d a : BitVec 5) (n : BitVec 6) (s : State) : Res := unaryX d a 1 (· <<< n.toNat) s
/-- shri (04 R143). -/
def bodyShri (d a : BitVec 5) (n : BitVec 6) (s : State) : Res := unaryX d a 1 (· >>> n.toNat) s
/-- srai (04 R143). -/
def bodySrai (d a : BitVec 5) (n : BitVec 6) (s : State) : Res := unaryX d a 1 (·.sshiftRight n.toNat) s
/-- li in the X slot (04 R143). -/
def bodyLiX (d : BitVec 5) (i : BitVec 16) (s : State) : Res := writeX d 1 (liResult i) s
/-- liu in the X slot (04 R143): d is read as it stands at the end of t − 1. -/
def bodyLiuX (d : BitVec 5) (i : BitVec 16) (s : State) : Res := unaryX d d 1 (liuResult · i) s
/-- cmp in the X slot (04 R144). -/
def bodyCmpX (h : BitVec 4) (a b : BitVec 5) (c : BitVec 3) (s : State) : Res :=
  withX a s fun v s => withX b s fun w s => writeG h (condition c.toNat v w) s
/-- cmpi in the X slot (04 R144). -/
def bodyCmpiX (h : BitVec 4) (a : BitVec 5) (c : BitVec 3) (i : BitVec 8) (s : State) : Res :=
  withX a s fun v s => writeG h (condition c.toNat v (i.signExtend 64)) s
/-- sel (04 R145): the selector guard is read as it stands at the end of t − 1. -/
def bodySel (d a b : BitVec 5) (h : BitVec 4) (s : State) : Res := binaryX d a b 1 (fun v w => if s.guard h then v else w) s
/-- mul (04 R146). -/
def bodyMul (d a b : BitVec 5) (f : BitVec 2) (s : State) : Res := binaryX d a b 3 (mulResult f.toNat) s
/-- mulw (04 R146): the pair d, d + 1. -/
def bodyMulw (d a b : BitVec 5) (u : BitVec 1) (s : State) : Res :=
  withX a s fun v s => withX b s fun w s =>
    let p := mulwResult (u == 1) v w
    (writeX d 3 (p.truncate 64) s).bind (writeX (d + 1) 3 (p.extractLsb' 64 64))
/-- div (04 R147). -/
def bodyDiv (d a b : BitVec 5) (f : BitVec 2) (s : State) : Res := binaryX d a b 18 (divResult f.toNat) s
/-- bcnt (04 R148). -/
def bodyBcnt (d a : BitVec 5) (f : BitVec 6) (s : State) : Res := unaryX d a 1 (bcntResult f.toNat) s
/-- ext (04 R149). -/
def bodyExt (d a l : BitVec 5) (p : BitVec 6) (s : State) : Res := unaryX d a 1 (extResult false · p.toNat (l.toNat + 1)) s
/-- ins (04 R149): d is read as it stands at the end of t − 1. -/
def bodyIns (d a l : BitVec 5) (p : BitVec 6) (s : State) : Res :=
  withX a s fun v s => withX d s fun w s => writeX d 1 (insResult w v p.toNat (l.toNat + 1)) s
/-- exts (04 R149). -/
def bodyExts (d a l : BitVec 5) (p : BitVec 6) (s : State) : Res := unaryX d a 1 (extResult true · p.toNat (l.toNat + 1)) s
/-- crc8 (04 R150). -/
def bodyCrc8 (d a b : BitVec 5) (n : BitVec 3) (s : State) : Res := binaryX d a b 2 (crc8Result · · (n.toNat + 1)) s
/-- rng (04 R151). -/
def bodyRng (d a b : BitVec 5) (h : BitVec 1) (s : State) : Res := binaryX d a b 4 (rngResult s.own.ctl.seed (h == 1)) s

/-! ### The instructions of this file at issue -/

/-- ADD_A issued by itself (R142). -/
def execAddA (g : BitVec 4) (d : BitVec 5) (a : BitVec 5) (b : BitVec 5) (f : BitVec 6) (s : State) : Host.Outcome State Fault Refusal :=
  finish s (queueLimit (issue (.addA g d a b f) g (bodyAddA d a b f) s))
/-- ADDI_A issued by itself (R143). -/
def execAddiA (g : BitVec 4) (d : BitVec 5) (a : BitVec 5) (v : BitVec 11) (s : State) : Host.Outcome State Fault Refusal :=
  finish s (queueLimit (issue (.addiA g d a v) g (bodyAddiA d a v) s))
/-- LI_A issued by itself (R143). -/
def execLiA (g : BitVec 4) (d : BitVec 5) (v : BitVec 16) (s : State) : Host.Outcome State Fault Refusal :=
  finish s (queueLimit (issue (.liA g d v) g (bodyLiA d v) s))
/-- LIU_A issued by itself (R143). -/
def execLiuA (g : BitVec 4) (d : BitVec 5) (v : BitVec 16) (s : State) : Host.Outcome State Fault Refusal :=
  finish s (queueLimit (issue (.liuA g d v) g (bodyLiuA d v) s))
/-- CMP_A issued by itself (R144). -/
def execCmpA (g : BitVec 4) (h : BitVec 4) (a : BitVec 5) (b : BitVec 5) (c : BitVec 3) (s : State) : Host.Outcome State Fault Refusal :=
  finish s (queueLimit (issue (.cmpA g h a b c) g (bodyCmpA h a b c) s))
/-- CMPI_A issued by itself (R144). -/
def execCmpiA (g : BitVec 4) (h : BitVec 4) (a : BitVec 5) (c : BitVec 3) (v : BitVec 8) (s : State) : Host.Outcome State Fault Refusal :=
  finish s (queueLimit (issue (.cmpiA g h a c v) g (bodyCmpiA h a c v) s))
/-- ADD_X issued by itself (R142). -/
def execAddX (g : BitVec 4) (d : BitVec 5) (a : BitVec 5) (b : BitVec 5) (f : BitVec 6) (s : State) : Host.Outcome State Fault Refusal :=
  finish s (queueLimit (issue (.addX g d a b f) g (bodyAddX d a b f) s))
/-- ADDI_X issued by itself (R143). -/
def execAddiX (g : BitVec 4) (d : BitVec 5) (a : BitVec 5) (v : BitVec 11) (s : State) : Host.Outcome State Fault Refusal :=
  finish s (queueLimit (issue (.addiX g d a v) g (bodyAddiX d a v) s))
/-- ANDI issued by itself (R143). -/
def execAndi (g : BitVec 4) (d : BitVec 5) (a : BitVec 5) (v : BitVec 11) (s : State) : Host.Outcome State Fault Refusal :=
  finish s (queueLimit (issue (.andi g d a v) g (bodyAndi d a v) s))
/-- ORI issued by itself (R143). -/
def execOri (g : BitVec 4) (d : BitVec 5) (a : BitVec 5) (v : BitVec 11) (s : State) : Host.Outcome State Fault Refusal :=
  finish s (queueLimit (issue (.ori g d a v) g (bodyOri d a v) s))
/-- XORI issued by itself (R143). -/
def execXori (g : BitVec 4) (d : BitVec 5) (a : BitVec 5) (v : BitVec 11) (s : State) : Host.Outcome State Fault Refusal :=
  finish s (queueLimit (issue (.xori g d a v) g (bodyXori d a v) s))
/-- SHLI issued by itself (R143). -/
def execShli (g : BitVec 4) (d : BitVec 5) (a : BitVec 5) (r : BitVec 6) (s : State) : Host.Outcome State Fault Refusal :=
  finish s (queueLimit (issue (.shli g d a r) g (bodyShli d a r) s))
/-- SHRI issued by itself (R143). -/
def execShri (g : BitVec 4) (d : BitVec 5) (a : BitVec 5) (r : BitVec 6) (s : State) : Host.Outcome State Fault Refusal :=
  finish s (queueLimit (issue (.shri g d a r) g (bodyShri d a r) s))
/-- SRAI issued by itself (R143). -/
def execSrai (g : BitVec 4) (d : BitVec 5) (a : BitVec 5) (r : BitVec 6) (s : State) : Host.Outcome State Fault Refusal :=
  finish s (queueLimit (issue (.srai g d a r) g (bodySrai d a r) s))
/-- LI_X issued by itself (R143). -/
def execLiX (g : BitVec 4) (d : BitVec 5) (v : BitVec 16) (s : State) : Host.Outcome State Fault Refusal :=
  finish s (queueLimit (issue (.liX g d v) g (bodyLiX d v) s))
/-- LIU_X issued by itself (R143). -/
def execLiuX (g : BitVec 4) (d : BitVec 5) (v : BitVec 16) (s : State) : Host.Outcome State Fault Refusal :=
  finish s (queueLimit (issue (.liuX g d v) g (bodyLiuX d v) s))
/-- CMP_X issued by itself (R144). -/
def execCmpX (g : BitVec 4) (h : BitVec 4) (a : BitVec 5) (b : BitVec 5) (c : BitVec 3) (s : State) : Host.Outcome State Fault Refusal :=
  finish s (queueLimit (issue (.cmpX g h a b c) g (bodyCmpX h a b c) s))
/-- CMPI_X issued by itself (R144). -/
def execCmpiX (g : BitVec 4) (h : BitVec 4) (a : BitVec 5) (c : BitVec 3) (v : BitVec 8) (s : State) : Host.Outcome State Fault Refusal :=
  finish s (queueLimit (issue (.cmpiX g h a c v) g (bodyCmpiX h a c v) s))
/-- SEL issued by itself (R145). -/
def execSel (g : BitVec 4) (d : BitVec 5) (a : BitVec 5) (b : BitVec 5) (h : BitVec 4) (s : State) : Host.Outcome State Fault Refusal :=
  finish s (queueLimit (issue (.sel g d a b h) g (bodySel d a b h) s))
/-- MUL issued by itself (R146). -/
def execMul (g : BitVec 4) (d : BitVec 5) (a : BitVec 5) (b : BitVec 5) (f : BitVec 2) (s : State) : Host.Outcome State Fault Refusal :=
  finish s (queueLimit (issue (.mul g d a b f) g (bodyMul d a b f) s))
/-- MULW issued by itself (R146). -/
def execMulw (g : BitVec 4) (d : BitVec 5) (a : BitVec 5) (b : BitVec 5) (u : BitVec 1) (s : State) : Host.Outcome State Fault Refusal :=
  finish s (queueLimit (issue (.mulw g d a b u) g (bodyMulw d a b u) s))
/-- DIV issued by itself (R147). -/
def execDiv (g : BitVec 4) (d : BitVec 5) (a : BitVec 5) (b : BitVec 5) (f : BitVec 2) (s : State) : Host.Outcome State Fault Refusal :=
  finish s (queueLimit (issue (.div g d a b f) g (bodyDiv d a b f) s))
/-- BCNT issued by itself (R148). -/
def execBcnt (g : BitVec 4) (d : BitVec 5) (a : BitVec 5) (f : BitVec 6) (s : State) : Host.Outcome State Fault Refusal :=
  finish s (queueLimit (issue (.bcnt g d a f) g (bodyBcnt d a f) s))
/-- EXT issued by itself (R149). -/
def execExt (g : BitVec 4) (d : BitVec 5) (a : BitVec 5) (l : BitVec 5) (p : BitVec 6) (s : State) : Host.Outcome State Fault Refusal :=
  finish s (queueLimit (issue (.ext g d a l p) g (bodyExt d a l p) s))
/-- INS issued by itself (R149). -/
def execIns (g : BitVec 4) (d : BitVec 5) (a : BitVec 5) (l : BitVec 5) (p : BitVec 6) (s : State) : Host.Outcome State Fault Refusal :=
  finish s (queueLimit (issue (.ins g d a l p) g (bodyIns d a l p) s))
/-- EXTS issued by itself (R149). -/
def execExts (g : BitVec 4) (d : BitVec 5) (a : BitVec 5) (l : BitVec 5) (p : BitVec 6) (s : State) : Host.Outcome State Fault Refusal :=
  finish s (queueLimit (issue (.exts g d a l p) g (bodyExts d a l p) s))
/-- CRC8 issued by itself (R150). -/
def execCrc8 (g : BitVec 4) (d : BitVec 5) (a : BitVec 5) (b : BitVec 5) (n : BitVec 3) (s : State) : Host.Outcome State Fault Refusal :=
  finish s (queueLimit (issue (.crc8 g d a b n) g (bodyCrc8 d a b n) s))
/-- RNG issued by itself (R151). -/
def execRng (g : BitVec 4) (d : BitVec 5) (a : BitVec 5) (b : BitVec 5) (h : BitVec 1) (s : State) : Host.Outcome State Fault Refusal :=
  finish s (queueLimit (issue (.rng g d a b h) g (bodyRng d a b h) s))

end Sys2Proof.Machine
end

