-- ==== Sys2Proof/Machine/Engine.lean ====
section
/-! DEFINITION. What every engine command shares: the captured state, shape records and their checks, the elements that it reads and
writes through bank formats, tag checks, watermarks and faulted halves (02 R50 to R59, R80, R81; 06 R195 to R202; 09 R287 to R292). -/

namespace Sys2Proof.Machine

/-! ### Captured state and bank formats -/

/-- What an engine command of a core captures at its issue (02 R53, 06 R188). -/
def Core.capture (c : Core) : Capture := ⟨c.ctl.bfmt, c.ctl.srctl, c.ctl.ovf, c.ctl.detl, c.ctl.seed, c.ctl.lid, c.ctl.qcount⟩

/-- The format register of the bank of a scratchpad address. -/
def bankWord (bf : Vector Word 8) (a : Nat) : Word := bf.toList.getD (a / 0x100000 % 8) 0

/-- FMT of a format register. -/
def fmtCode (v : Word) : Nat := (v.extractLsb' 0 6).toNat
/-- SCALE of a format register. -/
def fmtScale (v : Word) : Int := (v.extractLsb' 6 8).toInt
/-- RND of a format register. -/
def fmtRnd (v : Word) : Nat := (v.extractLsb' 14 2).toNat

/-- The element width of a format code; none where it is reserved. -/
def codeBits (code : Nat) : Option Nat := (fmtOf code).map Fmt.bits

/-- Whether a format is tapered. -/
def Fmt.isTapered : Fmt → Bool
  | .tapered _ _ => true
  | _ => false

/-- The quire that a format reads into, as n of Q(16n): T6 and T8 into Q128, T16 into Q256, T32 into Q512, a quire into its own (02 R69). -/
def Fmt.quireOf : Fmt → Option Nat
  | .tapered n _ => some (if n = 6 then 8 else n)
  | .quire n => some n
  | _ => none

/-! ### Shape records (06 R195, R196) -/

/-- The fields of a shape record; ndim counts the dimensions used. -/
structure Shape where
  base : Nat
  rsv : Nat
  chan : Bool
  pack : Bool
  ndim : Nat
  counts : List Nat
  strides : List Int
  delta : Int
  deriving DecidableEq, Repr

/-- The fields of a 256-bit shape record. -/
def Shape.of (v : BitVec 256) : Shape :=
  let f := bitsOf v.toNat
  let st (hi lo : Nat) := sextOf (f hi lo) 32
  { base := f 22 0, rsv := f 27 23, chan := f 28 28 == 1, pack := f 29 29 == 1, ndim := f 31 30 + 1,
    counts := [f 79 64, f 95 80, f 111 96, f 127 112],
    strides := [st 63 32, st 159 128, st 191 160, st 223 192], delta := st 255 224 }

/-- The used dimensions: count and stride in bits, for elements of w bits. -/
def Shape.dims (h : Shape) (w : Nat) : List (Nat × Int) :=
  (List.range h.ndim).map fun k =>
    (h.counts.getD k 0, if k = 0 ∧ h.pack then (w : Int) else 8 * h.strides.getD k 0)

/-- The element count N (06 R195). -/
def Shape.total (h : Shape) : Nat := (h.counts.take h.ndim).foldl (· * ·) 1

/-- The bit address of element n in repetition rep (06 R196, R216). -/
def Shape.bitAt (h : Shape) (w rep n : Nat) : Int :=
  8 * ((h.base : Int) + rep * h.delta) + dimOffset (h.dims w) n

/-- The address of element 0 in repetition rep (06 R216). -/
def Shape.start (h : Shape) (rep : Nat) : Nat := ((h.base : Int) + rep * h.delta).toNat

/-- The element width in repetition rep: that of the bank of element 0 there; a checked hull has one width (06 R196, R198 cause 5). -/
def Shape.width (h : Shape) (bf : Vector Word 8) (rep : Nat := 0) : Nat := (codeBits (fmtCode (bankWord bf (h.start rep)))).getD 8

/-- The hull of a record over repetitions r0 to r1, as bytes [lo, hi) (06 R190). -/
def Shape.hull (h : Shape) (w r0 r1 : Nat) : Int × Int :=
  let spans := (h.dims w).map fun (c, st) => ((c : Int) - 1) * st
  let lo := spans.foldl (fun z x => z + min 0 x) 0
  let hi := spans.foldl (fun z x => z + max 0 x) 0
  let b0 := 8 * ((h.base : Int) + r0 * h.delta)
  let b1 := 8 * ((h.base : Int) + r1 * h.delta)
  ((min b0 b1 + lo) / 8, (max b0 b1 + hi + w + 7) / 8)

/-- Every element address is a multiple of the element size, over repetitions r0 to r1 (02 R51). -/
def Shape.aligned (h : Shape) (w r0 r1 : Nat) : Bool :=
  let z : Int := w / 8
  w < 8 || (decide (((h.base : Int) + r0 * h.delta) % z = 0) && (r1 == r0 || decide (h.delta % z = 0)) &&
    (h.dims w).all fun (c, st) => decide (c ≤ 1) || decide (st % (8 * z) = 0))

/-- Bytes [lo, hi) lie in the scratchpad and inside the carve-out's banks (06 R198, 13 R378). -/
def Core.hullIn (c : Core) (lo hi : Int) : Bool := decide (0 ≤ lo) && decide (hi ≤ 0x800000) && c.inside lo.toNat (hi - lo).toNat

/-- Bytes [lo, hi) name an address of half 1 of a mapped entry (09 R287). -/
def Core.namesAlt (c : Core) (lo hi : Int) : Bool :=
  c.pmap.toList.any fun e => e.v && decide ((64 * e.alt : Int) < hi) && decide (lo < 64 * (e.alt + e.len))

/-- The bytes [lo, hi) of an engine command are its own to use: in the scratchpad and the carve-out, and in no half 1 (06 R198, 09 R287). -/
def Core.hullOk (c : Core) (lo hi : Int) : Bool := c.hullIn lo hi && !c.namesAlt lo hi

/-- The fault of an engine command whose block of n bytes, at an address that a register holds, lies outside the scratchpad or the
carve-out (operand 7), or names half 1 (a shape fault of cause 3, 09 R287). -/
def Core.blockFault (c : Core) (a n : Nat) : Option (Nat × Nat) :=
  if ¬ c.hullIn a (a + n : Nat) then some (0x02, 7) else if c.namesAlt a (a + n : Nat) then some (0x0E, 3) else none

/-- The same for a command of the executing agent: a skiff, whose codes have no shape fault, takes its access fault with the block's address where
the block names half 1 (05 R184; DEDUCED, log 68). -/
def State.blockFault (s : State) (a n : Nat) : Option (Nat × Nat) :=
  match s.own.blockFault a n, s.cur.agent with
  | some (0x0E, _), .skiff _ _ => some (0x0B, a)
  | f, _ => f

/-- The first failed check of a shape operand (06 R198), code and DETAIL: operand number, repetitions, whether the instruction's count
rule is broken (cause 4), whether a destination overlaps a source with another record (cause 8). chan: the operand names a channel. -/
def Shape.fault (h : Shape) (c : Core) (bf : Vector Word 8) (opn r0 r1 : Nat) (bad4 bad8 : Bool) : Option (Nat × Nat) :=
  let cause (n : Nat) : Option (Nat × Nat) := some (0x0E, opn * 256 + n)
  let code := fmtCode (bankWord bf (h.start r0))
  let w := h.width bf r0
  let (lo, hi) := h.hull w r0 r1
  let banks := (List.range ((hi.toNat - 1) / 0x100000 + 1 - lo.toNat / 0x100000)).map fun i => (lo.toNat / 0x100000 + i) * 0x100000
  if (h.counts.take h.ndim).contains 0 then cause 1
  else if h.rsv ≠ 0 ∨ (h.chan ∧ h.base / 2 ^ 16 ≠ 0) then cause 2
  else if ¬ c.hullOk lo hi then cause 3
  else if banks.any fun b => (fmtOf (fmtCode (bankWord bf b))).isNone then some (0x02, opn)
  else if bad4 then cause 4
  else if banks.any fun b => codeBits (fmtCode (bankWord bf b)) ≠ some w then cause 5
  else if w < 8 ∧ 1 < banks.length then cause 6
  else if code = 0x09 ∧ (h.counts.getD 0 0 % 4 ≠ 0 ∨ ¬ h.pack) then (if bad8 ∧ h.pack then cause 8 else if h.chan ∧ h.pack then cause 9 else cause 10)
  else if w < 8 ∧ ¬ h.pack then cause 7
  else if bad8 then cause 8
  else if h.chan then cause 9
  else if ¬ h.aligned w r0 r1 then some (0x02, opn)
  else none

/-- The hull of a checked shape, as bytes of the scratchpad. -/
def Shape.range (h : Shape) (bf : Vector Word 8) (r0 r1 : Nat) : Nat × Nat :=
  let (lo, hi) := h.hull (h.width bf r0) r0 r1
  (lo.toNat, hi.toNat)

/-- Records of one array: identical in BASE, NDIM, PACK, COUNT and STRIDE fields (06 R198 cause 8). -/
def Shape.same (h k : Shape) : Bool :=
  h.base == k.base && h.ndim == k.ndim && h.pack == k.pack && h.counts == k.counts && h.strides == k.strides

/-! ### Reading elements -/

/-- Stored bits at a bit address of a core's scratchpad, through the visible half. -/
def readField (s : State) (p b w : Nat) : Nat := readSpad s p (b / 8) ((b % 8 + w + 7) / 8) / 2 ^ (b % 8) % 2 ^ w

/-- Whether any word under a field is poisoned. -/
def fieldPoison (s : State) (p b w : Nat) : Bool :=
  (List.range ((b % 8 + w + 7) / 8)).any fun i => s.poisoned (spadBase p + (s.core p).visible (b / 8 + i))

/-- The scaling of a decode or an encode (02 R54). -/
def scaleOf (v : Word) : Int :=
  match fmtOf (fmtCode v) with
  | some f => if f.scaled then fmtScale v else 0
  | none => 0

/-- The value of stored bits under a format register. -/
def decodeBits (v : Word) (raw : Nat) : Val :=
  match fmtOf (fmtCode v) with
  | some f => (decodeFmt f raw).scale (scaleOf v)
  | none => .zero false

/-- Where the stored bits of element n stand: bit address and width; for an I4O element those of its granule (02 R58). -/
def Shape.field (h : Shape) (bf : Vector Word 8) (rep n : Nat) : Nat × Nat :=
  let w := h.width bf rep
  let b := (h.bitAt w rep n).toNat
  if fmtCode (bankWord bf (b / 8)) = 0x09 then (b - 4 * (n % h.counts.getD 0 1 % 4), 16) else (b, w)

/-- Element n of an array from its stored bits, decoded through the format register of its bank; an I4O element by its granule (02 R53, R58). -/
def Shape.elt (h : Shape) (bf : Vector Word 8) (rep n raw : Nat) (poison : Bool) : Elt :=
  let v := bankWord bf ((h.field bf rep n).1 / 8)
  if fmtCode v = 0x09 then
    let i := n % h.counts.getD 0 1 % 4
    let (x, k) := granuleElt raw i
    { raw := raw / 2 ^ (4 * i) % 16, val := x.scale (scaleOf v), poison := poison, anom := k }
  else { raw := raw, val := decodeBits v raw, poison := poison }

/-- Element n of an array as it stands. -/
def readElt (s : State) (p : Nat) (bf : Vector Word 8) (h : Shape) (rep n : Nat) : Elt :=
  let (b, w) := h.field bf rep n
  h.elt bf rep n (readField s p b w) (fieldPoison s p b w)

/-- Whether an engine access may go on now, must wait, or faults (09 R273, R274, R291, R292). -/
inductive Gate where
  | go
  | wait
  | fault (code detail : Nat)
  deriving DecidableEq, Repr

/-- An engine read of bytes [a, a + n) of a core's scratchpad: a faulted half, a faulted or late watermark. -/
def readGate (c : Core) (a n : Nat) : Gate :=
  match c.halfFault a n with
  | some src => .fault 0x07 src
  | none => match c.watermark a n with
    | some (some f) => .fault 0x07 f
    | some none => .wait
    | none => .go

/-- The outcome of a check of stamped tags: the first that is not equal waits if it is late, else faults (09 R291). -/
def tagGate (s : State) (p : Nat) : List (Nat × Nat) → Gate
  | [] => .go
  | (h, tag) :: rest =>
    let e := (s.core (s.coreAt p (h / 16))).pmap.toList.getD (h % 16) {}
    let stamp := if e.v then e.tag else 0
    let late := (tag + 2 ^ 32 - stamp) % 2 ^ 32
    if late = 0 then tagGate s p rest else if late ≤ 0x7FFFFFFF then .wait else .fault 0x04 (tagDetail tag stamp)

/-- The check of a tag is of a handle whose name range meets some ranges. Ranges name bytes by their core's base and address. -/
def tagMeets (s : State) (p : Nat) (ranges : List (Nat × Nat)) (x : Nat × Nat) : Bool :=
  let q := s.coreAt p (x.1 / 16)
  let e := (s.core q).pmap.toList.getD (x.1 % 16) {}
  e.v && ranges.any fun r => overlaps r (spadBase q + 64 * e.base) (spadBase q + 64 * (e.base + e.len))

/-- A check that a command has consumed is made with its first read of some ranges: its handle's name range meets them, or the handle is mapped no more, which
counts as a stamp of 0 (09 R291). -/
def tagFalls (s : State) (p : Nat) (ranges : List (Nat × Nat)) (x : Nat × Nat) : Bool :=
  !((s.core (s.coreAt p (x.1 / 16))).pmap.toList.getD (x.1 % 16) {}).v || tagMeets s p ranges x

/-- The checks that a command consumes at its issue: those of handles whose name range meets a source range (09 R290). -/
def consumeTags (s : State) (p : Nat) (ranges : List (Nat × Nat)) : List (Nat × Nat) × State :=
  let hit := tagMeets s p ranges
  ((s.core p).expects.filter hit, s.modCore p fun c => { c with expects := c.expects.filter fun x => !hit x })

/-! ### Decoding into a compute format (02 R81, 06 R200) -/

/-- A value in a compute format: 0 F64, 1 F32, 2 I64, 3 I32, 4 quire; and the anomalies counted. -/
def toCompute (k : Nat) (v : Val) : Val × Nat :=
  match k with
  | 0 => (decodeFloat f64 (encodeCompute f64 v), 0)
  | 1 => (decodeFloat f32 (encodeCompute f32 v), 0)
  | 2 => let (b, n) := encodeInt true 64 0 0 0 v; (Val.ofInt (sextOf b 64), n)
  | 3 => let (b, n) := encodeInt true 32 0 0 0 v; (Val.ofInt (sextOf b 32), n)
  | _ => (v, 0)

/-- An exact value rounded or wrapped into a compute format. -/
def roundIn (k : Nat) (v : Val) : Val :=
  match k with
  | 0 => decodeFloat f64 (encodeCompute f64 v)
  | 1 => decodeFloat f32 (encodeCompute f32 v)
  | 2 => Val.ofInt (sextOf (wrapTo 64 (roundInt 1 0 v)) 64)
  | 3 => Val.ofInt (sextOf (wrapTo 32 (roundInt 1 0 v)) 32)
  | _ => v

/-- Whether a source bank may be read into the quire of width n: a tapered format of that quire without scale, or that quire (02 R54, R81). -/
def quireSource (v : Word) (n : Nat) : Bool :=
  match fmtOf (fmtCode v) with
  | some (.tapered m _) => (if m = 6 then 8 else m) == n && fmtScale v == 0
  | some (.quire m) => m == n
  | _ => false

/-! ### Writing elements -/

/-- Output word 0 of the counter generator for element e of a command (02 R80). -/
def stochWord (cap : Capture) (e : Nat) : Nat :=
  let c0 := ((cap.srctl.extractLsb' 32 32).toNat + e) % 2 ^ 32
  let c1 := (cap.srctl.extractLsb' 16 16).toNat
  let keyed := cap.srctl.extractLsb' 0 2 == 1
  (philox 10 (bitsOf cap.seed.toNat 31 0, bitsOf cap.seed.toNat 63 32)
    (c0, c1, if keyed then cap.lid else 0, if keyed then cap.qcount else 0)).1

/-- A command that encodes through a STOCH bank: KMODE 2 or 3 is an illegal operand, KMODE 1 breaks D2 and D3 (02 R80). -/
def stochFault (cap : Capture) (opn detail6 : Nat) : Option (Nat × Nat) :=
  let m := (cap.srctl.extractLsb' 0 2).toNat
  if 2 ≤ m then some (0x02, opn)
  else if m = 1 ∧ 2 ≤ (cap.detl.extractLsb' 0 2).toNat then some (0x06, detail6) else none

/-- Some bank of bytes [lo, hi) rounds stochastically. -/
def anyStoch (bf : Vector Word 8) (r : Nat × Nat) : Bool :=
  (List.range ((r.2 - 1) / 0x100000 + 1 - r.1 / 0x100000)).any fun i => fmtRnd (bankWord bf (r.1 + i * 0x100000)) == 3

/-- A value encoded through a format register, with a rounding mode of its own where one is given (02 R54, R72): bits and anomalies. -/
def encodeVia (cap : Capture) (v : Word) (mode : Option Nat) (e : Nat) (x : Val) : Nat × Nat :=
  let m := mode.getD (fmtRnd v)
  encodeFmt (fmtCode v) m (if m = 3 then stochWord cap e else 0) cap.ovf (x.scale (-(scaleOf v)))

/-- The writes of a field of w bits at bit address b of a core's scratchpad, through the shadow half: one for whole bytes,
one for each byte of a packed element. -/
def fieldWrs (c : Core) (p b w val : Nat) (poison : Bool) : List Wr :=
  if w % 8 = 0 ∧ b % 8 = 0 then [⟨spadBase p + c.shadow (b / 8), 0, w, val, poison⟩]
  else (List.range ((b % 8 + w + 7) / 8)).map fun i =>
    let sh := if i = 0 then b % 8 else 0
    let done := if i = 0 then 0 else 8 * i - b % 8
    let n := Nat.min (8 - sh) (w - done)
    ⟨spadBase p + c.shadow (b / 8 + i), sh, n, val / 2 ^ done % 2 ^ n, poison⟩

/-- The bytes that a write touches. -/
def Wr.bytes (r : Wr) : Nat := (r.sh + r.w + 7) / 8

/-- The sub-bank words that some writes take. -/
def writeNeed (ws : List Wr) : Held :=
  ws.flatMap fun r => match spadOwner r.pa with
    | some q => (subWords (r.pa - spadBase q) r.bytes).map fun w => (q, w, true)
    | none => []

/-- How many bits of a byte a write covers. -/
def Wr.covers (r : Wr) (a : Nat) : Nat :=
  let lo := 8 * r.pa + r.sh
  Nat.min (8 * a + 8) (lo + r.w) - Nat.max (8 * a) lo

/-- The writes of a command perform, in order: a write by `w` of bytes, and its poison. The poison of the words that the writes together cover whole
is cleared before them; a word then is poisoned by a poisoned write, and clear after a later write of all of it (15 R415).
own: the writer is the primary of the core that holds the bytes. -/
def State.performBy (s : State) (w : Writer) (own : Bool) (ws : List Wr) : State :=
  let touched := ws.flatMap fun r => wordsOf r.pa r.bytes
  let whole := touched.filter fun x => (List.range 8).all fun i => decide (8 ≤ ws.foldl (fun n r => n + r.covers (8 * x + i)) 0)
  let s := { s with poison := whole.foldl delWord s.poison }
  ws.foldl (fun s r =>
    let s := s.writeBy w own r.pa (putBits (s.read r.pa r.bytes) r.sh r.w r.val) r.bytes
    if r.poison then s.setPoison r.pa r.bytes else s) s

/-- The writes of a command to scratchpads, which no memory-side cache keeps. -/
def State.perform (s : State) (own : Bool) (ws : List Wr) : State := s.performBy .other own ws

/-- Whether an array's elements go by granules in repetition rep (02 R59). -/
def Shape.granular (h : Shape) (bf : Vector Word 8) (rep : Nat) : Bool := fmtCode (bankWord bf (h.start rep)) == 0x09

/-- The values of an array's elements from n0 on encoded and laid out: writes and anomalies. I4O elements go by granules, of which the last may be cut
short (02 R59, 06 R222). e0: the index e of element 0 (06 R202). -/
def encodeArray (c : Core) (p : Nat) (cap : Capture) (h : Shape) (rep e0 : Nat) (mode : Option Nat) (xs : List (Val × Bool)) (n0 : Nat := 0) :
    List Wr × Nat :=
  let w := h.width cap.bfmt rep
  let x (i : Nat) := xs.getD i (.zero false, false)
  let at_ (n : Nat) := (h.bitAt w rep (n0 + n)).toNat
  if h.granular cap.bfmt rep then
    (((List.range (ceilDiv xs.length 4)).map fun j =>
      let v := bankWord cap.bfmt (at_ (4 * j) / 8)
      let m := mode.getD (fmtRnd v)
      let g := encodeGranule m (ovfEntry cap.ovf 0x14) ((List.range 4).map fun i =>
        ((x (4 * j + i)).1.scale (-(scaleOf v)), if m = 3 then stochWord cap (e0 + n0 + 4 * j + i) else 0))
      (granuleFields g (xs.length - 4 * j)).flatMap fun (o, k) =>
        fieldWrs c p (at_ (4 * j) + o) k (g / 2 ^ o % 2 ^ k) ((List.range 4).any fun i => (x (4 * j + i)).2)).flatten, 0)
  else
    let rs := (List.range xs.length).map fun n =>
      let b := at_ n
      let (bits, k) := encodeVia cap (bankWord cap.bfmt (b / 8)) mode (e0 + n0 + n) (x n).1
      (fieldWrs c p b w bits (x n).2, k)
    ((rs.map (·.1)).flatten, rs.foldl (fun n r => n + r.2) 0)

/-- The stored bits of an array's elements from n0 on laid out without conversion. -/
def rawArray (c : Core) (p : Nat) (bf : Vector Word 8) (h : Shape) (rep : Nat) (xs : List (Nat × Bool)) (n0 : Nat := 0) : List Wr :=
  let w := h.width bf rep
  ((List.range xs.length).map fun n =>
    let x := xs.getD n (0, false)
    fieldWrs c p (h.bitAt w rep (n0 + n)).toNat w (x.1 % 2 ^ w) x.2).flatten

/-- Anomalies added to FANOM, which stops at its largest value (02 R82). -/
def addFanom (s : State) (p n : Nat) : State :=
  s.modCore p fun c => { c with ctl := { c.ctl with fanom := Nat.min 0xFFFFFFFF (c.ctl.fanom + n) } }

/-! ### Commands in flight -/

/-- A command enters its core's list of commands in flight; its number, and the state. -/
def launch (s : State) (p : Nat) (e : Engine) (oc : Nat) (reads writes : List (Nat × Nat)) : Nat × State :=
  let n := (s.core p).nextFlight
  (n, s.modCore p fun c => { c with nextFlight := n + 1, flight := c.flight ++ [{ id := n, engine := e, oc := oc, reads := reads, writes := writes, area := reads }] })

/-- A command's reads, or all of it, have performed. -/
def readsDone (s : State) (p id : Nat) : State :=
  s.modCore p fun c => { c with flight := c.flight.map fun f => if f.id = id then { f with reads := [] } else f }

/-- A command has completed. -/
def landed (s : State) (p id : Nat) : State :=
  s.modCore p fun c => { c with flight := c.flight.filter fun f => f.id ≠ id }

/-- Two sets of ranges share a byte. -/
def meet (a b : List (Nat × Nat)) : Bool := a.any fun r => b.any fun q => overlaps r q.1 q.2

/-! ### The halves that a command keeps to (01 R44, 09 R288) -/

/-- The entries of core q whose name range meets named bytes [lo, hi), with the half that each shows. -/
def halvesAt (s : State) (lo hi : Nat) : Halves :=
  match spadOwner lo with
  | none => []
  | some q => (List.range 16).filterMap fun i =>
      let e := (s.core q).pmap.toList.getD i {}
      if e.v ∧ overlaps (spadBase q + 64 * e.base, spadBase q + 64 * (e.base + e.len)) lo hi then some (q, i, e.vis) else none

/-- A command accesses named ranges: the handles there that it had not accessed are fixed as they stand. -/
def Halves.fix (s : State) (hs : Halves) (rs : List (Nat × Nat)) : Halves :=
  rs.foldl (fun hs r => hs ++ (halvesAt s r.1 r.2).filter fun x => !hs.any fun y => y.1 == x.1 && y.2.1 == x.2.1) hs

/-- The halves that a handle shows. -/
def Core.setVis (c : Core) (i : Nat) (v : Bool) : Core := c.setPmap i { c.pmap.toList.getD i {} with vis := v }

/-- The state as a command sees it: the handles it has fixed show the halves it keeps to. -/
def State.seen (s : State) (hs : Halves) : State := hs.foldl (fun s h => s.modCore h.1 (·.setVis h.2.1 h.2.2)) s

/-- A command has changed the state as it sees it, t: the handles it had fixed show again what they show in s. -/
def State.unseen (s : State) (hs : Halves) (t : State) : State :=
  hs.foldl (fun t h => t.modCore h.1 (·.setVis h.2.1 ((s.core h.1).pmap.toList.getD h.2.1 {}).vis)) t

/-- The used dimensions of a handle walk in bits, for elements of w bits: dimension 0 of a packed element is dense (09 R278). -/
def HandleWalk.dims (h : HandleWalk) (w : Nat) : List (Nat × Int) :=
  (List.range h.counts.length).map fun k => (h.counts.getD k 0, if k = 0 ∧ w < 8 then (w : Int) else 8 * h.strides.getD k 0)

/-- A command's writes to a handle become known with the handle's entry, as its home core has it mapped (09 R279, R281). bf: the home's formats. -/
def Flight.resolve (f : Flight) (home : Core) (bf : Vector Word 8) : Flight :=
  match f.handle with
  | none => f
  | some h =>
    let e := home.pmap.toList.getD h.entry {}
    let o : Int := 64 * e.base + h.ofs
    let code := fmtCode (bankWord bf o.toNat)
    let w := (codeBits code).getD 8
    let dims := h.dims w
    let spans := dims.map fun (c, st) => ((c : Int) - 1) * st
    let lo := o + spans.foldl (fun z x => z + min 0 x) 0 / 8
    let hi := o + (spans.foldl (fun z x => z + max 0 x) 0 + w + 7) / 8
    if ¬ e.v then f
    else { f with
      handle := none
      writes := [(spadBase h.core + lo.toNat, spadBase h.core + hi.toNat)]
      sink := some { bit := 8 * o, width := w, dims := dims, total := (h.counts.foldl (· * ·) 1), group := if h.conv ∧ code = 0x09 then 4 else 1,
                     parts := [(0, spadBase h.core)] } }

/-- Entry n of core p has been mapped: what the commands in flight write there is known (09 R281). -/
def State.resolveFlights (s : State) (p n : Nat) : State :=
  let waits (f : Flight) : Bool := f.handle.any fun h => h.core == p && h.entry == n
  { s with cores := s.cores.map fun (k, c) =>
      (k, if c.flight.any waits then { c with flight := c.flight.map fun f => if waits f then f.resolve (s.core p) (s.core p).ctl.bfmt else f } else c) }

/-- Two commands run in order in one engine: both of the sequencer, or both of the array. -/
def Engine.inOrder (a b : Engine) : Bool :=
  let array (e : Engine) : Bool := e == .array || e == .stepping
  (a == .vector && b == .vector) || (array a && array b)

/-- An earlier access of the issuing core in the command's class that the command must wait for (01 R34): a command of another
engine (or of its own, unless that runs its commands in order), or a port's walk, with an overlapping buffer; a remote access of the class. A Lighter command
waits for all of them, whatever their buffers (09 R281). A refill's writes and the reads of its ring are ordered by the watermark alone (R273). -/
def Core.blocked (c : Core) (p id oc : Nat) (engine : Engine) (reads writes : List (Nat × Nat)) : Bool :=
  let refill := engine == .stream
  c.flight.any (fun f => decide (f.id < id) && f.oc == oc && !engine.inOrder f.engine &&
    ((if f.engine == .stream then writes else reads ++ writes).any (fun r => f.writing r.1 r.2) ||
      (!refill && writes.any fun r => f.reading r.1 r.2)))
    || (!refill && c.ports.any fun q => q.bound && q.desc.oc == oc && decide (q.seq < id) && writes.any fun r => q.touches (spadBase p + ·) r.1 r.2)
    || c.remotes.any (fun r => r.result.isNone && r.oc == oc && decide (r.seq < id))
    || (engine == .lighter && (c.flight.any (fun f => decide (f.id < id) && f.oc == oc && f.unperformed) ||
      c.ports.any fun q => q.bound && q.desc.oc == oc && decide (q.seq < id) && decide (q.fetched < q.total)))

/-- Ranges of a core's scratchpad as named bytes. -/
def named (p : Nat) (rs : List (Nat × Nat)) : List (Nat × Nat) := rs.map fun r => (spadBase p + r.1, spadBase p + r.2)

end Sys2Proof.Machine
end

