-- ==== Sys2Proof/Machine/Landing.lean ====
section
/-! DEFINITION. The end of a core's cycle: results land, the loop hardware acts, deferred writes take effect (03 R96 to R98, R105),
and the end of a halted primary (03 R112). -/

namespace Sys2Proof.Machine

/-! ### Results -/

/-- A queue entry is filled (04 R127). -/
def fillEntry (l : List QEntry) (id : Nat) (v : Word) : List QEntry :=
  l.map fun e => if e.id = id then { e with val := some v } else e

/-- One result lands in its bound destination (03 R98); g0, c14 and the reserved bits of skp hold nothing. -/
def Core.landOne (c : Core) (d : Dest) (v : Word) : Core :=
  match d with
  | .a i => { c with files := { c.files with a := c.files.a.set i.toNat v i.isLt } }
  | .x i => { c with files := { c.files with x := c.files.x.set i.toNat v i.isLt } }
  | .f i => { c with files := { c.files with f := c.files.f.set i.toNat v i.isLt } }
  | .m i => { c with files := { c.files with m := c.files.m.set i.toNat v i.isLt } }
  | .c i =>
    let v := if i = 15 then v &&& 0xFE else v
    if i = 14 then c else { c with files := { c.files with c := c.files.c.set i.toNat v i.isLt } }
  | .g i => { c with files := { c.files with g := c.files.g.set i.toNat (v.getLsbD 0) i.isLt } }
  | .h i q =>
    let old := c.h i
    let m : BitVec 256 := (BitVec.allOnes 64).zeroExtend 256 <<< (64 * q.toNat)
    let new := (old &&& ~~~m) ||| (v.zeroExtend 256 <<< (64 * q.toNat))
    { c with files := { c.files with h := c.files.h.set i.toNat new i.isLt } }
  | .lq e => { c with queues := { c.queues with lq := fillEntry c.queues.lq e v } }
  | .sq e => { c with queues := { c.queues with sq := fillEntry c.queues.sq e v } }

/-- Whether a destination is a load-queue entry. -/
def Dest.isLq : Dest → Bool
  | .lq _ => true
  | _ => false

/-- Every result that is due and that a test selects lands, in issue order, so that the later-issued write is kept (03 R97). -/
def Core.landDue (c : Core) (sel : Dest → Bool) : Core :=
  let due (r : Pend) : Bool := decide (r.due ≤ c.run.t) && sel r.dest
  let c' := (sortBy (fun x y => decide (x.issue ≤ y.issue)) (c.pipe.pend.filter due)).foldl (fun c r => c.landOne r.dest r.val) c
  { c' with pipe := { c'.pipe with pend := c.pipe.pend.filter (!due ·) } }

/-! ### Loop-back (03 R105) -/

/-- The a1–a15 of a core after the update table of a level is applied. -/
def Core.applyUpd (c : Core) (n : Nat) : Core :=
  let upd := (c.pipe.loops.toList.getD n {}).upd
  { c with files := { c.files with a := (List.range 15).foldl (fun v k =>
      v.setIfInBounds (k + 1) (v.toList.getD (k + 1) 0 + (upd.toList.getD (k + 1) 0).signExtend 64)) c.files.a } }

/-- One rotation: the bases move, the stage predicates shift, g8 takes the given value (03 R105). -/
def Core.rotate (c : Core) (first : Bool) : Core :=
  let g := c.files.g
  let g' := (List.range 7).foldl (fun v k => v.setIfInBounds (15 - k) (g.toList.getD (14 - k) false)) g
  { c with
    files := { c.files with g := g'.setIfInBounds 8 first }
    pipe := { c.pipe with xb := (c.pipe.xb + 1) % 14, fb := (c.pipe.fb + 1) % 14, ab := (c.pipe.ab + 1) % 16 } }

/-- A c-register replaced at once. -/
def Core.setC (c : Core) (i : Nat) (v : Word) : Core := { c with files := { c.files with c := c.files.c.setIfInBounds i v } }

/-- Control goes back to the start of a level's body. -/
def Core.loopTo (c : Core) (n : Nat) : Core :=
  { c with fetch := { c.fetch with pc := (c.pipe.loops.toList.getD n {}).start, fell := false } }

/-- The loop-back action of a LEND bundle of active level n that took no branch (03 R105). -/
def Core.loopBack (c : Core) (n : Nat) : Core :=
  let lc := c.files.c.toList.getD (8 + n) 0
  let ec := c.files.c.toList.getD 12 0
  let close (c : Core) : Core := { c with pipe := { c.pipe with
    loops := c.pipe.loops.setIfInBounds n { c.pipe.loops.toList.getD n {} with active := false } } }
  if lc ≠ 0 then
    let c := (c.setC (8 + n) (lc - 1)).applyUpd n
    (if n = 0 then c.rotate true else c).loopTo n
  else if n = 0 ∧ 1 < ec.toNat then (((c.setC 12 (ec - 1)).applyUpd n).rotate false).loopTo n
  else if n = 0 ∧ ec = 1 then close (((c.setC 12 0).applyUpd n).rotate false)
  else close c

/-! ### Deferred writes (03 R98, R103, R104, R115) -/

/-- lset at the end of its cycle (03 R103). -/
def Core.lset (c : Core) (l : BitVec 2) (count : Word) (start : Nat) : Core :=
  let n := l.toNat
  let c := c.setC (8 + n) count
  let loop := { c.pipe.loops.toList.getD n {} with start := start, active := true }
  let c := { c with pipe := { c.pipe with loops := c.pipe.loops.setIfInBounds n loop } }
  if n = 0 then { c with files := { c.files with g := (List.range 8).foldl (fun v k => v.setIfInBounds (8 + k) (k == 0)) c.files.g } }
  else c

/-- lupd at the end of its cycle (03 R104). -/
def Core.lupd (c : Core) (l : BitVec 2) (a : BitVec 4) (d : BitVec 32) : Core :=
  let loop := c.pipe.loops.toList.getD l.toNat {}
  { c with pipe := { c.pipe with loops := c.pipe.loops.setIfInBounds l.toNat { loop with upd := loop.upd.setIfInBounds a.toNat d } } }

/-- A control register of a core written by cset (03 R115), or a monitor's MCFG, whose write clears the monitor (14 R400). -/
def Core.cset (c : Core) (n : Nat) (v : Word) : Core :=
  let k := c.ctl
  if n = 0x0B then { c with ctl := { k with srctl := v } }
  else if n = 0x04 then { c with ctl := { k with seed := v } }
  else if n = 0x07 then { c with ctl := { k with ovf := v } }
  else if n = 0x08 then { c with ctl := { k with landb := v.toNat } }
  else if 0x10 ≤ n ∧ n ≤ 0x17 then { c with ctl := { k with bfmt := k.bfmt.setIfInBounds (n - 0x10) v } }
  else if 0xC0 ≤ n then { c with obs := { c.obs with monitors := c.obs.monitors.setIfInBounds ((n - 0xC0) / 16) { cfg := v } } }
  else c

/-- A context register of a helm core written by cset or ovfld (13 R366, R391). -/
def HelmRegs.cset (r : HelmRegs) (n : Nat) (v : Word) : HelmRegs :=
  if n = 0x102 then { r with ovfnext := v }
  else if n = 0x103 then { r with fring := v }
  else if 0x110 ≤ n ∧ n ≤ 0x117 then { r with carve := r.carve.setIfInBounds (n - 0x110) v }
  else r

/-- A publication of an entry (09 R289): the halves swap, the tag is stamped, the half that is now shadow is clean. -/
def Pmap.publish (e : Pmap) (tag : Nat) : Pmap :=
  let e := { e with vis := !e.vis, tag := tag }
  if e.vis then { e with f0 := false, fofs0 := 0, faddr0 := 0 } else { e with f1 := false, fofs1 := 0, faddr1 := 0 }

/-- Publications of a core's entries apply, in order, where the entry is mapped (09 R283, R289). -/
def Core.publishAll (c : Core) (l : List (Nat × Nat)) : Core :=
  l.foldl (fun c x => let e := c.pmap.toList.getD x.1 {}; if e.v then c.setPmap x.1 (e.publish x.2) else c) c

/-- The publications that have performed in a cycle take effect at its end, also in one that a hold freezes (09 R288). -/
def applySwaps (s : State) : State :=
  { s with cores := s.cores.map fun (x : Nat × Core) => if x.2.swaps.isEmpty then x else (x.1, { x.2.publishAll x.2.swaps with swaps := [] }) }

/-- pub.map at the end of its cycle (09 R286). -/
def Pmap.ofWord (v : Word) : Pmap :=
  { v := true, base := (v.extractLsb' 0 17).toNat, alt := (v.extractLsb' 17 17).toNat, len := (v.extractLsb' 34 17).toNat }

/-- One deferred write of core p. -/
def applyEnd (s : State) (p : Nat) (e : EndAct) : State :=
  match e with
  | .lset l n a => s.modCore p (·.lset l n a)
  | .lupd l a d => s.modCore p (·.lupd l a d)
  | .ctl n v => if 0x100 ≤ n then s.modHelm p (·.cset n v) else s.modCore p (·.cset n v)
  | .arm h tag => s.modCore p fun c => { c with expects := (c.expects.filter fun x => x.1 ≠ h) ++ [(h, tag)] }
  | .disarm h => s.modCore p fun c => { c with expects := c.expects.filter fun x => x.1 ≠ h }
  | .pub n tag => s.modCore p fun c => c.setPmap n ((c.pmap.toList.getD n {}).publish tag)
  | .map n v => (s.modCore p (·.setPmap n (Pmap.ofWord v))).resolveFlights p n
  | .unmap n => s.modCore p fun c => c.setPmap n { c.pmap.toList.getD n {} with v := false }
  | .close n => s.modCore p fun c => { c with wmc := c.wmc.setIfInBounds n { c.wmc.toList.getD n {} with act := false } }
  | .unbind n => s.modCore p fun c => { c with ports := c.ports.setIfInBounds n {} }

/-! ### The end of a part (03 R112, R118, R119) -/

/-- Every result of a halted primary has landed and every engine command of its core has completed. -/
def Core.quiet (c : Core) : Bool := c.pipe.pend.isEmpty && c.flight.isEmpty && c.remotes.isEmpty

/-- A task's return value reaches its parent, and its core becomes idle (03 R112, R119). -/
def endTask (s : State) (p : Nat) : State :=
  let c := s.core p
  let v := c.x 1
  let s := s.modCore p fun c => { c with run := { c.run with busy := false, halted := false } }
  match c.run.parent with
  | some q => s.modCore q fun d => { d with run := { d.run with
      children := d.run.children.map fun x => if x.1 = p ∧ x.2.isNone then (p, some v) else x } }
  | none => match c.run.sailing with
    | some n => s.modSailing n fun g => { g with retval := v }
    | none => s

/-- The samples that a cycle's monitors take (14 R400). -/
def Core.sampled (c : Core) : Core :=
  let q := c.vec.runs.filter (·.last)
  let open_ := (List.range 3).filter fun i => c.barrel.berths.getLsbD i
  let o := ((c.obs.sample 2 0 (BitVec.ofNat 64 c.queues.lq.length)).sample 3 0 (BitVec.ofNat 64 c.queues.sq.length)).sample 4 0
    (BitVec.ofNat 64 q.length)
  { c with obs := o.sample 6 0 (BitVec.ofNat 64 open_.length) }

/-- A wake recorder entry of core p for its cycle (14 R401). -/
def Core.wakeEntry (c : Core) : Nat :=
  let n := c.note
  n.occ + (if n.iss then 2 ^ 6 else 0) + (if n.skip then 2 ^ 7 else 0) + (if n.tland then 2 ^ 8 else 0) + n.grant.toNat * 2 ^ 9
    + c.barrel.berths.toNat * 2 ^ 12 + (if c.run.forfeited then 2 ^ 15 else 0) + n.stall % 32 * 2 ^ 16 + n.cost % 128 * 2 ^ 21

/-- Whether an armed recorder records cycle t (14 R402). -/
def Wake.records (w : Wake) (t : Nat) : Bool :=
  w.arm && (if w.mode then (match w.stop with | some u => decide (t ≤ u) | none => true)
    else decide (w.start ≤ t) && decide (t ≤ w.start + 65535))

/-- The recorder of core p's die takes core p's entry, and in mode 1 looks for its trigger (14 R401, R402). -/
def recordWake (s : State) (p : Nat) : State :=
  let d := dieOf p
  let w := (s.die d).wake
  let c := s.core p
  let t := c.run.t
  let s := s.modCore p fun c => { c with obs := { c.obs with now := 0 } }
  if isHelm p ∨ w.sailing.isNone ∨ c.run.sailing ≠ w.sailing ∨ quadOf p ≠ d * 24 + w.quad ∨ ¬ w.records t then s
  else
    let hit := w.mode && w.stop.isNone && (c.obs.now.getLsbD 0 || (w.trig != 0 && c.obs.now.getLsbD w.trig))
    (s.write false (dieBase d + 0x5100000 + 16 * (t % 65536) + 4 * (p % 4)) c.wakeEntry 4).modDie d fun r =>
      { r with wake := { w with last := t % 2 ^ 32, stop := if hit then some (t + 32768) else w.stop } }

/-- The end of core p's cycle: results, loop-back, the cycle's monitor samples unless a debug stop holds the core (14 R400), deferred writes, the skip bits' history,
the wake recorder's entry, and a halted task that has gone quiet. -/
def endCycle (s : State) (p : Nat) : State :=
  let s := s.modCore p fun c =>
    let c := c.landDue (!·.isLq)
    let c := match c.pipe.back with | some n => c.loopBack n.toNat | none => c
    { (if c.run.stopped = 2 ∨ c.dbg.held then c else c.sampled) with pipe := { c.pipe with back := none }, run := { c.run with closed := s.wall } }
  let acts := (s.core p).pipe.eoc
  let s := (acts.foldl (fun s e => applyEnd s p e) s).modCore p fun c =>
    { c with pipe := { c.pipe with eoc := [], sk2 := c.pipe.sk1, sk1 := (c.files.c.toList.getD 15 0).truncate 8 } }
  let s := recordWake s p
  let c := s.core p
  if c.run.halted ∧ ¬ c.run.faulted ∧ c.run.busy ∧ c.quiet then endTask s p else s

/-- RESULT_LANDING: the end of core p's cycle (03 R98). -/
def execResultLanding (p : Nat) (s : State) : Host.Outcome State Fault Refusal := .next (endCycle s p)

/-- LQ_FILL: the load-queue entries of core p whose data lands this cycle are filled (04 R127). -/
def execLqFill (p : Nat) (s : State) : Host.Outcome State Fault Refusal := .next (s.modCore p (·.landDue Dest.isLq))

end Sys2Proof.Machine
end

