-- ==== Sys2Proof/Machine/Sync.lean ====
section
/-! DEFINITION. Flags and fences (01 R35 to R37, R41, R42; 04 R137 to R141; 05 R172). -/

namespace Sys2Proof.Machine

/-- An earlier access of this core in a class of the mask has not performed: of an engine command, of a port's walk, a remote one. A command whose accesses have performed,
or that has none, is no matter here, complete or not (04 R141). -/
def Core.pending (c : Core) (mask : BitVec 16) : Bool :=
  c.flight.any (fun f => mask.getLsbD f.oc && f.unperformed)
    || c.ports.any (fun q => q.bound && mask.getLsbD q.desc.oc && decide (q.fetched < q.total))
    || c.remotes.any (fun r => r.result.isNone && mask.getLsbD r.oc)

/-- Any engine command of this core has not completed. -/
def Core.engineBusy (c : Core) : Bool :=
  !c.flight.isEmpty || c.ports.any (fun q => q.bound && decide (q.fetched < q.total))

/-- A result write of the special-function unit that a skiff's release or fence of a mask waits for (06 R220). -/
def Core.sfuOwes (c : Core) (j : BitVec 3) (mask : BitVec 16) : Bool := c.sfu.any fun q => q.ctx == some j && mask.getLsbD q.oc

/-- A command that context j has given to its die's sequence engine or Pilot, in a class of the mask, has not performed its accesses: these are the skiff's own
(01 R34, 11 R341). -/
def State.sqBusy (s : State) (p : Nat) (j : BitVec 3) (mask : BitVec 16) : Bool :=
  let d := s.die (dieOf p)
  (d.sq ++ d.pilot).any fun q => q.core == p && q.ctx == some j && q.sailing == (s.core p).run.sailing && mask.getLsbD q.oc

/-- What a skiff's release or fence of a mask waits for but the invalidations: result writes that it is owed (06 R220), and commands of its own (01 R34 to R37). -/
def State.skiffOwed (s : State) (p : Nat) (j : BitVec 3) (mask : BitVec 16) : Bool := (s.core p).sfuOwes j mask || s.sqBusy p j mask

/-- The executing core as its bundle found it: without the engine commands, ports and remote accesses of the bundle's own slots, which follow in no program order
(03 R97). -/
def State.earlier (s : State) : Core :=
  match s.cur.mates with
  | none => s.own
  | some (f, k) => { s.own with
      flight := s.own.flight.filter fun x => decide (x.id < f)
      remotes := s.own.remotes.take k
      ports := s.own.ports.map fun q => if q.at_ < s.own.run.t then q else { q with bound := false } }

/-- Every earlier access of the executing core has performed, whatever its class, and the invalidations of its writes have arrived: what a release
for every class waits for (01 R37, R41; 10 R313, R319; 13 R391). A command need not have completed. -/
def State.settled (s : State) : Bool := !s.earlier.pending 0xFFFF && !s.earlier.remoteBusy && !s.owes s.me 0xFFFF

/-- Invalidations are in flight that a core's release of a mask (`rel`), or its full fence of a scope, waits for: those of its own writes;
at .pkg and .pod those towards its own die (01 R41). -/
def State.invalsHold (s : State) (p : Nat) (rel : Bool) (scope : Nat) (mask : BitVec 16) : Bool :=
  if rel then s.owes p mask else decide (4 ≤ scope) && !(s.die (dieOf p)).invals.isEmpty

/-- A skiff's release (`rel`) or fence writes back the dirty lines at scope .quad or wider (01 R42). It cannot perform at once where lines were
written back, result writes are owed, commands of its own are under way, or invalidations are under way that it waits for (01 R41): then it drains, for a time that
cannot be counted. -/
def skiffDrain (s : State) (p : Nat) (j : BitVec 3) (rel : Bool) (scope : Nat) (mask : BitVec 16) : Bool × State :=
  let c := s.core p
  let wide := decide (2 ≤ scope)
  ((wide && c.barrel.cache.any fun l => l.dirty ≠ 0) || s.skiffOwed p j mask || s.invalsHold p rel scope mask,
    if wide then writeBackAll s p else s)

/-- A fence of the executing agent (04 R141, 05 R167): it stalls while an earlier access in a mask class has not performed. -/
def fence (all : Bool) (scope : BitVec 3) (mask : BitVec 16) (s : State) : Res :=
  match s.cur.agent with
  | .skiff p j =>
    let mask := if all then 0xFFFF else mask
    let sc := if all then scope.toNat else 0
    let (wait, s) := skiffDrain s p j false sc mask
    .ok (if wait then s.modSkiff p j fun k => { k with wait := .drain sc mask none } else skiffResult s p j 1 [] [])
  | .core p =>
    let c := s.core p
    if c.pending (if all then 0xFFFF else mask) then .stall 4
    else if all ∧ (c.engineBusy ∨ c.remoteBusy ∨ s.invalsHold p false scope.toNat 0xFFFF) then .stall 4
    else .ok s

/-- The address of a flag word (04 R137). -/
def flagAddr (base : BitVec 5) (i : BitVec 12) (s : State) : Nat :=
  (srcA base s + BitVec.ofInt 64 (i.toInt * 8)).toNat

/-- The value operand of a flag operation. -/
def flagValue (v : BitVec 5) (l : BitVec 1) (s : State) : Word := if l = 1 then v.zeroExtend 64 else srcA v s

/-- A flag word's place: the own scratchpad or the window (the helm scratchpad for a helm core), 8-byte aligned (01 R37, 04 R137). -/
def flagPlace (s : State) (ea : Nat) : Place :=
  if ea % 8 ≠ 0 then .bad else match place s ea 8 with | .phys _ => .bad | x => x

/-- The read that a flag operation on a remote word (logical core id k, core q) keeps in flight (04 R138): it carries the check that it consumes (09 R290). -/
def flagRead (s : State) (k q a : Nat) : Remote :=
  { oc := 16, pa := spadBase q + a, width := 8, op := .flagRead, entry := none, tag := (armed s k q a 8).head?.map fun x => (x.1, x.2.1),
    due := s.own.run.t, seq := s.own.nextFlight }

/-- The stall of a flag operation whose read is to be sent: an earlier remote access to the word holds it back (01 R33, 04 R126). -/
def sendFlagRead (s : State) (k q a : Nat) : Res :=
  let pa := spadBase q + a
  if s.own.heldBack s.me 16 pa (pa + 8) false then .stall 4 else .stall 5 (.send (flagRead s k q a))

/-- A wait on a remote flag: the read's reply, whose fault is taken here (09 R274, R291, R292; that it is taken at the waiting bundle, as no lq entry
is popped, is DEDUCED, log 62), or a stall that sends the read where none is in flight (04 R138). -/
def remoteFlag (s : State) (k q a : Nat) (go : Word → State → Res) (again : Word → Bool) : Res :=
  let c := s.own
  let wait := if c.remotes.any fun r => r.op == .flagRead then .stall 5 else sendFlagRead s k q a
  match c.run.flag with
  | some (v, none) => if again v then wait else go v (s.modOwn fun c => { c with run := { c.run with flag := none } })
  | some (_, some (code, detail)) => .fault code detail
  | none => wait

/-- A skiff's flag operation: a port request to the own scratchpad, a migration, or an illegal operand (05 R170, R172). -/
def skiffFlag (s : State) (p : Nat) (j : BitVec 3) (ea : Nat) (a : Nat → SkAccess) : Res :=
  if ea % 8 ≠ 0 then .fault 0x02 7 else skiffAccess s p j ea 8 a (.fault 0x02 7)

/-- facq.w: the bundle waits until the word equals the value. While it waits for a word of its own scratchpad, its readings take no sub-bank port: 04 R138 names a
port cycle for the read of a remote word alone (DESIGN CHOICE, log 75). -/
def acquireWait (base v : BitVec 5) (i : BitVec 12) (l : BitVec 1) (scope : BitVec 3) (s : State) : Res :=
  let ea := flagAddr base i s
  let val := flagValue v l s
  match s.cur.agent with
  | .skiff p j => skiffFlag s p j ea fun a => { kind := .facqW, addr := a, width := 8, val := val, scope := scope.toNat }
  | .core p =>
    match flagPlace s ea with
    | .own a => ownRead s 16 a 8 fun s => if readSpad s p a 8 = val.toNat then .ok s else .stall 5
    | .remote k q a => if (s.core q).inAlt a then .fault 0x02 7 else remoteFlag s k q a (fun _ s => .ok s) (· ≠ val)
    | _ => .fault 0x02 7

/-- A facq.t of a word that the determinism level does not let it test (04 R139). -/
def testForbidden (s : State) (p : Nat) (pl : Place) : Bool :=
  let c := s.core p
  decide (c.ctl.detl.extractLsb' 0 2 ≠ 0) &&
    match pl with
    | .own a => s.foreign.contains ((spadBase p + c.visible a) / 8)
    | .remote _ _ _ => true
    | _ => false

/-- facq.t: one read of the word, its comparison to guard h. A skiff's word is tested for its writer (04 R139) at the grant, before it asks for its port: the spec does
not say in which of the two cycles (DESIGN CHOICE, log 75). -/
def acquireTest (h : BitVec 4) (base v : BitVec 5) (i : BitVec 12) (l : BitVec 1) (scope : BitVec 3) (s : State) : Res :=
  let ea := flagAddr base i s
  let val := flagValue v l s
  let pl := flagPlace s ea
  if testForbidden s s.me pl then .fault 0x06 0x61
  else match s.cur.agent with
  | .skiff p j => skiffFlag s p j ea fun a =>
      { kind := .facqT, addr := a, width := 8, val := val, dst := h.zeroExtend 5, scope := scope.toNat }
  | .core p =>
    match pl with
    | .own a => ownRead s 16 a 8 fun s => writeG h (readSpad s p a 8 == val.toNat) s
    | .remote k q a =>
      if (s.core q).inAlt a then .fault 0x02 7 else remoteFlag s k q a (fun w s => writeG h (w == val) s) (fun _ => false)
    | _ => .fault 0x02 7

/-- frel: after every earlier access in a mask class and the invalidations of those accesses, the word is written (01 R37, R41). -/
def release (base v : BitVec 5) (i : BitVec 12) (l : BitVec 1) (scope : BitVec 3) (mask : BitVec 16) (s : State) : Res :=
  let ea := flagAddr base i s
  let val := flagValue v l s
  match s.cur.agent with
  | .skiff p j =>
    let (wait, s) := skiffDrain s p j true scope.toNat mask
    (skiffFlag s p j ea fun a => { kind := .frel, addr := a, width := 8, val := val, scope := scope.toNat }).bind fun s =>
      .ok (if wait then s.modSkiff p j fun k =>
        { k with wait := match k.wait with | .port a _ => .drain scope.toNat mask (some a) | w => w } else s)
  | .core p =>
    match flagPlace s ea with
    | .bad => .fault 0x02 7
    | pl =>
      if pl.badHalf s then .fault 0x02 7
      else if (s.core p).pending mask ∨ s.owes p mask then .stall 4
      else match pl with
      | .own a => ownWrite s 16 a 8 fun s => .ok (writeSpad s true p a val.toNat 8)
      | _ => match pl.target with
        | none => .fault 0x02 7
        | some (pa, _) => sendRemote s { oc := 16, pa := pa, width := 8, op := .flagWrite val, entry := none, tag := none,
                                         due := (s.core p).run.t } none

/-! ### The A-slot instructions of this file -/

/-- fence.oc (04 R141). -/
def bodyFenceOc (scope : BitVec 3) (m : BitVec 16) (s : State) : Res := fence false scope m s

/-- fence.oc.all (04 R141). -/
def bodyFenceOcAll (scope : BitVec 3) (m : BitVec 16) (s : State) : Res := fence true scope m s

/-- facq.w (04 R138). The mask orders later accesses, which this model issues later in any case. -/
def bodyFacqW (a v : BitVec 5) (i : BitVec 12) (l : BitVec 1) (sc : BitVec 3) (_m : BitVec 16) (s : State) : Res :=
  acquireWait a v i l sc s

/-- facq.t (04 R138, R139). -/
def bodyFacqT (h : BitVec 4) (a v : BitVec 5) (i : BitVec 12) (l : BitVec 1) (sc : BitVec 3) (_m : BitVec 16) (s : State) : Res :=
  acquireTest h a v i l sc s

/-- frel (04 R138). -/
def bodyFrel (a v : BitVec 5) (i : BitVec 12) (l : BitVec 1) (sc : BitVec 3) (m : BitVec 16) (s : State) : Res :=
  release a v i l sc m s

/-! ### The instructions of this file at issue -/

/-- FENCE_OC issued by itself (R141). -/
def execFenceOc (g : BitVec 4) (r : BitVec 3) (m : BitVec 16) (s : State) : Host.Outcome State Fault Refusal :=
  finish s (queueLimit (issue (.fenceOc g r m) g (bodyFenceOc r m) s))
/-- FENCE_OC_ALL issued by itself (R141). -/
def execFenceOcAll (g : BitVec 4) (r : BitVec 3) (m : BitVec 16) (s : State) : Host.Outcome State Fault Refusal :=
  finish s (queueLimit (issue (.fenceOcAll g r m) g (bodyFenceOcAll r m) s))
/-- FACQ_W issued by itself (R138). -/
def execFacqW (g : BitVec 4) (a : BitVec 5) (v : BitVec 5) (n : BitVec 12) (l : BitVec 1) (r : BitVec 3) (m : BitVec 16) (s : State) : Host.Outcome State Fault Refusal :=
  finish s (queueLimit (issue (.facqW g a v n l r m) g (bodyFacqW a v n l r m) s))
/-- FACQ_T issued by itself (R138). -/
def execFacqT (g : BitVec 4) (h : BitVec 4) (a : BitVec 5) (v : BitVec 5) (n : BitVec 12) (l : BitVec 1) (r : BitVec 3) (m : BitVec 16) (s : State) : Host.Outcome State Fault Refusal :=
  finish s (queueLimit (issue (.facqT g h a v n l r m) g (bodyFacqT h a v n l r m) s))
/-- FREL issued by itself (R138). -/
def execFrel (g : BitVec 4) (a : BitVec 5) (v : BitVec 5) (n : BitVec 12) (l : BitVec 1) (r : BitVec 3) (m : BitVec 16) (s : State) : Host.Outcome State Fault Refusal :=
  finish s (queueLimit (issue (.frel g a v n l r m) g (bodyFrel a v n l r m) s))

end Sys2Proof.Machine
end

