-- ==== Sys2Proof/Machine/Channels.lean ====
section
/-! DEFINITION. Channels (10 R312 to R316) and a helm's host channels (13 R368): endpoints, buffers, slots, arrivals and credits. -/

namespace Sys2Proof.Machine

/-! ### Endpoints and buffers -/

/-- The sailing of the executing core, and the channel of an endpoint of it: as the writer's, or as the reader's (10 R312). -/
def State.endpoint (s : State) (p : Nat) (writer bulk : Bool) (ep : Nat) : Option (Nat × Nat × Chan) :=
  match (s.core p).run.sailing with
  | none => none
  | some n =>
    let lid := (s.core p).ctl.lid
    let cs := (s.sailing n).chans
    let mine (c : Chan) : Bool := c.bulk == bulk && (if writer then c.wcore == lid && c.wep == ep else c.rcore == lid && c.rep == ep)
    (List.range cs.length).findSome? fun i => match cs[i]? with | some c => if mine c then some (n, i, c) else none | none => none

/-- The state with a channel of a sailing replaced. -/
def State.setChan (s : State) (n i : Nat) (c : Chan) : State := s.modSailing n fun g => { g with chans := setAt g.chans i c }

/-- The send buffer has room: 8 words, or 8 flits (10 R312). -/
def Chan.hasRoom (c : Chan) : Bool := decide (c.send.length < 8)

/-- A word or flit enters the send buffer in cycle t. -/
def Chan.put (c : Chan) (t : Nat) (v : BitVec 512) : Chan := { c with send := c.send ++ [(t, v)] }

/-- The head of the receive buffer, where it arrived by the end of t − 1 (10 R314). -/
def Chan.head (c : Chan) (t : Nat) : Option (BitVec 512) :=
  match c.recv with
  | (a, v) :: _ => if a < t then some v else none
  | [] => none

/-- The head leaves the receive buffer in cycle t, and its credit returns to the writer at the end of t + ROUTE (10 R313). -/
def Chan.pop (c : Chan) (t : Nat) : Chan := { c with recv := c.recv.drop 1, back := c.back ++ [t + c.route] }

/-- At one slot in cycle d the oldest words leave: at most 8 (one flit of a bulk channel), those that had entered by the end of d − 1,
as many as the credits allow (10 R313, R316). -/
def Chan.slot (c : Chan) (d : Nat) : Chan :=
  let ready := (c.send.takeWhile fun x => decide (x.1 < d)).length
  let k := Nat.min (Nat.min (if c.bulk then 1 else 8) ready) c.credits
  { c with send := c.send.drop k, credits := c.credits - k, air := c.air ++ (c.send.take k).map (fun x => (d + c.route, x.2)), gone := c.gone + k }

/-- The slots of a cycle, one after another. -/
def Chan.slots_ (c : Chan) (d : Nat) : Nat → Chan
  | 0 => c
  | n + 1 => (c.slot d).slots_ d n

/-! ### The CRC of a flit (10 R304) -/

/-- The CRC-16 of the low n bits of a flit, from the topmost on, over the polynomial x^16 + x^12 + x^5 + 1, from 0 (10 R304; start value and bit order:
DESIGN CHOICE, log 71). -/
def crc16 (v : BitVec 512) : Nat → Nat → Nat
  | 0, c => c
  | n + 1, c => crc16 v n (Nat.xor (c * 2 % 65536) (if v.getLsbD n != decide (32768 ≤ c) then 0x1021 else 0))

/-- A flit as it leaves: its CRC above its bits. -/
def withCrc (v : BitVec 512) : BitVec 528 := BitVec.ofNat 16 (crc16 v 512 0) ++ v

/-- A receiver finds the CRC of what has arrived bad (10 R304). -/
def crcBad (x : BitVec 528) : Bool := decide (crc16 (x.truncate 512) 512 0 ≠ (x.extractLsb' 512 16).toNat)

/-- The flits that words leaving in one cycle make up: one word each of a bulk channel, up to 8 words of a scalar one (10 R313, R316). -/
def flitsOf (bulk : Bool) : Nat → List (BitVec 512) → List (BitVec 512)
  | 0, _ => []
  | _, [] => []
  | n + 1, x :: xs =>
    if bulk then x :: flitsOf bulk n xs
    else ((List.range 8).foldl (fun z i => z ||| ((x :: xs).getD i 0) <<< (64 * i)) 0) :: flitsOf bulk n ((x :: xs).drop 8)

/-! ### chw and chr -/

/-- The word of a send: an x-register, or what it pops; a release then waits for every earlier access (10 R313). -/
def sendWord (rel : Bool) (r : BitVec 5) (s : State) (k : Word → State → Res) : Res :=
  withX r s fun x s' => if rel ∧ ¬ s.settled then .stall 4 else k x s'

/-- A send on a helm's host channel: endpoints 16 to 31, 64 words (13 R368). The host's reads are ordered after every word of it, so each is a
release (01 R48). -/
def hostSend (v : Word) (r : BitVec 5) (s : State) : Res :=
  let ep := v.toNat
  if ep < 16 ∨ 32 ≤ ep then .fault 0x02 1
  else sendWord true r s fun x s =>
    let q := (s.helm s.me).outbound.toList.getD (ep - 16) []
    if 64 ≤ q.length then .stall 13
    else .ok (s.modHelm s.me fun r => { r with outbound := r.outbound.setIfInBounds (ep - 16) (q ++ [x]) })

/-- chw: the word enters the send buffer at the end of its issue cycle (10 R313). -/
def channelSend (rel : Bool) (e r : BitVec 5) (s : State) : Res :=
  let v := srcC e s
  if s.atHelm then hostSend v r s
  else if 64 ≤ v.toNat then .fault 0x02 1
  else match s.endpoint s.me true false v.toNat with
    | none => .fault 0x02 1
    | some (n, i, c) => sendWord rel r s fun x s =>
        if c.hasRoom then .ok (s.setChan n i (c.put s.own.run.t (x.zeroExtend 512))) else .stall 13

/-- chw (10 R313). -/
def bodyChw (e r : BitVec 5) (s : State) : Res := channelSend false e r s
/-- chw.rel (10 R313). -/
def bodyChwRel (e r : BitVec 5) (s : State) : Res := channelSend true e r s

/-- A receive on a helm's host channel: endpoints 0 to 15 (13 R368). -/
def hostReceive (h : Nat) (v : Word) (d : BitVec 5) (s : State) : Res :=
  let ep := v.toNat
  if 16 ≤ ep then .fault 0x02 1
  else match (s.helm h).inbound.toList.getD ep [] with
    | [] => .stall 13
    | x :: rest => writeX d 2 x (s.modHelm h fun r => { r with inbound := r.inbound.setIfInBounds ep rest })

/-- chr: the head word of the receive buffer (10 R314). -/
def channelReceive (d e : BitVec 5) (s : State) : Res :=
  let v := srcC e s
  if s.atHelm then hostReceive s.me v d s
  else if 64 ≤ v.toNat then .fault 0x02 1
  else match s.endpoint s.me false false v.toNat with
    | none => .fault 0x02 1
    | some (n, i, c) =>
      match c.head s.own.run.t with
      | none => .stall 13
      | some x => writeX d 2 (x.truncate 64) (s.setChan n i (c.pop s.own.run.t))

/-- chr (10 R314). -/
def bodyChr (d e : BitVec 5) (s : State) : Res := channelReceive d e s
/-- chr.acq (10 R314): what it orders is issued after it in this model. -/
def bodyChrAcq (d e : BitVec 5) (s : State) : Res := channelReceive d e s

/-! ### The events of a channel -/

/-- A change of one channel of a sailing whose clock runs. -/
def onChannel (s : State) (n i : Nat) (f : Nat → Chan → Chan) : State :=
  let g := s.sailing n
  match g.chans[i]? with
  | some c => if g.running then s.setChan n i (f g.t c) else s
  | none => s

/-- The Timetable entry of a lane in a phase: residue where no record describes it (10 R300, R302). -/
def Link.entry (l : Link) (lane phase : Nat) : Nat := (l.lanes.getD lane []).getD phase 0

/-- The lanes of the writer's injection links on which channel i has a slot in a phase: link and lane of each (10 R300). -/
def Sailing.slotLanes (g : Sailing) (i phase : Nat) : List (Nat × Nat) :=
  g.links.flatMap fun l =>
    if linkKind l.key = 0 then ((List.range l.lanes.length).filter fun k => l.entry k phase = 2 ^ 14 + i).map fun k => (l.key, k) else []

/-- The lanes of a link on which channel i has a slot in a phase. -/
def Link.lanesOf (l : Link) (i phase : Nat) : List Nat := (List.range l.lanes.length).filter fun k => l.entry k phase = 2 ^ 14 + i

/-- How many cycles after its injection slot a flit of channel i passes a link: the fewest for which the link has a slot of the channel that many cycles after each of
its injection slots (10 R300, R303; DEDUCED, log 71). -/
def Sailing.delay (g : Sailing) (ch : Chan) (i : Nat) (l : Link) : Option Nat :=
  (List.range (ch.route + 1)).find? fun d => decide (0 < d) && ch.slots.eraseDups.all fun k => (l.lanesOf i ((k + d) % g.period)).length == ch.slots.count k

/-- The links behind the injection link on which channel i has slots, with their delays. -/
def Sailing.onward (g : Sailing) (ch : Chan) (i : Nat) : List (Link × Nat) :=
  g.links.filterMap fun l => if linkKind l.key ≠ 0 ∧ l.lanes.any (·.contains (2 ^ 14 + i)) then (g.delay ch i l).map fun d => (l, d) else none

/-- The passes of the j-th flit that leaves in cycle t: link, lane and cycle of each. -/
def Sailing.passes (g : Sailing) (ch : Chan) (i t j : Nat) : List (Nat × Nat × Nat) :=
  ((g.slotLanes i (t % g.period))[j]?.map fun x => (x.1, x.2, t)).toList ++
    (g.onward ch i).filterMap fun x => ((x.1.lanesOf i ((t + x.2) % g.period))[j]?).map fun k => (x.1.key, k, t + x.2)

/-- A flit that will pass a Roslys lane is noted at its port, for the port's frames (10 R327). -/
def notePort (s : State) (key lane tt : Nat) (v : BitVec 512) : State :=
  let a := s.pkgs.get {} (bitsOf key 31 26)
  let r := bitsOf key 20 9
  let x := a.ports.toList.getD r {}
  if linkKind key ≠ 4 then s
  else { s with pkgs := s.pkgs.set (bitsOf key 31 26) { a with ports := a.ports.setIfInBounds r { x with flits := x.flits ++ [(lane, tt, v)] } } }

/-- CHANNEL_SLOT: the slots that the Timetable gives the channel in this cycle (10 R313). A flit that a link of its route garbles, so that its CRC is bad, is to be resent
(R304); noise that its CRC does not show changes nothing (DESIGN CHOICE, log 71). -/
def execChannelSlot (sn c : Nat) (s : State) : Host.Outcome State Fault Refusal :=
  let g := s.sailing sn
  match g.chans[c]? with
  | none => .next s
  | some ch =>
    if ¬ g.running then .next s
    else
      let ch' := ch.slots_ g.t (ch.slots.count (g.t % g.period))
      let left := (ch'.air.drop ch.air.length).map (·.2)
      let flits := flitsOf ch.bulk left.length left
      let passes := (List.range flits.length).flatMap fun j => (g.passes ch c g.t j).map fun x => (x, flits.getD j 0)
      let bad := (List.range passes.length).filterMap fun m => match passes[m]? with
        | some ((key, lane, t), v) =>
          if crcBad (withCrc v ^^^ Config.lineNoise (s.freeIx + m)) then some { key := key, lane := lane, chan := c, flit := v, since := t, due := g.t + ch.route }
          else none
        | none => none
      let s' := { s.modSailing sn (fun g => { g with chans := setAt g.chans c ch', retries := g.retries ++ bad }) with freeIx := s.freeIx + passes.length }
      .next (passes.foldl (fun s x => notePort s x.1.1 x.1.2.1 (s.pod.tt + (x.1.2.2 - g.t)) x.2) s')

/-- A scheduled flit of channel i that is due has not arrived well: it waits for its copy (10 R304). -/
def Sailing.awaits (g : Sailing) (i due : Nat) : Bool := g.retries.any fun r => r.chan == i && r.due == due

/-- The words of channel i whose route has ended and that have arrived well enter the receive buffer (10 R303, R304). -/
def Sailing.arrive (g : Sailing) (i t : Nat) (ch : Chan) : Chan :=
  let there (x : Nat × BitVec 512) : Bool := decide (x.1 ≤ t) && !g.awaits i x.1
  { ch with air := ch.air.filter (!there ·), recv := ch.recv ++ ch.air.filter there }

/-- CHANNEL_WORD_ARRIVAL: words whose route has ended enter the receive buffer (10 R303, R313). -/
def execChannelWordArrival (sn c : Nat) (s : State) : Host.Outcome State Fault Refusal :=
  .next (onChannel s sn c ((s.sailing sn).arrive c))

/-- CREDIT_RETURN: credits of popped words reach the writer (10 R313). -/
def execCreditReturn (sn c : Nat) (s : State) : Host.Outcome State Fault Refusal :=
  .next (onChannel s sn c fun t ch =>
    { ch with back := ch.back.filter (fun u => decide (t < u)), credits := ch.credits + (ch.back.filter fun u => decide (u ≤ t)).length })

/-- FLIT_DELIVERY: every scheduled flit of the sailing whose stated cycle has come is at the end of its route (10 R303). -/
def execFlitDelivery (sn : Nat) (s : State) : Host.Outcome State Fault Refusal :=
  .next ((List.range (s.sailing sn).chans.length).foldl (fun s i => onChannel s sn i ((s.sailing sn).arrive i)) s)

/-! ### The instructions of this file at issue -/

/-- CHW issued by itself (R313). -/
def execChw (g : BitVec 4) (e : BitVec 5) (r : BitVec 5) (s : State) : Host.Outcome State Fault Refusal :=
  finish s (queueLimit (issue (.chw g e r) g (bodyChw e r) s))
/-- CHW_REL issued by itself (R313). -/
def execChwRel (g : BitVec 4) (e : BitVec 5) (r : BitVec 5) (s : State) : Host.Outcome State Fault Refusal :=
  finish s (queueLimit (issue (.chwRel g e r) g (bodyChwRel e r) s))
/-- CHR issued by itself (R314). -/
def execChr (g : BitVec 4) (d : BitVec 5) (e : BitVec 5) (s : State) : Host.Outcome State Fault Refusal :=
  finish s (queueLimit (issue (.chr g d e) g (bodyChr d e) s))
/-- CHR_ACQ issued by itself (R314). -/
def execChrAcq (g : BitVec 4) (d : BitVec 5) (e : BitVec 5) (s : State) : Host.Outcome State Fault Refusal :=
  finish s (queueLimit (issue (.chrAcq g d e) g (bodyChrAcq d e) s))

end Sys2Proof.Machine
end

