-- ==== Sys2Proof/Machine/Streams.lean ====
section
/-! DEFINITION. Stream ports (04 R132 to R136), watermark channels, the Lighter, publication and translation markers
(09 R271 to R296). -/

namespace Sys2Proof.Machine

/-! ### The context of a sailing, live or saved -/

/-- Core p as the sailing of a command has it: live, or in its saved context (13 R385). -/
def State.ctx (s : State) (sn : Option Nat) (p : Nat) : Core :=
  match sn with
  | some n => if (s.core p).run.sailing = sn then s.core p else (s.sailing n).saved.get {} p
  | none => s.core p

/-- A change of core p in the sailing of a command, live or saved. -/
def State.modCtx (s : State) (sn : Option Nat) (p : Nat) (f : Core → Core) : State :=
  match sn with
  | some n =>
    if (s.core p).run.sailing = sn then s.modCore p f
    else s.modSailing n fun g => { g with saved := g.saved.set p (f (g.saved.get {} p)) }
  | none => s.modCore p f

/-- The state as a saved sailing's commands read it: its saved cores in their places. -/
def State.viewOf (s : State) (sn : Option Nat) : State :=
  match sn with
  | some n => { s with cores := (s.sailing n).saved.foldl (fun t x => t.set x.1 x.2) s.cores }
  | none => s

/-- The core of logical core id k of a command's sailing; of the sender's own quad where it has none. -/
def State.coreIn (s : State) (sn : Option Nat) (p k : Nat) : Nat :=
  match sn with
  | some n => (s.sailing n).coreAt k
  | none => p / 4 * 4 + k % 4

/-- An engine fault of a command whose sender may have been saved (09 R284). Its record is a release (13 R367); a saved core has no remote access to perform. -/
def engineFaultIn (s : State) (sn : Option Nat) (p code detail baddr : Nat) (word : Code) : State :=
  if (s.core p).run.sailing = sn then engineFault s p code detail baddr word
  else
    let c := s.ctx sn p
    let r : FaultRec := ⟨code, detail, c.run.t, baddr, word, c.ctl.lid, false, none, 7⟩
    let s := s.modCtx sn p fun c => { c with run := c.run.dead }
    match sn with
    | some n => countFault (postRecord (deliverInvals s fun w => w.orderedBy p 0xFFFF) (dieOf (s.sailing n).helm) r.bits) n true
    | none => s

/-! ### Stream ports (04 R132 to R136) -/

/-- The fields of a stream descriptor (04 R133). -/
def Descriptor.of (v : Nat) : Descriptor :=
  let f := bitsOf v
  { base := f 22 0, width := 2 ^ f 25 24, sx := f 26 26 == 1, conv := f 27 27 == 1, oc := f 31 28,
    strides := [sextOf (f 63 32) 32, sextOf (f 95 64) 32, sextOf (f 127 96) 32],
    counts := [f 143 128, f 159 144, f 175 160] }

/-- The hull of a descriptor's walk, as bytes [lo, hi). -/
def Descriptor.hull (d : Descriptor) : Int × Int :=
  let spans := (List.range 3).map fun k => ((d.counts.getD k 1 : Nat) : Int) * d.strides.getD k 0 - d.strides.getD k 0
  ((d.base : Int) + spans.foldl (fun z x => z + min 0 x) 0, (d.base : Int) + spans.foldl (fun z x => z + max 0 x) 0 + d.width)

/-- The bank of an address has a format that a port cannot convert: of fewer than 8 bits, a quire, or of another size than WIDTH (04 R134). -/
def Descriptor.badBank (d : Descriptor) (c : Core) (a : Nat) : Bool :=
  match fmtOf (fmtCode (bankWord c.ctl.bfmt a)) with
  | some (.quire _) => true
  | some f => decide (f.bits < 8 ∨ f.bits ≠ 8 * d.width)
  | none => true

/-- The descriptor's own checks (04 R134): with CONV = 1 those of the banks that hold an element. -/
def descriptorBad (v : Nat) (c : Core) (d : Descriptor) : Bool :=
  let (lo, hi) := d.hull
  decide (bitsOf v 255 176 ≠ 0 ∨ bitsOf v 23 23 ≠ 0) || d.counts.contains 0 || decide (d.base % d.width ≠ 0)
    || d.strides.any (fun z => decide (z % (d.width : Int) ≠ 0)) || decide (lo < 0 ∨ 0x800000 < hi)
    || !c.inside lo.toNat (hi - lo).toNat || (d.sx && d.conv)
    || (d.conv && (List.range ((hi.toNat - 1) / 0x100000 + 1 - lo.toNat / 0x100000)).any (fun i => d.badBank c (lo.toNat + i * 0x100000))
        && (List.range (d.counts.foldl (· * ·) 1)).any fun n => d.badBank c (d.at_ n))

/-- The file of a port's register. -/
def portFile (f : BitVec 1) : FileId := if f = 1 then .f else .x

/-- sbind (04 R132, R134): the descriptor is read in its class, and the port's walk becomes an engine command. -/
def bodySbind (r a : BitVec 5) (f : BitVec 1) (q : BitVec 2) (s : State) : Res :=
  let at_ := (srcA a s).toNat
  let c := s.own
  let p := s.me
  if at_ % 32 ≠ 0 ∨ ¬ c.inside at_ 32 then .fault 0x02 7
  else
    let raw := readSpad s p at_ 32
    let d := Descriptor.of raw
    ownRead s d.oc at_ 32 fun s =>
      if descriptorBad raw c d then .fault 0x02 7
      else if (c.ports.toList.getD q.toNat {}).bound then .fault 0x02 4
      else if (c.boundTo (portFile f) r).isSome then .fault 0x02 0
      else
        let (lo, hi) := d.hull
        if ¬ c.hullOk lo hi then .fault 0x0E (15 * 256 + 3)
        else
          let (tags, s) := consumeTags s p (named p [(lo.toNat, hi.toNat)])
          let port : Port := { bound := true, file := portFile f, reg := r, desc := d, total := d.counts.foldl (· * ·) 1,
                               bfmt := c.ctl.bfmt, at_ := c.run.t, seq := c.nextFlight, expects := tags, baddr := s.cur.addr, word := s.cur.word }
          .ok (s.modCore p fun c => { c with ports := c.ports.setIfInBounds q.toNat port, nextFlight := c.nextFlight + 1 })

/-- sbind.u (04 R136): the port and the register are free at the end of its cycle. -/
def bodySbindU (r : BitVec 5) (f : BitVec 1) (q : BitVec 2) (s : State) : Res :=
  let port := s.own.ports.toList.getD q.toNat {}
  if ¬ port.bound then .fault 0x02 4
  else if port.file ≠ portFile f ∨ port.reg ≠ r then .fault 0x02 0
  else .ok (s.modOwn (·.later (.unbind q.toNat)))

/-- The value that a port delivers for an element, and the anomalies of its decode (04 R134). -/
def portValue (q : Port) (a raw : Nat) : Word × Nat :=
  if q.desc.conv then
    let (v, n) := toCompute (if q.file = .f then 0 else 2) (decodeBits (bankWord q.bfmt a) raw)
    (BitVec.ofNat 64 (if q.file = .f then encodeCompute f64 v else wrapTo 64 (roundInt 1 0 v)), n)
  else (extendBits q.desc.sx raw (8 * q.desc.width), 0)

/-- One element of a port's walk is read, where the port has room, the element may be read and no access of higher rank has its port (04 R123,
R135). That a port reads one element in a cycle is the model's choice; an element in a faulted half gives its pop the DETAIL of 09 R292, the failed
source address, where 04 R136 speaks of a ring's element alone (DESIGN CHOICE, log 62). -/
def refillPort (s : State) (p i : Nat) : State :=
  let c := s.core p
  let q := c.ports.toList.getD i {}
  let put (s : State) (q : Port) : State := s.modCore p fun c => { c with ports := c.ports.setIfInBounds i q }
  if ¬ q.bound ∨ q.total ≤ q.fetched ∨ 8 ≤ q.buf.length ∨ q.fault.isSome ∨ c.run.t ≤ q.at_ then s
  else
    let a := q.desc.at_ q.fetched
    let w := q.desc.width
    let range := [(spadBase p + a, spadBase p + a + w)]
    if c.blocked p q.seq q.desc.oc .stream range [] then s
    else match tagGate s p q.expects with
      | .wait => s
      | .fault code detail => engineFault (put s { q with fault := some (code, detail) }) p code detail q.baddr q.word
      | .go =>
        let v := (s.seen q.halves).core p
        match readGate v a w with
        | .wait => s
        | .fault code detail => put s { q with expects := [], fault := some (code, if (v.halfFault a w).isSome then detail else a) }
        | .go => match s.takePorts p (portsOf (v.visible a) w) with
          | none => s
          | some s =>
            let v := s.seen q.halves
            let (x, n) := portValue q a (readSpad v p a w)
            addFanom (put (s.unseen q.halves (countPoison v p a w)) { q with
              expects := [], fetched := q.fetched + 1, buf := q.buf ++ [x], halves := q.halves.fix s range }) p n

/-- STREAM_PORT_REFILL (04 R135): each bound port reads its next element. -/
def execStreamPortRefill (p : Nat) (s : State) : Host.Outcome State Fault Refusal :=
  .next ((List.range 4).foldl (fun s i => refillPort s p i) s)

/-! ### Layout records (09 R277, R280) -/

/-- The fields of a layout record. -/
structure Layout where
  src : Nat
  sfmt : Nat
  sscale : Nat
  dfmt : Nat
  dscale : Nat
  drnd : Nat
  conv : Bool
  dkind : Bool
  apub : Bool
  ascope : Nat
  ndim : Nat
  oc : Nat
  counts : List Nat
  sstrides : List Int
  dstrides : List Int
  dest : Nat
  tag : Nat
  deriving DecidableEq, Repr

/-- The fields of a 128-byte record. -/
def Layout.of (v : BitVec 1024) : Layout :=
  let f := bitsOf v.toNat
  let stride (o : Nat) : List Int := (List.range 4).map fun k => sextOf (f (o + 32 * k + 31) (o + 32 * k)) 32
  { src := f 71 0, sfmt := f 85 80, sscale := f 95 88, dfmt := f 101 96, dscale := f 111 104, drnd := f 113 112, conv := f 114 114 == 1,
    dkind := f 115 115 == 1, apub := f 116 116 == 1, ascope := f 119 117, ndim := f 121 120 + 1, oc := f 127 124,
    counts := [f 143 128, f 159 144, f 175 160, f 191 176], sstrides := stride 192, dstrides := stride 320,
    dest := f 519 448, tag := f 575 544 }

/-- The reserved bits of a record. -/
def reservedBits (v : BitVec 1024) : Bool :=
  let f := bitsOf v.toNat
  decide (f 1023 576 ≠ 0 ∨ f 543 520 ≠ 0 ∨ f 123 122 ≠ 0 ∨ f 103 102 ≠ 0 ∨ f 87 86 ≠ 0 ∨ f 79 72 ≠ 0)

/-- The element count of a record. -/
def Layout.total (l : Layout) : Nat := (l.counts.take l.ndim).foldl (· * ·) 1

/-- The used dimensions with strides in bits; dimension 0 of a packed element is dense (09 R278). -/
def Layout.dims (l : Layout) (strides : List Int) (w : Nat) : List (Nat × Int) :=
  (List.range l.ndim).map fun k => (l.counts.getD k 0, if k = 0 ∧ w < 8 then (w : Int) else 8 * strides.getD k 0)

/-- The hull of a record's elements relative to element 0, in bytes. -/
def Layout.spread (l : Layout) (strides : List Int) (w : Nat) : Int × Int :=
  let spans := (l.dims strides w).map fun (c, st) => ((c : Int) - 1) * st
  (spans.foldl (fun z x => z + min 0 x) 0 / 8, (spans.foldl (fun z x => z + max 0 x) 0 + w + 7) / 8)

/-- A format register's word from a format, a scale and a rounding mode. -/
def formatWord (fmt scale rnd : Nat) : Word := BitVec.ofNat 64 (rnd * 2 ^ 14 + scale * 2 ^ 6 + fmt)

/-- Where a virtual address of a copy leads: a core's scratchpad through the window, past its last core, or the page tables. -/
inductive Spot where
  | spad (k a : Nat)
  | lost
  | virtual
  deriving DecidableEq, Repr

/-- The spot of a virtual address under a window of q cores. -/
def spotOf (spwin cores va : Nat) : Spot :=
  if spwin ≤ va ∧ va < spwin + 2 ^ 38 then
    let k := (va - spwin) / 0x800000
    if k < cores then .spad k ((va - spwin) % 0x800000) else .lost
  else .virtual

/-- The format registers of logical core k as a command takes them: the sender's as captured at its issue, another core's as they stood before the
command's start (09 R280). -/
def CopyCmd.bf (x : CopyCmd) (k : Nat) : Vector Word 8 := if k = x.cap.lid then x.cap.bfmt else x.bfs.get (Vector.replicate 8 1) k

/-- The spot of a virtual address of a command: a byte of the window in a bank outside the carve-out counts as lying outside its scratchpad (13 R378). -/
def CopyCmd.spot (x : CopyCmd) (va : Nat) : Spot :=
  match spotOf x.spwin (4 * x.cap.qcount) va with
  | .spad k a => if x.carve.getLsbD (a / 0x100000) then .spad k a else .lost
  | y => y

/-- The format word of a source or destination address of a command: of the bank that holds it, in whichever core of the window (02 R53). -/
def CopyCmd.word_ (x : CopyCmd) (va fmt scale rnd : Nat) : Word :=
  match x.spot va with
  | .spad k a => bankWord (x.bf k) a
  | _ => formatWord fmt scale rnd

/-- The format word of the source element at a virtual address. -/
def CopyCmd.srcWord (x : CopyCmd) (l : Layout) (va : Nat) : Word := x.word_ va l.sfmt l.sscale 0

/-- The element width of a format word. A copy without conversion through a bank whose FMT is reserved moves elements of 8 bits: the spec states no width there
(DESIGN CHOICE, log 76). -/
def wordBits (v : Word) : Nat := (codeBits (fmtCode v)).getD 8

/-- The logical core ids of a window's cores that virtual addresses [lo, hi) reach. -/
def windowCores (spwin cores lo hi : Nat) : List Nat :=
  (List.range cores).filter fun k => decide (lo < spwin + (k + 1) * 0x800000 ∧ spwin + k * 0x800000 < hi)

/-- The cores of a window that virtual addresses [lo, hi) reach: the first address of each and the name of its first byte. -/
def windowParts (s : State) (p spwin cores lo hi : Nat) : List (Nat × Nat) :=
  (windowCores spwin cores lo hi).map fun k => (spwin + k * 0x800000, spadBase (s.coreAt p k))

/-- Virtual addresses [lo, hi) as named bytes: of the cores of the window that they reach, else past every scratchpad. -/
def namedParts (parts : List (Nat × Nat)) (lo hi : Nat) : List (Nat × Nat) :=
  if parts.isEmpty then [(2 ^ 80 + lo, 2 ^ 80 + hi)]
  else parts.map fun x => (x.2 + (Nat.max lo x.1 - x.1), x.2 + (Nat.min hi (x.1 + 0x800000) - x.1))

/-! ### lxsend (09 R276 to R278) -/

/-- The illegal operands of a record (09 R278) that need no core but the sender's; w and dw: the element widths of source and destination,
dw none where the destination's is not known yet. -/
def layoutIllegal (v : BitVec 1024) (l : Layout) (ch : Bool) (w : Nat) (dw : Option Nat) : Bool :=
  let badFmt (c : Nat) : Bool := match fmtOf c with
    | none | some .i4o | some (.quire _) => true
    | _ => false
  reservedBits v || badFmt l.sfmt || badFmt l.dfmt
    || ((ch || !l.dkind) && decide (l.dfmt ≠ 0 ∨ l.dscale ≠ 0 ∨ l.drnd ≠ 0))
    || (l.apub && (l.dkind || ch)) || (l.apub && decide (l.ascope = 0 ∨ 5 < l.ascope))
    || (ch && (l.dkind || l.dstrides.any (· ≠ 0) || decide (2 ^ 23 ≤ l.dest)))
    || (!ch && !l.dkind && decide (bitsOf l.dest 23 23 ≠ 0 ∨ bitsOf l.dest 71 44 ≠ 0))
    || decide (8 ≤ w ∧ (l.src : Int) % (w / 8 : Nat) ≠ 0)
    || (match dw with
        | some d => decide (8 ≤ d ∧ ((if l.dkind ∨ ch then l.dest else bitsOf l.dest 22 0) : Int) % (d / 8 : Nat) ≠ 0)
        | none => false)

/-- The shape fault of a record (09 R278): its cause. A stride that is no multiple of its element's size is a shape fault of cause 4, as R278 says of records, and
not the operand fault that 02 R51 gives to misaligned elements: no ruling of the spec chooses between the two (DESIGN CHOICE, log 76). -/
def layoutShape (l : Layout) (ch : Bool) (w : Nat) (dw : Option Nat) : Option Nat :=
  let used (st : List Int) : List Int := (List.range l.ndim).map fun k => st.getD k 0
  let bad (st : List Int) (w : Nat) : Bool :=
    if w < 8 then decide (st.getD 0 0 ≠ 0) else (used st).any fun z => decide (z % (w / 8 : Nat) ≠ 0)
  if (l.counts.take l.ndim).contains 0 then some 1
  else if bad l.sstrides w || (!ch && (match dw with | some d => bad l.dstrides d | none => false)) then some 4
  else none

/-- The bytes of a ring of n elements of w bits. -/
def ringLen (n w : Nat) : Nat := n * w / 8

/-- A range meets a ring with ACT of a channel other than n (09 R278, R286). -/
def Core.meetsRing (c : Core) (n lo hi : Nat) : Bool :=
  (List.range 8).any fun i => let w := c.wmc.toList.getD i {}; i != n && w.act && overlaps (w.rbase, w.rbase + w.rlen) lo hi

/-- A range meets a range of a mapped entry (09 R278, R286). -/
def Core.meetsEntry (c : Core) (lo hi : Nat) : Bool :=
  c.pmap.toList.any fun e => e.v &&
    (overlaps (64 * e.base, 64 * (e.base + e.len)) lo hi || overlaps (64 * e.alt, 64 * (e.alt + e.len)) lo hi)

/-- A ring is not good for channel n (09 R278). -/
def ringBad (c : Core) (n : Nat) (l : Layout) (w : Nat) : Bool :=
  let hi := l.dest + ringLen l.total w
  decide (l.total * w % 8 ≠ 0) || decide (l.dest / 0x100000 ≠ (hi - 1) / 0x100000) || !c.inside l.dest (hi - l.dest)
    || c.meetsRing n l.dest hi || c.meetsEntry l.dest hi

/-- The named ranges and elements at virtual addresses of core p's command, from address va on. -/
def virtualWalk (s : State) (c : Core) (l : Layout) (strides : List Int) (va w : Nat) : List (Nat × Nat) × Option Elements :=
  let (lo, hi) := l.spread strides w
  let (lo, hi) := (((va : Int) + lo).toNat, ((va : Int) + hi).toNat)
  let parts := windowParts s s.me c.ctl.spwin (4 * c.ctl.qcount) lo hi
  (namedParts parts lo hi, some { bit := 8 * va, width := w, dims := l.dims strides w, total := l.total, parts := parts })

/-- A record's walk of its handle's buffer, the home being core q. -/
def Layout.handleWalk (l : Layout) (q : Nat) : HandleWalk :=
  { core := q, entry := bitsOf l.dest 43 24 % 16, ofs := bitsOf l.dest 22 0, counts := l.counts.take l.ndim, strides := l.dstrides, conv := l.conv }

/-- The named ring and the elements that a refill writes (09 R272). -/
def ringWalk (p : Nat) (l : Layout) (w : Nat) : List (Nat × Nat) × Option Elements :=
  (named p [(l.dest, l.dest + ringLen l.total w)],
   some { bit := 8 * l.dest, width := w, dims := [(l.total, w)], total := l.total, parts := [(0, spadBase p)] })

/-- A copy command enters its core's list of commands in flight with its elements; those of an I4O destination are written by granules. -/
def launchCopy (s : State) (p : Nat) (e : Engine) (oc : Nat) (src dst : List (Nat × Nat) × Option Elements) (granules : Bool)
    (handle : Option HandleWalk) : State :=
  s.modCore p fun c =>
    let f : Flight := { id := c.nextFlight, engine := e, oc := oc, reads := src.1, writes := dst.1, source := src.2,
                        sink := dst.2.map fun w => { w with group := if granules then 4 else 1 }, area := src.1, handle := handle }
    let f := match handle with
      | some h => f.resolve (s.core h.core) (if h.core = p then c.ctl.bfmt else (s.core h.core).ctl.bfmt)
      | none => f
    { c with nextFlight := c.nextFlight + 1, flight := c.flight ++ [f] }

/-! ### What a command's elements ask of the banks that they lie in (02 R50, R51, R80; 09 R278, R287) -/

/-- The formats of the other cores that a command's source and destination may reach, as they stand. -/
def CopyCmd.formats (s : State) (x : CopyCmd) (l : Layout) : Tab (Vector Word 8) :=
  let reach (va : Nat) (strides : List Int) : List Nat :=
    let (lo, hi) := l.spread strides 512
    windowCores x.spwin (4 * x.cap.qcount) ((va : Int) + lo).toNat (((va : Int) + hi).toNat + 0x10000)
  let ks := reach l.src l.sstrides ++ (if l.dkind then reach l.dest l.dstrides else [bitsOf l.dest 43 28])
  (ks.eraseDups.filter (· ≠ x.cap.lid)).foldl (fun t k => t.set k (s.ctx x.sailing (s.coreIn x.sailing x.core k)).ctl.bfmt) []

/-- The bit address of element m of a command's source. -/
def CopyCmd.srcBit (x : CopyCmd) (l : Layout) (m : Nat) : Int :=
  8 * (l.src : Int) + dimOffset (l.dims l.sstrides (wordBits (x.srcWord l l.src))) m

/-- The virtual address of element m of a command's source. -/
def CopyCmd.srcVa (x : CopyCmd) (l : Layout) (m : Nat) : Nat := wrapTo 72 (x.srcBit l m / 8)

/-- The format word of a command's first destination element; none where its handle is not resolved. -/
def CopyCmd.dstFirst (x : CopyCmd) (l : Layout) (stream : Bool) : Option Word :=
  if stream then some (bankWord x.cap.bfmt l.dest)
  else if l.dkind then some (x.word_ l.dest l.dfmt l.dscale l.drnd)
  else x.dest.map fun h => bankWord (x.bf (bitsOf l.dest 43 28)) (h.base + bitsOf l.dest 22 0)

/-- The bit address of element m of a virtual destination. -/
def CopyCmd.dstBit (x : CopyCmd) (l : Layout) (m : Nat) : Int :=
  8 * (l.dest : Int) + dimOffset (l.dims l.dstrides (wordBits (x.word_ l.dest l.dfmt l.dscale l.drnd))) m

/-- The format word of a command's destination element m: a ring and a handle's buffer lie in one bank each. -/
def CopyCmd.dstWord (x : CopyCmd) (l : Layout) (stream : Bool) (m : Nat) : Option Word :=
  if l.dkind ∧ ¬ stream then some (x.word_ (wrapTo 72 (x.dstBit l m / 8)) l.dfmt l.dscale l.drnd) else x.dstFirst l stream

/-- The format words of all banks that virtual addresses [lo, hi) reach, and the record's own where they leave the window's cores. -/
def CopyCmd.wordsIn (x : CopyCmd) (lo hi : Nat) (own : Word) : List Word :=
  let cores := 4 * x.cap.qcount
  (if lo < x.spwin ∨ x.spwin + cores * 0x800000 < hi then [own] else []) ++
    (windowCores x.spwin cores lo hi).flatMap fun k => (List.range 8).filterMap fun b =>
      let f := x.spwin + k * 0x800000 + b * 0x100000
      if lo < f + 0x100000 ∧ f < hi then some (bankWord (x.bf k) (b * 0x100000)) else none

/-- Virtual addresses [lo, hi) that a record's elements from va on span. -/
def Layout.span (l : Layout) (strides : List Int) (va w : Nat) : Nat × Nat :=
  let (lo, hi) := l.spread strides w
  (((va : Int) + lo).toNat, ((va : Int) + hi).toNat)

/-- The format words that a command's source, and its destination, may lead through: those of the elements are among them. -/
def CopyCmd.wordsMet (x : CopyCmd) (l : Layout) (stream : Bool) : List Word × List Word :=
  let src := l.span l.sstrides l.src (wordBits (x.srcWord l l.src))
  (x.wordsIn src.1 src.2 (formatWord l.sfmt l.sscale 0),
   if l.dkind ∧ ¬ stream then
     let dst := l.span l.dstrides l.dest (wordBits (x.word_ l.dest l.dfmt l.dscale l.drnd))
     x.wordsIn dst.1 dst.2 (formatWord l.dfmt l.dscale l.drnd)
   else (x.dstFirst l stream).toList)

/-- Element m cannot be copied (02 R50, R51; 09 R278): a bank's format is reserved where the copy converts, the widths differ where it does not, or an
address is no multiple of the element's size. -/
def CopyCmd.eltBad (x : CopyCmd) (l : Layout) (stream : Bool) (m : Nat) : Bool :=
  let fs := x.srcWord l (x.srcVa l m)
  let off (v : Word) (b : Int) : Bool := decide (8 ≤ wordBits v ∧ b % (wordBits v : Int) ≠ 0)
  let reserved (v : Word) : Bool := l.conv && (fmtOf (fmtCode v)).isNone
  reserved fs || off fs (x.srcBit l m) || match x.dstWord l stream m with
    | none => false
    | some fd => reserved fd || (!l.conv && wordBits fs != wordBits fd) || (l.dkind && !stream && off fd (x.dstBit l m))

/-- Element m lies in half 1 of a mapped entry through the window (09 R287). -/
def altMet (s : State) (x : CopyCmd) (va w : Nat) : Bool :=
  match x.spot va with
  | .spad k a => (s.ctx x.sailing (s.coreIn x.sailing x.core k)).namesAlt a (a + (w + 7) / 8 : Nat)
  | _ => false

/-- Some element of a command breaks a rule that a look at all banks of its hulls does not rule out. -/
def Layout.anyElement (l : Layout) (suspect : Bool) (f : Nat → Bool) : Bool := suspect && (List.range l.total).any f

/-- The fault of a copy command whose record, or whose elements in the banks that they lie in, are not good (09 R278, R287; 02 R50, R51, R80): made at issue
with the other cores' formats and entries as they stand then, and again at the start, with those that the command then takes, as a fault of the sender's engine
(DEDUCED, log 64). -/
def CopyCmd.fault (s : State) (x : CopyCmd) (l : Layout) (ch : Bool) : Option (Nat × Nat) :=
  let w := wordBits (x.srcWord l l.src)
  let dw := (x.dstFirst l ch).map wordBits
  let (ws, wd) := x.wordsMet l ch
  let odd := ws.any (fun v => (fmtOf (fmtCode v)).isNone || wordBits v != w) || wd.any fun v => (fmtOf (fmtCode v)).isNone || some (wordBits v) != dw
  let named (va : Nat) (strides : List Int) (v : Nat) : Bool :=
    let r := l.span strides va v
    (windowCores x.spwin (4 * x.cap.qcount) r.1 r.2).any fun k =>
      (s.ctx x.sailing (s.coreIn x.sailing x.core k)).pmap.toList.any fun e => e.v
  if layoutIllegal x.rec_ l ch w dw ∨ (!l.conv && dw.any (· != w)) ∨ l.anyElement odd (x.eltBad l ch) then some (0x02, 7)
  else if let some f := (if l.conv ∧ l.anyElement (wd.any fun v => fmtRnd v == 3) (fun m => (x.dstWord l ch m).any fun v => fmtRnd v == 3)
      then stochFault x.cap 7 0x16 else none) then some f
  else if (l.counts.take l.ndim).contains 0 then some (0x0E, 1)
  else if l.anyElement (named l.src l.sstrides w) (fun m => altMet s x (x.srcVa l m) (wordBits (x.srcWord l (x.srcVa l m)))) ∨
      (l.dkind ∧ ¬ ch ∧ l.anyElement (named l.dest l.dstrides (dw.getD 8)) fun m => altMet s x (wrapTo 72 (x.dstBit l m / 8)) (((x.dstWord l ch m).map wordBits).getD 8))
      then some (0x0E, 3)
  else (layoutShape l ch w dw).map fun cause => (0x0E, cause)

/-- The handle of a command, at its home core as it stands, or the fault of one that is not mapped (09 R279). -/
def findHandle (s : State) (x : CopyCmd) (l : Layout) : Except (Nat × Nat) HandleDest :=
  let h := bitsOf l.dest 43 24
  if 4 * x.cap.qcount ≤ h / 16 then .error (0x02, 6)
  else
    let q := s.coreIn x.sailing x.core (h / 16)
    let c := s.ctx x.sailing q
    let e := c.pmap.toList.getD (h % 16) {}
    if ¬ e.v then .error (0x02, 6)
    else .ok ⟨q, h % 16, if e.vis then 64 * e.base else 64 * e.alt, 64 * e.base, 64 * e.len, !e.vis⟩

/-- The handle of a command as it starts, or its fault: an element may lie outside the buffer (09 R279). -/
def resolveHandle (s : State) (x : CopyCmd) (l : Layout) : Except (Nat × Nat) HandleDest :=
  match findHandle s x l with
  | .error f => .error f
  | .ok h =>
    let o : Int := bitsOf l.dest 22 0
    let (lo, hi) := l.spread l.dstrides (wordBits (bankWord (x.bf (bitsOf l.dest 43 28)) (h.base + o.toNat)))
    if o + lo < 0 ∨ (h.len : Int) < o + hi then .error (0x0E, 3) else .ok h

/-- The Lighter of a core: that of its die for its quad's parity (09 R276). -/
def lighterOf (p : Nat) : Nat := 2 * dieOf p + quadOf p % 24 % 2

/-- lxsend, to the Lighter or to channel n: the record is read in class 0 and checked, and the command leaves (09 R276 to R278). -/
def sendCopy (n : Option Nat) (a : BitVec 5) (s : State) : Res :=
  let at_ := (srcA a s).toNat
  let c := s.own
  let p := s.me
  let ch := n.isSome
  if at_ % 128 ≠ 0 ∨ ¬ c.inside at_ 128 then .fault 0x02 7
  else ownRead s 0 at_ 128 fun s =>
    let v := BitVec.ofNat 1024 (readSpad s p at_ 128)
    let l := Layout.of v
    let die := dieOf p
    let x : CopyCmd := { id := c.nextFlight, core := p, sailing := c.run.sailing, rec_ := v, cap := c.capture, ptroot := c.ctl.ptroot,
                         spwin := c.ctl.spwin, baddr := s.cur.addr, word := s.cur.word, tags := [], marks := (s.die die).marks, sent := s.wall,
                         carve := c.ctl.carve, way := { at_ := s.wall } }
    let x := { x with bfs := x.formats s l }
    let seen := { x with dest := if ch ∨ l.dkind then none else (findHandle s x l).toOption }
    match seen.fault s l ch with
    | some (code, detail) => .fault code detail
    | none =>
        let w := wordBits (x.srcWord l l.src)
        let dword := x.dstFirst l ch
        let dw := (dword.map wordBits).getD w
        let src := virtualWalk s c l l.sstrides l.src w
        let granules := l.conv && (dword.map fmtCode) == some 0x09
        match n with
        | some k =>
          if ringBad c k l dw then .fault 0x02 7
          else if 2 ≤ (c.refills.toList.getD k []).length then .stall 12
          else
            let (tags, s) := consumeTags s p src.1
            let s := launchCopy s p .stream l.oc src (ringWalk p l dw) granules none
            .ok (s.modCore p fun c => { c with refills := c.refills.setIfInBounds k (c.refills.toList.getD k [] ++ [{ x with tags := tags }]) })
        | none =>
          if 8 ≤ (c.flight.filter fun f => f.engine == .lighter).length then .stall 12
          else
            let (tags, s) := consumeTags s p src.1
            let s := if l.dkind then launchCopy s p .lighter l.oc src (virtualWalk s c l l.dstrides l.dest dw) granules none
              else launchCopy s p .lighter l.oc src ([], none) false (some (l.handleWalk (s.coreAt p (bitsOf l.dest 43 28))))
            let k := lighterOf p
            .ok { s with lighters := s.lighters.set k (s.lighters.get [] k ++ [{ x with tags := tags }]) }

/-- lxsend aR (09 R276). -/
def bodyLxsend (a : BitVec 5) (s : State) : Res := sendCopy none a s
/-- lxsend.ch n, aR (09 R276). -/
def bodyLxsendCh (n : BitVec 3) (a : BitVec 5) (s : State) : Res := sendCopy (some n.toNat) a s
/-- lxsend.cls n (09 R276). -/
def bodyLxsendCls (n : BitVec 3) (s : State) : Res :=
  if (s.own.refills.toList.getD n.toNat []).isEmpty then .ok (s.modOwn (·.later (.close n.toNat))) else .stall 12

/-! ### One element of a copy -/

/-- The translations of a command: its own, and those of its core's stream TLB where no marker stands between (09 R275, R294). -/
def CopyCmd.tlb (s : State) (x : CopyCmd) (stream : Bool) : List TlbEntry :=
  x.trs ++ (if stream ∧ x.marks = (s.die (dieOf x.core)).marks then (s.ctx x.sailing x.core).stlb else [])

/-- What stands in the way of an element. -/
inductive Block where
  | walk (k : AccessKind) (va : Nat)
  | badSrc (va : Nat)
  | badDst (va : Nat)
  | poison (va : Nat)
  | wait
  | fault (code detail : Nat)
  deriving DecidableEq, Repr

/-- The physical address of a virtual one under the translations at hand, or what stands in the way (01 R21); an access to control space, or a walk that led
there, is an engine fault (15 R408). -/
def reach (es : List TlbEntry) (k : AccessKind) (va : Nat) (bad : Block) : Except Block Nat :=
  match es.find? fun e => e.covers va with
  | none => .error (.walk k va)
  | some e =>
    if e.ctl then .error (.fault 0x07 va)
    else match e.translate k va with
      | none => .error bad
      | some pa => if isControl pa then .error (.fault 0x07 va) else .ok pa

/-- What a read of a core's scratchpad must pass, as what stands in an element's way (09 R273, R274, R292). -/
def gateBlock (c : Core) (a n : Nat) : Option Block :=
  match readGate c a n with
  | .wait => some .wait
  | .fault code detail => some (.fault code detail)
  | .go => none

/-- Where the source of element m lies: a core's scratchpad, with the address there, or HBM; or what stands in its way. view: the state as the command's sailing
sees it. -/
def sourcePlace (view : State) (x : CopyCmd) (l : Layout) (stream : Bool) (m : Nat) : Except Block (Option Nat × Nat) :=
  let va := x.srcVa l m
  match x.spot va with
  | .lost => .error (.badSrc va)
  | .spad k a => .ok (some (view.coreIn x.sailing x.core k), a)
  | .virtual => match reach (x.tlb view stream) .read va (.badSrc va) with
    | .error b => .error b
    | .ok pa => match spadOwner pa with
      | some q => .ok (some q, pa - spadBase q)
      | none => .ok (none, pa)

/-- Element m is decoded by a granule: of an I4O bank, in a copy that converts (02 R58). -/
def CopyCmd.byGranule (x : CopyCmd) (l : Layout) (m : Nat) : Bool := l.conv && fmtCode (x.srcWord l (x.srcVa l m)) == 0x09

/-- The bits that the read of element m takes, from the byte address of its source on: the first bit and how many; those of its granule where it is decoded by one. -/
def CopyCmd.readBits (x : CopyCmd) (l : Layout) (a m : Nat) : Nat × Nat :=
  let b := 8 * a + (x.srcBit l m % 8).toNat
  if x.byGranule l m then (b - 4 * (m % l.counts.getD 0 1 % 4), 16) else (b, wordBits (x.srcWord l (x.srcVa l m)))

/-- Element m of a command's source, in its own bank's format, or what stands in its way; an element of an I4O bank that is converted is decoded by its
granule, which is read as a whole (02 R58). view: the state as the command's sailing sees it. -/
def sourceElt (view : State) (x : CopyCmd) (l : Layout) (stream : Bool) (m : Nat) : Except Block Elt :=
  let fw := x.srcWord l (x.srcVa l m)
  match sourcePlace view x l stream m with
  | .error b => .error b
  | .ok (none, pa) =>
    let (b, w) := x.readBits l pa m
    let raw := view.readVia (dieOf x.core) (b / 8) ((b % 8 + w + 7) / 8) / 2 ^ (b % 8) % 2 ^ w
    .ok { raw := raw, val := decodeBits fw raw, poison := view.anyPoison (b / 8) ((b % 8 + w + 7) / 8) }
  | .ok (some q, a) =>
    let (b, w) := x.readBits l a m
    match gateBlock (view.core q) (b / 8) ((b % 8 + w + 7) / 8) with
    | some b => .error b
    | none =>
      let raw := readField view q b w
      let bad := fieldPoison view q b w
      if x.byGranule l m then
        let i := m % l.counts.getD 0 1 % 4
        let (vs, k) := decodeGranule raw
        .ok { raw := raw / 2 ^ (4 * i) % 16, val := (vs.getD i (.zero false)).scale (scaleOf fw), poison := bad, anom := if i = 0 then k else 0 }
      else .ok { raw := raw, val := decodeBits fw raw, poison := bad }

/-- The sub-bank words that the read of element m takes (04 R123). -/
def sourceNeed (view : State) (x : CopyCmd) (l : Layout) (stream : Bool) (m : Nat) : Held :=
  match sourcePlace view x l stream m with
  | .ok (some q, a) => let (b, w) := x.readBits l a m; readNeed view q (b / 8) ((b % 8 + w + 7) / 8)
  | _ => []

/-- Core p has read element m of a command's source from HBM, through its die's memory-side cache (01 R39 to R41). -/
def observeSource (s view : State) (x : CopyCmd) (l : Layout) (stream : Bool) (m : Nat) : State :=
  match sourcePlace view x l stream m with
  | .ok (none, pa) => s.observe x.core l.oc pa ((wordBits (x.srcWord l (x.srcVa l m)) + 7) / 8)
  | _ => s

/-- The destination of element m: its format word, and its physical bit address, or what stands in its way. A scratchpad takes the write in its shadow half,
through the window and through the page tables alike (09 R287). -/
def destOf (view : State) (x : CopyCmd) (l : Layout) (stream : Bool) (m : Nat) : Except Block (Word × Nat) :=
  if stream then
    let w := wordBits (bankWord x.cap.bfmt l.dest)
    let b := 8 * l.dest + m * w
    .ok (bankWord x.cap.bfmt l.dest, 8 * (spadBase x.core + b / 8) + b % 8)
  else if l.dkind then
    let bit := x.dstBit l m
    let va := wrapTo 72 (bit / 8)
    let fw := x.word_ va l.dfmt l.dscale l.drnd
    let shadow (q a : Nat) : Nat := 8 * (spadBase q + (view.core q).shadow a) + (bit % 8).toNat
    match x.spot va with
    | .lost => .error (.badDst va)
    | .spad k a => .ok (fw, shadow (view.coreIn x.sailing x.core k) a)
    | .virtual => match reach (x.tlb view false) .write va (.badDst va) with
      | .error b => .error b
      | .ok pa => .ok (fw, match spadOwner pa with
        | some q => shadow q (pa - spadBase q)
        | none => 8 * pa + (bit % 8).toNat)
  else match x.dest, x.dstFirst l false with
    | some h, some fw =>
      let bit := 8 * (bitsOf l.dest 22 0 : Int) + dimOffset (l.dims l.dstrides (wordBits fw)) m
      .ok (fw, 8 * (spadBase h.core + h.half) + bit.toNat)
    | _, _ => .error .wait

/-- The writes of a field at a physical bit address. -/
def physWrs (b w val : Nat) (poison : Bool) : List Wr :=
  if w % 8 = 0 ∧ b % 8 = 0 then [⟨b / 8, 0, w, val, poison⟩]
  else (List.range ((b % 8 + w + 7) / 8)).map fun i =>
    let sh := if i = 0 then b % 8 else 0
    let done := if i = 0 then 0 else 8 * i - b % 8
    let n := Nat.min (8 - sh) (w - done)
    ⟨b / 8 + i, sh, n, val / 2 ^ done % 2 ^ n, poison⟩

/-- The element's value as it is written: copied, or converted (09 R280), with the anomalies of its decode and of the conversion. -/
def copyBits (x : CopyCmd) (l : Layout) (fw : Word) (m : Nat) (e : Elt) : Nat × Nat :=
  if l.conv then
    let (b, k) := encodeVia x.cap fw none m e.val
    (b, k + e.anom)
  else (e.raw % 2 ^ wordBits fw, 0)

/-- The elements of an I4O destination that have been read are written as a granule, of which the last may be missing: zeros stand for them, and of the granule's bits those
of the elements that there are are written. fw, bit: format word and bit address of the last, element m (02 R59). -/
def granuleWrs (x : CopyCmd) (fw : Word) (bit m : Nat) (es : List Elt) : List Wr × Nat :=
  let n := es.length
  let rnd := fmtRnd fw
  let vs := es.map fun (e : Elt) => e.val
  let g := encodeGranule rnd (ovfEntry x.cap.ovf 0x14) ((List.range 4).map fun i =>
    ((vs.getD i (.zero false)).scale (-(scaleOf fw)), if rnd = 3 then stochWord x.cap (m + 1 - n + i) else 0))
  (physWrs (bit - 4 * (n - 1)) (4 * n) (g % 2 ^ (4 * n)) (es.any (·.poison)), es.foldl (fun n e => n + e.anom) 0)

/-- Element m of a command: what stands in its way, or its writes and anomalies with the elements that the command then keeps. A poisoned source stops a handle
copy and a refill, and is written poisoned at a virtual address (09 R274, R280, R282). The handles that the command has accessed show it the halves it keeps
to (R288). An element of an I4O destination is kept, and written with its granule, four elements of dimension 0 (of the whole ring in a refill). Where fewer
are left the spec names no fault: the granule is written without them (DESIGN CHOICE, log 64). -/
def copyElement (view : State) (x : CopyCmd) (l : Layout) (stream : Bool) (m : Nat) : Except Block (List Elt × List Wr × Nat) :=
  let view := view.seen x.halves
  match sourceElt view x l stream m with
  | .error b => .error b
  | .ok e =>
    if e.poison ∧ (stream ∨ ¬ l.dkind) then .error (.poison (x.srcVa l m))
    else match destOf view x l stream m with
      | .error b => .error b
      | .ok (fw, bit) =>
        if l.conv ∧ fmtCode fw = 0x09 then
          let c := if stream then l.total else l.counts.getD 0 1
          let es := x.got ++ [e]
          if es.length ≠ 4 ∧ m % c + 1 ≠ c then .ok (es, [], 0) else .ok ([], granuleWrs x fw bit m es)
        else
          let (bits, k) := copyBits x l fw m e
          .ok ([], physWrs bit (wordBits fw) bits e.poison, k)

/-- The writes of the elements that a command has read of a granule and not written: it stops at the next one, and the elements below it are written (09 R274, R282). -/
def granuleLeft (view : State) (x : CopyCmd) (l : Layout) (stream : Bool) : List Wr × Nat :=
  if x.got.isEmpty then ([], 0)
  else match destOf (view.seen x.halves) x l stream (x.done - 1) with
    | .ok (fw, bit) => granuleWrs x fw bit (x.done - 1) x.got
    | .error _ => ([], 0)

/-- The named bytes of element m of a command: its source's, then its destination's. -/
def spansOf (s : State) (x : CopyCmd) (m : Nat) : List (Nat × Nat) × List (Nat × Nat) :=
  match (s.ctx x.sailing x.core).flight.find? fun f => f.id = x.id with
  | some f => ((f.source.map (·.span m)).toList, (f.sink.map (·.span m)).toList)
  | none => ([], [])

/-- An earlier access of its class holds back element m of a refill, whose buffer for class order is each single element (09 R273). -/
def elementHeld (s : State) (x : CopyCmd) (l : Layout) (stream : Bool) (m : Nat) : Bool :=
  let r := spansOf s x m
  stream && (s.ctx x.sailing x.core).blocked x.core x.id l.oc .stream r.1 r.2

/-- A stream TLB entry that serves an access becomes the most recent (09 R275). -/
def Core.stlbTouch (c : Core) (va : Nat) : Core :=
  match c.stlb.find? fun e => e.covers va with
  | some e => { c with stlb := e :: c.stlb.filter (· ≠ e) }
  | none => c

/-- What element m of a command does to its core when it has performed: anomalies, how far the command has come, and the stream TLB. -/
def Core.copied (c : Core) (x : CopyCmd) (l : Layout) (stream : Bool) (k : Nat) : Core :=
  let m := x.done
  let ahead (w : Elements) : Elements := { w with done := m + 1 }
  let c := { c with
    ctl := { c.ctl with fanom := Nat.min 0xFFFFFFFF (c.ctl.fanom + k) }
    flight := c.flight.map fun f => if f.id = x.id then { f with source := f.source.map ahead, sink := f.sink.map ahead } else f }
  if stream ∧ x.spot (x.srcVa l m) = .virtual then c.stlbTouch (x.srcVa l m) else c

/-- A word that is read and a word that is written need one port (04 R122). -/
def samePort (rd wr : Held) : Bool := rd.any fun x => wr.any fun y => x.1 == y.1 && portNo x.2.1 == portNo y.2.1

/-- Elements of a command in iteration order, at most n of them, until one is held up: the state, the command, and what holds it. An element waits for the ports of
its reads and its writes (04 R123); those of one 64-byte word in one cycle are one access of it. Where both need one port, the element is read in one cycle and written in
a later one (R122). -/
def copyRun (s : State) (x : CopyCmd) (l : Layout) (stream : Bool) (held : Held) : Nat → State × CopyCmd × Option Block
  | 0 => (s, x, none)
  | n + 1 =>
    let view := s.viewOf x.sailing
    if l.total ≤ x.done then (s, x, none)
    else if elementHeld s x l stream x.done then (s, x, some .wait)
    else match copyElement view x l stream x.done with
      | .error b => (s, x, some b)
      | .ok (es, ws, k) =>
        let rd := if x.half then [] else sourceNeed (view.seen x.halves) x l stream x.done
        let wr := writeNeed ws
        if samePort rd wr then match s.claim held rd with
          | none => (s, x, some .wait)
          | some (s, _) => (s, { x with half := true }, some .wait)
        else match s.claim held (rd ++ wr) with
        | none => (s, x, some .wait)
        | some (s, held) =>
          let r := spansOf s x x.done
          let hs := x.halves.fix view (r.1 ++ r.2)
          let s := observeSource s view x l stream x.done
          let s := (s.performBy (.core x.core l.oc) false ws).modCtx x.sailing x.core (·.copied x l stream k)
          copyRun s { x with done := x.done + 1, tags := [], halves := hs, got := es, half := false } l stream held n

/-- A command that stops writes the elements of a granule that it has read; none where their ports are taken, so that it stops in a later cycle. -/
def flushGranule (s : State) (x : CopyCmd) (l : Layout) (stream : Bool) : Option (State × CopyCmd) :=
  let (ws, k) := granuleLeft (s.viewOf x.sailing) x l stream
  (s.claim [] (writeNeed ws)).map fun r =>
    ((r.1.performBy (.core x.core l.oc) false ws).modCtx x.sailing x.core fun c =>
      { c with ctl := { c.ctl with fanom := Nat.min 0xFFFFFFFF (c.ctl.fanom + k) } }, { x with got := [] })

/-! ### The way of a copy over the links (10 R307) -/

/-- The markers that die d had placed when a line's previous contents were kept. -/
def Kept.count (k : Kept) (d : Nat) : Nat := k.marks.get 0 d

/-- A command that stands behind `marks` markers of a die and was sent in cycle `sent` stands ahead of the marker that covers the write of a line: the
write came after it, or that marker has been placed behind it (01 R47, 09 R294; DEDUCED, log 61). -/
def Kept.hides (k : Kept) (r : Die) (d line marks sent : Nat) : Bool :=
  k.line == line && !k.gone.contains d && decide (marks ≤ k.count d) && (decide (sent < k.at_) || decide (k.count d < r.marks))

/-- A page-table word as a walk for a command of die d sees it: the previous contents that the die retains for commands ahead of a marker, but as it
stands for one between a marker of the die's own and the next (09 R294). Walks read it at its home (01 R19, R47), never in control space (15 R408). -/
def State.pteFor (s : State) (d marks sent pa : Nat) : Option Nat :=
  let r := s.die d
  if s.poisoned pa ∨ ¬ populated pa ∨ isControl pa then none
  else match (if r.ownMarks.contains marks then none else s.kept.find? (·.hides r d (pa / 64) marks sent)) with
    | some k => some (k.data.toNat / 2 ^ (8 * (pa % 64)) % 2 ^ 64)
    | none => some (s.read pa 8)

/-- What the next element of a started command needs of the walkers. -/
def CopyCmd.need (s : State) (x : CopyCmd) (stream : Bool) : Option (AccessKind × Nat) :=
  if ¬ x.started then none
  else match copyElement (s.viewOf x.sailing) x (Layout.of x.rec_) stream x.done with
    | .error (.walk k va) => some (k, va)
    | _ => none

/-- Where an address of a copy lies, as far as the command's translations show. -/
def CopyCmd.place (s : State) (x : CopyCmd) (stream : Bool) (va : Nat) : Option Site :=
  match x.spot va with
  | .spad k _ => some (.core (s.coreIn x.sailing x.core k))
  | .lost => none
  | .virtual => ((x.tlb s stream).find? fun e => e.covers va).map fun e => homeOf (e.pa + (va - e.va))

/-- The links that the next elements of a copy command pass, from their source to the unit at work, a core's stream unit or a die's Lighter, and on to where they are
written; or those of the walk that they need first. -/
def CopyCmd.links (s : State) (x : CopyCmd) (stream : Bool) : List Nat :=
  match x.need s stream with
  | some (_, va) => walkLinks (s.pteFor (dieOf x.core) x.marks x.sent) (dieOf x.core) x.ptroot va
  | none =>
    let l := Layout.of x.rec_
    let dst := if stream then none
      else if l.dkind then x.place s false (wrapTo 72 (x.dstBit l x.done / 8))
      else x.dest.map fun h => Site.core h.core
    pathOver ((x.place s stream (x.srcVa l x.done)).toList ++ [if stream then .core x.core else .die (dieOf x.core)] ++ dst.toList)

/-- A copy command may go on: its next elements pass no link, or a flit has carried them. -/
def CopyCmd.carried (s : State) (x : CopyCmd) (stream : Bool) : Bool := x.way.over (x.links s stream)

/-- How many elements of w bits go on together: those of one flit where they pass a link. -/
def CopyCmd.perFlit (s : State) (x : CopyCmd) (stream : Bool) (w n : Nat) : Nat :=
  if (x.links s stream).isEmpty then n else Nat.min n (Nat.max 1 (512 / w))

/-- A copy command that has gone on: its next elements wait for a flit of their own. -/
def CopyCmd.next (x' : CopyCmd) (s : State) (x : CopyCmd) : CopyCmd := if x'.done = x.done then x' else { x' with way := { at_ := s.wall } }

/-! ### Watermark channels (09 R271 to R275) -/

/-- The queue of channel n of core p replaced. -/
def setRefills (s : State) (p n : Nat) (q : List CopyCmd) : State :=
  s.modCore p fun c => { c with refills := c.refills.setIfInBounds n q }

/-- WMCn of core p changed. -/
def modWmc (s : State) (p n : Nat) (f : Wmc → Wmc) : State :=
  s.modCore p fun c => { c with wmc := c.wmc.setIfInBounds n (f (c.wmc.toList.getD n {})) }

/-- A refill has ended: its command has landed and the queued one, if any, starts in the next cycle (09 R272). -/
def refillDone (s : State) (p n : Nat) (x : CopyCmd) (rest : List CopyCmd) : State :=
  landed (setRefills s p n (rest.map fun y => { y with follows := true })) p x.id

/-- REFILL_START (09 R272): the channel's oldest command starts, at a free time where the channel was idle, else in the cycle after its predecessor's completion, takes the other cores' formats as they stand, and sets up its ring. -/
def execRefillStart (p n : Nat) (s : State) : Host.Outcome State Fault Refusal :=
  match (s.core p).refills.toList.getD n [] with
  | x :: rest =>
    if x.started then .next s
    else
      let l := Layout.of x.rec_
      let x := { x with started := true, bfs := x.formats s l }
      let w := wordBits (bankWord x.cap.bfmt l.dest)
      match x.fault s l true with
      | some (code, detail) => .next (engineFault (refillDone s p n x rest) p code detail x.baddr x.word)
      | none => .next (modWmc (setRefills s p n (x :: rest)) p n fun _ => { act := true, rbase := l.dest, rlen := ringLen l.total w })
  | [] => .next s

/-- How many elements of w bits the stream unit may still write in this cycle: 128 bytes into the rings of one core (09 R272). -/
def Core.cycleElements (c : Core) (w : Nat) : Nat := (1024 - c.run.ringBits) / w

/-- The bytes of a ring that a refill has filled without a gap: of its elements but those of a granule that it has not written (09 R272). -/
def filledBytes (x : CopyCmd) (fw : Word) : Nat := (x.done - x.got.length) * wordBits fw / 8

/-- Channel n of core p has failed at an address: what its refill has read is written, the channel is marked and the command ends (09 R274). -/
def refillFail (s : State) (p n : Nat) (x : CopyCmd) (rest : List CopyCmd) (l : Layout) (va : Nat) : Option State :=
  (flushGranule s x l true).map fun r =>
    refillDone (modWmc r.1 p n fun w => { w with filled := filledBytes r.2 (bankWord x.cap.bfmt l.dest), flt := true, faddr := va }) p n x rest

/-- WATERMARK_ADVANCE (09 R272): elements whose sources can be read are written, a free number of them (DESIGN CHOICE, log 5), and FILLED follows. -/
def execWatermarkAdvance (p n : Nat) (s : State) : Host.Outcome State Fault Refusal :=
  match (s.core p).refills.toList.getD n [] with
  | x :: rest =>
    let l := Layout.of x.rec_
    let fw := bankWord x.cap.bfmt l.dest
    let room := (s.core p).cycleElements (wordBits fw)
    if ¬ x.started ∨ ¬ x.carried s true ∨ room = 0 ∨ (s.core p).blocked p x.id l.oc .stream [] [] ∨ tagGate s p x.tags ≠ .go then .next s
    else
      let (u, s) := s.free
      let (s, x', held) := copyRun s x l true [] (x.perFlit s true (wordBits fw) (1 + u.toNat % room))
      let x' := x'.next s x
      let s := modWmc (setRefills s p n (x' :: rest)) p n fun r => { r with filled := filledBytes x' fw }
      let s := s.modCore p fun c => { c with run := { c.run with ringBits := c.run.ringBits + (x'.done - x.done) * wordBits fw } }
      .next (if x'.done = l.total then refillDone s p n x' rest
        else match held with
          | some (.fault code detail) => ((refillFail s p n x' rest l detail).map fun s => engineFault s p code detail x'.baddr x'.word).getD s
          | _ => s)
  | [] => .next s

/-- REFILL_FAULT (09 R274): the translation of the next element, which nothing holds back, has failed, or its source is poisoned: the
channel is marked and the command ends. A tag that is neither equal nor late is an engine fault (09 R291). -/
def execRefillFault (p n : Nat) (s : State) : Host.Outcome State Fault Refusal :=
  match (s.core p).refills.toList.getD n [] with
  | x :: rest =>
    let l := Layout.of x.rec_
    if ¬ x.started ∨ (s.core p).blocked p x.id l.oc .stream [] [] ∨ elementHeld s x l true x.done then .next s
    else match tagGate s p x.tags with
      | .fault code detail => .next (engineFault (refillDone s p n x rest) p code detail x.baddr x.word)
      | .wait => .next s
      | .go => match copyElement (s.viewOf x.sailing) x l true x.done with
        | .error (.badSrc va) | .error (.poison va) => .next ((refillFail s p n x rest l va).getD s)
        | _ => .next s
  | [] => .next s

/-! ### The Lighter (09 R279 to R284) -/

/-- The commands of a Lighter replaced. -/
def setLighter (s : State) (k : Nat) (q : List CopyCmd) : State := { s with lighters := s.lighters.set k q }

/-- LIGHTER_ACCEPT (09 R279): a command whose message has arrived is accepted; which of several cores' is free, each core's come in order. -/
def execLighterAccept (k : Nat) (s : State) : Host.Outcome State Fault Refusal :=
  let q := s.lighters.get [] k
  let (acc, arriving) := (q.filter (·.accepted), q.filter (!·.accepted))
  if arriving.isEmpty then .next s
  else
    let (u, s) := s.free
    match arriving[u.toNat % arriving.length]? with
    | none => .next s
    | some y => match arriving.find? fun z => z.core = y.core with
      | none => .next s
      | some x => .next (setLighter s k (acc ++ [{ x with accepted := true }] ++ arriving.filter fun z => z.id ≠ x.id ∨ z.core ≠ x.core))

/-- A command leaves its Lighter; it has landed. -/
def lighterEnd (s : State) (k : Nat) (x : CopyCmd) : State :=
  let s := setLighter s k ((s.lighters.get [] k).filter fun z => z.id ≠ x.id ∨ z.core ≠ x.core ∨ z.sailing ≠ x.sailing)
  s.modCtx x.sailing x.core fun c => { c with flight := c.flight.filter fun f => f.id ≠ x.id }

/-- A command stops with an engine fault of its sender (09 R279). -/
def lighterFault (s : State) (k : Nat) (x : CopyCmd) (code detail : Nat) : State :=
  engineFaultIn (lighterEnd s k x) x.sailing x.core code detail x.baddr x.word

/-- LIGHTER_START (09 R279): the next accepted command starts while fewer than four run; a handle is resolved and its halves fixed, and the formats of
other cores' banks are taken as they stand (R280). -/
def execLighterStart (k : Nat) (s : State) : Host.Outcome State Fault Refusal :=
  let q := s.lighters.get [] k
  if 4 ≤ (q.filter (·.started)).length then .next s
  else match q.find? fun x => x.accepted && !x.started with
    | none => .next s
    | some x =>
      let l := Layout.of x.rec_
      let mine (z : CopyCmd) : Bool := z.id == x.id && z.core == x.core && z.sailing == x.sailing
      let x := { x with started := true, bfs := x.formats s l }
      let go (x : CopyCmd) : State := match x.fault s l false with
        | some (code, detail) => lighterFault s k x code detail
        | none =>
          let s := setLighter s k (q.map fun z => if mine z then x else z)
          match x.dest with
          | none => s
          | some h => s.modCtx x.sailing x.core fun c =>
              { c with flight := c.flight.map fun f => if f.id = x.id then f.resolve (s.ctx x.sailing h.core) (x.bf (bitsOf l.dest 43 28)) else f }
      if l.dkind then .next (go x)
      else match resolveHandle s x l with
        | .error (code, detail) => .next (lighterFault s k x code detail)
        | .ok h => .next (go { x with dest := some h, halves := [(h.core, h.entry, !h.one)] })

/-- The publication of a command whose writes have all performed (09 R283): the swap takes effect at the end of the cycle (R288, `applySwaps`); at a home whose sailing
has been saved, where nothing reads, at once. -/
def autoPublish (s : State) (x : CopyCmd) (l : Layout) : State :=
  match l.apub, x.dest with
  | true, some h =>
    if (s.core h.core).run.sailing = x.sailing then s.modCore h.core fun c => { c with swaps := c.swaps ++ [(h.entry, l.tag)] }
    else s.modCtx x.sailing h.core (·.publishAll [(h.entry, l.tag)])
  | _, _ => s

/-- The written half of a handle is faulted from the block of the failed element's destination (09 R282). -/
def markFaulted (s : State) (x : CopyCmd) (l : Layout) (src : Nat) : State :=
  match x.dest with
  | none => s
  | some h =>
    let w := ((x.dstFirst l false).map wordBits).getD 8
    let o := ((8 * (bitsOf l.dest 22 0 : Int) + dimOffset (l.dims l.dstrides w) x.done) / 8).toNat / 64
    s.modCtx x.sailing h.core fun c =>
      let e := c.pmap.toList.getD h.entry {}
      let e' := if h.one then (if e.f1 ∧ e.fofs1 ≤ o then e else { e with f1 := true, fofs1 := o, faddr1 := src })
        else (if e.f0 ∧ e.fofs0 ≤ o then e else { e with f0 := true, fofs0 := o, faddr0 := src })
      c.setPmap h.entry e'

/-- What becomes of a command whose next element is held up, or that is complete. One that stops has the elements below that one written. -/
def lighterResult (s : State) (k : Nat) (x : CopyCmd) (l : Layout) (held : Option Block) : State :=
  let keep (s : State) (x : CopyCmd) : State :=
    setLighter s k ((s.lighters.get [] k).map fun z => if z.id = x.id ∧ z.core = x.core ∧ z.sailing = x.sailing then x else z)
  let stop (f : State → CopyCmd → State) : State := match flushGranule s x l false with
    | some (s, x) => f (keep s x) x
    | none => keep s x
  let failed (va : Nat) : State := stop fun s x =>
    if l.dkind then lighterFault s k x 0x07 va else autoPublish (lighterEnd (markFaulted s x l va) k x) x l
  match held with
  | some (.fault code detail) => stop fun s x => lighterFault s k x code detail
  | some (.badSrc va) | some (.poison va) => failed va
  | some (.badDst va) => stop fun s x => lighterFault s k x 0x07 va
  | _ => if x.done = l.total then autoPublish (lighterEnd s k x) x l else keep s x

/-- LIGHTER_COMPLETE (09 R281): one of the running commands goes on: all of its elements that can be read are written, or a free number
of them (DESIGN CHOICE, log 5); with its last write it completes and publishes. -/
def execLighterComplete (k : Nat) (s : State) : Host.Outcome State Fault Refusal :=
  let run := (s.lighters.get [] k).filter fun x => x.started && x.carried s false
  if run.isEmpty then .next s
  else
    let (u, s) := s.free
    match run[u.toNat % run.length]? with
    | none => .next s
    | some x =>
      let l := Layout.of x.rec_
      let c := s.ctx x.sailing x.core
      let f := c.flight.find? fun f => f.id = x.id
      let (rd, wr) := match f with | some f => (f.reads, f.writes) | none => ([], [])
      if c.blocked x.core x.id l.oc .lighter rd wr then .next s
      else match tagGate (s.viewOf x.sailing) x.core x.tags with
        | .wait => .next s
        | .fault code detail => .next (lighterFault s k x code detail)
        | .go =>
          let (v, s) := s.free
          let left := l.total - x.done
          let n := if v.getLsbD 0 then left else v.toNat / 2 % (left + 1)
          let w := wordBits (x.srcWord l l.src)
          let (s, x', held) := copyRun s x l false [] (x.perFlit s false w n)
          .next (lighterResult s k (x'.next s x) l held)

/-! ### Publication (09 R285 to R290) -/

/-- The named ranges of an entry of core p: its name range and its half 1. -/
def entryRanges (p : Nat) (e : Pmap) : List (Nat × Nat) :=
  named p [(64 * e.base, 64 * (e.base + e.len)), (64 * e.alt, 64 * (e.alt + e.len))]

/-- An earlier engine command of the core, not complete, touches a range of its entry n, or will write to it once it is mapped (09 R286). -/
def Core.engineTouches (c : Core) (p n : Nat) (rs : List (Nat × Nat)) : Bool :=
  c.flight.any (fun f => meet f.area rs || meet f.reads rs || meet f.writes rs || f.handle.any fun h => h.core == p && h.entry == n)
    || c.ports.any fun q => q.bound && decide (q.fetched < q.total) && rs.any fun r => { q with fetched := 0 }.touches (spadBase p + ·) r.1 r.2

/-- Whether pub.map of entry n is legal (09 R286). -/
def mapBad (c : Core) (n : Nat) (v : Word) : Bool :=
  let e := Pmap.ofWord v
  let lo := 64 * e.base
  let al := 64 * e.alt
  let z := 64 * e.len
  v.extractLsb' 51 13 != 0 || (c.pmap.toList.getD n {}).v || decide (e.len = 0 ∨ 8192 < e.len) || !c.inside lo z || !c.inside al z
    || decide (0x800000 < lo + z ∨ 0x800000 < al + z) || decide (lo / 0x100000 ≠ (lo + z - 1) / 0x100000)
    || decide (al / 0x100000 ≠ (al + z - 1) / 0x100000) || decide (lo / 0x100000 ≠ al / 0x100000) || overlaps (lo, lo + z) al (al + z)
    || c.meetsEntry lo (lo + z) || c.meetsEntry al (al + z) || c.meetsRing 8 lo (lo + z) || c.meetsRing 8 al (al + z)

/-- pub.map (09 R286). -/
def bodyPubMap (n : BitVec 4) (a : BitVec 5) (s : State) : Res :=
  let v := srcA a s
  if mapBad s.own n.toNat v then .fault 0x02 1
  else if s.own.engineTouches s.me n.toNat (entryRanges s.me (Pmap.ofWord v)) then .stall 4
  else .ok (s.modOwn (·.later (.map n.toNat v)))

/-- pub.unmap (09 R286). -/
def bodyPubUnmap (n : BitVec 4) (s : State) : Res :=
  let e := s.own.pmap.toList.getD n.toNat {}
  if ¬ e.v then .fault 0x02 0
  else if s.own.engineTouches s.me n.toNat (entryRanges s.me e) then .stall 4
  else .ok (s.modOwn (·.later (.unmap n.toNat)))

/-- pub (09 R289): a release for its class (01 R44), so that it waits for the core's other accesses of the class, and their invalidations, too (01 R37, R41). -/
def bodyPub (_r : BitVec 3) (h t : BitVec 5) (oc : BitVec 4) (s : State) : Res :=
  let v := srcA h s
  let tag := srcA t s
  let c := s.own
  let n := v.toNat % 16
  let e := c.pmap.toList.getD n {}
  if v.extractLsb' 20 44 ≠ 0 ∨ v.toNat / 16 ≠ c.ctl.lid ∨ ¬ e.v then .fault 0x02 1
  else if tag.extractLsb' 32 32 ≠ 0 then .fault 0x02 2
  else
    let (lo, hi) := (spadBase s.me + 64 * e.base, spadBase s.me + 64 * (e.base + e.len))
    let mask : BitVec 16 := 1#16 <<< oc.toNat
    if (c.flight.any fun f => f.oc == oc.toNat && f.writing lo hi) ∨ c.pending mask ∨ s.owes s.me mask then .stall 4
    else .ok (s.modOwn (·.later (.pub n tag.toNat)))

/-- expect (09 R290). -/
def bodyExpect (h t : BitVec 5) (s : State) : Res :=
  let v := srcA h s
  let tag := srcA t s
  let c := s.own
  if v.extractLsb' 20 44 ≠ 0 ∨ 4 * c.ctl.qcount ≤ v.toNat / 16 then .fault 0x02 1
  else if tag.extractLsb' 32 32 ≠ 0 then .fault 0x02 2
  else if 8 ≤ c.expects.length ∧ ¬ c.expects.any (fun x => x.1 = v.toNat) then .fault 0x02 1
  else .ok (s.modOwn (·.later (.arm v.toNat tag.toNat)))

/-- expect.c (09 R290). -/
def bodyExpectC (h : BitVec 5) (s : State) : Res :=
  let v := srcA h s
  if v.extractLsb' 20 44 ≠ 0 ∨ 4 * s.own.ctl.qcount ≤ v.toNat / 16 then .fault 0x02 1
  else .ok (s.modOwn (·.later (.disarm v.toNat)))

/-! ### Walkers and translation markers (09 R293 to R295) -/

/-- The translation of a walk for a command: an entry, or a failed address. -/
def CopyCmd.walked (s : State) (x : CopyCmd) (va : Nat) : CopyCmd × Option TlbEntry :=
  let word := s.pteFor (dieOf x.core) x.marks x.sent
  let failed : TlbEntry :=
    { va := va / 65536 * 65536, pa := 0, bits := 16, rd := false, w := false, x := false, ctl := walkControl word va 4 x.ptroot }
  let e := walkFrom word va 4 x.ptroot
  ({ x with way := { at_ := s.wall }, trs := e.getD failed :: x.trs }, e)

/-- A translation enters a stream TLB of 64 entries as the most recent (09 R275). -/
def Core.stlbInsert (c : Core) (e : TlbEntry) : Core := { c with stlb := (e :: c.stlb.filter fun x => x.va ≠ e.va).take 64 }

/-- The commands of a die that wait for a walk: Lighter commands, then refills, with what they need. -/
def walkLighter (s : State) (k : Nat) : Option State :=
  (s.lighters.get [] k).findSome? fun x => (if x.carried s false then x.need s false else none).map fun n =>
    let x' := (x.walked s n.2).1
    setLighter s k ((s.lighters.get [] k).map fun z => if z.id = x.id ∧ z.core = x.core ∧ z.sailing = x.sailing then x' else z)

/-- A walk for the running refill of channel n of core p. -/
def walkRefill (s : State) (p n : Nat) : Option State :=
  match (s.core p).refills.toList.getD n [] with
  | x :: rest => (if x.carried s true then x.need s true else none).map fun k =>
      let (x', e) := x.walked s k.2
      let s := setRefills s p n (x' :: rest)
      match e with
      | some e => if x.marks = (s.die (dieOf p)).marks then s.modCore p (·.stlbInsert e) else s
      | none => s
  | [] => none

/-- PAGE_WALK (01 R21; 09 R275): a walker of the die completes or fails one translation that a copy command waits for, once its flits have passed the links on
its way (10 R307). -/
def execPageWalk (d : Nat) (s : State) : Host.Outcome State Fault Refusal :=
  let fromLighters := [2 * d, 2 * d + 1].findSome? (walkLighter s)
  let fromRefills := ((List.range 96).map (· + 96 * d)).findSome? fun p => (List.range 8).findSome? (walkRefill s p)
  .next ((fromLighters.orElse fun _ => fromRefills).getD s)

/-- A command of a die stands ahead of marker m and has translations to do (09 R295). -/
def aheadOf (s : State) (d m : Nat) : Bool :=
  let busy (x : CopyCmd) : Bool := decide (x.marks ≤ m ∧ x.done < (Layout.of x.rec_).total)
  ((s.lighters.get [] (2 * d)) ++ s.lighters.get [] (2 * d + 1)).any busy ||
    ((List.range 96).map (· + 96 * d)).any fun p => (s.core p).refills.toList.any fun q => q.any busy

/-- Lines that die d retains and that are no newer than a marker are dropped (09 R295); a line that every die has dropped is kept no longer. -/
def dropRetained (s : State) (d m : Nat) : State :=
  { s with kept := (s.kept.map fun k => if k.count d ≤ m ∧ ¬ k.gone.contains d then { k with gone := d :: k.gone } else k).filter fun k =>
      decide (k.gone.length < 256) }

/-- A shootdown of a sailing has passed every queue: TLBC gains 1 and the retained lines go (09 R295; 13 R389). -/
def shootDone (s : State) (n : Nat) (x : Shoot) : State :=
  let s := x.marks.foldl (fun s y => dropRetained s y.1 y.2) s
  writeBlock (s.modSailing n fun g => { g with tlbc := g.tlbc + 1, shoots := g.shoots.filter (· ≠ x) }) n

/-- The marker of a sailing's shootdown passes the queues of die d, where every command ahead has its translations. -/
def passMarker (s : State) (d n : Nat) (x : Shoot) : State :=
  match x.marks.find? fun y => y.1 = d with
  | none => s
  | some (_, m) =>
    if ¬ x.left.contains d ∨ aheadOf s d m then s
    else
      let x' := { x with left := x.left.filter (· ≠ d) }
      if x'.left.isEmpty then shootDone s n x
      else s.modSailing n fun g => { g with shoots := g.shoots.map fun y => if y = x then x' else y }

/-- MARKER_PASS (09 R295): the markers of die d that nothing ahead holds back pass; a shootdown of the die's own completes. -/
def execMarkerPass (d : Nat) (s : State) : Host.Outcome State Fault Refusal :=
  let s := s.sailings.foldl (fun s g => g.2.shoots.foldl (fun s x => passMarker s d g.1 x) s) s
  .next (match (s.die d).shoot with
    | some m => if aheadOf s d m then s else (dropRetained s d m).modDie d fun r => { r with shoot := none }
    | none => s)

/-- How many lines die d retains. -/
def State.retainedLines (s : State) (d : Nat) : Nat := ((s.kept.filter fun k => !k.gone.contains d).map (·.line)).eraseDups.length

/-- Die d retains a line. -/
def State.retains (s : State) (d line : Nat) : Bool := s.kept.any fun k => k.line == line && !k.gone.contains d

/-- A helm or host write to HBM that some die cannot retain (09 R294). -/
def retainFull (s : State) (pa : Nat) : Bool :=
  pa % 0x400000000000 < 0x300000000000 && decide (4096 ≤ s.kept.length) &&
    (List.range 256).any fun d => decide (4096 ≤ s.retainedLines d) && !s.retains d (pa / 64)

/-- The previous contents of the lines that a helm or host write changes are kept by every die (09 R294): once for each cycle with a write. -/
def retain (s : State) (pa n : Nat) : State :=
  if pa % 0x400000000000 < 0x300000000000 then
    let marks := (s.dies.filter fun x => x.2.marks ≠ 0).map fun x => (x.1, x.2.marks)
    let lines := ((List.range ((pa + n - 1) / 64 + 1 - pa / 64)).map (· + pa / 64)).filter fun k =>
      !s.kept.any fun y => y.line == k && y.at_ == s.wall && y.marks == marks && y.gone.isEmpty
    { s with kept := s.kept ++ lines.map fun k => { line := k, data := BitVec.ofNat 512 (s.read (64 * k) 64), at_ := s.wall, marks := marks } }
  else s

/-- A helm's or the host's write of n bytes at a physical address. -/
def helmWrite (s : State) (w : Writer) (pa v n : Nat) : State := (retain s pa n).writeBy w false pa v n

/-- A die whose limit of retained lines is reached and on which no shootdown is pending, that is, not complete on every die, places its own marker (09 R294). -/
def dieShoot (s : State) (d : Nat) : State :=
  let r := s.die d
  let pending := r.shoot.isSome || s.sailings.any fun g => g.2.shoots.any fun x => x.marks.any (·.1 = d)
  if 4096 ≤ s.retainedLines d ∧ ¬ pending then
    s.modDie d fun r => { r with shoot := some r.marks, marks := r.marks + 1, ownMarks := r.ownMarks ++ [r.marks + 1] }
  else s

/-- DIE_SHOOTDOWN (09 R294). -/
def execDieShootdown (d : Nat) (s : State) : Host.Outcome State Fault Refusal := .next (dieShoot s d)

/-! ### The instructions of this file at issue -/

/-- SBIND issued by itself (R132). -/
def execSbind (g : BitVec 4) (r : BitVec 5) (a : BitVec 5) (f : BitVec 1) (p : BitVec 2) (s : State) : Host.Outcome State Fault Refusal :=
  finish s (queueLimit (issue (.sbind g r a f p) g (bodySbind r a f p) s))
/-- SBIND_U issued by itself (R136). -/
def execSbindU (g : BitVec 4) (r : BitVec 5) (f : BitVec 1) (p : BitVec 2) (s : State) : Host.Outcome State Fault Refusal :=
  finish s (queueLimit (issue (.sbindU g r f p) g (bodySbindU r f p) s))
/-- LXSEND issued by itself (R276). -/
def execLxsend (g : BitVec 4) (a : BitVec 5) (s : State) : Host.Outcome State Fault Refusal :=
  finish s (queueLimit (issue (.lxsend g a) g (bodyLxsend a) s))
/-- LXSEND_CH issued by itself (R276). -/
def execLxsendCh (g : BitVec 4) (n : BitVec 3) (a : BitVec 5) (s : State) : Host.Outcome State Fault Refusal :=
  finish s (queueLimit (issue (.lxsendCh g n a) g (bodyLxsendCh n a) s))
/-- LXSEND_CLS issued by itself (R276). -/
def execLxsendCls (g : BitVec 4) (n : BitVec 3) (s : State) : Host.Outcome State Fault Refusal :=
  finish s (queueLimit (issue (.lxsendCls g n) g (bodyLxsendCls n) s))
/-- PUB issued by itself (R289). -/
def execPub (g : BitVec 4) (r : BitVec 3) (h : BitVec 5) (t : BitVec 5) (c : BitVec 4) (s : State) : Host.Outcome State Fault Refusal :=
  finish s (queueLimit (issue (.pub g r h t c) g (bodyPub r h t c) s))
/-- PUB_MAP issued by itself (R286). -/
def execPubMap (g : BitVec 4) (n : BitVec 4) (a : BitVec 5) (s : State) : Host.Outcome State Fault Refusal :=
  finish s (queueLimit (issue (.pubMap g n a) g (bodyPubMap n a) s))
/-- PUB_UNMAP issued by itself (R286). -/
def execPubUnmap (g : BitVec 4) (n : BitVec 4) (s : State) : Host.Outcome State Fault Refusal :=
  finish s (queueLimit (issue (.pubUnmap g n) g (bodyPubUnmap n) s))
/-- EXPECT issued by itself (R290). -/
def execExpect (g : BitVec 4) (h : BitVec 5) (t : BitVec 5) (s : State) : Host.Outcome State Fault Refusal :=
  finish s (queueLimit (issue (.expect g h t) g (bodyExpect h t) s))
/-- EXPECT_C issued by itself (R290). -/
def execExpectC (g : BitVec 4) (h : BitVec 5) (s : State) : Host.Outcome State Fault Refusal :=
  finish s (queueLimit (issue (.expectC g h) g (bodyExpectC h) s))

end Sys2Proof.Machine
end

