-- ==== Sys2Proof/Machine/SpecialFn.lean ====
section
/-! DEFINITION. The functions of the special-function unit (06 R217, R218). A transcendental value is enclosed between two fixed-point
numbers far narrower than any format's spacing; a result is the common rounding of both ends. -/

namespace Sys2Proof.Machine

/-! ### Fixed point: a value v with p fraction bits stands for v ÷ 2^p -/

/-- ln 2. -/
def ln2Fix (p : Nat) : Nat := (List.range (p + 8)).foldl (fun z k => z + 2 ^ p / ((k + 1) * 2 ^ (k + 1))) 0

/-- arctan(1 ÷ q). -/
def atanInv (p q : Nat) : Int :=
  (List.range (p / 4 + 8)).foldl (fun (z : Int) k =>
    let x : Int := (2 ^ p / ((2 * k + 1) * q ^ (2 * k + 1)) : Nat)
    if k % 2 = 0 then z + x else z - x) 0

/-- π. -/
def piFix (p : Nat) : Nat := (16 * atanInv p 5 - 4 * atanInv p 239).toNat

/-- exp of r, 0 ≤ r < 1. -/
def expFix (p r : Nat) : Nat :=
  ((List.range (p / 4 + 60)).foldl (fun (x : Nat × Nat) k =>
    let term := x.1 * r / 2 ^ p / (k + 1)
    (term, x.2 + term)) (2 ^ p, 2 ^ p)).2

/-- exp of x as y × 2^n: y with p fraction bits, and n. -/
def expSplit (p : Nat) (x : Int) : Nat × Int :=
  let l : Int := ln2Fix p
  let n := x / l
  (expFix p (x - n * l).toNat, n)

/-- The natural logarithm of t, 1 ≤ t < 2. -/
def lnFix (p t : Nat) : Nat :=
  let z := (t - 2 ^ p) * 2 ^ p / (t + 2 ^ p)
  let z2 := z * z / 2 ^ p
  2 * ((List.range (p / 3 + 8)).foldl (fun (x : Nat × Nat) k => (x.1 * z2 / 2 ^ p, x.2 + x.1 / (2 * k + 1))) (z, 0)).2

/-- The integer square root of a number below 4^b. -/
def isqrtBits (b n : Nat) : Nat :=
  (List.range b).foldr (fun i r => if (r + 2 ^ i) * (r + 2 ^ i) ≤ n then r + 2 ^ i else r) 0

/-- Σ (2t)^k ÷ (2k + 1)!! over k, for t ≥ 0: erf and Φ are this series times an exponential. -/
def oddSeries (p t : Nat) : Nat :=
  ((List.range (p + 64)).foldl (fun (x : Nat × Nat) k =>
    let term := x.1 * (2 * t) / 2 ^ p / (2 * k + 3)
    (term, x.2 + term)) (2 ^ p, 2 ^ p)).2

/-- sin and cos of r, 0 ≤ r < 2. -/
def sinCosFix (p r : Nat) : Int × Int :=
  let t := (List.range (p / 4 + 60)).foldl (fun (x : Nat × Int × Int) k =>
    let term := x.1 * r / 2 ^ p / (k + 1)
    match (k + 1) % 4 with
    | 0 => (term, x.2.1, x.2.2 + term)
    | 1 => (term, x.2.1 + term, x.2.2)
    | 2 => (term, x.2.1, x.2.2 - term)
    | _ => (term, x.2.1 - term, x.2.2)) (2 ^ p, (0, ((2 ^ p : Nat) : Int)))
  t.2

/-! ### Enclosures -/

/-- A value: exact, or strictly between two magnitudes of one sign, in units of 2^e. -/
inductive Enclosed where
  | exact (v : Val)
  | between (neg : Bool) (lo hi : Nat) (e : Int)
  deriving DecidableEq, Repr

/-- A magnitude v × 2^e known to within d units. -/
def around (neg : Bool) (v d : Nat) (e : Int) : Enclosed := .between neg (v - d) (v + d) e

/-- Just above (up) or just below m × 2^e in magnitude. -/
def beside (neg up : Bool) (m : Nat) (e : Int) : Enclosed :=
  let b := m * 2 ^ 200
  if up then .between neg (b + 1) (b + 2) (e - 200) else .between neg (b - 2) (b - 1) (e - 200)

/-- A magnitude too small, or too large, for every format. -/
def tiny (neg : Bool) : Enclosed := .between neg 1 2 (-6000)
/-- A magnitude too large for every format. -/
def huge : Enclosed := .between false 1 2 6000

/-- m × 2^e with p fraction bits. -/
def toFix (p m : Nat) (e : Int) : Nat := if 0 ≤ e + p then m * pow2 (e + p) else m / pow2 (-(e + p))

/-- exp of ±m × 2^e. -/
def expEnc (neg : Bool) (m : Nat) (e : Int) : Enclosed :=
  if 12 ≤ topBit m e then (if neg then tiny false else huge)
  else if topBit m e < -100 then beside false (!neg) 1 0
  else
    let x : Int := toFix 320 m e
    let (y, n) := expSplit 320 (if neg then -x else x)
    around false y (2 ^ 40) (n - 320)

/-- exp2 of ±m × 2^e. -/
def exp2Enc (neg : Bool) (m : Nat) (e : Int) : Enclosed :=
  if 12 ≤ topBit m e then (if neg then tiny false else huge)
  else if topBit m e < -100 then beside false (!neg) 1 0
  else
    let x : Int := if neg then -(toFix 320 m e : Nat) else toFix 320 m e
    let one : Int := (2 ^ 320 : Nat)
    let n := x / one
    let r := (x - n * one).toNat
    if r = 0 then .exact (.fin false 1 n)
    else around false (expFix 320 (r * ln2Fix 320 / 2 ^ 320)) (2 ^ 40) (n - 320)

/-- log2 of m × 2^e. -/
def log2Enc (m : Nat) (e : Int) : Enclosed :=
  let k := topBit m e
  let b := Nat.log2 m
  if m = 2 ^ b then .exact (Val.ofInt k)
  else
    let z : Int := k * ((2 ^ 320 : Nat) : Int) + ((lnFix 320 (m * 2 ^ 320 / 2 ^ b) * 2 ^ 320 / ln2Fix 320 : Nat) : Int)
    around (decide (z < 0)) z.natAbs (2 ^ 40) (-320)

/-- 1 ÷ √(m × 2^e). -/
def rsqrtEnc (m : Nat) (e : Int) : Enclosed :=
  let odd := (e % 2).toNat
  let m := m * 2 ^ odd
  let r := isqrtBits 300 (2 ^ 598 / m)
  let h := (e - odd) / 2
  if r * r * m = 2 ^ 598 then .exact (.fin false r (-h - 299)) else .between false (2 * r) (2 * r + 2) (-h - 300)

/-- tanh of a magnitude. -/
def tanhEnc (neg : Bool) (m : Nat) (e : Int) : Enclosed :=
  if 7 ≤ topBit m e then beside neg false 1 0
  else if topBit m e < -100 then beside neg false m e
  else
    let (y, n) := expSplit 640 (-(2 * toFix 640 m e : Nat))
    let q := y * 2 ^ 640 / pow2 (-n) / 2 ^ 640
    around neg ((2 ^ 640 - q) * 2 ^ 640 / (2 ^ 640 + q)) (2 ^ 40) (-640)

/-- 1 ÷ (1 + exp(−x)) of x = ±m × 2^e. -/
def sigmoidEnc (neg : Bool) (m : Nat) (e : Int) : Enclosed :=
  if ¬ neg ∧ 6 ≤ topBit m e then beside false false 1 0
  else if 12 ≤ topBit m e then tiny false
  else if topBit m e < -100 then beside false (!neg) 1 (-1)
  else
    let (y, n) := expSplit 320 (-(toFix 320 m e : Nat))
    let one := pow2 (320 - n)
    if neg then around false (y * 2 ^ 640 * pow2 (-n) / (one + y)) (2 ^ 440) (n - 640)
    else around false (one * 2 ^ 320 / (one + y)) (2 ^ 40) (-320)

/-- erf of a magnitude. -/
def erfEnc (neg : Bool) (m : Nat) (e : Int) : Enclosed :=
  if 5 ≤ topBit m e then beside neg false 1 0
  else
    let p := 4096
    let t := toFix p (m * m) (2 * e)
    let (y, n) := expSplit p (-(t : Int))
    let g := y * oddSeries p t / 2 ^ p / pow2 (-n)
    let rootPi := isqrtBits (p + 8) (piFix p * 2 ^ p)
    around neg (m * (2 * g * 2 ^ p / rootPi)) (m * 2 ^ 1200) (e - p)

/-- x × Φ(x) of x = ±m × 2^e. -/
def geluEnc (neg : Bool) (m : Nat) (e : Int) : Enclosed :=
  if 40 * 2 ^ 20 ≤ toFix 20 m e then (if neg then tiny true else beside false false m e)
  else
    let p := 4096
    let x := toFix p m e
    let t := toFix p (m * m) (2 * e - 1)
    let (y, n) := expSplit p (-(t : Int))
    let g := y * oddSeries p t / 2 ^ p / pow2 (-n)
    let root := isqrtBits (p + 8) (2 * piFix p * 2 ^ p)
    let half := 2 ^ (p - 1)
    let d := g * x / root
    around neg (m * (if neg then half - d else half + d)) (m * 2 ^ 1400) (e - p)

/-- sin (or cos) of ±m × 2^e: the argument is reduced by multiples of π ÷ 2. -/
def sinCosEnc (cosine neg : Bool) (m : Nat) (e : Int) : Enclosed :=
  if topBit m e < -100 then (if cosine then beside false false 1 0 else beside neg false m e)
  else
    let p := 2560
    let x := toFix p m e
    let h := piFix p / 2
    let k := x / h
    let sc : Int × Int := sinCosFix p (x - k * h)
    let sn := sc.1
    let cs := sc.2
    let q := (if cosine then k + 1 else k) % 4
    let v : Int := if q = 0 then sn else if q = 1 then cs else if q = 2 then -sn else -cs
    around ((!cosine && neg) != decide (v < 0)) v.natAbs (2 ^ 1200) (-(p : Int))

/-- The value of function f on a finite non-zero argument (06 R217). -/
def sfFinite (f : Nat) (neg : Bool) (m : Nat) (e : Int) : Enclosed :=
  match f with
  | 0 => exp2Enc neg m e
  | 1 => expEnc neg m e
  | 2 => if neg then .exact .nan else log2Enc m e
  | 3 => .exact (Val.div (.fin false 1 0) (.fin neg m e))
  | 4 => if neg then .exact .nan else rsqrtEnc m e
  | 5 => .exact (Val.sqrt (.fin neg m e))
  | 6 => tanhEnc neg m e
  | 7 => sigmoidEnc neg m e
  | 8 => geluEnc neg m e
  | 9 => erfEnc neg m e
  | 10 => sinCosEnc false neg m e
  | _ => sinCosEnc true neg m e

/-- The value of function f, the special values of 06 R218 included. -/
def sfValue (f : Nat) (v : Val) : Enclosed :=
  let one : Val := .fin false 1 0
  match v with
  | .fin neg m e => sfFinite f neg m e
  | .nan | .nar => .exact .nan
  | .zero n => .exact (match f with
    | 0 | 1 | 11 => one
    | 2 => .inf true
    | 3 | 4 => .inf n
    | 7 => .fin false 1 (-1)
    | _ => .zero n)
  | .inf n => .exact (match f with
    | 0 | 1 => if n then .zero false else .inf false
    | 2 | 5 => if n then .nan else .inf false
    | 3 => .zero n
    | 4 => if n then .nan else .zero false
    | 6 | 9 => .fin n 1 0
    | 7 => if n then .zero false else one
    | 8 => if n then .zero true else .inf false
    | _ => .nan)

/-- The result of function f in a compute format (06 R217): rounded once to nearest in the .cr form and for sqrt; else one of the two
values that bracket the exact one, or that value itself. Where a rounding is not decided by the enclosure the unit's own choice stands
(DESIGN CHOICE, log 8). -/
def sfResult (f : Nat) (cr : Bool) (fmt : FloatFmt) (arg : Val) : Nat :=
  let pick (a b : Nat) : Nat := if a = b then a else if Config.sfuUp f (encodeCompute fmt arg) then b else a
  match sfValue f arg with
  | .exact v =>
    if cr ∨ f = 5 then encodeCompute fmt v
    else match v with
      | .fin _ _ _ => pick (encodeFloat fmt 1 0 0 v) (encodeFloat fmt 2 0 1 v)
      | _ => encodeCompute fmt v
  | .between neg lo hi e =>
    if cr then pick (encodeCompute fmt (.fin neg lo e)) (encodeCompute fmt (.fin neg hi e))
    else pick (encodeFloat fmt 1 0 0 (.fin neg lo e)) (encodeFloat fmt 2 0 1 (.fin neg hi e))

end Sys2Proof.Machine
end

