-- ==== Sys2Proof/Machine/Vector.lean ====
section
/-! DEFINITION. The vector sequencer: what a V operation checks and captures at issue, its nominal timing, its execution, repetition,
vsync, engine faults, and the special-function queue (06 R188 to R222; chs and chv of 10 R316, R317). -/

namespace Sys2Proof.Machine

/-! ### The shape of an operation -/

/-- How the element counts of an operation's operands must agree (06 R204 to R215). -/
inductive CountRule where
  | broadcast
  | equal
  | reduce
  | dot
  | sum
  | sumPair
  | single
  | free
  deriving DecidableEq, Repr

/-- What the sequencer needs to know of an operation: its operands, whether it reads its destination, its compute format code,
its count rule, its depth, the quire registers it reads and writes, and whether it encodes through the destination's banks. -/
structure VSpec where
  d : Option (BitVec 4) := none
  s1 : Option (BitVec 4) := none
  s2 : Option (BitVec 4) := none
  dold : Bool := false
  comp : Option Nat := none
  rule : CountRule := .free
  depth : Nat → Nat := fun _ => 6
  qr : Option Nat := none
  qw : Option Nat := none
  encodes : Bool := true

/-- The depth of a reduction over n elements (06 R190). -/
def treeDepth (n : Nat) : Nat := 8 + 4 * (Nat.log2 (2 * n - 1))

/-- The shape of each V operation that the sequencer runs; none for any other instruction. -/
def vspec (op : Instr) : Option VSpec :=
  match op with
  | .vadd _ d a b _ k | .vsub _ d a b _ k | .vmul _ d a b _ k | .vmin _ d a b _ k | .vmax _ d a b _ k =>
    some { d := d, s1 := a, s2 := b, comp := k.toNat, rule := .broadcast }
  | .vfma _ d a b _ k | .vfms _ d a b _ k | .vfnma _ d a b _ k =>
    some { d := d, s1 := a, s2 := b, dold := true, comp := k.toNat, rule := .broadcast, depth := fun _ => 8 }
  | .vabs _ d a _ k | .vmov _ d a _ k => some { d := d, s1 := a, comp := k.toNat, rule := .broadcast }
  | .vcvt _ d a _ m => some { d := d, s1 := a, rule := .equal, encodes := m == 0 }
  | .vsf _ d a _ _ _ k => some { d := d, s1 := a, comp := k.toNat, rule := .equal, depth := fun _ => 12 }
  | .vred _ d a _ _ k => some { d := d, s1 := a, comp := k.toNat, rule := .reduce, depth := treeDepth }
  | .vscan _ d a _ _ k => some { d := d, s1 := a, comp := k.toNat, rule := .equal, depth := treeDepth }
  | .vcmp _ d a b _ _ k => some { d := d, s1 := a, s2 := b, comp := k.toNat, rule := .broadcast }
  | .vsel _ d a b _ k => some { d := d, s1 := a, s2 := b, dold := true, comp := k.toNat, rule := .broadcast }
  | .vfill _ d _ _ => some { d := d }
  | .vdot _ d a b _ k => some { d := d, s1 := a, s2 := b, comp := k.toNat, rule := .dot, depth := treeDepth }
  | .tdecv _ d a _ => some { d := d, s1 := a, rule := .equal, encodes := false }
  | .vqacc _ q a b _ => some { s1 := a, s2 := b, rule := .sumPair, depth := fun _ => 8, qr := some q.toNat, qw := some q.toNat }
  | .vqaccS _ q a _ => some { s1 := a, rule := .sum, depth := fun _ => 8, qr := some q.toNat, qw := some q.toNat }
  | .vqrd _ d q _ => some { d := d, rule := .single, qr := some q.toNat }
  | .vqrdZ _ d q _ => some { d := d, rule := .single, qr := some q.toNat, qw := some q.toNat }
  | .vqclr _ q _ => some { depth := fun _ => 1, qw := some q.toNat }
  | .chs _ _ r _ => some { s1 := r, encodes := false, depth := fun _ => 1 }
  | .chv _ d _ _ => some { d := d, encodes := false, depth := fun _ => 4 }
  | _ => none

/-- The ordering class of a V operation; vqclr and vloop have none in their words, which reads 0. -/
def vclass (op : Instr) : Nat :=
  match op with
  | .vadd _ _ _ _ c _ | .vsub _ _ _ _ c _ | .vmul _ _ _ _ c _ | .vmin _ _ _ _ c _ | .vmax _ _ _ _ c _ => c.toNat
  | .vfma _ _ _ _ c _ | .vfms _ _ _ _ c _ | .vfnma _ _ _ _ c _ | .vsel _ _ _ _ c _ | .vdot _ _ _ _ c _ => c.toNat
  | .vabs _ _ _ c _ | .vmov _ _ _ c _ | .vcvt _ _ _ c _ | .vred _ _ _ c _ _ | .vscan _ _ _ c _ _ => c.toNat
  | .vsf _ _ _ _ c _ _ => c.toNat
  | .vcmp _ _ _ _ c _ _ => c.toNat
  | .vfill _ _ _ c | .tdecv _ _ _ c | .vqacc _ _ _ _ c | .vqaccS _ _ _ c | .vqrd _ _ _ c | .vqrdZ _ _ _ c => c.toNat
  | .chs _ _ _ c | .chv _ _ _ c => c.toNat
  | _ => 0

/-- The rate of the special-function unit for a vsf; no limit for any other operation (06 R218). -/
def sfRate (op : Instr) : Nat :=
  match op with
  | .vsf _ _ _ _ _ r k => if r = 0 then 32 else if k = 1 then 16 else 4
  | _ => 256

/-- The packing of an operand (06 R201). -/
def packing (h : Shape) (w : Nat) : Nat := if ¬ h.pack then 1 else if w ≤ 8 then 8 else if w ≤ 16 then 4 else 1

/-! ### Checks at issue -/

/-- The count rule of an operand is broken (06 R198 cause 4): operand 0 d, 1 s1, 2 s2. -/
def countBad (rule : CountRule) (nd n1 n2 opn : Nat) : Bool :=
  match rule, opn with
  | .broadcast, 1 => n1 != nd && n1 != 1
  | .broadcast, 2 => n2 != nd && n2 != 1
  | .equal, 1 => n1 != nd
  | .reduce, 0 | .single, 0 | .dot, 0 => nd != 1
  | .dot, 2 | .sumPair, 2 => n1 != n2
  | _, _ => false

/-- The banks of bytes [lo, hi). -/
def banksOf (bf : Vector Word 8) (r : Nat × Nat) : List Word :=
  (List.range ((r.2 - 1) / 0x100000 + 1 - r.1 / 0x100000)).map fun i => bankWord bf (r.1 + i * 0x100000)

/-- A source whose banks all hold tapered formats of one code. -/
def taperedSource (bf : Vector Word 8) (r : Nat × Nat) : Option Nat :=
  match banksOf bf r with
  | v :: vs => match fmtOf (fmtCode v) with
    | some (.tapered n _) => if vs.all fun u => fmtCode u == fmtCode v then some n else none
    | _ => none
  | [] => none

/-- The quire width of a register in program order: that of the last vqclr pushed on it and not yet complete, else its own (06 R213). -/
def Vec.quireWidth (v : Vec) (k : Nat) : Nat :=
  v.runs.foldl (fun n r => widthAfter r.op k n) (v.vq.toList.getD k {}).n
where
  /-- The width of register k after an operation. -/
  widthAfter (op : Instr) (k n : Nat) : Nat :=
    match op with
    | .vqclr _ q w => if q.toNat = k then 8 * 2 ^ w.toNat else n
    | _ => n

/-- The format rules of an operation whose shapes are good (06 R207 to R215, 02 R54, R81): the operand at fault. qw: the widths of the quire registers.
A comparison in c = Q reads its tapered elements as a vector instruction with the quire does, without scale (02 R54). -/
def formatFault (qw : Nat → Nat) (op : Instr) (bf : Vector Word 8) (rd r1 r2 : Nat × Nat) : Option Nat :=
  let quires (r : Nat × Nat) (n : Nat) : Bool := (banksOf bf r).all fun w => quireSource w n
  let own (r : Nat × Nat) : Nat := match banksOf bf r with
    | w :: _ => ((fmtOf (fmtCode w)).bind Fmt.quireOf).getD 0
    | [] => 0
  let dest : List Nat := (banksOf bf rd).map fmtCode
  let scaled (r : Nat × Nat) : Bool := (banksOf bf r).any fun w => fmtScale w != 0
  match op with
  | .vred _ _ _ _ _ k | .vscan _ _ _ _ _ k => if k = 4 ∧ ¬ quires r1 (own r1) then some 1 else none
  | .vdot _ _ _ _ _ k =>
    if k ≠ 4 then none
    else if (taperedSource bf r1).isNone ∨ ¬ quires r1 (own r1) then some 1
    else if taperedSource bf r2 ≠ taperedSource bf r1 ∨ ¬ quires r2 (own r1) then some 2 else none
  | .vcmp _ _ _ _ _ _ k =>
    if k ≠ 4 then none
    else if (taperedSource bf r1).isNone ∨ scaled r1 then some 1
    else if taperedSource bf r2 ≠ taperedSource bf r1 ∨ scaled r2 then some 2 else none
  | .tdecv _ _ _ _ =>
    if ¬ dest.all fun c => c == 6 || c == 7 then some 0
    else if ¬ (banksOf bf r1).all fun w => match fmtOf (fmtCode w) with | some f => f.isTapered | none => false then some 1 else none
  | .vqacc _ q _ _ _ =>
    if ¬ quires r1 (qw q.toNat) then some 1 else if ¬ quires r2 (qw q.toNat) then some 2 else none
  | .vqaccS _ q _ _ => if ¬ quires r1 (qw q.toNat) then some 1 else none
  | .vqrd _ _ q _ | .vqrdZ _ _ q _ =>
    if (banksOf bf rd).any fun w => match fmtOf (fmtCode w) with | some (.quire n) => n != qw q.toNat | _ => false then some 0
    else none
  | _ => none

/-- The opcode of a V operation with its slot class, as a determinism fault's DETAIL (03 R121). -/
def vDetail (op : Instr) : Nat := 0x300 + op.opcode

/-- The hulls of an operation's operands over repetitions r0 to r1: destination, s1, s2. -/
def hulls (bf : Vector Word 8) (hd h1 h2 : Shape) (r0 r1 : Nat) : (Nat × Nat) × (Nat × Nat) × (Nat × Nat) :=
  (hd.range bf r0 r1, h1.range bf r0 r1, h2.range bf r0 r1)

/-- The element width of a bulk channel (10 R301). -/
def Chan.elemBits (c : Chan) : Nat := 8 * 2 ^ c.width

/-- The checks of chs and chv (10 R312, R316): the channel record, whose endpoint must be good in every repetition (06 R216), and its scratchpad record. -/
def bulkFault (s : State) (bf : Vector Word 8) (writer : Bool) (hc hm : Shape) (opc opm r0 r1 : Nat) : Option (Nat × Nat) :=
  let c := s.own
  let bad (ep : Nat) : Bool := decide (64 ≤ ep) || match s.endpoint s.me writer true ep with
    | none => true
    | some (_, _, ch) => hm.width bf r0 != ch.elemBits
  let shape (opn cause : Nat) : Option (Nat × Nat) := some (0x0E, opn * 256 + cause)
  let chan : Option (Nat × Nat) :=
    if (hc.counts.take hc.ndim).contains 0 then shape opc 1
    else if hc.rsv ≠ 0 ∨ (hc.chan ∧ hc.base / 2 ^ 16 ≠ 0) then shape opc 2
    else if ¬ hc.chan ∨ (List.range (r1 + 1 - r0)).any fun i => decide ((hc.base : Int) + (r0 + i : Nat) * hc.delta < 0) || bad (hc.start (r0 + i)) then shape opc 12
    else none
  let mem := hm.fault c bf opm r0 r1 (hm.total != hc.total) false
  if opc = 0 then chan.orElse fun _ => mem else mem.orElse fun _ => chan

/-- The first fault of a V operation at issue: its shapes in the order d, s1, s2 (06 R198), its formats, then stochastic rounding (02 R80)
and the determinism of vsf (06 R217). -/
def vectorFault (s : State) (op : Instr) (sp : VSpec) (cap : Capture) (hd h1 h2 : Shape) (r0 r1 : Nat) (qw : Nat → Nat) : Option (Nat × Nat) :=
  let c := s.own
  let bf := cap.bfmt
  match op with
  | .chs _ _ _ _ => bulkFault s bf true hd h1 0 1 r0 r1
  | .chv _ _ _ _ => bulkFault s bf false h1 hd 1 0 r0 r1
  | _ =>
    let (nd, n1, n2) := (hd.total, h1.total, h2.total)
    let (rd, q1, q2) := hulls bf hd h1 h2 r0 r1
    let clash (h : Shape) (q : Nat × Nat) : Bool := overlaps rd q.1 q.2 && !hd.same h
    let bad8 := (sp.s1.isSome && clash h1 q1) || (sp.s2.isSome && clash h2 q2)
    let check (present : Bool) (h : Shape) (opn : Nat) (b8 : Bool) : Option (Nat × Nat) :=
      if present then h.fault c bf opn r0 r1 (countBad sp.rule nd n1 n2 opn) b8 else none
    let shapes := ((check sp.d.isSome hd 0 bad8).orElse fun _ => check sp.s1.isSome h1 1 false).orElse fun _ => check sp.s2.isSome h2 2 false
    let formats := shapes.orElse fun _ => (formatFault qw op bf rd q1 q2).map fun n => (0x02, n)
    let stoch := formats.orElse fun _ => if sp.d.isSome ∧ sp.encodes ∧ anyStoch bf rd then stochFault cap 0 (vDetail op) else none
    stoch.orElse fun _ => match op with
      | .vsf _ _ _ _ _ r _ => if r = 0 ∧ cap.detl.extractLsb' 0 2 = 3 then some (0x06, vDetail op) else none
      | _ => none

/-! ### Entering the sequencer -/

/-- The flits of a bulk transfer of n elements of w bits (10 R316). -/
def flitCount (n w : Nat) : Nat := ceilDiv (n * w) 512

/-- The memory operands of an operation. -/
def memoryOperands (op : Instr) (sp : VSpec) (hd h1 h2 : Shape) : List Shape :=
  match op with
  | .chs _ _ _ _ => [h1]
  | .chv _ _ _ _ => [hd]
  | _ => (if sp.d.isSome then [hd] else []) ++ (if sp.s1.isSome then [h1] else []) ++ (if sp.s2.isSome then [h2] else [])

/-- The rate of an execution: P elements in a cycle, or those of a flit (06 R201, R218; 10 R317). -/
def rateOf (op : Instr) (sp : VSpec) (bf : Vector Word 8) (hd h1 h2 : Shape) (rep : Nat) : Nat :=
  let ops := memoryOperands op sp hd h1 h2
  match op with
  | .chs _ _ _ _ | .chv _ _ _ _ => ops.foldl (fun n h => Nat.min n (512 / h.width bf rep)) 512
  | _ => Nat.min (32 * ops.foldl (fun k h => Nat.min k (packing h (h.width bf rep))) 8) (sfRate op)

/-- The busy time of an execution (06 R190, R201; 10 R317). -/
def busyTime (op : Instr) (sp : VSpec) (bf : Vector Word 8) (hd h1 h2 : Shape) (rep : Nat) : Nat :=
  let ops := memoryOperands op sp hd h1 h2
  if ops.isEmpty then 1 else ceilDiv (ops.foldl (fun n h => Nat.max n h.total) 0) (rateOf op sp bf hd h1 h2 rep)

/-- The element count that sets an execution's depth. -/
def depthCount (sp : VSpec) (h1 : Shape) : Nat := if sp.s1.isSome then Nat.max 1 h1.total else 1

/-- The depth of a chs with f flits that starts in cycle s (10 R317): from its last put to the slot that carries its last flit, by the channel's slots alone: how many cycles are looked
through, the cycle, its flits that have entered the send buffer, and those that have left it. Flits of earlier transfers leave first, and credits are
taken to be there (DEDUCED, log 67). -/
def Chan.lastSlot (c : Chan) (period f s : Nat) : Nat → Nat → Nat → Nat → Nat
  | 0, u, _, _ => u
  | n + 1, u, put, sent =>
    let sent' := Nat.min put (sent + c.slots.count (u % period))
    if f ≤ sent' then u else c.lastSlot period f s n (u + 1) (if s ≤ u ∧ put < f ∧ put - sent < 8 then put + 1 else put) sent'

/-- The nominal completion of an execution (06 R190). -/
def VRun.nominal (r : VRun) : Nat := r.start + r.busy - 1 + r.depth

/-- The quire registers that an operation reads or writes. -/
def quiresOf (op : Instr) : List Nat := match vspec op with
  | some sp => sp.qr.toList ++ sp.qw.toList
  | none => []

/-- An earlier execution that a later one must wait for: same class with meeting hulls, or a quire register it writes (06 R190). -/
def VRun.before (e : VRun) (oc : Nat) (reads writes : List (Nat × Nat)) (quires : List Nat) : Bool :=
  (e.oc == oc && (meet e.writes (reads ++ writes) || meet e.reads writes)) ||
    (match (vspec e.op).bind (·.qw) with | some k => quires.contains k | none => false)

/-- The nominal start of a new execution (06 R190). -/
def nominalStart (v : Vec) (t oc : Nat) (reads writes : List (Nat × Nat)) (quires : List Nat) : Nat :=
  let prev := match v.runs.getLast? with | some r => r.start + r.busy | none => 0
  v.runs.foldl (fun n e => if e.before oc reads writes quires then Nat.max n (e.nominal + 1) else n) (Nat.max (t + 1) prev)

/-- The depth of a chs of `f` flits on an endpoint, whose nominal start is `start`: earlier transfers of the endpoint have sent theirs (10 R317). -/
def sendDepth (s : State) (p : Nat) (v : Vec) (ep start f : Nat) : Nat :=
  match s.endpoint p true true ep with
  | none => 1
  | some (n, _, ch) =>
    let period := (s.sailing n).period
    let prior := v.runs.foldl (fun u r => match r.op with
      | .chs _ _ _ _ => if (Shape.of r.hd).start r.rep = ep then Nat.max u r.nominal else u
      | _ => u) 0
    ch.lastSlot period f start ((f + 1) * period + prior) (Nat.max start prior) 0 0 - (start + f - 1)

/-- One execution enters the sequencer, of an entry that an earlier command has begun or that it begins: its hulls over repetitions r0 to r1, its checks, its command in flight. -/
def enqueue (s : State) (op : Instr) (sp : VSpec) (cap : Capture) (hd h1 h2 : BitVec 256) (rep r0 r1 : Nat) (last : Bool)
    (tags : List (Nat × Nat)) (entry : Option Nat := none) : State :=
  let p := s.me
  let (sd, s1, s2) := (Shape.of hd, Shape.of h1, Shape.of h2)
  let (rd, q1, q2) := hulls cap.bfmt sd s1 s2 r0 r1
  let reads := (if sp.s1.isSome then [q1] else []) ++ (if sp.s2.isSome then [q2] else []) ++ (if sp.dold then [rd] else [])
  let writes := if sp.d.isSome then [rd] else []
  let oc := vclass op
  let (id, s) := launch s p .vector oc (named p reads) (named p writes)
  let c := s.core p
  let start := nominalStart c.vec c.run.t oc reads writes (quiresOf op)
  let slip := if start = c.run.t + 1 then 0 else match c.vec.runs.getLast? with | some r => r.slip | none => 0
  let busy := busyTime op sp cap.bfmt sd s1 s2 rep
  let depth := match op with
    | .chs _ _ _ _ => sendDepth s p c.vec (sd.start rep) start busy
    | _ => sp.depth (depthCount sp s1)
  let run : VRun :=
    { id := id, entry := entry.getD id, last := last, op := op, hd := hd, h1 := h1, h2 := h2, cap := cap, rep := rep, baddr := s.cur.addr, word := s.cur.word,
      oc := oc, reads := reads, writes := writes, tags := tags,
      start := start, busy := busy, depth := depth, rate := rateOf op sp cap.bfmt sd s1 s2 rep, slip := slip }
  s.modCore p fun c => { c with vec := { c.vec with runs := c.vec.runs ++ [run] } }

/-- The entries that the sequencer holds (06 R189). -/
def Vec.entries (v : Vec) : Nat := (v.runs.filter (·.last)).length

/-- A pushed entry joins the template record of the last 16 (06 R216). -/
def Vec.record (v : Vec) (x : VTemplate) : Vec := { v with template := (x :: v.template).take 16 }

/-- The records of an operation's operands: for chs and chv the channel's record stands at its own operand. -/
def operandRecords (op : Instr) (sp : VSpec) (c : Core) : BitVec 256 × BitVec 256 × BitVec 256 :=
  let h (r : Option (BitVec 4)) : BitVec 256 := match r with | some r => c.h r | none => 0
  match op with
  | .chs _ e _ _ => (c.h e, h sp.s1, 0)
  | .chv _ _ e _ => (h sp.d, c.h e, 0)
  | _ => (h sp.d, h sp.s1, h sp.s2)

/-- A V operation at issue: its checks, room in the sequencer, the tag checks it consumes (06 R188, R189; 09 R290). -/
def pushVector (op : Instr) (s : State) : Res :=
  match vspec op with
  | none => .ok s
  | some sp =>
    let c := s.own
    let cap := c.capture
    let (hd, h1, h2) := operandRecords op sp c
    match vectorFault s op sp cap (Shape.of hd) (Shape.of h1) (Shape.of h2) 0 0 c.vec.quireWidth with
    | some (code, detail) => .fault code detail
    | none =>
      if 16 ≤ c.vec.entries then .stall 8
      else
        let (rd, q1, q2) := hulls cap.bfmt (Shape.of hd) (Shape.of h1) (Shape.of h2) 0 0
        let srcs := (if sp.s1.isSome then [q1] else []) ++ (if sp.s2.isSome then [q2] else []) ++ (if sp.dold then [rd] else [])
        let (tags, s) := consumeTags s s.me (named s.me srcs)
        let s := enqueue s op sp cap hd h1 h2 0 0 0 true tags
        .ok (s.modOwn fun c => { c with vec := c.vec.record ⟨op, hd, h1, h2, cap⟩ })

/-! ### vloop and vsync -/

/-- The first fault of a loop's body, oldest entry first, over all repetitions, and the widths of the quire registers after it (06 R213, R216). -/
def bodyFault (s : State) (count : Nat) : List VTemplate → (Nat → Nat) → Option (Nat × Nat) × (Nat → Nat)
  | [], qw => (none, qw)
  | x :: xs, qw =>
    match (match vspec x.op with
      | none => some (0x02, 5)
      | some sp => vectorFault s x.op sp x.cap (Shape.of x.hd) (Shape.of x.h1) (Shape.of x.h2) 1 count qw) with
    | some f => (some f, qw)
    | none => bodyFault s count xs fun k => Vec.quireWidth.widthAfter x.op k (qw k)

/-- The first fault of a loop: of its first repetition, or of one after it, which finds the quire registers as the body leaves them. -/
def loopFault (s : State) (body : List VTemplate) (count : Nat) : Option (Nat × Nat) :=
  let (f, qw) := bodyFault s count body s.own.vec.quireWidth
  f.orElse fun _ => if count ≤ 1 then none else (bodyFault s count body qw).1

/-- vloop n, count (06 R216): one entry of n × count executions. Too few pushes and a vloop in the body fault before anything else. -/
def bodyVloop (n : BitVec 4) (k : BitVec 16) (s : State) : Res :=
  let len := n.toNat + 1
  let count := k.toNat
  let c := s.own
  let body := (c.vec.template.take len).reverse
  if c.vec.template.length < len ∨ body.any (fun x => (vspec x.op).isNone) then .fault 0x02 5
  else match loopFault s body count with
    | some (code, detail) => .fault code detail
    | none =>
      if 16 ≤ c.vec.entries then .stall 8
      else
        let first := c.nextFlight
        let once (s : State) (rep : Nat) : State :=
          (List.range len).foldl (fun s i => match body[i]? with
            | none => s
            | some x => match vspec x.op with
              | none => s
              | some sp =>
                let (rd, q1, q2) := hulls x.cap.bfmt (Shape.of x.hd) (Shape.of x.h1) (Shape.of x.h2) 1 count
                let srcs := (if sp.s1.isSome then [q1] else []) ++ (if sp.s2.isSome then [q2] else []) ++ (if sp.dold then [rd] else [])
                let (tags, s) := consumeTags s s.me (named s.me srcs)
                enqueue s x.op sp x.cap x.hd x.h1 x.h2 rep 1 count (rep == count && i + 1 == len) tags (some first)) s
        let s := (List.range count).foldl (fun s r => once s (r + 1)) s
        .ok (s.modOwn fun c => { c with vec := c.vec.record ⟨.vloop 0 n k, 0, 0, 0, c.capture⟩ })

/-- Whether a class mask of vsync selects a class; 0 selects every class (06 R193). -/
def masked (m : BitVec 16) (oc : Nat) : Bool := m == 0 || m.getLsbD oc

/-- vsync (06 R193). -/
def bodyVsync (m : BitVec 16) (s : State) : Res :=
  if s.own.vec.runs.any fun r => masked m r.oc then .stall 9 else .ok s

/-- vsync.t: by nominal completion alone (06 R193). -/
def bodyVsyncT (m : BitVec 16) (h : BitVec 4) (s : State) : Res :=
  let t := s.own.run.t
  writeG h (s.own.vec.runs.all fun r => !masked m r.oc || decide (r.nominal + 1 ≤ t)) s

/-! ### What an execution computes -/

/-- One canonical level: neighbours combined, an odd last one kept (06 R208). -/
def pairUp (comb : α → α → α) : List α → List α
  | a :: b :: rest => comb a b :: pairUp comb rest
  | rest => rest

/-- The canonical tree over a list that is not empty (06 R208). -/
def reduceTree (comb : α → α → α) (d : α) : Nat → List α → α
  | _, [] => d
  | _, [a] => a
  | 0, a :: _ => a
  | n + 1, l => reduceTree comb d n (pairUp comb l)

/-- The reduction of a list. -/
def reduceAll (comb : α → α → α) (d : α) (l : List α) : α := reduceTree comb d l.length l

/-- The scan result at position i: the maximal aligned subtrees that cover 0 to i, the largest first (06 R208). -/
def scanAt (comb : α → α → α) (d : α) (l : List α) (i : Nat) : α :=
  let step (x : Option α × Nat) (b : Nat) : Option α × Nat :=
    if (i + 1) / 2 ^ b % 2 = 1 then
      let part := reduceAll comb d ((l.drop x.2).take (2 ^ b))
      (some (match x.1 with | none => part | some a => comb a part), x.2 + 2 ^ b)
    else x
  ((List.range (Nat.log2 (i + 1) + 1)).foldr (fun b x => step x b) (none, 0)).1.getD d

/-- The combination of a reduction in F or I (06 R209). -/
def combine (o k : Nat) (a b : Val) : Val :=
  match o with
  | 0 => roundIn k (a.add b)
  | 1 => Val.max a b
  | _ => Val.min a b

/-- The condition of vcmp on decoded values (06 R207). -/
def vcondition (o : Nat) (a b : Val) : Bool :=
  let un := a.isNan || b.isNan
  match o with
  | 0 => !un && Val.eq a b
  | 1 => !un && Val.lt false a b
  | 2 => !un && !Val.lt false b a
  | _ => un || !Val.eq a b

/-- The condition of vcmp on tapered words (06 R207, 02 R65). -/
def tcondition (o : Nat) (a b : Int) : Bool :=
  match o with
  | 0 => decide (a = b)
  | 1 => decide (a < b)
  | 2 => decide (a ≤ b)
  | _ => decide (a ≠ b)

/-- A truth value as an element. -/
def Val.ofBool (b : Bool) : Val := Val.ofInt (if b then 1 else 0)

/-- The magnitude of a value in its compute format. -/
def Val.abs : Val → Val
  | .zero _ => .zero false
  | .fin _ m e => .fin false m e
  | .inf _ => .inf false
  | v => v

/-- The result element of an element-wise operation on decoded sources and, where it reads it, the old destination (06 R204 to R207). -/
def elementwise (op : Instr) (k : Nat) (a b d : Val) : Val :=
  match op with
  | .vadd _ _ _ _ _ _ => roundIn k (a.add b)
  | .vsub _ _ _ _ _ _ => roundIn k (a.add b.negate)
  | .vmul _ _ _ _ _ _ => roundIn k (a.mul b)
  | .vfma _ _ _ _ _ _ => roundIn k ((a.mul b).add d)
  | .vfms _ _ _ _ _ _ => roundIn k ((a.mul b).add d.negate)
  | .vfnma _ _ _ _ _ _ => roundIn k ((a.mul b).negate.add d)
  | .vmin _ _ _ _ _ _ => Val.min a b
  | .vmax _ _ _ _ _ _ => Val.max a b
  | .vabs _ _ _ _ _ => roundIn k a.abs
  | .vsel _ _ _ _ _ _ => match d with | .zero _ => b | _ => a
  | .vsf _ _ _ f _ r _ =>
    let fmt := if k = 0 then f64 else f32
    decodeFloat fmt (sfResult f.toNat (r == 1) fmt a)
  | _ => a

/-- A product added into a quire word; a product of two quire elements may lie off its grid (DESIGN CHOICE, log 9). A NaR word stays (02 R70). -/
def quireAddProduct (n w : Nat) (a b : Val) : Nat :=
  match a.mul b with
  | .fin neg m e =>
    if w = 2 ^ (16 * n - 1) ∨ quireLsb n ≤ e ∨ m % pow2 (quireLsb n - e) = 0 then quireAdd n w (.fin neg m e)
    else quireWord n (sextOf w (16 * n) + (if neg then -(Config.offGrid n m e : Int) else (Config.offGrid n m e : Int)))
  | v => quireAdd n w v

/-- Elements in compute format, with the anomalies of their decodes. -/
def decodeAll (k : Nat) (es : List Elt) : List (Val × Bool) × Nat :=
  let xs := es.map fun e => (toCompute k e.val, e.poison, e.anom)
  (xs.map fun x => (x.1.1, x.2.1), xs.foldl (fun n x => n + x.1.2 + x.2.2) 0)

/-- The bits of a dense run of elements as flits of 64 bytes, the last padded with zeros (10 R316). -/
def packFlits (w : Nat) (xs : List Nat) : List (BitVec 512) :=
  let per := 512 / w
  (List.range (flitCount xs.length w)).map fun f =>
    BitVec.ofNat 512 ((List.range per).foldl (fun v i => v + xs.getD (f * per + i) 0 * 2 ^ (w * i)) 0)

/-- The record of an operand: 0 the destination, 1 s1, 2 s2, 3 the old destination. -/
def VRun.shape (r : VRun) (o : Nat) : Shape := Shape.of (match o with | 1 => r.h1 | 2 => r.h2 | _ => r.hd)

/-- Element n of an operand as the execution has read it; a single element stands for every one (06 R204). -/
def VRun.elt (r : VRun) (o n : Nat) : Elt :=
  let h := r.shape o
  let n := if h.total = 1 then 0 else n
  match r.got.find? fun x => x.opn == o && x.n == n with
  | some x => h.elt r.cap.bfmt r.rep n x.raw x.poison
  | none => { raw := 0, val := .zero false }

/-- The first n elements of an operand. -/
def VRun.elts (r : VRun) (o n : Nat) : List Elt := (List.range n).map (r.elt o)

/-- The sources of a quire operation summed into a register (06 R209, R210, R214). A poisoned element adds nothing and marks it. -/
def quireSum (q : VQuire) (xs : List (Elt × Option Elt)) : VQuire :=
  xs.foldl (fun q x =>
    let bad := x.1.poison || (match x.2 with | some y => y.poison | none => false)
    if bad then { q with poison := true }
    else { q with val := match x.2 with | some y => quireAddProduct q.n q.val x.1.val y.val | none => quireAdd q.n q.val x.1.val }) q

/-- The quire that a source decodes into, as n of Q(16n). -/
def VRun.sourceQuire (r : VRun) : Nat :=
  ((fmtOf (fmtCode (bankWord r.cap.bfmt ((r.shape 1).start r.rep)))).bind Fmt.quireOf).getD 8

/-- The value that a quire register holds, and its poison mark. -/
def VQuire.value (q : VQuire) : Val × Bool := (decodeQuire q.n q.val, q.poison)

/-- The reduction of the first `upTo` source elements in compute format k: an exact sum in a quire, else by a tree (06 R208, R209). -/
def VRun.reduced (r : VRun) (o k upTo : Nat) (pick : (Val → Val → Val) → List Val → Val) : Val × Bool :=
  let es := r.elts 1 upTo
  if k = 4 then (quireSum { n := r.sourceQuire } (es.map fun e => (e, none))).value
  else (pick (combine o k) (es.map fun e => (toCompute k e.val).1), es.any (·.poison))

/-- The exact value of destination element n before its encoding, and its poison, from what the execution has read (06 R204 to R215). -/
def VRun.value (r : VRun) (n : Nat) : Val × Bool :=
  let (a, b, d) := (r.elt 1 n, r.elt 2 n, r.elt 3 n)
  let in_ (k : Nat) (e : Elt) : Val := (toCompute k e.val).1
  let n1 := (r.shape 1).total
  match r.op with
  | .vcvt _ _ _ _ _ => (a.val, a.poison)
  | .vfill _ _ i _ => (Val.ofInt i.toInt, false)
  | .vcmp _ _ _ _ _ o k =>
    let w := (r.shape 1).width r.cap.bfmt r.rep
    (Val.ofBool (if k = 4 then tcondition o.toNat (sextOf a.raw w) (sextOf b.raw w) else vcondition o.toNat (in_ k.toNat a) (in_ k.toNat b)),
      a.poison || b.poison)
  | .vred _ _ _ _ o k => r.reduced o.toNat k.toNat n1 fun comb xs => reduceAll comb (.zero false) xs
  | .vscan _ _ _ _ o k => r.reduced o.toNat k.toNat (n + 1) fun comb xs => scanAt comb (.zero false) xs n
  | .vdot _ _ _ _ _ k =>
    let es := (r.elts 1 n1).zip (r.elts 2 n1)
    if k = 4 then (quireSum { n := r.sourceQuire } (es.map fun x => (x.1, some x.2))).value
    else (reduceAll (combine 0 k.toNat) (.zero false) (es.map fun x => roundIn k.toNat ((in_ k.toNat x.1).mul (in_ k.toNat x.2))),
      es.any fun x => x.1.poison || x.2.poison)
  | .vqrd _ _ _ _ | .vqrdZ _ _ _ _ => r.quire.value
  | _ =>
    match vspec r.op with
    | none => (.zero false, false)
    | some sp =>
      let k := sp.comp.getD 0
      (elementwise r.op k (in_ k a) (in_ k b) (in_ k d), a.poison || (sp.s2.isSome && b.poison) || (sp.dold && d.poison))

/-- The anomalies that the decode of a source element counts: those of its format, and those of the compute format (02 R57, R58, R82). -/
def VRun.anomalies (r : VRun) (o n : Nat) : Nat :=
  let e := r.elt o n
  match (vspec r.op).bind (·.comp) with
  | some k => if k = 4 then 0 else e.anom + (toCompute k e.val).2
  | none => e.anom

/-- Destination elements n0 to n0 + k − 1 as writes, with the anomalies of their encoding. -/
def VRun.encoded (r : VRun) (c : Core) (p n0 k : Nat) : List Wr × Nat :=
  let sd := r.shape 0
  match r.op with
  | .tdecv _ _ _ _ =>
    let record (n : Nat) : Nat × Bool :=
      let e := r.elt 1 n
      match fmtOf (fmtCode (bankWord r.cap.bfmt (((r.shape 1).field r.cap.bfmt r.rep n).1 / 8))) with
      | some (.tapered w es) => ((decodeRecord w es e.raw).toNat, e.poison)
      | _ => (0, e.poison)
    (rawArray c p r.cap.bfmt sd r.rep ((List.range k).map fun i => record (n0 + i)) n0, 0)
  | .chv _ _ _ _ =>
    let w := sd.width r.cap.bfmt r.rep
    (rawArray c p r.cap.bfmt sd r.rep ((List.range k).map fun i =>
      ((r.flits.getD ((n0 + i) / (512 / w)) 0).toNat / 2 ^ (w * ((n0 + i) % (512 / w))) % 2 ^ w, false)) n0, 0)
  | _ =>
    let mode := match r.op with
      | .vcvt _ _ _ _ m => if m = 0 then none else some (m.toNat - 1)
      | _ => none
    encodeArray c p r.cap sd r.rep (r.rep * sd.total) mode ((List.range k).map fun i => r.value (n0 + i)) n0

/-- The quire register that the execution leaves (06 R213 to R215). -/
def VRun.leaves (r : VRun) : Option (Nat × VQuire) :=
  let n1 := (r.shape 1).total
  match r.op with
  | .vqacc _ q _ _ _ => some (q.toNat, quireSum r.quire (((r.elts 1 n1).zip (r.elts 2 n1)).map fun x => (x.1, some x.2)))
  | .vqaccS _ q _ _ => some (q.toNat, quireSum r.quire ((r.elts 1 n1).map fun e => (e, none)))
  | .vqrdZ _ _ q _ => some (q.toNat, { r.quire with val := 0, poison := false })
  | .vqclr _ q w => some (q.toNat, { n := 8 * 2 ^ w.toNat })
  | _ => none

/-! ### The accesses of a cycle (06 R190, R192) -/

/-- The source operands of an execution, in order. -/
def VRun.sources (r : VRun) : List Nat :=
  match vspec r.op with
  | some sp => (if sp.s1.isSome then [1] else []) ++ (if sp.s2.isSome then [2] else []) ++ (if sp.dold then [3] else [])
  | none => []

/-- The elements read in the cycle of an execution that is numbered i, in operand order: operand and index (06 R190). -/
def VRun.readsAt (r : VRun) (i : Nat) : List (Nat × Nat) :=
  if r.busy ≤ i then []
  else r.sources.flatMap fun o =>
    let n := (r.shape o).total
    if n = 1 then (if i = 0 then [(o, 0)] else []) else (List.range (Nat.min r.rate (n - i * r.rate))).map fun m => (o, i * r.rate + m)

/-- How many elements are written at a time: the four of a granule, else one. -/
def VRun.grain (r : VRun) : Nat :=
  match r.op with
  | .tdecv _ _ _ _ | .chv _ _ _ _ => 1
  | _ => if (r.shape 0).granular r.cap.bfmt r.rep then 4 else 1

/-- The first elements of what is written in the cycle numbered i: a single element in the last cycle; of chv those of the flit (06 R190, 10 R317). -/
def VRun.writesAt (r : VRun) (i : Nat) : List Nat :=
  let n := (r.shape 0).total
  let step (k : Nat) : List Nat := (List.range (Nat.min r.rate (n - k * r.rate))).map (k * r.rate + ·)
  match r.op, (vspec r.op).bind (·.d) with
  | .chv _ _ _ _, _ => if i < r.busy then step i else []
  | _, none => []
  | _, some _ =>
    if n = 1 then (if i + 1 = r.busy + r.depth then [0] else [])
    else if r.depth ≤ i then (step (i - r.depth)).filter fun m => m % r.grain == 0 else []

/-- What the accesses of a cycle work on: the state, the execution, the 64-byte words that it has a port for in this cycle, and whether an access waits. -/
structure VStep where
  s : State
  r : VRun
  words : List Nat := []
  late : Bool := false

/-- The ports for bytes [a, a + n) of core p's scratchpad are taken for this cycle, where no other access has them (04 R123); accesses of one 64-byte word in a
cycle count as one, also writes, as in the run that 09 shows, where a vmov writes four elements of one word in its last cycle (06 R192). -/
def VStep.take (x : VStep) (p a n : Nat) : Option VStep :=
  let ws := (subWords a n).filter fun w => !x.words.contains w
  (x.s.takePorts p (ws.map portNo)).map fun s => { x with words := x.words ++ ws, s := s }

/-- The checks of tags that the first read of a source makes (06 R222, 09 R290, R291): of handles whose name range meets it, and of those that are mapped no more. -/
def VRun.tagsOf (r : VRun) (s : State) (p o : Nat) : List (Nat × Nat) :=
  let rg := r.reads.getD (r.sources.findIdx (· == o)) (0, 0)
  r.tags.filter (tagFalls s p (named p [rg]))

/-- What a read of an element must pass: the tags, until its source has been read once; a faulted half, a watermark. -/
def VRun.gate (r : VRun) (s : State) (p : Nat) (x : Nat × Nat) : Gate :=
  let (b, w) := (r.shape x.1).field r.cap.bfmt r.rep x.2
  match (if r.got.any (fun g => g.opn == x.1) then .go else tagGate s p (r.tagsOf s p x.1)) with
  | .go => readGate ((s.seen r.halves).core p) (b / 8) ((b % 8 + w + 7) / 8)
  | g => g

/-- The executions of an entry keep to the halves that one of them has fixed (09 R288). -/
def Core.keepHalves (c : Core) (r : VRun) : Core :=
  { c with vec := { c.vec with runs := c.vec.runs.map fun x => if x.entry = r.entry then { x with halves := r.halves } else x } }

/-- An element is read: its handle's halves are fixed, and its decode counts its anomalies. -/
def VStep.read (x : VStep) (p : Nat) (e : Nat × Nat) : VStep :=
  let (b, w) := (x.r.shape e.1).field x.r.cap.bfmt x.r.rep e.2
  let hs := x.r.halves.fix x.s (named p [(b / 8, (b + w + 7) / 8)])
  let v := x.s.seen hs
  let r := { x.r with halves := hs, got := x.r.got ++ [⟨e.1, e.2, readField v p b w, fieldPoison v p b w⟩] }
  { x with s := addFanom (if hs = x.r.halves then x.s else x.s.modCore p (·.keepHalves r)) p (r.anomalies e.1 e.2), r := r }

/-- A read of an element where it may perform in this cycle. -/
def VStep.tryRead (p : Nat) (x : VStep) (e : Nat × Nat) : VStep :=
  let (b, w) := (x.r.shape e.1).field x.r.cap.bfmt x.r.rep e.2
  let c := (x.s.seen x.r.halves).core p
  match x.r.gate x.s p e with
  | .go => match x.take p (c.visible (b / 8)) ((b % 8 + w + 7) / 8) with
    | some y => y.read p e
    | none => { x with late := true }
  | _ => { x with late := true }

/-- Destination elements n to n + k − 1 are written, to the halves that their handle keeps to. -/
def VStep.write (x : VStep) (p n k : Nat) : VStep :=
  let (b, w) := (x.r.shape 0).field x.r.cap.bfmt x.r.rep n
  let hs := x.r.halves.fix x.s (named p [(b / 8, (b + w + 7) / 8)])
  let r := { x.r with halves := hs, put := n :: x.r.put }
  let (ws, anom) := r.encoded ((x.s.seen hs).core p) p n k
  { x with s := addFanom ((if hs = x.r.halves then x.s else x.s.modCore p (·.keepHalves r)).perform false ws) p anom, r := r }

/-- A write of what begins at element n where it may perform in this cycle. -/
def VStep.tryWrite (p : Nat) (x : VStep) (n : Nat) : VStep :=
  let (b, w) := (x.r.shape 0).field x.r.cap.bfmt x.r.rep n
  let c := (x.s.seen x.r.halves).core p
  match x.take p (c.shadow (b / 8)) ((b % 8 + w + 7) / 8) with
  | some y => y.write p n (Nat.min x.r.grain ((x.r.shape 0).total - n))
  | none => { x with late := true }

/-- The reads of an execution's cycle that have not performed. -/
def VRun.todo (r : VRun) : List (Nat × Nat) := (r.readsAt r.pace).filter fun e => !r.got.any fun x => x.opn == e.1 && x.n == e.2

/-- The first element, by logical index, at which a read of the cycle faults, with code and DETAIL; a reduction has no result element below it (06 R222). -/
def VRun.faultAt (r : VRun) (s : State) (p : Nat) : Option (Nat × Nat × Nat) :=
  let one := match (vspec r.op).map (·.rule) with | some .reduce | some .dot | some .sum | some .sumPair => true | _ => false
  let bad (e : Nat × Nat) : Option (Nat × Nat × Nat) :=
    match r.gate s p e with | .fault code detail => some (if one then 0 else e.2, code, detail) | _ => none
  r.todo.foldl (fun z e => match z, bad e with | some m, some x => if x.1 < m.1 then some x else some m | none, y => y | z, none => z) none

/-! ### Execution -/

/-- The first execution that has not started, where every earlier one has. -/
def Vec.next (v : Vec) : Option (List VRun × VRun × List VRun) :=
  match v.runs.span fun r => r.started.isSome with
  | (es, r :: rest) => some (es, r, rest)
  | (_, []) => none

/-- The start conditions of an execution (06 R190, R192; 01 R34): its nominal start, later by the delayed cycles before it, the reads of the one before it done. -/
def mayStart (c : Core) (p : Nat) (es : List VRun) (r : VRun) : Bool :=
  decide (r.start + r.slip ≤ c.run.t) && (match es.getLast? with | some e => decide (e.busy ≤ e.pace) | none => true) &&
    !es.any (fun e => e.before r.oc r.reads r.writes (quiresOf r.op)) &&
    !c.blocked p r.id r.oc .vector (named p r.reads) (named p r.writes)

/-- An execution starts: the quire register that it reads is as it stands. -/
def startRun (s : State) (p : Nat) (es : List VRun) (r : VRun) (rest : List VRun) : State :=
  s.modCore p fun c =>
    let q := match r.op with
      | .vqacc _ q _ _ _ | .vqaccS _ q _ _ | .vqrd _ _ q _ | .vqrdZ _ _ q _ => c.vec.vq.toList.getD q.toNat {}
      | _ => {}
    { c with vec := { c.vec with runs := es ++ { r with started := some c.run.t, quire := q } :: rest } }

/-- An execution stops on an engine fault at element m: the elements below m have been read and are written, later executions are discarded (06 R222). -/
def faultRun (s : State) (p : Nat) (r : VRun) (m code detail : Nat) : State :=
  let done := (r.pace - r.depth) * r.rate
  let left := (List.range m).filter fun n => decide (done ≤ n) && n % r.grain == 0 && !r.put.contains n && (r.shape 0).total != 1
  let x := left.foldl (fun x n => x.write p n (Nat.min x.r.grain (m - n))) ({ s := s, r := r } : VStep)
  let gone := (x.s.core p).vec.runs.dropWhile fun y => y.id ≠ r.id
  let s := gone.foldl (fun s y => landed s p y.id) x.s
  engineFault (s.modCore p fun c => { c with vec := { c.vec with runs := c.vec.runs.takeWhile fun y => y.id ≠ r.id } }) p code detail r.baddr r.word

/-- A started execution replaced. -/
def setRun (s : State) (p : Nat) (r : VRun) : State :=
  s.modCore p fun c => { c with vec := { c.vec with runs := c.vec.runs.map fun x => if x.id = r.id then r else x } }

/-- The channel of a bulk execution. -/
def runChannel (s : State) (p : Nat) (r : VRun) : Option (Nat × Nat × Chan) :=
  match r.op with
  | .chs _ _ _ _ => s.endpoint p true true ((r.shape 0).start r.rep)
  | .chv _ _ _ _ => s.endpoint p false true ((r.shape 1).start r.rep)
  | _ => none

/-- The scratchpad accesses of an execution's cycle: its reads in operand order, then its writes (06 R192). -/
def VRun.accesses (s : State) (p : Nat) (r : VRun) : VStep :=
  let x := r.todo.foldl (VStep.tryRead p) { s := s, r := r }
  ((r.writesAt r.pace).filter fun n => !r.put.contains n).foldl (VStep.tryWrite p) { x with words := [] }

/-- An execution's cycle has done all that it does: the next one follows; a command whose reads are done holds back no write. -/
def VStep.finish (x : VStep) (p : Nat) : State × Bool :=
  if x.late then (setRun x.s p x.r, false)
  else
    let r := { x.r with pace := x.r.pace + 1, put := [] }
    (setRun (if r.pace = r.busy then readsDone x.s p r.id else x.s) p r, true)

/-- One cycle of a chs (10 R317): a flit's elements are read and packed, and the flit enters the send buffer, where that has room. -/
def sendStep (s : State) (p : Nat) (r : VRun) : State × Bool :=
  match runChannel s p r with
  | none => (s, false)
  | some (n, i, ch) =>
    if r.busy ≤ r.pace then (s, true)
    else if ¬ ch.hasRoom then (s, false)
    else
      let x := r.accesses s p
      if x.late then (setRun x.s p x.r, false)
      else
        let w := (r.shape 1).width r.cap.bfmt r.rep
        let es := (x.r.readsAt r.pace).map fun e => (x.r.elt 1 e.2).raw
        let r' := { x.r with flits := x.r.flits ++ packFlits w es, mark := ch.gone + ch.send.length + 1 }
        VStep.finish { x with s := x.s.setChan n i (ch.put (s.core p).run.t ((packFlits w es).headD 0)), r := r' } p

/-- One cycle of a chv (10 R317): the flit of its cycle, once it has arrived, is taken and its elements are written. -/
def receiveStep (s : State) (p : Nat) (r : VRun) : State × Bool :=
  if r.busy ≤ r.pace ∨ r.pace < r.flits.length then (r.accesses s p).finish p
  else match runChannel s p r with
    | none => (s, false)
    | some (n, i, ch) =>
      match ch.head (s.core p).run.t with
      | none => (s, false)
      | some v =>
        let r' := { r with flits := r.flits ++ [v] }
        (r'.accesses (s.setChan n i (ch.pop (s.core p).run.t)) p).finish p

/-- A read of an execution faults at element m: the elements below m that its cycle reads come first, and may wait (06 R192, R222). -/
def faultStep (s : State) (p : Nat) (r : VRun) (m code detail : Nat) : State :=
  let x := (r.todo.filter fun e => decide (e.2 < m)).foldl (VStep.tryRead p) ({ s := s, r := r } : VStep)
  if x.late then setRun x.s p x.r else faultRun x.s p x.r m code detail

/-- One cycle of a started execution: the state, and whether nothing delayed it. A fault of a read stops it. -/
def runStep (s : State) (p : Nat) (r : VRun) : State × Bool :=
  match r.faultAt s p with
  | some (m, code, detail) => (faultStep s p r m code detail, false)
  | none =>
    match r.op with
    | .chs _ _ _ _ => sendStep s p r
    | .chv _ _ _ _ => receiveStep s p r
    | _ => if r.busy + r.depth ≤ r.pace then (s, true) else (r.accesses s p).finish p

/-- An execution is delayed: it and those after it come a cycle later (06 R192). -/
def Vec.delay (v : Vec) (id : Nat) : Vec :=
  { v with runs := v.runs.takeWhile (fun r => r.id != id) ++ (v.runs.dropWhile fun r => r.id != id).map fun r => { r with slip := r.slip + 1 } }

/-- The started executions go on by a cycle, in push order, until one is delayed: then the later ones are, too (06 R192). -/
def stepRuns (s : State) (p : Nat) : List Nat → State
  | [] => s
  | id :: ids =>
    match (s.core p).vec.runs.find? fun r => r.id == id with
    | none => s
    | some r => let (s, on) := runStep s p r; if on then stepRuns s p ids else s.modCore p fun c => { c with vec := c.vec.delay id }

/-- VECTOR_ENTRY_START (06 R190, R192): the next execution starts once its conditions hold, and those that have started go on by a cycle: they read and
write the elements of that cycle. -/
def execVectorEntryStart (p : Nat) (s : State) : Host.Outcome State Fault Refusal :=
  let c := s.core p
  let s := match c.vec.next with
    | some (es, r, rest) => if mayStart c p es r then startRun s p es r rest else s
    | none => s
  .next (stepRuns s p (((s.core p).vec.runs.filter fun r => r.started.isSome).map (·.id)))

/-- An execution that has written everything leaves: its quire register changes, its command has landed. -/
def completeRun (s : State) (p : Nat) (r : VRun) : State :=
  (landed s p r.id).modCore p fun c => { c with vec := { c.vec with
    runs := c.vec.runs.filter (fun x => x.id ≠ r.id)
    vq := match r.leaves with | some (k, q) => c.vec.vq.setIfInBounds k q | none => c.vec.vq } }

/-- An execution has performed its last write; a chs completes with the slot that carries its last flit (06 R190, 10 R317). -/
def VRun.done (r : VRun) (s : State) (p : Nat) : Bool :=
  r.started.isSome && match r.op with
    | .chs _ _ _ _ => decide (r.busy ≤ r.pace) && match runChannel s p r with | some (_, _, ch) => decide (r.mark ≤ ch.gone) | none => false
    | _ => decide (r.busy + r.depth ≤ r.pace)

/-- VECTOR_ENTRY_COMPLETE (06 R190): every execution whose last write has performed completes. -/
def execVectorEntryComplete (p : Nat) (s : State) : Host.Outcome State Fault Refusal :=
  .next ((s.core p).vec.runs.foldl (fun s r => if r.done s p then completeRun s p r else s) s)

/-! ### The special-function queue (06 R219 to R221) -/

/-- A vsf has needed the unit in this cycle, whose steps the sequencer has made. -/
def Core.sfuTaken (c : Core) : Bool :=
  c.vec.runs.any fun r => match r.op, r.started with
    | .vsf _ _ _ _ _ _ _, some _ => decide (r.pace ≤ r.busy)
    | _, _ => false

/-- The old value that a request's swap returns (06 R220): 1 accepted, 0 the queue is full, 2 refused. -/
def sfuReply (c : Core) (v : Word) : Nat :=
  if 11 < (v.extractLsb' 59 4).toNat ∨ v.extractLsb' 56 3 ≠ 0 ∨ v.extractLsb' 32 4 ≠ 0 then 2
  else if 16 ≤ c.sfu.length then 0 else 1

/-- A skiff's request word reaches the unit of its core: the request, where it is accepted, and the reply. -/
def sfuRequest (s : State) (p : Nat) (j : BitVec 3) (v : Word) (oc : Nat) : Nat × State :=
  let k := sfuReply (s.core p) v
  (k, if k ≠ 1 then s else s.modCore p fun c => { c with
    sfu := c.sfu ++ [⟨some j, v.getLsbD 63, (v.extractLsb' 59 4).toNat, (v.extractLsb' 36 20).toNat * 8, (v.extractLsb' 0 32).toNat, oc⟩] })

/-- The oldest request is served: its result word is a write of the requesting skiff (06 R220), which waits while its port is taken (04 R123; DEDUCED, log 10). -/
def serveRequest (s : State) (p : Nat) : State :=
  match (s.core p).sfu with
  | [] => s
  | q :: rest =>
    let v := 2 ^ 63 + sfResult q.fn q.cr f32 (decodeFloat f32 q.arg)
    match s.takePorts p (portsOf ((s.core p).visible q.raddr) 8) with
    | none => s
    | some s => writeSpad (s.modCore p fun c => { c with sfu := rest }) false p q.raddr v 8

/-- SFU_REQUEST_SERVE (06 R219, R220): the oldest request is served in a cycle in which no vsf needs the unit. -/
def execSfuRequestServe (p : Nat) (s : State) : Host.Outcome State Fault Refusal :=
  .next (if (s.core p).sfuTaken then s else serveRequest s p)

/-! ### The V-slot instructions -/

/-- vadd (06 R204). -/
def bodyVadd (d : BitVec 4) (a : BitVec 4) (b : BitVec 4) (c : BitVec 4) (k : BitVec 3) (s : State) : Res := pushVector (.vadd 0 d a b c k) s

/-- vsub (06 R204). -/
def bodyVsub (d : BitVec 4) (a : BitVec 4) (b : BitVec 4) (c : BitVec 4) (k : BitVec 3) (s : State) : Res := pushVector (.vsub 0 d a b c k) s

/-- vmul (06 R204). -/
def bodyVmul (d : BitVec 4) (a : BitVec 4) (b : BitVec 4) (c : BitVec 4) (k : BitVec 3) (s : State) : Res := pushVector (.vmul 0 d a b c k) s

/-- vfma (06 R204). -/
def bodyVfma (d : BitVec 4) (a : BitVec 4) (b : BitVec 4) (c : BitVec 4) (k : BitVec 3) (s : State) : Res := pushVector (.vfma 0 d a b c k) s

/-- vfms (06 R204). -/
def bodyVfms (d : BitVec 4) (a : BitVec 4) (b : BitVec 4) (c : BitVec 4) (k : BitVec 3) (s : State) : Res := pushVector (.vfms 0 d a b c k) s

/-- vfnma (06 R204). -/
def bodyVfnma (d : BitVec 4) (a : BitVec 4) (b : BitVec 4) (c : BitVec 4) (k : BitVec 3) (s : State) : Res := pushVector (.vfnma 0 d a b c k) s

/-- vmin (06 R204). -/
def bodyVmin (d : BitVec 4) (a : BitVec 4) (b : BitVec 4) (c : BitVec 4) (k : BitVec 3) (s : State) : Res := pushVector (.vmin 0 d a b c k) s

/-- vmax (06 R204). -/
def bodyVmax (d : BitVec 4) (a : BitVec 4) (b : BitVec 4) (c : BitVec 4) (k : BitVec 3) (s : State) : Res := pushVector (.vmax 0 d a b c k) s

/-- vabs (06 R204). -/
def bodyVabs (d : BitVec 4) (a : BitVec 4) (c : BitVec 4) (k : BitVec 3) (s : State) : Res := pushVector (.vabs 0 d a c k) s

/-- vcvt (06 R205). -/
def bodyVcvt (d : BitVec 4) (a : BitVec 4) (c : BitVec 4) (m : BitVec 2) (s : State) : Res := pushVector (.vcvt 0 d a c m) s

/-- vsf (06 R217). -/
def bodyVsf (d : BitVec 4) (a : BitVec 4) (f : BitVec 4) (c : BitVec 4) (r : BitVec 1) (k : BitVec 3) (s : State) : Res := pushVector (.vsf 0 d a f c r k) s

/-- vred (06 R209). -/
def bodyVred (d : BitVec 4) (a : BitVec 4) (c : BitVec 4) (o : BitVec 2) (k : BitVec 3) (s : State) : Res := pushVector (.vred 0 d a c o k) s

/-- vscan (06 R209). -/
def bodyVscan (d : BitVec 4) (a : BitVec 4) (c : BitVec 4) (o : BitVec 2) (k : BitVec 3) (s : State) : Res := pushVector (.vscan 0 d a c o k) s

/-- vcmp (06 R207). -/
def bodyVcmp (d : BitVec 4) (a : BitVec 4) (b : BitVec 4) (c : BitVec 4) (o : BitVec 2) (k : BitVec 3) (s : State) : Res := pushVector (.vcmp 0 d a b c o k) s

/-- vsel (06 R207). -/
def bodyVsel (d : BitVec 4) (a : BitVec 4) (b : BitVec 4) (c : BitVec 4) (k : BitVec 3) (s : State) : Res := pushVector (.vsel 0 d a b c k) s

/-- vmov (06 R206). -/
def bodyVmov (d : BitVec 4) (a : BitVec 4) (c : BitVec 4) (k : BitVec 3) (s : State) : Res := pushVector (.vmov 0 d a c k) s

/-- vfill (06 R206). -/
def bodyVfill (d : BitVec 4) (i : BitVec 8) (c : BitVec 4) (s : State) : Res := pushVector (.vfill 0 d i c) s

/-- vdot (06 R210). -/
def bodyVdot (d : BitVec 4) (a : BitVec 4) (b : BitVec 4) (c : BitVec 4) (k : BitVec 3) (s : State) : Res := pushVector (.vdot 0 d a b c k) s

/-- tdecv (06 R211). -/
def bodyTdecv (d : BitVec 4) (a : BitVec 4) (c : BitVec 4) (s : State) : Res := pushVector (.tdecv 0 d a c) s

/-- vqacc (06 R214). -/
def bodyVqacc (q : BitVec 4) (a : BitVec 4) (b : BitVec 4) (c : BitVec 4) (s : State) : Res := pushVector (.vqacc 0 q a b c) s

/-- vqacc.s (06 R214). -/
def bodyVqaccS (q : BitVec 4) (a : BitVec 4) (c : BitVec 4) (s : State) : Res := pushVector (.vqaccS 0 q a c) s

/-- vqrd (06 R215). -/
def bodyVqrd (d : BitVec 4) (q : BitVec 4) (c : BitVec 4) (s : State) : Res := pushVector (.vqrd 0 d q c) s

/-- vqrd.z (06 R215). -/
def bodyVqrdZ (d : BitVec 4) (q : BitVec 4) (c : BitVec 4) (s : State) : Res := pushVector (.vqrdZ 0 d q c) s

/-- vqclr (06 R213). -/
def bodyVqclr (q : BitVec 4) (w : BitVec 2) (s : State) : Res := pushVector (.vqclr 0 q w) s

/-- chs (10 R316). -/
def bodyChs (e : BitVec 4) (r : BitVec 4) (c : BitVec 4) (s : State) : Res := pushVector (.chs 0 e r c) s

/-- chv (10 R316). -/
def bodyChv (d : BitVec 4) (e : BitVec 4) (c : BitVec 4) (s : State) : Res := pushVector (.chv 0 d e c) s

/-! ### The instructions of this file at issue -/

/-- VADD issued by itself (R204). -/
def execVadd (g : BitVec 4) (d : BitVec 4) (a : BitVec 4) (b : BitVec 4) (c : BitVec 4) (k : BitVec 3) (s : State) : Host.Outcome State Fault Refusal :=
  finish s (queueLimit (issue (.vadd g d a b c k) g (bodyVadd d a b c k) s))
/-- VSUB issued by itself (R204). -/
def execVsub (g : BitVec 4) (d : BitVec 4) (a : BitVec 4) (b : BitVec 4) (c : BitVec 4) (k : BitVec 3) (s : State) : Host.Outcome State Fault Refusal :=
  finish s (queueLimit (issue (.vsub g d a b c k) g (bodyVsub d a b c k) s))
/-- VMUL issued by itself (R204). -/
def execVmul (g : BitVec 4) (d : BitVec 4) (a : BitVec 4) (b : BitVec 4) (c : BitVec 4) (k : BitVec 3) (s : State) : Host.Outcome State Fault Refusal :=
  finish s (queueLimit (issue (.vmul g d a b c k) g (bodyVmul d a b c k) s))
/-- VFMA issued by itself (R204). -/
def execVfma (g : BitVec 4) (d : BitVec 4) (a : BitVec 4) (b : BitVec 4) (c : BitVec 4) (k : BitVec 3) (s : State) : Host.Outcome State Fault Refusal :=
  finish s (queueLimit (issue (.vfma g d a b c k) g (bodyVfma d a b c k) s))
/-- VFMS issued by itself (R204). -/
def execVfms (g : BitVec 4) (d : BitVec 4) (a : BitVec 4) (b : BitVec 4) (c : BitVec 4) (k : BitVec 3) (s : State) : Host.Outcome State Fault Refusal :=
  finish s (queueLimit (issue (.vfms g d a b c k) g (bodyVfms d a b c k) s))
/-- VFNMA issued by itself (R204). -/
def execVfnma (g : BitVec 4) (d : BitVec 4) (a : BitVec 4) (b : BitVec 4) (c : BitVec 4) (k : BitVec 3) (s : State) : Host.Outcome State Fault Refusal :=
  finish s (queueLimit (issue (.vfnma g d a b c k) g (bodyVfnma d a b c k) s))
/-- VMIN issued by itself (R204). -/
def execVmin (g : BitVec 4) (d : BitVec 4) (a : BitVec 4) (b : BitVec 4) (c : BitVec 4) (k : BitVec 3) (s : State) : Host.Outcome State Fault Refusal :=
  finish s (queueLimit (issue (.vmin g d a b c k) g (bodyVmin d a b c k) s))
/-- VMAX issued by itself (R204). -/
def execVmax (g : BitVec 4) (d : BitVec 4) (a : BitVec 4) (b : BitVec 4) (c : BitVec 4) (k : BitVec 3) (s : State) : Host.Outcome State Fault Refusal :=
  finish s (queueLimit (issue (.vmax g d a b c k) g (bodyVmax d a b c k) s))
/-- VABS issued by itself (R204). -/
def execVabs (g : BitVec 4) (d : BitVec 4) (a : BitVec 4) (c : BitVec 4) (k : BitVec 3) (s : State) : Host.Outcome State Fault Refusal :=
  finish s (queueLimit (issue (.vabs g d a c k) g (bodyVabs d a c k) s))
/-- VCVT issued by itself (R205). -/
def execVcvt (g : BitVec 4) (d : BitVec 4) (a : BitVec 4) (c : BitVec 4) (m : BitVec 2) (s : State) : Host.Outcome State Fault Refusal :=
  finish s (queueLimit (issue (.vcvt g d a c m) g (bodyVcvt d a c m) s))
/-- VSF issued by itself (R217). -/
def execVsf (g : BitVec 4) (d : BitVec 4) (a : BitVec 4) (f : BitVec 4) (c : BitVec 4) (r : BitVec 1) (k : BitVec 3) (s : State) : Host.Outcome State Fault Refusal :=
  finish s (queueLimit (issue (.vsf g d a f c r k) g (bodyVsf d a f c r k) s))
/-- VRED issued by itself (R209). -/
def execVred (g : BitVec 4) (d : BitVec 4) (a : BitVec 4) (c : BitVec 4) (o : BitVec 2) (k : BitVec 3) (s : State) : Host.Outcome State Fault Refusal :=
  finish s (queueLimit (issue (.vred g d a c o k) g (bodyVred d a c o k) s))
/-- VSCAN issued by itself (R209). -/
def execVscan (g : BitVec 4) (d : BitVec 4) (a : BitVec 4) (c : BitVec 4) (o : BitVec 2) (k : BitVec 3) (s : State) : Host.Outcome State Fault Refusal :=
  finish s (queueLimit (issue (.vscan g d a c o k) g (bodyVscan d a c o k) s))
/-- VCMP issued by itself (R207). -/
def execVcmp (g : BitVec 4) (d : BitVec 4) (a : BitVec 4) (b : BitVec 4) (c : BitVec 4) (o : BitVec 2) (k : BitVec 3) (s : State) : Host.Outcome State Fault Refusal :=
  finish s (queueLimit (issue (.vcmp g d a b c o k) g (bodyVcmp d a b c o k) s))
/-- VSEL issued by itself (R207). -/
def execVsel (g : BitVec 4) (d : BitVec 4) (a : BitVec 4) (b : BitVec 4) (c : BitVec 4) (k : BitVec 3) (s : State) : Host.Outcome State Fault Refusal :=
  finish s (queueLimit (issue (.vsel g d a b c k) g (bodyVsel d a b c k) s))
/-- VMOV issued by itself (R206). -/
def execVmov (g : BitVec 4) (d : BitVec 4) (a : BitVec 4) (c : BitVec 4) (k : BitVec 3) (s : State) : Host.Outcome State Fault Refusal :=
  finish s (queueLimit (issue (.vmov g d a c k) g (bodyVmov d a c k) s))
/-- VFILL issued by itself (R206). -/
def execVfill (g : BitVec 4) (d : BitVec 4) (v : BitVec 8) (c : BitVec 4) (s : State) : Host.Outcome State Fault Refusal :=
  finish s (queueLimit (issue (.vfill g d v c) g (bodyVfill d v c) s))
/-- VDOT issued by itself (R210). -/
def execVdot (g : BitVec 4) (d : BitVec 4) (a : BitVec 4) (b : BitVec 4) (c : BitVec 4) (k : BitVec 3) (s : State) : Host.Outcome State Fault Refusal :=
  finish s (queueLimit (issue (.vdot g d a b c k) g (bodyVdot d a b c k) s))
/-- TDECV issued by itself (R211). -/
def execTdecv (g : BitVec 4) (d : BitVec 4) (a : BitVec 4) (c : BitVec 4) (s : State) : Host.Outcome State Fault Refusal :=
  finish s (queueLimit (issue (.tdecv g d a c) g (bodyTdecv d a c) s))
/-- VQACC issued by itself (R214). -/
def execVqacc (g : BitVec 4) (q : BitVec 4) (a : BitVec 4) (b : BitVec 4) (c : BitVec 4) (s : State) : Host.Outcome State Fault Refusal :=
  finish s (queueLimit (issue (.vqacc g q a b c) g (bodyVqacc q a b c) s))
/-- VQACC_S issued by itself (R214). -/
def execVqaccS (g : BitVec 4) (q : BitVec 4) (a : BitVec 4) (c : BitVec 4) (s : State) : Host.Outcome State Fault Refusal :=
  finish s (queueLimit (issue (.vqaccS g q a c) g (bodyVqaccS q a c) s))
/-- VQRD issued by itself (R215). -/
def execVqrd (g : BitVec 4) (d : BitVec 4) (q : BitVec 4) (c : BitVec 4) (s : State) : Host.Outcome State Fault Refusal :=
  finish s (queueLimit (issue (.vqrd g d q c) g (bodyVqrd d q c) s))
/-- VQRD_Z issued by itself (R215). -/
def execVqrdZ (g : BitVec 4) (d : BitVec 4) (q : BitVec 4) (c : BitVec 4) (s : State) : Host.Outcome State Fault Refusal :=
  finish s (queueLimit (issue (.vqrdZ g d q c) g (bodyVqrdZ d q c) s))
/-- VQCLR issued by itself (R213). -/
def execVqclr (g : BitVec 4) (q : BitVec 4) (w : BitVec 2) (s : State) : Host.Outcome State Fault Refusal :=
  finish s (queueLimit (issue (.vqclr g q w) g (bodyVqclr q w) s))
/-- VLOOP issued by itself (R216). -/
def execVloop (g : BitVec 4) (n : BitVec 4) (k : BitVec 16) (s : State) : Host.Outcome State Fault Refusal :=
  finish s (queueLimit (issue (.vloop g n k) g (bodyVloop n k) s))
/-- VSYNC issued by itself (R193). -/
def execVsync (g : BitVec 4) (m : BitVec 16) (s : State) : Host.Outcome State Fault Refusal :=
  finish s (queueLimit (issue (.vsync g m) g (bodyVsync m) s))
/-- VSYNC_T issued by itself (R193). -/
def execVsyncT (g : BitVec 4) (m : BitVec 16) (h : BitVec 4) (s : State) : Host.Outcome State Fault Refusal :=
  finish s (queueLimit (issue (.vsyncT g m h) g (bodyVsyncT m h) s))
/-- CHS issued by itself (R316). -/
def execChs (g : BitVec 4) (e : BitVec 4) (r : BitVec 4) (c : BitVec 4) (s : State) : Host.Outcome State Fault Refusal :=
  finish s (queueLimit (issue (.chs g e r c) g (bodyChs e r c) s))
/-- CHV issued by itself (R316). -/
def execChv (g : BitVec 4) (d : BitVec 4) (e : BitVec 4) (c : BitVec 4) (s : State) : Host.Outcome State Fault Refusal :=
  finish s (queueLimit (issue (.chv g d e c) g (bodyChv d e c) s))

end Sys2Proof.Machine
end

