-- ==== Sys2Proof/Machine/Fabric.lean ====
section
/-! DEFINITION. Barriers, collectives and combining, the Timetable's links, holds, residue slots and tolls (10 R297 to R311, R318 to
R327). -/

namespace Sys2Proof.Machine

/-! ### Scope instances (10 R318) -/

/-- The cores of a sailing in the instance of a scope, by ascending logical core id. -/
def Sailing.participants (g : Sailing) (scope inst : Nat) : List Nat :=
  ((List.range (4 * g.quads.length)).map g.coreAt).filter fun p => instanceOf scope p = inst

/-- The die whose registers count what a barrier node drops (10 R319; DEDUCED, log 23). -/
def nodeDie (scope inst : Nat) : Nat :=
  match scope with
  | 2 => inst / 24
  | 3 => inst
  | 4 => 4 * inst
  | _ => 0

/-! ### Barriers (10 R318 to R321) -/

/-- LG and DONE of the executing core for barrier b at a scope. -/
def State.barrier (s : State) (scope b : Nat) : Nat × Nat := s.own.bars.toList.getD (barIndex scope b) (0, 0)

/-- A barrier in a task-mode sailing is an illegal operand (10 R318). -/
def inTaskMode (s : State) : Bool := match s.own.run.sailing with | some n => (s.sailing n).task | none => false

/-- bar.arr (10 R319). -/
def bodyBarArr (b : BitVec 4) (r : BitVec 3) (s : State) : Res :=
  let (lg, done) := s.barrier r.toNat b.toNat
  if inTaskMode s then .fault 0x02 4
  else if ¬ s.settled then .stall 4
  else if done ≠ lg then .stall 14
  else .ok (sendArrival s s.me r.toNat b.toNat)

/-- bar.wait (10 R319). -/
def bodyBarWait (b : BitVec 4) (r : BitVec 3) (s : State) : Res :=
  let (lg, done) := s.barrier r.toNat b.toNat
  if inTaskMode s then .fault 0x02 4 else if done ≠ lg then .stall 14 else .ok s

/-- bar.sync (10 R319): the arrival sets out while the bundle waits. -/
def bodyBarSync (b : BitVec 4) (r : BitVec 3) (s : State) : Res :=
  let (lg, done) := s.barrier r.toNat b.toNat
  if inTaskMode s then .fault 0x02 4
  else if s.own.run.arrived then (if done ≠ lg then .stall 14 else .ok s)
  else if ¬ s.settled then .stall 4
  else if done ≠ lg then .stall 14
  else .stall 14 (.arrive r.toNat b.toNat)

/-- The node of a barrier, at its reset state where none is listed. -/
def Sailing.node (g : Sailing) (m : BarMsg) : BarNode :=
  (g.nodes.find? fun x => x.scope = m.scope ∧ x.inst = m.inst ∧ x.b = m.b).getD
    { scope := m.scope, inst := m.inst, b := m.b, gen := g.genUp % 65536 }

/-- A node replaced. -/
def Sailing.setNode (g : Sailing) (x : BarNode) : Sailing :=
  { g with nodes := (g.nodes.filter fun y => !(y.scope == x.scope && y.inst == x.inst && y.b == x.b)) ++ [x] }

/-- A partition is reset (10 R321): every node advances GEN by one and clears its count, and a core's LG and DONE take the new GEN. -/
def Sailing.resetNodes (g : Sailing) : Sailing :=
  { g with genUp := g.genUp + 1, nodes := g.nodes.map fun x => { x with gen := (x.gen + 1) % 65536, count := 0 }, completions := [] }

/-- LG and DONE of core p as its partition's nodes have GEN. -/
def Core.takeGens (c : Core) (g : Sailing) (p : Nat) : Core :=
  { c with bars := Vector.ofFn fun i : Fin 64 =>
      let gen := (g.node { due := 0, scope := i.val / 16 + 2, inst := instanceOf (i.val / 16 + 2) p, b := i.val % 16, gen := 0, core := p }).gen
      (gen, gen) }

/-- One arrival at its node: counted, or dropped for a stale generation; the last one sends the completions (10 R319). -/
def nodeArrival (s : State) (n : Nat) (m : BarMsg) : State :=
  let g := s.sailing n
  let x := g.node m
  let ps := g.participants m.scope m.inst
  if m.gen ≠ x.gen then s.modDie (nodeDie m.scope m.inst) fun d => { d with bardrop := d.bardrop + 1 }
  else if x.count + 1 < ps.length then s.modSailing n (·.setNode { x with count := x.count + 1 })
  else
    let due := g.t + halfBar s.pod.latr m.scope
    s.modSailing n fun g =>
      let g := g.setNode { x with count := 0, gen := (x.gen + 1) % 65536 }
      { g with completions := g.completions ++ ps.map fun p => { m with due := due, core := p } }

/-- BARRIER_ARRIVAL: every arrival that has reached its node by the end of this cycle (10 R319). -/
def execBarrierArrival (sn : Nat) (s : State) : Host.Outcome State Fault Refusal :=
  let g := s.sailing sn
  let due := g.arrivals.filter fun m => decide (m.due ≤ g.t)
  if ¬ g.running then .next s
  else
    let s := s.modSailing sn fun g => { g with arrivals := g.arrivals.filter fun m => decide (g.t < m.due) }
    .next (due.foldl (fun s m => nodeArrival s sn m) s)

/-- BARRIER_COMPLETION: completions that are due set DONE; one for a core that is stopped is held (10 R319, R321). -/
def execBarrierCompletion (sn : Nat) (s : State) : Host.Outcome State Fault Refusal :=
  let g := s.sailing sn
  let ready (m : BarMsg) : Bool := decide (m.due ≤ g.t) && (s.core m.core).run.stopped == 0
  if ¬ g.running then .next s
  else
    let s := s.modSailing sn fun g => { g with completions := g.completions.filter (!ready ·) }
    .next ((g.completions.filter ready).foldl (fun s m =>
      s.modCore m.core fun c =>
        let i := barIndex m.scope m.b
        { c with bars := c.bars.setIfInBounds i ((c.bars.toList.getD i (0, 0)).1, (m.gen + 1) % 65536) }) s)

/-! ### Collectives (10 R322 to R324) -/

/-- The dense array of n elements from an address. -/
def denseShape (a n : Nat) : Shape :=
  { base := a, rsv := 0, chan := false, pack := true, ndim := 1, counts := [n], strides := [0], delta := 0 }

/-- The class of a data format for a collective: 0 F64, 1 F32, F16 or BF16, 2 integer, 3 quire; none for any other. -/
def collClass (v : Word) : Option Nat :=
  match fmtOf (fmtCode v) with
  | some (.tapered _ _) | some (.quire _) => some 3
  | some (.int _ w) => if 8 ≤ w then some 2 else none
  | some (.float f) => if f = f64 then some 0 else if f = f32 ∨ f = f16 ∨ f = bf16 then some 1 else none
  | _ => none

/-- A compute format goes with a class of data. -/
def collPairs (cls comp : Nat) : Bool :=
  match cls with
  | 0 => comp == 0
  | 1 => comp == 1
  | 2 => comp == 2 || comp == 3
  | _ => comp == 4

/-- The fields of cN: class, compute format, count; none where a reserved bit is set or the count is 0. -/
def collCount (v : Word) : Option (Nat × Nat × Nat) :=
  let n := (v.extractLsb' 0 16).toNat
  if v.extractLsb' 24 40 ≠ 0 ∨ v.getLsbD 19 ∨ n = 0 then none
  else some ((v.extractLsb' 20 4).toNat, (v.extractLsb' 16 3).toNat, n)

/-- A bank's format is of 8 bits or more and no I4O. -/
def collFormat (v : Word) : Bool :=
  match fmtOf (fmtCode v) with
  | some f => decide (8 ≤ f.bits ∧ fmtCode v ≠ 0x09)
  | none => false

/-- The quire width that a list of banks sums in. -/
def collQuire (vs : List Word) : Nat := match vs with
  | v :: _ => ((fmtOf (fmtCode v)).bind Fmt.quireOf).getD 0
  | [] => 0

/-- The checks of a collective at issue: the fault, or its ranges and element width. m: the participants. -/
def collFault (c : Core) (op comp src dst n m : Nat) : Except (Nat × Nat) (Nat × (Nat × Nat) × (Nat × Nat)) :=
  let bf := c.ctl.bfmt
  let w := (codeBits (fmtCode (bankWord bf src))).getD 8
  let wd := (codeBits (fmtCode (bankWord bf dst))).getD 8
  let rs := (src, src + n * w / 8)
  let rd := (dst, dst + (if op = 3 then m * n else n) * wd / 8)
  let out (r : Nat × Nat) : Bool := !c.hullOk r.1 r.2
  let vs := banksOf bf rs
  let vd := banksOf bf rd
  let scaled := (vs ++ vd).any fun v => (match fmtOf (fmtCode v) with | some f => f.isTapered | none => false) && fmtScale v != 0
  if ¬ collFormat (bankWord bf src) then .error (0x02, 1)
  else if ¬ collFormat (bankWord bf dst) then .error (0x02, 0)
  else if out rs then .error (0x0E, 256 + 3)
  else if out rd then .error (0x0E, 3)
  else if w ≠ wd ∨ (vs ++ vd).any (fun v => codeBits (fmtCode v) ≠ some w) ∨ ¬ (vs ++ vd).all collFormat then .error (0x02, 0)
  else if 8 * src % w ≠ 0 then .error (0x02, 1)
  else if 8 * dst % w ≠ 0 ∨ overlaps rs rd.1 rd.2 then .error (0x02, 0)
  else if scaled then .error (0x02, 2)
  else if op = 3 then (if comp ≠ 0 then .error (0x02, 2) else .ok (w, rs, rd))
  else
    let q := collQuire vs
    let bad : Bool := match collClass (bankWord bf src) with
      | none => true
      | some k => !collPairs k comp || vs.any (fun v => collClass v ≠ some k) ||
          (k == 3 && (!vs.all (fun v => quireSource v q) ||
            vd.any fun v => match fmtOf (fmtCode v) with | some (.quire x) => x != q | _ => false))
    if bad then .error (0x02, 2)
    else if op = 0 ∧ comp = 1 ∧ 2 ≤ (c.ctl.detl.extractLsb' 0 2).toNat then .error (0x06, 0x513)
    else match (if anyStoch bf rd then stochFault c.capture 0 0x513 else none) with
      | some f => .error f
      | none => .ok (w, rs, rd)

/-- The element width of a participant's data. -/
def CollPart.width (x : CollPart) : Nat := (codeBits (fmtCode (bankWord x.cap.bfmt x.src))).getD 8

/-- The flits that carry a participant's data (10 R307). -/
def CollPart.flits (x : CollPart) : Nat := ceilDiv (x.n * x.width) 512

/-- The links that a participant's data passes on the way to the node of its scope instance and back: in a quad the node is at the quad's router (10 R307;
DEDUCED, log 54). -/
def CollPart.links (x : CollPart) (scope inst : Nat) : List Nat :=
  let a := Site.core x.core
  if scope = 2 then a.link 0 ++ a.link 1 else pathOver [a, .die (nodeDie scope inst), a]

/-- coll (10 R322, R324): one engine command of the participant. -/
def bodyColl (d r n : BitVec 5) (p : BitVec 3) (o : BitVec 2) (s : State) : Res :=
  let scope := p.toNat
  let c := s.own
  let src := srcC r s
  let dst := srcC d s
  if dst.extractLsb' 23 41 ≠ 0 then .fault 0x02 0
  else if src.extractLsb' 23 41 ≠ 0 then .fault 0x02 1
  else match collCount (srcC n s), c.run.sailing with
  | none, _ => .fault 0x02 2
  | some _, none => .fault 0x02 4
  | some (oc, comp, count), some sn =>
    let inst := instanceOf scope s.me
    if 5 ≤ comp then .fault 0x02 2
    else match collFault c o.toNat comp src.toNat dst.toNat count ((s.sailing sn).participants scope inst).length with
    | .error (code, detail) => .fault code detail
    | .ok (_, rs, rd) =>
      let k := c.colls.toList.getD (scope - 2) 0
      let (tags, s) := consumeTags s s.me (named s.me [rs])
      let (id, s) := launch s s.me .collective oc (named s.me [rs]) (named s.me [rd])
      let part : CollPart :=
        { core := s.me, id := id, op := o.toNat, n := count, comp := comp, src := src.toNat, dst := dst.toNat, oc := oc,
          cap := c.capture, baddr := s.cur.addr, word := s.cur.word, tags := tags }
      let part := { part with ways := List.replicate part.flits { at_ := s.wall } }
      let s := s.modOwn fun c => { c with colls := c.colls.setIfInBounds (scope - 2) (k + 1) }
      .ok (s.modSailing sn fun g =>
        if g.colls.any fun x => x.scope = scope ∧ x.inst = inst ∧ x.k = k then
          { g with colls := g.colls.map fun x =>
              if x.scope = scope ∧ x.inst = inst ∧ x.k = k then { x with parts := x.parts ++ [part] } else x }
        else { g with colls := g.colls ++ [{ scope := scope, inst := inst, k := k, parts := [part] }] })

/-- The larger or smaller of two tapered values, NaR below every other (02 R65). -/
def pickQuire (o : Nat) (a b : Val) : Val :=
  let less (x y : Val) : Bool := if x.isNan then !y.isNan else !y.isNan && Val.lt false x y
  if o = 1 then (if less a b then b else a) else (if less b a then b else a)

/-- The result of one element over the ranks (10 R323). -/
def collResult (op comp q : Nat) (es : List Elt) : Val × Bool :=
  let bad := es.any (·.poison)
  let xs := (decodeAll comp es).1.map (·.1)
  if comp = 4 then
    (if op = 0 then
      let r := quireSum { n := q } (es.map fun e => ({ e with poison := false }, none))
      decodeQuire r.n r.val
    else match xs with | [] => .zero false | x :: rest => rest.foldl (pickQuire op) x, bad)
  else if op = 0 ∧ comp = 0 then
    (match xs with | [] => .zero false | x :: rest => roundIn 0 (rest.foldl Val.add x), bad)
  else (reduceAll (combine op comp) (.zero false) xs, bad)

/-- The anomalies that a participant's own decodes count. -/
def collAnomalies (comp : Nat) (es : List Elt) : Nat := (decodeAll comp es).2

/-- The result of a collective written at one participant. -/
def collWrite (s : State) (parts : List CollPart) (data : List (List Elt)) (x : CollPart) : State :=
  let c := s.core x.core
  let mine := data.getD ((parts.map (·.core)).idxOf x.core) []
  if x.op = 3 then
    let all := data.flatten.map fun e => (e.raw, e.poison)
    landed (s.perform false (rawArray c x.core x.cap.bfmt (denseShape x.dst all.length) 0 all)) x.core x.id
  else
    let q := collQuire (banksOf x.cap.bfmt (x.src, x.src + x.n * x.width / 8))
    let vals := (List.range x.n).map fun i => collResult x.op x.comp q (data.map fun es => es.getD i { raw := 0, val := .zero false })
    let (ws, k) := encodeArray c x.core x.cap (denseShape x.dst x.n) 0 0 none vals
    landed (addFanom (s.perform false ws) x.core (k + collAnomalies x.comp mine)) x.core x.id

/-- Every participant of a collective has issued it, residue slots have taken its data, and nothing earlier of its class holds any of them back; the first fault of a source
read, with its participant. -/
def collReady (s : State) (g : Sailing) (x : Coll) : Bool × Option (CollPart × Nat × Nat) :=
  let full := x.parts.length == (g.participants x.scope x.inst).length && x.parts.all fun y => y.ways.all (·.over (y.links x.scope x.inst))
  let blocked (y : CollPart) : Bool := match (s.core y.core).flight.find? (·.id = y.id) with
    | some f => (s.core y.core).blocked y.core y.id y.oc .collective f.reads f.writes
    | none => true
  let gate (y : CollPart) : Gate := match tagGate s y.core y.tags with
    | .go => readGate (s.core y.core) y.src (y.n * y.width / 8)
    | g => g
  let bad := x.parts.findSome? fun y => match gate y with | .fault c d => some (y, c, d) | _ => none
  (full && !x.parts.any fun y => blocked y || gate y == .wait, if full then bad else none)

/-- The participants of a collective by rank. -/
def Coll.ranked (s : State) (x : Coll) : List CollPart :=
  sortBy (fun a b => decide ((s.core a.core).ctl.lid ≤ (s.core b.core).ctl.lid)) x.parts

/-- A collective ends: its result is written at each participant, or all fault where they disagree (10 R323). -/
def collFinish (s : State) (sn : Nat) (x : Coll) : State :=
  let parts := x.ranked s
  let s := s.modSailing sn fun g => { g with colls := g.colls.filter fun y => !(y.scope == x.scope && y.inst == x.inst && y.k == x.k) }
  match parts with
  | [] => s
  | y :: _ =>
    if parts.all fun z => z.op = y.op ∧ z.n = y.n ∧ z.comp = y.comp ∧ z.width = y.width then
      let data := parts.map fun z => (List.range z.n).map fun i => readElt s z.core z.cap.bfmt (denseShape z.src z.n) 0 i
      parts.foldl (fun s z => collWrite s parts data z) s
    else parts.foldl (fun s z => landed (engineFault s z.core 0x0E 15 z.baddr z.word) z.core z.id) s

/-- The words that a participant reads and writes, as its command's ranges have them. -/
def CollPart.words (s : State) (x : CollPart) : List (Bool × Nat × Nat) :=
  match (s.core x.core).flight.find? (·.id = x.id) with
  | some f => readsWrites f.reads f.writes
  | none => []

/-- The participants of a collective that is ready access their scratchpads, as ports come free (04 R123): the state, and the participants. -/
def collServe (s : State) : List CollPart → State × List CollPart
  | [] => (s, [])
  | x :: l =>
    let (s', k) := s.serveWords (x.words s) (x.served.getD 0) 64
    let (s', l) := collServe s' l
    (s', { x with served := some k } :: l)

/-- Every word of a participant has had its port. -/
def CollPart.through (s : State) (x : CollPart) : Bool := (wordIn (x.words s) (x.served.getD 0)).isNone

/-- COLLECTIVE_COMPLETE (10 R323): the oldest collective of the sailing that is ready accesses the scratchpads; it completes when every word has had its port. -/
def execCollectiveComplete (sn : Nat) (s : State) : Host.Outcome State Fault Refusal :=
  let g := s.sailing sn
  if ¬ g.running then .next s
  else match g.colls.findSome? fun x => (collReady s g x).2 with
    | some (y, code, detail) =>
      let s := landed (engineFault s y.core code detail y.baddr y.word) y.core y.id
      .next (s.modSailing sn fun g => { g with colls := g.colls.map fun x => { x with parts := x.parts.filter (· ≠ y) } })
    | none => match g.colls.find? fun x => (collReady s g x).1 with
      | some x =>
        let (s', parts) := collServe s x.parts
        if parts.all (·.through s) then .next (collFinish s' sn x)
        else .next (s'.modSailing sn fun g => { g with colls := g.colls.map fun y =>
          if y.scope = x.scope ∧ y.inst = x.inst ∧ y.k = x.k then { y with parts := parts } else y })
      | none => .next s

/-! ### Combining (10 R325, R326) -/

/-- The fields of cG: owner, group, round, contributions expected. -/
def groupFields (v : Word) : Nat × Nat × Nat × Nat :=
  ((v.extractLsb' 0 16).toNat, (v.extractLsb' 16 4).toNat, (v.extractLsb' 20 4).toNat, (v.extractLsb' 24 16).toNat)

/-- A packet is sent: it is complete at issue and never stalls. -/
def sendPacket (merge : Bool) (cp cg : BitVec 5) (s : State) : Res :=
  let v := srcC cp s
  let w := srcC cg s
  let (owner, group, round, _) := groupFields w
  if w.extractLsb' 40 24 ≠ 0 ∨ 4 * s.own.ctl.qcount ≤ owner then .fault 0x02 2
  else
    let p : Packet :=
      { owner := owner, group := group, round := round, merge := merge, n := 1,
        items := [((v.extractLsb' 32 32).toNat, (v.extractLsb' 0 32).toNat)], rank := (match s.cur.agent with | .core _ => 1 | .skiff _ _ => 3),
        lid := s.own.ctl.lid, src := .core s.me, way := { at_ := s.wall } }
    .ok (noResult 1 (match s.own.run.sailing with
      | some n => s.modSailing n fun g => { g with packets := g.packets ++ [p] }
      | none => s))

/-- A combining list: key descending, then index ascending. -/
def itemBefore (a b : Nat × Nat) : Bool := decide (b.1 < a.1 ∨ (a.1 = b.1 ∧ a.2 ≤ b.2))

/-- Two packets of one round combined (10 R326). -/
def Packet.combine (a b : Packet) : Packet :=
  let items := sortBy itemBefore (a.items ++ b.items)
  { a with n := a.n + b.n, items := items.take (if a.merge then 64 else 1) }

/-- A group takes a packet of round NR or NR + 1; a packet of any other round, of the wrong mode for the armed round, or one that would
take the armed count above E is dropped: whether it was taken. -/
def Group.take (g : Group) (p : Packet) : Bool × Group :=
  let same (q : Packet) : Bool := q.round == p.round && q.merge == p.merge
  let count := (g.held.filter fun q => q.round = g.nr).foldl (fun n q => n + q.n) 0
  let armedBad : Bool := match g.armed with
    | some (merge, e, _) => p.round == g.nr && (p.merge != merge || decide (e < count + p.n))
    | none => false
  if (p.round ≠ g.nr ∧ p.round ≠ (g.nr + 1) % 16) ∨ armedBad then (false, g)
  else match g.held.find? same with
    | some q => (true, { g with held := g.held.map fun r => if same r then q.combine p else r })
    | none => (true, { g with held := g.held ++ [p] })

/-- The result block of a round (10 R326): entries, then E. -/
def resultBlock (merge : Bool) (e : Nat) (items : List (Nat × Nat)) : List (Nat × Nat) :=
  let word (x : Nat × Nat) : Nat := x.1 * 2 ^ 32 + x.2
  if merge then
    ((List.range 64).map fun j => (8 * j, if j < Nat.min e 64 then word (items.getD j (0, 0xFFFFFFFF)) else 0xFFFFFFFF)) ++ [(512, e)]
  else [(0, word (items.getD 0 (0, 0))), (8, e)]

/-- Round NR closes when it is armed and its count has reached E: the owner writes the block once every word of it has had its port (04 R123), and NR advances. -/
def closeRound (s : State) (p i : Nat) : State :=
  let c := s.core p
  let g := c.groups.toList.getD i {}
  match g.armed with
  | none => s
  | some (merge, e, a) =>
    let mine := g.held.filter fun q => q.round = g.nr
    let (s', k) := s.serveWords [(true, spadBase p + a, spadBase p + a + (if merge then 520 else 16))] (g.served.getD 0) 64
    if mine.foldl (fun n q => n + q.n) 0 < e then s
    else if (wordIn [(true, spadBase p + a, spadBase p + a + (if merge then 520 else 16))] k).isSome then
      s'.modCore p fun c => { c with groups := c.groups.setIfInBounds i { g with served := some k } }
    else
      let s := s'
      let items := (mine.head?.map (·.items)).getD []
      let s := (resultBlock merge e items).foldl (fun s x => s.write false (spadBase p + c.shadow (a + x.1)) x.2 8) s
      let next : Group := { nr := (g.nr + 1) % 16, armed := none, held := g.held.filter fun q => q.round ≠ g.nr }
      s.modCore p fun c => { c with groups := c.groups.setIfInBounds i next }

/-- A packet reaches core p, its owner (10 R326). -/
def deliverPacket (s : State) (p : Nat) (x : Packet) : State :=
  let (ok, g) := ((s.core p).groups.toList.getD x.group {}).take x
  if ok then closeRound (s.modCore p fun c => { c with groups := c.groups.setIfInBounds x.group g }) p x.group
  else s.modDie (dieOf p) fun d => { d with cmbdrop := d.cmbdrop + 1 }

/-- A round is armed: the packets that the group already holds for it are taken again under the armed mode and count. -/
def armGroup (merge : Bool) (ca cg : BitVec 5) (s : State) : Res :=
  let a := (srcC ca s).toNat
  let w := srcC cg s
  let (owner, i, round, e) := groupFields w
  let g := s.own.groups.toList.getD i {}
  if w.extractLsb' 40 24 ≠ 0 ∨ 4 * s.own.ctl.qcount ≤ owner ∨ owner ≠ s.own.ctl.lid ∨ e = 0 ∨ round ≠ g.nr ∨ g.armed.isSome then .fault 0x02 2
  else if a % 8 ≠ 0 then .fault 0x02 7
  else if let some (code, detail) := s.blockFault a (if merge then 520 else 16) then .fault code detail
  else
    let mine := g.held.filter fun q => q.round = g.nr
    let fresh : Group := { g with armed := some (merge, e, a), held := g.held.filter fun q => q.round ≠ g.nr }
    let s := s.modOwn fun c => { c with groups := c.groups.setIfInBounds i fresh }
    .ok (noResult 1 (mine.foldl (fun s q => deliverPacket s s.me q) s))

/-- cmbx.max (10 R325). -/
def bodyCmbxMax (p h : BitVec 5) (s : State) : Res := sendPacket false p h s
/-- cmbx.merge (10 R325). -/
def bodyCmbxMerge (p h : BitVec 5) (s : State) : Res := sendPacket true p h s
/-- cmbx.armmax (10 R325). -/
def bodyCmbxArmmax (p h : BitVec 5) (s : State) : Res := armGroup false p h s
/-- cmbx.armmerge (10 R325). -/
def bodyCmbxArmmerge (p h : BitVec 5) (s : State) : Res := armGroup true p h s

/-- The rounds that wait for ports of core p close where they can. -/
def closeRounds (s : State) (p : Nat) : State :=
  if (s.core p).groups.any (·.served.isSome) then (List.range 16).foldl (fun s i => closeRound s p i) s else s

/-- The links that a packet passes on the way to its owner; one that names no core of the partition comes no further than the fabric. -/
def Packet.links (x : Packet) (g : Sailing) : List Nat :=
  if 4 * g.quads.length ≤ x.owner then x.src.link 0 else path x.src (.core (g.coreAt x.owner))

/-- COMBINING_PACKET (10 R326): one packet that is over its way, which one is free, reaches its owner, where it is combined. A packet of a sampling command that
names no core of the partition, which 11 R351 has sent all the same, reaches none (DESIGN CHOICE, log 63). -/
def execCombiningPacket (sn : Nat) (s : State) : Host.Outcome State Fault Refusal :=
  let g := s.sailing sn
  let (f, s) := s.free
  if ¬ g.running then .next s
  else
    let s := ((List.range (4 * g.quads.length)).map g.coreAt).foldl closeRounds s
    let ready := (List.range g.packets.length).filter fun i => match g.packets[i]? with | some x => x.way.over (x.links g) | none => false
    let i := ready.getD (f.toNat % ready.length) g.packets.length
    match g.packets[i]? with
    | none => .next s
    | some x =>
      let s := s.modSailing sn fun g => { g with packets := g.packets.eraseIdx i }
      .next (if 4 * g.quads.length ≤ x.owner then s else deliverPacket s (g.coreAt x.owner) x)

/-! ### Alignment, retries and holds (10 R303 to R306) -/

/-- A sailing is launching, sailing, marked, halted or saved. -/
def Sailing.alive (g : Sailing) : Bool := decide (g.state ≤ 4)

/-- LINK_ALIGNMENT (10 R303): between sailings the pod measures its links and sets LATR and HLAT, and its wired ports are up. -/
def execLinkAlignment (latr hlat : Nat) (s : State) : Host.Outcome State Fault Refusal :=
  if latr % 8 ≠ 0 ∨ latr < 64 ∨ 2048 < latr ∨ hlat % 8 ≠ 0 ∨ 65536 ≤ hlat ∨ s.sailings.any (fun x => x.2.alive) then .next s
  else
    let wire (k : Nat) (a : Package) : Package :=
      { a with ports := Vector.ofFn fun i : Fin 24 => match Config.wiring k i.val with
          | some (q, r) => { a.ports[i] with up := true, peer := q, peerPort := r }
          | none => a.ports[i] }
    .next { s with
      pod := { s.pod with latr := latr, hlat := hlat }
      pkgs := (List.range 64).foldl (fun t k => if (List.range 24).any (fun i => (Config.wiring k i).isSome) then t.set k (wire k (t.get {} k)) else t)
        (s.pkgs.map fun (x : Nat × Package) => (x.1, { x.2 with fresh := false })) }

/-- The lane of a retry has a slack slot in phase k (10 R304). -/
def Sailing.slackAt (g : Sailing) (r : Retry) (k : Nat) : Bool :=
  g.links.any fun l => l.key == r.key && l.entry r.lane (k % g.period) / 2 ^ 14 == 2

/-- The retries that are resent in the sailing's present cycle: the first of each lane that has a slack slot. -/
def Sailing.resent (g : Sailing) : List Retry :=
  let waits := g.retries.filter fun r => decide (r.since < g.t)
  waits.filter fun r => g.slackAt r g.t && (waits.find? fun x => x.key = r.key ∧ x.lane = r.lane) == some r

/-- Flits have been resent: the dies of their links count them (15 R407); those whose copies are good are no longer awaited. -/
def countResent (s : State) (n : Nat) (rs : List Retry) (good : Retry → Bool) : State :=
  let s := rs.foldl (fun s r => s.modDie (linkDie r.key) fun d => { d with lretry := d.lretry + 1 }) s
  s.modSailing n fun g => { g with retries := g.retries.filter fun r => !(rs.contains r && good r) }

/-- FLIT_RESEND (10 R304): the flits that have a slack slot of their lane in this cycle are sent again; a copy that is garbled too is still awaited. -/
def execFlitResend (sn : Nat) (s : State) : Host.Outcome State Fault Refusal :=
  let g := s.sailing sn
  let rs := if g.running then g.resent else []
  let good (r : Retry) : Bool := !crcBad (withCrc r.flit ^^^ Config.lineNoise (s.freeIx + rs.idxOf r))
  .next { countResent s sn rs good with freeIx := s.freeIx + rs.length }

/-- A hold of h cycles is requested (10 R304, R305): it takes effect HLAT Timetable cycles later; a request made while the pod is frozen extends the freeze. -/
def requestHold (s : State) (h : Nat) : State :=
  { s with pod := match s.pod.freeze with
    | some (a, b) => { s.pod with freeze := some (a, Nat.max b (s.wall + h)) }
    | none => { s.pod with holds := s.pod.holds ++ [(s.pod.tt + s.pod.hlat, h)] } }

/-- HOLD_REQUEST (10 R304, R305): a request of a legal length. -/
def execHoldRequest (h : Nat) (s : State) : Host.Outcome State Fault Refusal :=
  .next (if h % 64 ≠ 0 ∨ h < 64 ∨ 4096 < h then s else requestHold s h)

/-- The length of the hold that a retry asks for (10 R304): large enough for its lane's next slack slot, a period at most; in 64 to 4,096. -/
def Sailing.holdFor (g : Sailing) (r : Retry) : Nat :=
  let t := Nat.max g.t r.since
  let d := t - g.t + ((List.range g.period).find? fun k => g.slackAt r (t + 1 + k)).getD g.period
  Nat.min 4096 (64 * ceilDiv (d + 1) 64)

/-- Receivers that at a flit's stated cycle minus HLAT have no good copy request a hold (10 R304). -/
def askHolds (s : State) (n : Nat) : State :=
  let g := s.sailing n
  let late (r : Retry) : Bool := !r.asked && decide (r.due ≤ g.t + s.pod.hlat)
  if ¬ g.running ∨ ¬ g.retries.any late then s
  else
    let s := (g.retries.filter late).foldl (fun s r => requestHold s (g.holdFor r)) s
    s.modSailing n fun g => { g with retries := g.retries.map fun r => if late r then { r with asked := true } else r }

/-- A hold has given the retries of a sailing that were due in its last cycle the time to complete: they arrive in their stated cycle (10 R304, R305). -/
def endRetries (s : State) (n : Nat) : State :=
  let g := s.sailing n
  let rs := g.retries.filter fun r => r.asked && decide (r.due ≤ g.t)
  if rs.isEmpty then s
  else
    let s := countResent s n rs fun _ => true
    (List.range g.chans.length).foldl (fun s i => onChannel s n i ((s.sailing n).arrive i)) s

/-- HOLD_FREEZE (10 R305): requests whose cycle has come freeze every Timetable clock from the end of this cycle. -/
def execHoldFreeze (s : State) : Host.Outcome State Fault Refusal :=
  let due := s.pod.holds.filter fun x => decide (x.1 ≤ s.pod.tt)
  if due.isEmpty ∨ s.pod.freeze.isSome then .next s
  else
    let h := due.foldl (fun n x => Nat.max n x.2) 0
    .next { s with pod := { s.pod with
      holds := s.pod.holds.filter fun x => decide (s.pod.tt < x.1), freeze := some (s.wall + 1, s.wall + h) } }

/-- A core that is sailing has seen a freeze of h cycles (10 R305; 14 R399). -/
def Core.held (c : Core) (h : Nat) : Core :=
  let o := c.obs.driftRun h 15 c.nextBaddr (h / 8191 + 1)
  { c with obs := { o with holdn := o.holdn + 1, holdcyc := o.holdcyc + BitVec.ofNat 64 h } }

/-- HOLD_FREEZE_END (10 R305): after its last cycle the retries that it waited for have completed, the clocks go on, and every sailing core writes its record. -/
def execHoldFreezeEnd (s : State) : Host.Outcome State Fault Refusal :=
  match s.pod.freeze with
  | some (a, b) =>
    if s.wall < b then .next s
    else
      let s := { s with pod := { s.pod with freeze := none } }
      let s := s.sailings.foldl (fun s x => endRetries s x.1) s
      .next { s with cores := s.cores.map fun (x : Nat × Core) =>
        match x.2.run.sailing with
        | some n => if (s.sailing n).running then (x.1, x.2.held (b + 1 - a)) else x
        | none => x }
  | none => .next s

/-! ### Tolls (10 R308 to R311) -/

/-- The purses at a boundary (10 R310). -/
def Ctl.refillPurses (k : Ctl) : Ctl :=
  let pr := Nat.max (Nat.min k.resv k.refill) 96
  { k with purse := Nat.min (k.purse + pr) 0xFFFFFF, tolls := if pr < k.refill then k.refill - pr else 0 }

/-- TOLLR under the power manager's caps: never above what the launch loaded (10 R311). -/
def capTolls (k : Ctl) (tollr : Nat) (cap : Option (Nat × Nat)) : Ctl :=
  match cap with
  | some (refill, resv) => { k with refill := Nat.min (tollr % 2 ^ 24) refill, resv := Nat.min (tollr / 2 ^ 24) resv }
  | none => { k with refill := tollr % 2 ^ 24, resv := tollr / 2 ^ 24 }

/-- TOLLR as loaded at launch: the reset value of 10 R309 where the record gives 0 (13 R369). -/
def launchTolls (tollr : Nat) : Nat := if tollr = 0 then 0x018000 * 2 ^ 24 + 0x020000 else tollr

/-- TOLL_PERIOD_BOUNDARY (10 R310): at the end of each cycle 1,024n − 1 of a sailing the monitors sample PURSE and the purses are refilled. -/
def execTollPeriodBoundary (p : Nat) (s : State) : Host.Outcome State Fault Refusal :=
  let c := s.core p
  match c.run.sailing with
  | none => .next s
  | some n =>
    if (c.run.t + 1) % 1024 ≠ 0 ∨ ¬ (s.sailing n).running then .next s
    else
      let cap := (s.pkgs.get {} (pkgOf p)).cap
      .next (s.modCore p fun c => { c with
        obs := c.obs.sample 5 0 (BitVec.ofNat 64 c.ctl.purse)
        ctl := (capTolls c.ctl (launchTolls (s.sailing n).tollr) cap).refillPurses })

/-- POWER_LIMIT (10 R311): the package is above its limit; the power manager caps REFILL and RESV of every core of the package from the next boundary on. -/
def execPowerLimit (k refill resv : Nat) (s : State) : Host.Outcome State Fault Refusal :=
  .next { s with pkgs := s.pkgs.set k { s.pkgs.get {} k with cap := some (refill % 2 ^ 24, resv % 2 ^ 24), above := some s.pod.tt } }

/-- The power manager's holds (10 R311): a period of 1,024 Timetable cycles after REFILL was lowered, and in each period from then on, a package that is still
above its limit, which is free, requests a hold of 64 cycles. -/
def powerHolds (s : State) : State :=
  s.pkgs.foldl (fun s x => match x.2.above with
    | none => s
    | some u =>
      if s.pod.tt ≤ u ∨ (s.pod.tt - u) % 1024 ≠ 0 then s
      else
        let hot := Config.stillAbove s.freeIx
        let s := { s with freeIx := s.freeIx + 1 }
        if hot then requestHold s 64 else { s with pkgs := s.pkgs.set x.1 { s.pkgs.get {} x.1 with above := none } }) s

/-! ### The instructions of this file at issue -/

/-- BAR_SYNC issued by itself (R319). -/
def execBarSync (g : BitVec 4) (b : BitVec 4) (r : BitVec 3) (s : State) : Host.Outcome State Fault Refusal :=
  finish s (queueLimit (issue (.barSync g b r) g (bodyBarSync b r) s))
/-- BAR_ARR issued by itself (R319). -/
def execBarArr (g : BitVec 4) (b : BitVec 4) (r : BitVec 3) (s : State) : Host.Outcome State Fault Refusal :=
  finish s (queueLimit (issue (.barArr g b r) g (bodyBarArr b r) s))
/-- BAR_WAIT issued by itself (R319). -/
def execBarWait (g : BitVec 4) (b : BitVec 4) (r : BitVec 3) (s : State) : Host.Outcome State Fault Refusal :=
  finish s (queueLimit (issue (.barWait g b r) g (bodyBarWait b r) s))
/-- COLL issued by itself (R322). -/
def execColl (g : BitVec 4) (d : BitVec 5) (r : BitVec 5) (n : BitVec 5) (p : BitVec 3) (o : BitVec 2) (s : State) : Host.Outcome State Fault Refusal :=
  finish s (queueLimit (issue (.coll g d r n p o) g (bodyColl d r n p o) s))
/-- CMBX_MAX issued by itself (R325). -/
def execCmbxMax (g : BitVec 4) (p : BitVec 5) (h : BitVec 5) (s : State) : Host.Outcome State Fault Refusal :=
  finish s (queueLimit (issue (.cmbxMax g p h) g (bodyCmbxMax p h) s))
/-- CMBX_MERGE issued by itself (R325). -/
def execCmbxMerge (g : BitVec 4) (p : BitVec 5) (h : BitVec 5) (s : State) : Host.Outcome State Fault Refusal :=
  finish s (queueLimit (issue (.cmbxMerge g p h) g (bodyCmbxMerge p h) s))
/-- CMBX_ARMMAX issued by itself (R325). -/
def execCmbxArmmax (g : BitVec 4) (p : BitVec 5) (h : BitVec 5) (s : State) : Host.Outcome State Fault Refusal :=
  finish s (queueLimit (issue (.cmbxArmmax g p h) g (bodyCmbxArmmax p h) s))
/-- CMBX_ARMMERGE issued by itself (R325). -/
def execCmbxArmmerge (g : BitVec 4) (p : BitVec 5) (h : BitVec 5) (s : State) : Host.Outcome State Fault Refusal :=
  finish s (queueLimit (issue (.cmbxArmmerge g p h) g (bodyCmbxArmmerge p h) s))

end Sys2Proof.Machine
end

