-- ==== Sys2Proof/Machine/Float.lean ====
section
/-! DEFINITION. The F-slot instructions and the scalar tapered instructions of the X slot (04 R152 to R158). -/

namespace Sys2Proof.Machine

/-- Anomalies counted in a core's FANOM, which stops at its largest value (02 R82). -/
def Core.anomalies (c : Core) (n : Nat) : Core :=
  if n = 0 then c else { c with ctl := { c.ctl with fanom := Nat.min 0xFFFFFFFF (c.ctl.fanom + n) } }

/-- Anomalies counted in the executing core's FANOM. -/
def State.anomalies (s : State) (n : Nat) : State := if n = 0 then s else s.modOwn (·.anomalies n)

/-! ### Tapered operations of the X slot (04 R152) -/

/-- The width and exponent size of a tapered field code: T6, T8, T16, T32. -/
def taperedOf (t : Nat) : Nat × Nat :=
  match t with
  | 0 => (6, 1)
  | 1 => (8, 2)
  | 2 => (16, 2)
  | _ => (32, 2)

/-- The format code of a tapered field code (02 R49). -/
def taperedCode (t : Nat) : Nat := 0x18 + t % 4

/-- The value of the low n bits of a register as a tapered word. -/
def taperedVal (t : Nat) (v : Word) : Val := decodeTapered (taperedOf t).1 (taperedOf t).2 (v.toNat % 2 ^ (taperedOf t).1)

/-- A tapered result by one encoding with RNE and the destination's overflow entry (02 R67). -/
def taperedResult (ovf : Word) (t : Nat) (v : Val) : Word :=
  BitVec.ofNat 64 (encodeTapered (taperedOf t).1 (taperedOf t).2 0 0 (ovfEntry ovf (taperedCode t)) v)

/-- tdec (04 R152). -/
def bodyTdec (d a : BitVec 5) (t : BitVec 2) (s : State) : Res :=
  withX a s fun v s =>
    writeX d 2 (decodeRecord (taperedOf t.toNat).1 (taperedOf t.toNat).2 (v.toNat % 2 ^ (taperedOf t.toNat).1)) s

/-- tcmp (04 R152): the words compare as signed integers (02 R65). -/
def bodyTcmp (h : BitVec 4) (a b : BitVec 5) (t c : BitVec 2) (s : State) : Res :=
  withX a s fun v s => withX b s fun w s =>
    writeG h (taperedCondition c.toNat (sextOf v.toNat (taperedOf t.toNat).1) (sextOf w.toNat (taperedOf t.toNat).1)) s

/-- The result of tcvt and the anomalies it counts (04 R152): tapered to tapered, I64 to tapered, tapered to I64. -/
def tcvtResult (ovf : Word) (k e t : Nat) (v : Word) : Word × Nat :=
  match k with
  | 0 => (taperedResult ovf e (taperedVal t v), 0)
  | 1 => (taperedResult ovf e (Val.ofInt v.toInt), 0)
  | _ =>
    let r := encodeInt true 64 0 0 (ovfEntry ovf 0x06) (taperedVal t v)
    (BitVec.ofNat 64 r.1, r.2)

/-- tcvt (04 R152). -/
def bodyTcvt (d a : BitVec 5) (k e t : BitVec 2) (s : State) : Res :=
  withX a s fun v s =>
    let r := tcvtResult s.own.ctl.ovf k.toNat e.toNat t.toNat v
    writeX d 2 r.1 (s.anomalies r.2)

/-! ### F slot -/

/-- The precision that the P bit selects (04 R153). -/
def precision (p : BitVec 1) : FloatFmt := if p = 1 then f32 else f64

/-- An operand at a precision: all 64 bits, or bits [31:0]. -/
def operand (p : BitVec 1) (v : Word) : Val := decodeFloat (precision p) (v.toNat % 2 ^ (if p = 1 then 32 else 64))

/-- A result at a precision: bits [63:32] are zero for binary32. -/
def result (p : BitVec 1) (v : Val) : Word := BitVec.ofNat 64 (encodeCompute (precision p) v)

/-- A two-operand F operation with its latency. -/
def binaryF (d a b : BitVec 5) (p : BitVec 1) (lat : Nat) (f : Val → Val → Val) (s : State) : Res :=
  withF a s fun v s => withF b s fun w s => writeF d lat (result p (f (operand p v) (operand p w))) s

/-- A fused operation: rounded once, at the end (04 R154). -/
def fusedF (d a b c : BitVec 5) (p : BitVec 1) (f : Val → Val → Val → Val) (s : State) : Res :=
  withF a s fun u s => withF b s fun v s => withF c s fun w s =>
    writeF d 4 (result p (f (operand p u) (operand p v) (operand p w))) s

/-- fadd (04 R154). -/
def bodyFadd (d a b : BitVec 5) (p : BitVec 1) (s : State) : Res := binaryF d a b p 4 Val.add s
/-- fsub (04 R154). -/
def bodyFsub (d a b : BitVec 5) (p : BitVec 1) (s : State) : Res := binaryF d a b p 4 (fun v w => v.add w.negate) s
/-- fmul (04 R154). -/
def bodyFmul (d a b : BitVec 5) (p : BitVec 1) (s : State) : Res := binaryF d a b p 4 Val.mul s
/-- fma (04 R154). -/
def bodyFma (d a b c : BitVec 5) (p : BitVec 1) (s : State) : Res := fusedF d a b c p (fun u v w => (u.mul v).add w) s
/-- fms (04 R154). -/
def bodyFms (d a b c : BitVec 5) (p : BitVec 1) (s : State) : Res := fusedF d a b c p (fun u v w => (u.mul v).add w.negate) s
/-- fnma (04 R154). -/
def bodyFnma (d a b c : BitVec 5) (p : BitVec 1) (s : State) : Res := fusedF d a b c p (fun u v w => (u.mul v).negate.add w) s
/-- fdiv (04 R154). -/
def bodyFdiv (d a b : BitVec 5) (p : BitVec 1) (s : State) : Res := binaryF d a b p 14 Val.div s
/-- fsqrt (04 R154). -/
def bodyFsqrt (d a : BitVec 5) (p : BitVec 1) (s : State) : Res :=
  withF a s fun v s => writeF d 16 (result p (operand p v).sqrt) s
/-- fmin (04 R155). -/
def bodyFmin (d a b : BitVec 5) (p : BitVec 1) (s : State) : Res := binaryF d a b p 2 Val.min s
/-- fmax (04 R155). -/
def bodyFmax (d a b : BitVec 5) (p : BitVec 1) (s : State) : Res := binaryF d a b p 2 Val.max s

/-- The conditions of fcmp (04 R155): eq, lt, le, un, ne. -/
def floatCondition (c : Nat) (a b : Val) : Bool :=
  if a.isNan || b.isNan then decide (3 ≤ c)
  else match c with
    | 0 => a.eq b
    | 1 => Val.lt false a b
    | 2 => !Val.lt false b a
    | 3 => false
    | _ => !a.eq b

/-- fcmp (04 R155). -/
def bodyFcmp (h : BitVec 4) (a b : BitVec 5) (c : BitVec 3) (p : BitVec 1) (s : State) : Res :=
  withF a s fun v s => withF b s fun w s => writeG h (floatCondition c.toNat (operand p v) (operand p w)) s

/-- The format codes of fcvt's type field (04 R156): F64, F32, F16, BF16, I64, N64, T16, T32. -/
def fcvtCode (n : Nat) : Nat := [0x10, 0x11, 0x12, 0x13, 0x06, 0x07, 0x1A, 0x1B].getD n 0x10

/-- The result of fcvt and the anomalies it counts (04 R156): an F32 destination overflows to an infinity, the others by their entry. -/
def fcvtResult (ovf : Word) (src dst : Nat) (v : Word) : Nat × Nat :=
  match fmtOf (fcvtCode src) with
  | none => (0, 0)
  | some f =>
    let x := decodeFmt f v.toNat
    if fcvtCode dst = 0x11 then (encodeCompute f32 x, 0) else encodeFmt (fcvtCode dst) 0 0 ovf x

/-- fcvt (04 R156). -/
def bodyFcvt (d a : BitVec 5) (e t : BitVec 3) (s : State) : Res :=
  withF a s fun v s =>
    let r := fcvtResult s.own.ctl.ovf t.toNat e.toNat v
    writeF d 4 (BitVec.ofNat 64 r.1) (s.anomalies r.2)

/-- The sign bit of an operand's pattern. -/
def signBit (p : BitVec 1) (v : Word) : Bool := v.getLsbD (if p = 1 then 31 else 63)

/-- The result of fsgn (04 R157): the magnitude of the first operand with the chosen sign; a NaN gives the canonical NaN. -/
def fsgnResult (p : BitVec 1) (o : Nat) (v w : Word) : Word :=
  if (operand p v).isNan then BitVec.ofNat 64 (precision p).nan
  else
    let neg := match o with
      | 0 => signBit p w
      | 1 => !signBit p w
      | _ => signBit p v != signBit p w
    let n := if p = 1 then 31 else 63
    BitVec.ofNat 64 (v.toNat % 2 ^ n + if neg then 2 ^ n else 0)

/-- fsgn (04 R157). -/
def bodyFsgn (d a b : BitVec 5) (o : BitVec 2) (p : BitVec 1) (s : State) : Res :=
  withF a s fun v s => withF b s fun w s => writeF d 1 (fsgnResult p o.toNat v w) s

/-- The class of a value (04 R157): the number of the one bit that fcls sets. -/
def classOf (f : FloatFmt) (v : Val) : Nat :=
  match v with
  | .nan | .nar => 8
  | .inf neg => if neg then 0 else 7
  | .zero neg => if neg then 3 else 4
  | .fin neg m e =>
    let normal := decide (1 - (f.bias : Int) ≤ topBit m e)
    match neg, normal with
    | true, true => 1
    | true, false => 2
    | false, false => 5
    | false, true => 6

/-- fcls (04 R157). -/
def bodyFcls (d a : BitVec 5) (p : BitVec 1) (s : State) : Res :=
  withF a s fun v s => writeF d 1 (BitVec.ofNat 64 (2 ^ classOf (precision p) (operand p v))) s

/-- A two-operand tapered F operation (04 R158): the exact result encoded once; a NaR operand gives NaR. -/
def taperedF (d a b : BitVec 5) (t : BitVec 2) (f : Val → Val → Val) (s : State) : Res :=
  withF a s fun v s => withF b s fun w s =>
    writeF d 4 (taperedResult s.own.ctl.ovf t.toNat (f (taperedVal t.toNat v) (taperedVal t.toNat w))) s

/-- tadd (04 R158). -/
def bodyTadd (d a b : BitVec 5) (t : BitVec 2) (s : State) : Res := taperedF d a b t Val.add s
/-- tsub (04 R158). -/
def bodyTsub (d a b : BitVec 5) (t : BitVec 2) (s : State) : Res := taperedF d a b t (fun v w => v.add w.negate) s
/-- tmul (04 R158). -/
def bodyTmul (d a b : BitVec 5) (t : BitVec 2) (s : State) : Res := taperedF d a b t Val.mul s

/-! ### The instructions of this file at issue -/

/-- TDEC issued by itself (R152). -/
def execTdec (g : BitVec 4) (d : BitVec 5) (a : BitVec 5) (t : BitVec 2) (s : State) : Host.Outcome State Fault Refusal :=
  finish s (queueLimit (issue (.tdec g d a t) g (bodyTdec d a t) s))
/-- TCMP issued by itself (R152). -/
def execTcmp (g : BitVec 4) (h : BitVec 4) (a : BitVec 5) (b : BitVec 5) (t : BitVec 2) (c : BitVec 2) (s : State) : Host.Outcome State Fault Refusal :=
  finish s (queueLimit (issue (.tcmp g h a b t c) g (bodyTcmp h a b t c) s))
/-- TCVT issued by itself (R152). -/
def execTcvt (g : BitVec 4) (d : BitVec 5) (a : BitVec 5) (k : BitVec 2) (e : BitVec 2) (r : BitVec 2) (s : State) : Host.Outcome State Fault Refusal :=
  finish s (queueLimit (issue (.tcvt g d a k e r) g (bodyTcvt d a k e r) s))
/-- FADD issued by itself (R154). -/
def execFadd (g : BitVec 4) (d : BitVec 5) (a : BitVec 5) (b : BitVec 5) (p : BitVec 1) (s : State) : Host.Outcome State Fault Refusal :=
  finish s (queueLimit (issue (.fadd g d a b p) g (bodyFadd d a b p) s))
/-- FSUB issued by itself (R154). -/
def execFsub (g : BitVec 4) (d : BitVec 5) (a : BitVec 5) (b : BitVec 5) (p : BitVec 1) (s : State) : Host.Outcome State Fault Refusal :=
  finish s (queueLimit (issue (.fsub g d a b p) g (bodyFsub d a b p) s))
/-- FMUL issued by itself (R154). -/
def execFmul (g : BitVec 4) (d : BitVec 5) (a : BitVec 5) (b : BitVec 5) (p : BitVec 1) (s : State) : Host.Outcome State Fault Refusal :=
  finish s (queueLimit (issue (.fmul g d a b p) g (bodyFmul d a b p) s))
/-- FMA issued by itself (R154). -/
def execFma (g : BitVec 4) (d : BitVec 5) (a : BitVec 5) (b : BitVec 5) (c : BitVec 5) (p : BitVec 1) (s : State) : Host.Outcome State Fault Refusal :=
  finish s (queueLimit (issue (.fma g d a b c p) g (bodyFma d a b c p) s))
/-- FMS issued by itself (R154). -/
def execFms (g : BitVec 4) (d : BitVec 5) (a : BitVec 5) (b : BitVec 5) (c : BitVec 5) (p : BitVec 1) (s : State) : Host.Outcome State Fault Refusal :=
  finish s (queueLimit (issue (.fms g d a b c p) g (bodyFms d a b c p) s))
/-- FNMA issued by itself (R154). -/
def execFnma (g : BitVec 4) (d : BitVec 5) (a : BitVec 5) (b : BitVec 5) (c : BitVec 5) (p : BitVec 1) (s : State) : Host.Outcome State Fault Refusal :=
  finish s (queueLimit (issue (.fnma g d a b c p) g (bodyFnma d a b c p) s))
/-- FDIV issued by itself (R154). -/
def execFdiv (g : BitVec 4) (d : BitVec 5) (a : BitVec 5) (b : BitVec 5) (p : BitVec 1) (s : State) : Host.Outcome State Fault Refusal :=
  finish s (queueLimit (issue (.fdiv g d a b p) g (bodyFdiv d a b p) s))
/-- FSQRT issued by itself (R154). -/
def execFsqrt (g : BitVec 4) (d : BitVec 5) (a : BitVec 5) (p : BitVec 1) (s : State) : Host.Outcome State Fault Refusal :=
  finish s (queueLimit (issue (.fsqrt g d a p) g (bodyFsqrt d a p) s))
/-- FMIN issued by itself (R155). -/
def execFmin (g : BitVec 4) (d : BitVec 5) (a : BitVec 5) (b : BitVec 5) (p : BitVec 1) (s : State) : Host.Outcome State Fault Refusal :=
  finish s (queueLimit (issue (.fmin g d a b p) g (bodyFmin d a b p) s))
/-- FMAX issued by itself (R155). -/
def execFmax (g : BitVec 4) (d : BitVec 5) (a : BitVec 5) (b : BitVec 5) (p : BitVec 1) (s : State) : Host.Outcome State Fault Refusal :=
  finish s (queueLimit (issue (.fmax g d a b p) g (bodyFmax d a b p) s))
/-- FCMP issued by itself (R155). -/
def execFcmp (g : BitVec 4) (h : BitVec 4) (a : BitVec 5) (b : BitVec 5) (c : BitVec 3) (p : BitVec 1) (s : State) : Host.Outcome State Fault Refusal :=
  finish s (queueLimit (issue (.fcmp g h a b c p) g (bodyFcmp h a b c p) s))
/-- FCVT issued by itself (R156). -/
def execFcvt (g : BitVec 4) (d : BitVec 5) (a : BitVec 5) (e : BitVec 3) (r : BitVec 3) (s : State) : Host.Outcome State Fault Refusal :=
  finish s (queueLimit (issue (.fcvt g d a e r) g (bodyFcvt d a e r) s))
/-- FSGN issued by itself (R157). -/
def execFsgn (g : BitVec 4) (d : BitVec 5) (a : BitVec 5) (b : BitVec 5) (o : BitVec 2) (p : BitVec 1) (s : State) : Host.Outcome State Fault Refusal :=
  finish s (queueLimit (issue (.fsgn g d a b o p) g (bodyFsgn d a b o p) s))
/-- FCLS issued by itself (R157). -/
def execFcls (g : BitVec 4) (d : BitVec 5) (a : BitVec 5) (p : BitVec 1) (s : State) : Host.Outcome State Fault Refusal :=
  finish s (queueLimit (issue (.fcls g d a p) g (bodyFcls d a p) s))
/-- TADD issued by itself (R158). -/
def execTadd (g : BitVec 4) (d : BitVec 5) (a : BitVec 5) (b : BitVec 5) (t : BitVec 2) (s : State) : Host.Outcome State Fault Refusal :=
  finish s (queueLimit (issue (.tadd g d a b t) g (bodyTadd d a b t) s))
/-- TSUB issued by itself (R158). -/
def execTsub (g : BitVec 4) (d : BitVec 5) (a : BitVec 5) (b : BitVec 5) (t : BitVec 2) (s : State) : Host.Outcome State Fault Refusal :=
  finish s (queueLimit (issue (.tsub g d a b t) g (bodyTsub d a b t) s))
/-- TMUL issued by itself (R158). -/
def execTmul (g : BitVec 4) (d : BitVec 5) (a : BitVec 5) (b : BitVec 5) (t : BitVec 2) (s : State) : Host.Outcome State Fault Refusal :=
  finish s (queueLimit (issue (.tmul g d a b t) g (bodyTmul d a b t) s))

end Sys2Proof.Machine
end

