-- ==== Sys2Proof/Machine/Array.lean ====
section
/-! DEFINITION. The matrix array's data: latch buffers, accumulator tiles, products, merges, stores and pruning (07 R230 to R256). -/

namespace Sys2Proof.Machine

/-! ### Quads -/

/-- The record of quad q. -/
def State.quad (s : State) (q : Nat) : Quad := s.quads.get {} q

/-- The state with a quad's record changed. -/
def State.modQuad (s : State) (q : Nat) (f : Quad → Quad) : State := { s with quads := s.quads.set q (f (s.quad q)) }

/-! ### Latch formats (07 R237) -/

/-- Capacity and product rate of a latch format; none for a format that no latch holds. -/
def latchFormat (code : Nat) : Option (Nat × Nat) :=
  match code with
  | 0x08 | 0x09 => some (384, 384)
  | 0x18 => some (256, 256)
  | 0x00 | 0x01 | 0x14 | 0x15 | 0x19 => some (192, 192)
  | 0x12 | 0x13 | 0x1A => some (96, 96)
  | 0x11 => some (48, 16)
  | 0x10 => some (24, 4)
  | _ => none

/-- The capacity of a latch format. -/
def latchCap (code : Nat) : Nat := match latchFormat code with | some (n, _) => n | none => 0

/-- The product rate of a pair of buffers. -/
def latchRate (a b : Nat) : Nat :=
  match latchFormat a, latchFormat b with
  | some (_, p), some (_, q) => Nat.min p q
  | _, _ => 1

/-- Elements of w bits packed from bit 0 upward (02 R51), and their poison bits. -/
def packRow (w : Nat) (xs : List (Nat × Bool)) : Nat × Nat :=
  let xs := (List.range xs.length).zip xs
  (xs.foldl (fun z x => z + x.2.1 % 2 ^ w * 2 ^ (w * x.1)) 0, xs.foldl (fun z x => if x.2.2 then z + 2 ^ x.1 else z) 0)

/-- Element k of a row as stored. -/
def Latch.raw (l : Latch) (r k : Nat) : Nat :=
  let w := (codeBits l.code).getD 8
  l.rows.toList.getD r 0 / 2 ^ (w * k) % 2 ^ w

/-- Whether element k of a row is poisoned. -/
def Latch.poisoned (l : Latch) (r k : Nat) : Bool := l.bad.toList.getD r 0 / 2 ^ k % 2 == 1

/-- The value of element k of a row, unscaled; an I4O element by its granule (02 R58). -/
def Latch.val (l : Latch) (r k : Nat) : Val :=
  if l.code = 0x09 then (decodeGranule (l.rows.toList.getD r 0 / 2 ^ (16 * (k / 4)) % 2 ^ 16)).1.getD (k % 4) (.zero false)
  else match fmtOf l.code with
    | some f => decodeFmt f (l.raw r k)
    | none => .zero false

/-- The scaling tag of a buffer, where its format is scaled (02 R54). -/
def Latch.exp (l : Latch) : Int :=
  match fmtOf l.code with
  | some f => if f.scaled then l.scale else 0
  | none => 0

/-! ### Tiles (07 R230, R231) -/

/-- The slots of a tile type. -/
def tileSlots (type : Nat) : Nat := [1, 1, 2, 4, 8].getD type 1

/-- The element width of a tile type in bits (07 R234). -/
def tileBits (type : Nat) : Nat := [32, 32, 64, 128, 256].getD type 32

/-- The rows and columns of a shape code. -/
def tileRows (shape : Nat) : Nat := if shape < 2 then 32 else 16
/-- The columns of a shape code. -/
def tileCols (shape : Nat) : Nat := if shape % 2 = 0 then 32 else 16

/-- An element of a tile. -/
def Tile.elem (t : Tile) (n : Nat) : Nat := t.elems.getD n 0

/-- The value of an element of a tile type. -/
def tileVal (type v : Nat) : Val :=
  match type with
  | 0 => decodeFloat f32 v
  | 1 => Val.ofInt (sextOf v 32)
  | 2 => decodeFloat f64 v
  | 3 => decodeQuire 8 v
  | _ => decodeQuire 16 v

/-- A tile with every element replaced by a function of its row and column; the second component poisons the element. -/
def Tile.map (t : Tile) (f : Nat → Nat → Nat × Bool × Bool) : Tile :=
  let cols := tileCols t.shape
  let n := tileRows t.shape * cols
  let xs := (List.range n).map fun i => f (i / cols) (i % cols)
  { t with elems := xs.map (·.1), ovf := t.ovf || xs.any (·.2.2),
           bad := (List.range n).filter fun i => t.bad.contains i || (xs.getD i (0, false, false)).2.1 }

/-- The tile whose first slot is d. -/
def Quad.tile (q : Quad) (d : Nat) : Option Tile := q.tiles.find? (·.first = d)

/-- A tile replaced. -/
def Quad.setTile (q : Quad) (t : Tile) : Quad := { q with tiles := q.tiles.map fun x => if x.first = t.first then t else x }

/-- Whether two runs of slots meet. -/
def slotsMeet (d k e m : Nat) : Bool := decide (d < e + m) && decide (e < d + k)

/-- The tiles after a new tile is formed on slots d to d + k − 1: tiles that shared a slot are gone, their other slots single F32 tiles. -/
def formTile (ts : List Tile) (d type shape : Nat) : List Tile :=
  let k := tileSlots type
  let gone (t : Tile) : Bool := slotsMeet d k t.first (tileSlots t.type)
  let freed := (ts.filter gone).flatMap fun t => ((List.range (tileSlots t.type)).map (· + t.first)).filter fun i => i < d ∨ d + k ≤ i
  ts.filter (!gone ·) ++ freed.map (fun i => { first := i }) ++ [{ first := d, type := type, shape := shape }]

/-- mcfg at the array (07 R231). -/
def Quad.configure (q : Quad) (d type shape : Nat) : Quad := { q with tiles := formTile q.tiles d type shape }

/-! ### Products (07 R241 to R249) -/

/-- The rules of accumulation. -/
inductive ProductRule where
  | f8 | f16 | f32 | f64 | int | tapered (n : Nat)
  deriving DecidableEq, Repr

/-- The rule of a pair of formats and a tile type (07 R241). -/
def productRule (a b type : Nat) : Option ProductRule :=
  let inSet (l : List Nat) : Bool := l.contains a && l.contains b
  if inSet [0x14, 0x15, 0x09] ∧ type = 0 then some .f8
  else if inSet [0x12, 0x13] ∧ type = 0 then some .f16
  else if inSet [0x11] ∧ type = 0 then some .f32
  else if inSet [0x10] ∧ type = 2 then some .f64
  else if inSet [0x08, 0x00, 0x01] ∧ type = 1 then some .int
  else if inSet [0x18, 0x19] ∧ type = 3 then some (.tapered 8)
  else if inSet [0x1A] ∧ type = 4 then some (.tapered 16)
  else none

/-- The special cases of a group's sum (07 R244): a NaN, or infinities; else what the finite products give. -/
def groupSum (qs : List Val) (finite : List Val → Val) : Val :=
  if qs.any (·.isNan) ∨ (qs.contains (.inf false) ∧ qs.contains (.inf true)) then .nan
  else if qs.contains (.inf false) then .inf false
  else if qs.contains (.inf true) then .inf true
  else
    let nz := qs.filter fun q => match q with | .fin _ _ _ => true | _ => false
    if nz.isEmpty then .zero false else finite nz

/-- The magnitude's top bit position of a finite product. -/
def Val.top : Val → Int
  | .fin _ m e => topBit m e
  | _ => 0

/-- The windowed sum of a group (07 R244, R245): magnitudes truncated below 2^(emax − bits), times 2^scale. -/
def windowSum (bits : Nat) (scale : Int) (qs : List Val) : Val :=
  let emax : Int := match qs with | q :: rest => rest.foldl (fun (z : Int) q => max z q.top) q.top | [] => 0
  let lsb := emax - bits
  let total : Int := qs.foldl (fun z q => match q with
    | .fin neg m e => let k : Int := roundTo 1 0 m e lsb; if neg then z - k else z + k
    | _ => z) 0
  Val.mk (decide (total < 0)) total.natAbs (lsb + scale)

/-- The exact sum of a group, times 2^scale (07 R246). -/
def exactSum (scale : Int) (qs : List Val) : Val := (qs.foldl Val.add (.zero false)).scale scale

/-- A list cut into groups of n. -/
def groupsOf (n : Nat) : Nat → List α → List (List α)
  | 0, _ => []
  | _, [] => []
  | fuel + 1, l => l.take n :: groupsOf n fuel (l.drop n)

/-- The exact integer of a product. -/
def Val.int (v : Val) : Int := v.over 0

/-- The products of an element, in ascending k, accumulated into it by a rule: the element and whether it overflowed (07 R244 to R249). -/
def accumulate (r : ProductRule) (scale : Int) (acc : Nat) (ps : List Val) : Nat × Bool :=
  let grouped (n : Nat) (sum : List Val → Val) : Nat :=
    (groupsOf n ps.length ps).foldl (fun acc g => encodeCompute f32 ((decodeFloat f32 acc).add (groupSum g sum))) acc
  match r with
  | .f8 => (grouped 16 (windowSum 19 scale), false)
  | .f16 => (grouped 8 (windowSum 43 scale), false)
  | .f32 => (grouped 4 (exactSum scale), false)
  | .f64 => (ps.foldl (fun acc p => encodeCompute f64 ((p.scale scale).add (decodeFloat f64 acc))) acc, false)
  | .int =>
    let z := sextOf acc 32 + ps.foldl (fun z p => z + p.int) 0
    (wrapTo 32 z, decide (z < -(2 ^ 31 : Nat) ∨ ((2 ^ 31 : Nat) : Int) ≤ z))
  | .tapered n => (ps.foldl (fun acc p => quireAdd n acc p) acc, false)

/-- A product into tile t (07 R243): factor lists of row i and column j, in runs of one scale each, with the poison of row and column.
rows and cols are the masks. -/
def Tile.product (t : Tile) (r : ProductRule) (mask : Word) (a : List (List (Val × Bool))) (b : List (List (Val × Bool)))
    (runs : List (Nat × Nat × Int)) : Tile :=
  t.map fun i j =>
    let n := i * tileCols t.shape + j
    if mask.getLsbD i ∧ mask.getLsbD (32 + j) then
      let xs := (a.getD i []).zip (b.getD j [])
      let (v, o) := runs.foldl (fun (v, o) (k0, len, sc) =>
        let (v', o') := accumulate r sc v (((xs.drop k0).take len).map fun x => x.1.1.mul x.2.1)
        (v', o || o')) (t.elem n, false)
      (v, xs.any fun x => x.1.2 || x.2.2, o)
    else (t.elem n, false, false)

/-- The first depth elements of every row of a buffer. -/
def Latch.factors (l : Latch) (depth : Nat) : List (List (Val × Bool)) :=
  (List.range 32).map fun r => (List.range depth).map fun k => (l.val r k, l.poisoned r k)

/-- The product of two buffers (07 R243). -/
def Tile.mma (t : Tile) (r : ProductRule) (mask : Word) (a b : Latch) (depth : Nat) : Tile :=
  t.product r mask (a.factors depth) (b.factors depth) [(0, depth, a.exp + b.exp)]

/-! ### Sparsity (07 R254 to R256) -/

/-- The group word w of a metadata register. -/
def mdWord (md : BitVec 24576) (w : Nat) : Nat := (md.extractLsb' (16 * w) 16).toNat

/-- Index q of a group word. -/
def mdIndex (v q : Nat) : Nat := v / 2 ^ (3 * q) % 8

/-- A group word is malformed: its indices do not rise strictly, or its top bits are not zero (07 R254). -/
def mdBad (v : Nat) : Bool :=
  decide (4096 ≤ v) || !(decide (mdIndex v 0 < mdIndex v 1) && decide (mdIndex v 1 < mdIndex v 2) && decide (mdIndex v 2 < mdIndex v 3))

/-- The first malformed word of rows 0 to 31 and the groups of a depth, in ascending order (07 R256). -/
def mdFault (md : BitVec 24576) (depth : Nat) : Option Nat :=
  ((List.range 32).flatMap fun i => (List.range ((depth + 7) / 8)).map fun g => 48 * i + g).find? fun w => mdBad (mdWord md w)

/-- The logical rows of a compressed buffer (07 R256). -/
def sparseFactors (l : Latch) (md : BitVec 24576) (depth : Nat) : List (List (Val × Bool)) :=
  (List.range 32).map fun i => (List.range depth).map fun k =>
    let g := k / 8
    match (List.range 4).find? fun q => mdIndex (mdWord md (48 * i + g)) q = k % 8 with
    | some q => (l.val i (4 * g + q), l.poisoned i (4 * g + q))
    | none => (.zero false, false)

/-- The sparse product (07 R256): B0 holds logical k 0 to 191, B1 192 to 383. -/
def Tile.mmas (t : Tile) (r : ProductRule) (mask : Word) (a b0 b1 : Latch) (md : BitVec 24576) (depth : Nat) : Tile :=
  let n := Nat.min depth 192
  let b := ((b0.factors n).zip (b1.factors (depth - n))).map fun x => x.1 ++ x.2
  t.product r mask (sparseFactors a md depth) b
    (if r = .int then [(0, depth, 0)] else [(0, n, a.exp + b0.exp), (192, depth - n, a.exp + b1.exp)])

/-- The four kept indices of a group (07 R255): largest magnitude first, lower index first among equals; ascending. -/
def keepFour (xs : List Val) : List Nat :=
  let mag (i : Nat) : Val := match xs.getD i (.zero false) with | .fin _ m e => .fin false m e | .zero _ => .zero false | v => v
  let above (i j : Nat) : Bool :=
    let (x, y) := (mag i, mag j)
    if x.isNan then (if y.isNan then decide (i < j) else true)
    else if y.isNan then false
    else if Val.lt false y x then true else if Val.lt false x y then false else decide (i < j)
  (List.range 8).filter fun i => ((List.range 8).filter fun j => j ≠ i ∧ above j i).length < 4

/-! ### Merges, images and stores (07 R232, R234, R251 to R253) -/

/-- One element of mcfg.add (07 R232): the sum and whether it overflowed. -/
def mergeElem (type x y : Nat) : Nat × Bool :=
  match type with
  | 0 => (encodeCompute f32 ((decodeFloat f32 x).add (decodeFloat f32 y)), false)
  | 1 => accumulate .int 0 x [Val.ofInt (sextOf y 32)]
  | 3 => (quireAdd 8 x (decodeQuire 8 y), false)
  | _ => (quireAdd 16 x (decodeQuire 16 y), false)

/-- The bit address of element (i, j) of a raw image (07 R234). -/
def imageAt (h : Shape) (i j : Nat) : Nat :=
  (8 * ((h.base : Int) + j * h.strides.getD 0 0 + i * h.strides.getD 1 0)).toNat

/-- The tile positions of the c-th 4 KiB of a tile's elements: its row and column each (07 R235). -/
def imageStage (type shape c : Nat) : List (Nat × Nat) :=
  let (n, cols) := (32768 / tileBits type, tileCols shape)
  (List.range (Nat.min n (tileRows shape * cols - c * n))).map fun i => ((c * n + i) / cols, (c * n + i) % cols)

/-- The c-th 4 KiB of a raw image read from a core's scratchpad into a tile, or added to it (07 R232, R234). -/
def Tile.load (t : Tile) (s : State) (p : Nat) (h : Shape) (merge : Bool) (c : Nat) : Tile :=
  let w := tileBits t.type
  t.map fun i j =>
    let n := i * tileCols t.shape + j
    if n * w / 32768 ≠ c then (t.elem n, false, false)
    else
      let v := readField s p (imageAt h i j) w
      let bad := fieldPoison s p (imageAt h i j) w
      if merge then let (v, o) := mergeElem t.type (t.elem n) v; (v, bad, o) else (v, bad, false)

/-- The elements that a store writes (07 R251): position, row, column. COUNT1 is 1 where NDIM = 0 (08 R266). -/
def Tile.stored (t : Tile) (h : Shape) (mask : Word) : List (Nat × Nat × Nat) :=
  let c0 := h.counts.getD 0 0
  let c1 := if h.ndim = 1 then 1 else h.counts.getD 1 0
  (List.range (tileRows t.shape)).flatMap fun i => (List.range (tileCols t.shape)).filterMap fun j =>
    if i < c1 ∧ j < c0 ∧ mask.getLsbD i ∧ mask.getLsbD (32 + j) then some (i * c0 + j, i, j) else none

/-- The writes of mst and mst.raw in ascending position (07 R251, R252; 08 R270); first: the cycle of the first of them (R235). -/
def Tile.store (t : Tile) (cap : Capture) (h : Shape) (mask : Word) (raw : Bool) (first : Nat) : List Put :=
  let w := if raw then tileBits t.type else h.width cap.bfmt
  (t.stored h mask).map fun (n, i, j) =>
    let b := (h.bitAt w 0 n).toNat
    let k := i * tileCols t.shape + j
    let (bits, a) := if raw then (t.elem k, 0)
      else encodeVia cap (bankWord cap.bfmt (b / 8)) none (32 * i + j) (tileVal t.type (t.elem k))
    { due := first + k * w / 32768, bit := b, w := w, val := bits, poison := t.bad.contains k, anom := a }

/-- The status word of a tile (07 R253). -/
def Tile.status (t : Tile) : Word :=
  let any (f : Val → Bool) : Bool := t.elems.any fun v => f (tileVal t.type v)
  BitVec.ofNat 64 (t.shape * 2 ^ 14 + t.type * 2 ^ 11 + t.first * 16 + (if 3 ≤ t.type ∧ any (· == .nar) then 8 else 0)
    + (if t.bad.isEmpty then 0 else 4) + (if (t.type = 0 ∨ t.type = 2) ∧ any (· == .nan) then 2 else 0) + (if t.ovf then 1 else 0))

end Sys2Proof.Machine
end

