-- ==== Sys2Proof/Machine/Helm.lean ====
section
/-! DEFINITION. The helm-only instructions, and what they do to a sailing: pre-emption, save, restore and kill; the
queues and their policy; shootdowns; parameter generations (13 R369 to R394). -/

namespace Sys2Proof.Machine

/-! ### Helm memory (13 R365) -/

/-- An operand of a helm-only instruction is no helm-scratchpad address of n bytes with an alignment. -/
def helmBad (a align n : Nat) : Bool := decide (a % align ≠ 0 ∨ 0x200000 < a + n)

/-- Word i of a block in the executing helm's scratchpad. -/
def State.helmAt (s : State) (a i : Nat) : Nat := readSpad s s.me (a + 8 * i) 8

/-- A word of the executing helm's scratchpad written by one of its instructions. -/
def State.helmPut (s : State) (a v : Nat) : State := s.write false (spadBase s.me + a) v 8

/-- The wait of a helm instruction: its stall writes no drift record (13 R364), so its cause is this model's own. -/
def helmWait : Res := .stall 22

/-- The cycles for which the executing helm's bundle has stalled. -/
def State.waited (s : State) : Nat := match s.own.run.stall with | some r => if r.bundle = s.cur.addr then r.cycles else 0 | none => 0

/-- The last sailing launched with a status block of the executing helm's die (13 R372). -/
def State.findBlock (s : State) (a : Nat) : Option Nat :=
  (s.sailings.reverse.find? fun x => x.2.block = spadBase s.me + a ∧ dieOf x.2.helm = dieOf s.me).map (·.1)

/-- What a helm instruction that names a status block finds: the sailing, or, for a block that no launch has named, the STATE that
its bytes hold. -/
def withBlock (a : Nat) (s : State) (live : Nat → Sailing → Res) (none_ : Nat → Res) : Res :=
  if helmBad a 64 64 then .fault 0x02 7
  else match s.findBlock a with
    | some n => live n (s.sailing n)
    | none => none_ (s.helmAt a 0 % 256)

/-! ### Ownership (13 R371, R378, R388) -/

/-- A sailing owns its quads and lanes: from its loading until it is done, saved or dead. -/
def Sailing.holdsQuads (g : Sailing) : Bool := g.slot.isNone && (g.loaded || g.state == 1 || g.state == 2 || g.state == 3 || g.state == 6)

/-- A sailing lies saved on its quads. -/
def Sailing.isSaved (g : Sailing) : Bool := g.slot.isSome && (g.state == 4 || g.state == 6)

/-- The lanes that a sailing is allotted: those with a channel slot or a slack slot (10 R300). -/
def Sailing.lanes (g : Sailing) : List (Nat × Nat) :=
  g.links.flatMap fun l => ((List.range l.lanes.length).filter fun i =>
    (l.lanes.getD i []).any fun e => e / 2 ^ 14 = 1 ∨ e / 2 ^ 14 = 2).map fun i => (l.key, i)

/-- Another sailing holds one of a sailing's quads. -/
def quadsTaken (s : State) (n : Nat) (quads : List Nat) : Bool :=
  s.sailings.any fun x => x.1 != n && x.2.holdsQuads && quads.any x.2.quads.contains

/-- Another sailing holds one of a list of lanes. -/
def lanesTaken (s : State) (n : Nat) (lanes : List (Nat × Nat)) : Bool :=
  s.sailings.any fun x => x.1 != n && x.2.holdsQuads && lanes.any x.2.lanes.contains

/-! ### sail (13 R369, R371) -/

/-- A launch record breaks R369, R19 or R23 by itself. -/
def recordBad (w : Nat → Nat) : Bool :=
  let task := bitsOf (w 6) 24 24
  decide (2 ^ 48 ≤ w 0 ∨ w 0 % 4 ≠ 0 ∨ w 1 % 2 ^ 17 ≠ 0 ∨ 2 ^ 52 ≤ w 1 ∨ w 2 % 2 ^ 38 ≠ 0 ∨ w 3 % 64 ≠ 0 ∨ w 4 % 64 ≠ 0 ∨ w 5 % 2 ≠ 0)
    || decide (bitsOf (w 6) 15 0 = 0 ∨ 6144 < bitsOf (w 6) 15 0 ∨ bitsOf (w 6) 23 22 ≠ 0 ∨ bitsOf (w 6) 63 25 ≠ 0)
    || decide (0x100000 < w 7 ∨ 2 ^ 48 ≤ w 8)
    || (if task = 1 then w 9 == 0 || helmBad (w 9) 8 64 else w 9 != 0)
    || (List.range 5).any fun i => w (11 + i) ≠ 0

/-- The attributes of a queue as they stood at the end of the cycle before. -/
def Queue.before (q : Queue) (wall : Nat) : QAttr := if q.setAt = wall then q.old else q.attr

/-- sail (13 R371): the record is read, what the launch captures is captured, the status block is written; the launch then proceeds
without the helm. -/
def bodySail (l b : BitVec 5) (s : State) : Res :=
  let a := (srcC l s).toNat
  let block := (srcC b s).toNat
  let w (i : Nat) := s.helmAt a i
  if helmBad a 64 128 ∨ helmBad block 64 64 then .fault 0x02 7
  else if recordBad w then .fault 0x02 7
  else
    let d := dieOf s.me
    let r := s.die d
    let queue := bitsOf (w 6) 21 16
    let q := (r.queues.toList.getD queue {}).before s.wall
    let c := s.own
    let g : Sailing :=
      { helm := s.me, block := spadBase s.me + block, sno := r.sno, state := 0, queue := queue, task := bitsOf (w 6) 24 24 == 1,
        entry := w 0, ptroot := w 1, spwin := w 2, image := w 3, ttbl := w 4, qlist := w 5, nquads := bitsOf (w 6) 15 0,
        landb := if w 7 = 0 then c.ctl.landb else w 7, tollr := w 8, rootarg := w 9, deadline := w 10,
        seed := c.ctl.seed, ovf := (s.helm s.me).ovfnext, level := q.level, redir := q.redir,
        carve := ((s.helm s.me).carve.toList.getD q.tier 0xFF).truncate 8 }
    let n := s.nextSailing
    let s := { s with nextSailing := n + 1, sailings := s.sailings.set n g }
    .ok (writeBlock (s.modDie d fun r => { r with sno := (r.sno + 1) % 65536 }) n)

/-- A core that no sailing has: what is left of it is its drift ring and its monitors' settings, its queued records, and its debug module. -/
def idleCore (c : Core) : Core := { ({} : Core) with obs := c.obs, dbg := c.dbg }

/-- The observation state of a core at sailing start: counters and results cleared, settings kept (14 R399, R400); records still queued stay so, since nothing
but a full queue drops one (14 R398). -/
def Observe.fresh (o : Observe) : Observe :=
  { monitors := o.monitors.map fun m => { ({} : Monitor) with cfg := m.cfg }, drbase := o.drbase, drlen := o.drlen, queue := o.queue }

/-! ### The end of a sailing (13 R373) -/

/-- The dies of a sailing's quads. -/
def Sailing.dies (g : Sailing) : List Nat := (g.quads.map (· / 24)).eraseDups

/-- A Lighter, sequence-engine or Pilot command of a sailing, or one of its token rows, is under way. -/
def State.engineWork (s : State) (n : Nat) : Bool :=
  s.lighters.any (fun x => x.2.any fun c => c.sailing == some n)
    || s.dies.any fun x => x.2.sq.any (fun c => c.sailing == some n) || x.2.pilot.any (fun c => c.sailing == some n)
        || x.2.rows.any fun c => c.sailing == some n

/-- The records that a sailing owns are closed in every die's sequence engine (11 R328). -/
def closeRecords (s : State) (n : Nat) : State :=
  { s with dies := s.dies.map fun (x : Nat × Die) => (x.1, { x.2 with records := x.2.records.filter fun r => r.2.sailing ≠ some n }) }

/-- The cores that still belong to a sailing become idle. -/
def freeCores (s : State) (n : Nat) : State :=
  { s with cores := s.cores.map fun (x : Nat × Core) => if x.2.run.sailing = some n then (x.1, idleCore x.2) else x }

/-- swait (13 R375): it reads the STATE byte of the block. -/
def bodySwait (r : BitVec 5) (s : State) : Res :=
  let a := (srcC r s).toNat
  let st := s.helmAt a 0 % 256
  if helmBad a 64 64 then .fault 0x02 7
  else if st ≤ 4 then helmWait
  else if st ≤ 8 then .ok s
  else .fault 0x02 7

/-! ### Pre-emption (13 R383, R384; 03 R110) -/

/-- preempt (13 R383). -/
def bodyPreempt (r : BitVec 5) (s : State) : Res :=
  withBlock (srcC r s).toNat s (fun n g => .ok (if g.state = 1 ∧ ¬ g.killed then setSailingState s n 2 else s)) fun _ => .ok s

/-- PREEMPT_MARK (13 R383): the mark reaches core p, at a time that cannot be counted. -/
def execPreemptMark (p : Nat) (s : State) : Host.Outcome State Fault Refusal :=
  match (s.core p).run.sailing with
  | some n => .next (if (s.sailing n).state = 2 then s.modCore p fun c => { c with run := { c.run with preempt := true } } else s)
  | none => .next s

/-! ### Save and restore (13 R385 to R387; 07 R264) -/

/-- The saved array state of a quad (07 R264): latch buffers are not saved, no lease is held; the last holder stays (R226). -/
def Quad.save (q : Quad) : Quad := { q with a := Vector.replicate 2 {}, b := Vector.replicate 2 {} }

/-- A core's saved context. -/
def Core.save (c : Core) : Core := { c with run := { c.run with lease := 0, allow := 0 } }

/-- The context moves into shadow slot k of every quad of the partition; quads and lanes are free. -/
def saveSailing (s : State) (n k : Nat) : State :=
  let g := s.sailing n
  let ps := (List.range (4 * g.quads.length)).map g.coreAt
  let cores : Tab Core := ps.foldl (fun t p => Tab.set t p (s.core p).save) []
  let quads : Tab Quad := g.quads.foldl (fun t q => Tab.set t q (s.quad q).save) []
  let s := s.modSailing n fun g => { g with saved := cores, savedQuads := quads, slot := some k }
  let s := g.quads.foldl (fun s q => s.modQuad q fun _ => {}) s
  let s := freeCores (setSailingState s n 4) n
  ps.foldl (fun s p => s.modCore p fun c => { c with obs := { c.obs.fresh with queue := [] } }) s

/-- A shadow slot of some quad of a sailing is in use. -/
def slotUsed (s : State) (g : Sailing) (k : Nat) : Bool := s.sailings.any fun x => x.2.slot == some k && g.quads.any x.2.quads.contains

/-- ctxsv (13 R386): the move takes at most 150 cycles from the stop cycle; when it ends within them is free. It begins when the block with STATE 3, a release, has
been written (R372). -/
def bodyCtxsv (r : BitVec 5) (k : BitVec 1) (s : State) : Res :=
  withBlock (srcC r s).toNat s (fun n g =>
    if 5 ≤ g.state ∧ g.state ≤ 8 then .ok s
    else if g.state ≤ 1 then .fault 0x02 7
    else if slotUsed s g k.toNat then .fault 0x02 4
    else if g.state ≠ 3 ∨ g.killed then helmWait
    else if ¬ g.blocks.isEmpty then helmWait
    else if g.stopW + 150 ≤ s.wall ∨ Config.moment s.freeIx then .ok (saveSailing s n k.toNat)
    else helmWait) fun st => if st ≤ 1 then .fault 0x02 7 else .ok s

/-- A saved core as it resumes: it issues first the landing it halted before, with LCNT cleared (13 R387). -/
def Core.resume (c : Core) : Core := { c with run := { c.run with stopped := 0, preempt := false, lcnt := 0, moved := false } }

/-- The nominal schedule of a stopped macro command goes on from the entry and the step that it reached, with the cycle after t (07 R260). -/
def Plan.resume (x : Plan) (c : ACmd) (t : Nat) : Plan :=
  if x.id = c.id then { x with start := t + 1, entry := c.entry, step := c.step, resumed := true } else x

/-- The saved records queue up behind those that the core has still queued, and those past 256 are dropped and counted (14 R398). -/
def Observe.behind (saved o : Observe) : Observe :=
  let q := o.queue ++ saved.queue
  { saved with drbase := o.drbase, drlen := o.drlen, way := o.way, queue := q.take 256, drlost := saved.drlost + BitVec.ofNat 64 (q.length - 256) }

/-- The context is restored, behind the drift records that a core still has queued from before (DESIGN CHOICE, log 65), and the clock goes on, from the stop cycle, with the next cycle (13 R387). -/
def restoreSailing (s : State) (n : Nat) : State :=
  let g := s.sailing n
  let s := g.saved.foldl (fun s x =>
    let o := (s.core x.1).obs
    s.setCore x.1 { x.2.resume with dbg := (s.core x.1).dbg, obs := x.2.obs.behind o }) s
  let s := g.savedQuads.foldl (fun s x => x.2.cmds.foldl (fun s c => s.modCore c.core fun k => { k with plans := k.plans.map (·.resume c k.run.t) })
    (s.modQuad x.1 fun _ => x.2)) s
  setSailingState (s.modSailing n fun g => { g with saved := [], savedQuads := [], slot := none, loaded := true }) n 1

/-- ctxld (13 R387): it waits for the quads and lanes, then for the restore, of at most 150 cycles; when it ends within them is free. -/
def bodyCtxld (r : BitVec 5) (k : BitVec 1) (s : State) : Res :=
  withBlock (srcC r s).toNat s (fun n g =>
    if 5 ≤ g.state ∧ g.state ≤ 8 then .ok s
    else if g.state ≤ 3 then .fault 0x02 7
    else if g.slot ≠ some k.toNat then .fault 0x02 4
    else if g.killed ∨ quadsTaken s n g.quads ∨ lanesTaken s n g.lanes then helmWait
    else
      let restoring := match s.own.run.stall with | some x => if x.cause = 23 ∧ x.bundle = s.cur.addr then x.cycles else 0 | none => 0
      if 150 ≤ restoring ∨ Config.moment s.freeIx then .ok (restoreSailing s n) else .stall 23)
    fun st => if 5 ≤ st then .ok s else .fault 0x02 7

/-! ### Kill (13 R388) -/

/-- A core of a killed partition: it stops at once, at no landing; its vector, array and stream commands are discarded; DBGCTL is
cleared, a stop or a step under way with it (14 R404); a stall run that ends there writes its record (14 R397). -/
def Core.kill (c : Core) (p : Nat) : Core :=
  let c := c.endStall p
  { c with
    run := { c.run with live := false, stopped := 0, preempt := false, lease := 0, stall := none, busy := false }
    flight := c.flight.filter fun f => f.engine == .lighter || f.engine == .sequence || f.engine == .pilot
    vec := {}, moves := [], plans := [], sfu := []
    ports := Vector.replicate 4 {}
    refills := Vector.replicate 8 []
    barrel := { ({} : Barrel) with out := [] }
    dbg := { brk0 := c.dbg.brk0, brk1 := c.dbg.brk1 } }

/-- The partition of a sailing is stopped, and its commands that will not complete are gone. -/
def killSailing (s : State) (n : Nat) : State :=
  let g := s.sailing n
  if g.killed ∨ g.state = 5 ∨ g.state = 7 ∨ g.state = 8 then s
  else
    let r := g.resetNodes
    let s := { s with cores := s.cores.map fun (x : Nat × Core) => if x.2.run.sailing = some n then (x.1, (x.2.kill x.1).takeGens r x.1) else x }
    let s := if g.holdsQuads then g.quads.foldl (fun s q => s.modQuad q fun _ => {}) s else s
    s.modSailing n fun g => { g.resetNodes with
      killed := true, running := false, loaded := false, colls := [], packets := [],
      saved := g.saved.map fun (x : Nat × Core) => (x.1, (x.2.kill x.1).takeGens r x.1), savedQuads := [], retries := [] }

/-- preempt.kill (13 R388). -/
def bodyPreemptKill (r : BitVec 5) (s : State) : Res :=
  withBlock (srcC r s).toNat s (fun n _ => .ok (killSailing s n)) fun _ => .ok s

/-- The barrier arrivals of a killed sailing that were in flight are dropped and counted (10 R321). -/
def dropArrivals (s : State) (g : Sailing) : State :=
  g.arrivals.foldl (fun s m => s.modDie (nodeDie m.scope m.inst) fun d => { d with bardrop := d.bardrop + 1 }) s

/-- KILL_COMPLETE (13 R388): once the commands of the killed sailing have completed, its quads, lanes, carve-out and slot are freed together. -/
def execKillComplete (sn : Nat) (s : State) : Host.Outcome State Fault Refusal :=
  let g := s.sailing sn
  let remote := s.cores.any fun x => x.2.run.sailing == some sn && x.2.remotes.any (·.result.isNone)
  if ¬ g.killed ∨ g.state = 8 ∨ s.engineWork sn ∨ remote then .next s
  else
    let s := dropArrivals s g
    let s := setSailingState (s.modSailing sn fun g => { g with
      slot := none, saved := [], arrivals := [], completions := [], nodes := [], chans := [], shoots := [] }) sn 8
    .next (freeCores (closeRecords s sn) sn)

/-! ### Queues (13 R379 to R382) -/

/-- The attributes in a configuration block; none where a bit elsewhere is not zero or a field is out of its range. -/
def queueAttr (w : Nat → Nat) : Option QAttr :=
  if w 0 ≥ 2 ^ 7 ∨ bitsOf (w 0) 3 3 ≠ 0 ∨ 2 ^ 48 ≤ w 1 ∨ w 1 = 0 ∨ 12000000 < w 2 ∨ w 3 ≠ 0 then none
  else some { conf := true, tier := bitsOf (w 0) 2 0, level := bitsOf (w 0) 5 4, redir := bitsOf (w 0) 6 6 == 1,
              deadline := w 1, budget := w 2 }

/-- qpush.cfg (13 R379). -/
def bodyQpushCfg (q b : BitVec 5) (s : State) : Res :=
  let k := (srcC q s).toNat
  let a := (srcC b s).toNat
  let d := dieOf s.me
  if 64 ≤ k then .fault 0x02 1
  else if helmBad a 32 32 then .fault 0x02 7
  else match queueAttr (s.helmAt a) with
    | none => .fault 0x02 7
    | some attr =>
      let qs := (s.die d).queues
      let others := (List.range 64).foldl (fun n i => if i = k then n else n + (qs.toList.getD i {}).attr.budget) 0
      if 12000000 < others + attr.budget then .fault 0x02 7
      else .ok (s.modDie d fun r =>
        let x := r.queues.toList.getD k {}
        { r with queues := r.queues.setIfInBounds k { x with attr := attr, old := x.before s.wall, setAt := s.wall } })

/-- qpush (13 R380). -/
def bodyQpush (q b : BitVec 5) (s : State) : Res :=
  let k := (srcC q s).toNat
  let a := (srcC b s).toNat
  let d := dieOf s.me
  if 64 ≤ k then .fault 0x02 1
  else if helmBad a 32 32 then .fault 0x02 7
  else
    let x := (s.die d).queues.toList.getD k {}
    if ¬ x.attr.conf then .ok (s.helmPut (a + 16) 2)
    else if 32 ≤ x.fifo.length then .ok (s.helmPut (a + 16) 0)
    else
      let req := (BitVec.ofNat 64 (s.helmAt a 0), BitVec.ofNat 64 (s.helmAt a 1), s.wallOf d + x.attr.deadline)
      .ok ((s.helmPut (a + 16) 1).modDie d fun r =>
        { r with queues := r.queues.setIfInBounds k { x with fifo := x.fifo ++ [req] } })

/-- A queue is urgent: what is left of its budget needs all that is left of the period (13 R382). -/
def Queue.urgent (q : Queue) (wall : Nat) : Bool :=
  decide (q.used < q.attr.budget ∧ pstart wall + 12000000 - wall ≤ q.attr.budget - q.used)

/-- The queue that the policy picks, and whether it was urgent (13 R382). -/
def pickQueue (r : Die) (wall : Nat) : Option (Nat × Bool) :=
  let q (i : Nat) := r.queues.toList.getD i {}
  let ready := (List.range 64).filter fun i => !(q i).fifo.isEmpty
  let urgent := ready.filter fun i => (q i).urgent wall
  let top := ready.foldl (fun n i => Nat.max n (q i).attr.tier) 0
  let cand := if urgent.isEmpty then ready.filter fun i => (q i).attr.tier = top else urgent
  let due (i : Nat) : Nat := match (q i).fifo with | (_, _, t) :: _ => t | [] => 0
  let after (i : Nat) : Nat := (i + 63 - r.lastq % 64) % 64
  match sortBy (fun i j => decide (due i < due j ∨ (due i = due j ∧ after i ≤ after j))) cand with
  | i :: _ => some (i, !urgent.isEmpty)
  | [] => none

/-- qpop (13 R382). -/
def bodyQpop (b : BitVec 5) (s : State) : Res :=
  let a := (srcC b s).toNat
  let d := dieOf s.me
  let r := s.die d
  let wall := s.wallOf d
  let put (s : State) (w0 w1 w2 w3 : Nat) : State := (((s.helmPut a w0).helmPut (a + 8) w1).helmPut (a + 16) w2).helmPut (a + 24) w3
  if helmBad a 32 32 then .fault 0x02 7
  else match pickQueue r wall with
    | none => .ok (put s 0 0 0 0)
    | some (k, urgent) =>
      let x := r.queues.toList.getD k {}
      match x.fifo with
      | [] => .ok (put s 0 0 0 0)
      | (rec_, block, t) :: rest =>
        let w3 := k + (if urgent then 2 ^ 8 else 0) + (if t < wall then 2 ^ 9 else 0) + 2 ^ 15
        .ok (put (s.modDie d fun r => { r with lastq := k, queues := r.queues.setIfInBounds k { x with fifo := rest } })
          rec_.toNat block.toNat t w3)

/-- BUDGET_PERIOD_BOUNDARY (13 R381): at the start of a period USED of every queue returns to 0. -/
def execBudgetPeriodBoundary (d : Nat) (s : State) : Host.Outcome State Fault Refusal :=
  .next (if s.wallOf d = pstart (s.wallOf d) then s.modDie d fun r => { r with queues := r.queues.map fun q => { q with used := 0 } } else s)

/-! ### Shootdowns and overflow tables (13 R389, R391) -/

/-- Whether a shootdown's operand covers a TLB entry. -/
def shootMatches (v : Word) (e : TlbEntry) : Bool :=
  v.getLsbD 63 || (let va := (v.extractLsb' 0 56).toNat * 65536; va / 2 ^ e.bits * 2 ^ e.bits == e.va)

/-- The TLBs of a saved core, which resume cold (13 R389). -/
def Core.coldTlbs (c : Core) : Core := { c with stlb := [], barrel := { c.barrel with tlb := [] } }

/-- The TLBs of a core lose the entries that a shootdown covers. -/
def Core.shoot (c : Core) (v : Word) : Core :=
  { c with
    stlb := c.stlb.filter (!shootMatches v ·)
    barrel := { c.barrel with tlb := c.barrel.tlb.filter (!shootMatches v ·) } }

/-- A shootdown of a live sailing: markers are placed in every copy queue of its dies, matching entries go at once. -/
def startShoot (s : State) (n : Nat) (g : Sailing) (v : Word) : State :=
  let ds := g.dies
  let x : Shoot := { marks := ds.map fun d => (d, (s.die d).marks), left := ds }
  let s := ds.foldl (fun s d => s.modDie d fun r => { r with marks := r.marks + 1 }) s
  let s := { s with cores := s.cores.map fun (y : Nat × Core) => if y.2.run.sailing = some n then (y.1, y.2.shoot v) else y }
  s.modSailing n fun g => { g with shoots := g.shoots ++ [x] }

/-- tlbm (13 R389). The marker is placed once the helm's own earlier accesses have performed, so that its page-table words are covered (01 R19, R47). -/
def bodyTlbm (r a : BitVec 5) (s : State) : Res :=
  let v := srcC a s
  if v.extractLsb' 56 7 ≠ 0 then .fault 0x02 2
  else withBlock (srcC r s).toNat s (fun n g =>
    if g.killed ∨ g.state = 0 ∨ 5 ≤ g.state then .ok s
    else if ¬ s.settled then helmWait
    else if g.state = 4 then
      .ok (writeBlock (s.modSailing n fun g => { g with saved := g.saved.map (fun (y : Nat × Core) => (y.1, y.2.coldTlbs)), tlbc := g.tlbc + 1 }) n)
    else if 4 ≤ g.shoots.length then helmWait
    else .ok (startShoot s n g v)) fun _ => .ok s

/-- Every entry of a reserved format code is zero (02 R76). -/
def ovfGood (v : Word) : Bool := (List.range 32).all fun i => (fmtOf i).isSome || ovfEntry v i == 0

/-- ovfld (13 R391): OVFNEXT from the next cycle on. -/
def bodyOvfld (r : BitVec 5) (s : State) : Res :=
  let v := srcC r s
  if ovfGood v then .ok (s.modOwn (·.later (.ctl 0x102 v))) else .fault 0x02 1

/-- ovfld.self (13 R391): the helm's own OVF from the next cycle on. -/
def bodyOvfldSelf (r : BitVec 5) (s : State) : Res :=
  let v := srcC r s
  if ovfGood v then .ok (s.modOwn (·.later (.ctl 7 v))) else .fault 0x02 1

/-! ### Parameter generations (13 R392, R393) -/

/-- The length of a parameter block's slots; none where its address or its header is bad. -/
def paramLen (s : State) (a : Nat) : Option Nat :=
  let len := s.helmAt a 1
  if helmBad a 64 64 ∨ 2 ^ 32 ≤ s.helmAt a 0 ∨ len % 64 ≠ 0 ∨ len < 64 ∨ 4096 < len ∨ helmBad a 64 (64 + 2 * len) ∨
    (List.range 6).any (fun i => s.helmAt a (2 + i) ≠ 0) then none else some len

/-- n bytes copied within the executing helm's scratchpad. -/
def helmCopy (s : State) (src dst n : Nat) : State := s.write false (spadBase s.me + dst) (readSpad s s.me src n) n

/-- pgen.cap (13 R393). -/
def bodyPgenCap (p d : BitVec 5) (s : State) : Res :=
  let a := (srcC p s).toNat
  let b := (srcC d s).toNat
  match paramLen s a with
  | none => .fault 0x02 7
  | some len =>
    if helmBad b 64 (64 + len) then .fault 0x02 7
    else if s.waited < len / 64 then helmWait
    else .ok (helmCopy s a b (64 + len))

/-- pgen.pub (13 R393): its write of GEN is a release for every class. -/
def bodyPgenPub (p : BitVec 5) (s : State) : Res :=
  let a := (srcC p s).toNat
  match paramLen s a with
  | none => .fault 0x02 7
  | some len =>
    if s.waited < len / 64 ∨ ¬ s.settled then helmWait
    else .ok ((helmCopy s (a + 64 + len) (a + 64) len).helmPut a ((s.helmAt a 0 + 1) % 2 ^ 32))

/-! ### The instructions of this file at issue -/

/-- SAIL issued by itself (R371). -/
def execSail (g : BitVec 4) (l : BitVec 5) (r : BitVec 5) (s : State) : Host.Outcome State Fault Refusal :=
  finish s (queueLimit (issue (.sail g l r) g (bodySail l r) s))
/-- SWAIT issued by itself (R375). -/
def execSwait (g : BitVec 4) (r : BitVec 5) (s : State) : Host.Outcome State Fault Refusal :=
  finish s (queueLimit (issue (.swait g r) g (bodySwait r) s))
/-- PREEMPT issued by itself (R383). -/
def execPreempt (g : BitVec 4) (r : BitVec 5) (s : State) : Host.Outcome State Fault Refusal :=
  finish s (queueLimit (issue (.preempt g r) g (bodyPreempt r) s))
/-- PREEMPT_KILL issued by itself (R388). -/
def execPreemptKill (g : BitVec 4) (r : BitVec 5) (s : State) : Host.Outcome State Fault Refusal :=
  finish s (queueLimit (issue (.preemptKill g r) g (bodyPreemptKill r) s))
/-- CTXSV issued by itself (R386). -/
def execCtxsv (g : BitVec 4) (r : BitVec 5) (n : BitVec 1) (s : State) : Host.Outcome State Fault Refusal :=
  finish s (queueLimit (issue (.ctxsv g r n) g (bodyCtxsv r n) s))
/-- CTXLD issued by itself (R387). -/
def execCtxld (g : BitVec 4) (r : BitVec 5) (n : BitVec 1) (s : State) : Host.Outcome State Fault Refusal :=
  finish s (queueLimit (issue (.ctxld g r n) g (bodyCtxld r n) s))
/-- QPOP issued by itself (R382). -/
def execQpop (g : BitVec 4) (b : BitVec 5) (s : State) : Host.Outcome State Fault Refusal :=
  finish s (queueLimit (issue (.qpop g b) g (bodyQpop b) s))
/-- QPUSH issued by itself (R380). -/
def execQpush (g : BitVec 4) (q : BitVec 5) (b : BitVec 5) (s : State) : Host.Outcome State Fault Refusal :=
  finish s (queueLimit (issue (.qpush g q b) g (bodyQpush q b) s))
/-- QPUSH_CFG issued by itself (R379). -/
def execQpushCfg (g : BitVec 4) (q : BitVec 5) (b : BitVec 5) (s : State) : Host.Outcome State Fault Refusal :=
  finish s (queueLimit (issue (.qpushCfg g q b) g (bodyQpushCfg q b) s))
/-- PGEN_CAP issued by itself (R393). -/
def execPgenCap (g : BitVec 4) (p : BitVec 5) (d : BitVec 5) (s : State) : Host.Outcome State Fault Refusal :=
  finish s (queueLimit (issue (.pgenCap g p d) g (bodyPgenCap p d) s))
/-- PGEN_PUB issued by itself (R393). -/
def execPgenPub (g : BitVec 4) (p : BitVec 5) (s : State) : Host.Outcome State Fault Refusal :=
  finish s (queueLimit (issue (.pgenPub g p) g (bodyPgenPub p) s))
/-- TLBM issued by itself (R389). -/
def execTlbm (g : BitVec 4) (r : BitVec 5) (a : BitVec 5) (s : State) : Host.Outcome State Fault Refusal :=
  finish s (queueLimit (issue (.tlbm g r a) g (bodyTlbm r a) s))
/-- OVFLD issued by itself (R391). -/
def execOvfld (g : BitVec 4) (v : BitVec 5) (s : State) : Host.Outcome State Fault Refusal :=
  finish s (queueLimit (issue (.ovfld g v) g (bodyOvfld v) s))
/-- OVFLD_SELF issued by itself (R391). -/
def execOvfldSelf (g : BitVec 4) (v : BitVec 5) (s : State) : Host.Outcome State Fault Refusal :=
  finish s (queueLimit (issue (.ovfldSelf g v) g (bodyOvfldSelf v) s))

end Sys2Proof.Machine
end

