-- ==== Sys2Proof/Machine/LoadStore.lean ====
section
/-! DEFINITION. The A-slot loads, stores, bit-field accesses and atomics, and the skiff's sld, sst and samo
(04 R129 to R131, R140; 05 R173). -/

namespace Sys2Proof.Machine

/-- ld.b (04 R129). -/
def bodyLdB (d a : BitVec 5) (c : BitVec 4) (i : BitVec 7) (s : State) : Res := load 1 d a c.toNat i s
/-- ld.h (04 R129). -/
def bodyLdH (d a : BitVec 5) (c : BitVec 4) (i : BitVec 7) (s : State) : Res := load 2 d a c.toNat i s
/-- ld.w (04 R129). -/
def bodyLdW (d a : BitVec 5) (c : BitVec 4) (i : BitVec 7) (s : State) : Res := load 4 d a c.toNat i s
/-- ld.d (04 R129). -/
def bodyLdD (d a : BitVec 5) (c : BitVec 4) (i : BitVec 7) (s : State) : Res := load 8 d a c.toNat i s
/-- st.b (04 R130). -/
def bodyStB (d a : BitVec 5) (c : BitVec 4) (i : BitVec 7) (s : State) : Res := store 1 d a c.toNat i s
/-- st.h (04 R130). -/
def bodyStH (d a : BitVec 5) (c : BitVec 4) (i : BitVec 7) (s : State) : Res := store 2 d a c.toNat i s
/-- st.w (04 R130). -/
def bodyStW (d a : BitVec 5) (c : BitVec 4) (i : BitVec 7) (s : State) : Res := store 4 d a c.toNat i s
/-- st.d (04 R130). -/
def bodyStD (d a : BitVec 5) (c : BitVec 4) (i : BitVec 7) (s : State) : Res := store 8 d a c.toNat i s
/-- ldb (04 R131). -/
def bodyLdb (d a : BitVec 5) (c : BitVec 4) (sx : BitVec 1) (w : BitVec 5) (s : State) : Res :=
  loadBits d a c.toNat (sx == 1) (w.toNat + 1) s
/-- stb (04 R131). -/
def bodyStb (d a : BitVec 5) (c : BitVec 4) (w : BitVec 5) (s : State) : Res := storeBits d a c.toNat (w.toNat + 1) s
/-- amo.w (04 R140). -/
def bodyAmoW (o a b : BitVec 5) (c : BitVec 4) (s : State) : Res := atomic 4 o a b c.toNat s
/-- amo.d (04 R140). -/
def bodyAmoD (o a b : BitVec 5) (c : BitVec 4) (s : State) : Res := atomic 8 o a b c.toNat s

/-! ### Global accesses of a skiff (05 R173 to R176) -/

/-- The 72-bit virtual address of a skiff's effective address (05 R173). -/
def skiffVa (ea : Nat) : Nat := wrapTo 72 (sextOf ea 64)

/-- A global access of a skiff: its window part as a scratchpad access, else through the TLB; a miss of the TLB sends a walk. -/
def skiffGlobal (s : State) (p : Nat) (j : BitVec 3) (ea w : Nat) (k : SkGlobal) (own : Nat → SkAccess) (v v2 : Word) (dst : BitVec 5) :
    Res :=
  if ea % w ≠ 0 then .fault 0x02 7
  else match place s ea w with
  | .own a => skiffPort s p j (own a)
  | .remote l _ _ => .ok (s.modSkiff p j fun x => { x with wait := .migrate l false, pc := s.cur.addr })
  | _ =>
    let va := skiffVa ea
    match windowOf s.own va with
    | some _ => .fault 0x0B ea
    | none => .ok (s.modSkiff p j fun x => { x with wait := .walk k va w v v2 dst })

/-- sld of width w; an operation that only a skiff executes. -/
def skiffLoad (w : Nat) (d base : BitVec 5) (i : BitVec 7) (s : State) : Res :=
  match s.cur.agent with
  | .core _ => .fault 0x01 9
  | .skiff p j => skiffGlobal s p j (effective (srcA base s) i w) w .sld
      (fun a => { kind := .load, addr := a, width := w, dst := d }) 0 0 d

/-- sst of width w. -/
def skiffStore (w : Nat) (d base : BitVec 5) (i : BitVec 7) (s : State) : Res :=
  match s.cur.agent with
  | .core _ => .fault 0x01 9
  | .skiff p j => skiffGlobal s p j (effective (srcA base s) i w) w .sst
      (fun a => { kind := .store, addr := a, width := w, val := srcA d s }) (srcA d s) 0 0

/-- samo of width w: the old value goes to register b. -/
def skiffAtomic (w : Nat) (o base b : BitVec 5) (s : State) : Res :=
  match s.cur.agent with
  | .core _ => .fault 0x01 9
  | .skiff p j => skiffGlobal s p j (srcA base s).toNat w (.samo o.toNat)
      (fun a => { kind := .amo o.toNat, addr := a, width := w, val := srcA b s, val2 := srcA (b + 1) s, dst := b })
      (srcA b s) (srcA (b + 1) s) b

/-- sld.b (05 R173). -/
def bodySldB (d a : BitVec 5) (_c : BitVec 4) (i : BitVec 7) (s : State) : Res := skiffLoad 1 d a i s
/-- sld.h (05 R173). -/
def bodySldH (d a : BitVec 5) (_c : BitVec 4) (i : BitVec 7) (s : State) : Res := skiffLoad 2 d a i s
/-- sld.w (05 R173). -/
def bodySldW (d a : BitVec 5) (_c : BitVec 4) (i : BitVec 7) (s : State) : Res := skiffLoad 4 d a i s
/-- sld.d (05 R173). -/
def bodySldD (d a : BitVec 5) (_c : BitVec 4) (i : BitVec 7) (s : State) : Res := skiffLoad 8 d a i s
/-- sst.b (05 R173). -/
def bodySstB (d a : BitVec 5) (_c : BitVec 4) (i : BitVec 7) (s : State) : Res := skiffStore 1 d a i s
/-- sst.h (05 R173). -/
def bodySstH (d a : BitVec 5) (_c : BitVec 4) (i : BitVec 7) (s : State) : Res := skiffStore 2 d a i s
/-- sst.w (05 R173). -/
def bodySstW (d a : BitVec 5) (_c : BitVec 4) (i : BitVec 7) (s : State) : Res := skiffStore 4 d a i s
/-- sst.d (05 R173). -/
def bodySstD (d a : BitVec 5) (_c : BitVec 4) (i : BitVec 7) (s : State) : Res := skiffStore 8 d a i s
/-- samo.w (05 R173). -/
def bodySamoW (o a b : BitVec 5) (_c : BitVec 4) (s : State) : Res := skiffAtomic 4 o a b s
/-- samo.d (05 R173). -/
def bodySamoD (o a b : BitVec 5) (_c : BitVec 4) (s : State) : Res := skiffAtomic 8 o a b s

/-! ### The instructions of this file at issue -/

/-- LD_B issued by itself (R129). -/
def execLdB (g : BitVec 4) (d : BitVec 5) (a : BitVec 5) (c : BitVec 4) (v : BitVec 7) (s : State) : Host.Outcome State Fault Refusal :=
  finish s (queueLimit (issue (.ldB g d a c v) g (bodyLdB d a c v) s))
/-- LD_H issued by itself (R129). -/
def execLdH (g : BitVec 4) (d : BitVec 5) (a : BitVec 5) (c : BitVec 4) (v : BitVec 7) (s : State) : Host.Outcome State Fault Refusal :=
  finish s (queueLimit (issue (.ldH g d a c v) g (bodyLdH d a c v) s))
/-- LD_W issued by itself (R129). -/
def execLdW (g : BitVec 4) (d : BitVec 5) (a : BitVec 5) (c : BitVec 4) (v : BitVec 7) (s : State) : Host.Outcome State Fault Refusal :=
  finish s (queueLimit (issue (.ldW g d a c v) g (bodyLdW d a c v) s))
/-- LD_D issued by itself (R129). -/
def execLdD (g : BitVec 4) (d : BitVec 5) (a : BitVec 5) (c : BitVec 4) (v : BitVec 7) (s : State) : Host.Outcome State Fault Refusal :=
  finish s (queueLimit (issue (.ldD g d a c v) g (bodyLdD d a c v) s))
/-- ST_B issued by itself (R130). -/
def execStB (g : BitVec 4) (d : BitVec 5) (a : BitVec 5) (c : BitVec 4) (v : BitVec 7) (s : State) : Host.Outcome State Fault Refusal :=
  finish s (queueLimit (issue (.stB g d a c v) g (bodyStB d a c v) s))
/-- ST_H issued by itself (R130). -/
def execStH (g : BitVec 4) (d : BitVec 5) (a : BitVec 5) (c : BitVec 4) (v : BitVec 7) (s : State) : Host.Outcome State Fault Refusal :=
  finish s (queueLimit (issue (.stH g d a c v) g (bodyStH d a c v) s))
/-- ST_W issued by itself (R130). -/
def execStW (g : BitVec 4) (d : BitVec 5) (a : BitVec 5) (c : BitVec 4) (v : BitVec 7) (s : State) : Host.Outcome State Fault Refusal :=
  finish s (queueLimit (issue (.stW g d a c v) g (bodyStW d a c v) s))
/-- ST_D issued by itself (R130). -/
def execStD (g : BitVec 4) (d : BitVec 5) (a : BitVec 5) (c : BitVec 4) (v : BitVec 7) (s : State) : Host.Outcome State Fault Refusal :=
  finish s (queueLimit (issue (.stD g d a c v) g (bodyStD d a c v) s))
/-- LDB issued by itself (R131). -/
def execLdb (g : BitVec 4) (d : BitVec 5) (a : BitVec 5) (c : BitVec 4) (r : BitVec 1) (w : BitVec 5) (s : State) : Host.Outcome State Fault Refusal :=
  finish s (queueLimit (issue (.ldb g d a c r w) g (bodyLdb d a c r w) s))
/-- STB issued by itself (R131). -/
def execStb (g : BitVec 4) (d : BitVec 5) (a : BitVec 5) (c : BitVec 4) (w : BitVec 5) (s : State) : Host.Outcome State Fault Refusal :=
  finish s (queueLimit (issue (.stb g d a c w) g (bodyStb d a c w) s))
/-- AMO_W issued by itself (R140). -/
def execAmoW (g : BitVec 4) (o : BitVec 5) (a : BitVec 5) (b : BitVec 5) (c : BitVec 4) (s : State) : Host.Outcome State Fault Refusal :=
  finish s (queueLimit (issue (.amoW g o a b c) g (bodyAmoW o a b c) s))
/-- AMO_D issued by itself (R140). -/
def execAmoD (g : BitVec 4) (o : BitVec 5) (a : BitVec 5) (b : BitVec 5) (c : BitVec 4) (s : State) : Host.Outcome State Fault Refusal :=
  finish s (queueLimit (issue (.amoD g o a b c) g (bodyAmoD o a b c) s))
/-- SLD_B issued by itself (R173). -/
def execSldB (g : BitVec 4) (d : BitVec 5) (a : BitVec 5) (c : BitVec 4) (v : BitVec 7) (s : State) : Host.Outcome State Fault Refusal :=
  finish s (queueLimit (issue (.sldB g d a c v) g (bodySldB d a c v) s))
/-- SLD_H issued by itself (R173). -/
def execSldH (g : BitVec 4) (d : BitVec 5) (a : BitVec 5) (c : BitVec 4) (v : BitVec 7) (s : State) : Host.Outcome State Fault Refusal :=
  finish s (queueLimit (issue (.sldH g d a c v) g (bodySldH d a c v) s))
/-- SLD_W issued by itself (R173). -/
def execSldW (g : BitVec 4) (d : BitVec 5) (a : BitVec 5) (c : BitVec 4) (v : BitVec 7) (s : State) : Host.Outcome State Fault Refusal :=
  finish s (queueLimit (issue (.sldW g d a c v) g (bodySldW d a c v) s))
/-- SLD_D issued by itself (R173). -/
def execSldD (g : BitVec 4) (d : BitVec 5) (a : BitVec 5) (c : BitVec 4) (v : BitVec 7) (s : State) : Host.Outcome State Fault Refusal :=
  finish s (queueLimit (issue (.sldD g d a c v) g (bodySldD d a c v) s))
/-- SST_B issued by itself (R173). -/
def execSstB (g : BitVec 4) (d : BitVec 5) (a : BitVec 5) (c : BitVec 4) (v : BitVec 7) (s : State) : Host.Outcome State Fault Refusal :=
  finish s (queueLimit (issue (.sstB g d a c v) g (bodySstB d a c v) s))
/-- SST_H issued by itself (R173). -/
def execSstH (g : BitVec 4) (d : BitVec 5) (a : BitVec 5) (c : BitVec 4) (v : BitVec 7) (s : State) : Host.Outcome State Fault Refusal :=
  finish s (queueLimit (issue (.sstH g d a c v) g (bodySstH d a c v) s))
/-- SST_W issued by itself (R173). -/
def execSstW (g : BitVec 4) (d : BitVec 5) (a : BitVec 5) (c : BitVec 4) (v : BitVec 7) (s : State) : Host.Outcome State Fault Refusal :=
  finish s (queueLimit (issue (.sstW g d a c v) g (bodySstW d a c v) s))
/-- SST_D issued by itself (R173). -/
def execSstD (g : BitVec 4) (d : BitVec 5) (a : BitVec 5) (c : BitVec 4) (v : BitVec 7) (s : State) : Host.Outcome State Fault Refusal :=
  finish s (queueLimit (issue (.sstD g d a c v) g (bodySstD d a c v) s))
/-- SAMO_W issued by itself (R173). -/
def execSamoW (g : BitVec 4) (o : BitVec 5) (a : BitVec 5) (b : BitVec 5) (c : BitVec 4) (s : State) : Host.Outcome State Fault Refusal :=
  finish s (queueLimit (issue (.samoW g o a b c) g (bodySamoW o a b c) s))
/-- SAMO_D issued by itself (R173). -/
def execSamoD (g : BitVec 4) (o : BitVec 5) (a : BitVec 5) (b : BitVec 5) (c : BitVec 4) (s : State) : Host.Outcome State Fault Refusal :=
  finish s (queueLimit (issue (.samoD g o a b c) g (bodySamoD o a b c) s))

end Sys2Proof.Machine
end

