-- ==== Sys2Proof/Machine/Matrix.lean ====
section
/-! DEFINITION. The M slot: leases, array commands at issue, when they start and complete, macro commands, metadata moves and the scalar
operations (07 R224 to R265, 08 R266 to R270). -/

namespace Sys2Proof.Machine

/-! ### Records of array commands -/

/-- The record with its base moved. -/
def Shape.shift (h : Shape) (k : Int) : Option Shape :=
  if (h.base : Int) + k < 0 then none else some { h with base := ((h.base : Int) + k).toNat }

/-- A shape fault's cause and operand. -/
def shapeFault (opn cause : Nat) : Option (Nat × Nat) := some (0x0E, opn * 256 + cause)

/-- The formats that an array source may have, unscaled where tapered (07 R237, R238): the fault of operand opn. -/
def sourceFormat (v : Word) (opn : Nat) : Option (Nat × Nat) :=
  let tapered : Bool := match fmtOf (fmtCode v) with | some f => f.isTapered | none => false
  if (latchFormat (fmtCode v)).isNone ∨ (tapered ∧ fmtScale v ≠ 0) then some (0x02, opn) else none

/-- The index record of a gather (07 R238): PACK = 1, one dimension of 1 to 32 words, over repetitions 0 to r1. -/
def indexFault (h : Shape) (c : Core) (bf : Vector Word 8) (opn r1 : Nat) : Option (Nat × Nat) :=
  h.fault c bf opn 0 r1 (h.ndim != 1 || !h.pack || decide (32 < h.counts.getD 0 0)) false

/-- The row template of a gather (07 R238): its counts and format width; its base is an offset. -/
def templateFault (h : Shape) (bf : Vector Word 8) (opn : Nat) : Option (Nat × Nat) :=
  let v := bankWord bf h.base
  let w := (codeBits (fmtCode v)).getD 8
  let n := h.counts.getD 0 0
  if n = 0 then shapeFault opn 1
  else if h.rsv ≠ 0 ∨ (h.chan ∧ h.base / 2 ^ 16 ≠ 0) then shapeFault opn 2
  else if (codeBits (fmtCode v)).isNone then some (0x02, opn)
  else if h.ndim ≠ 1 ∨ ((latchFormat (fmtCode v)).isSome ∧ latchCap (fmtCode v) < n) then shapeFault opn 4
  else if fmtCode v = 0x09 ∧ (n % 4 ≠ 0 ∨ ¬ h.pack) then shapeFault opn 10
  else if w < 8 ∧ ¬ h.pack then shapeFault opn 7
  else if h.chan then shapeFault opn 9
  else if 8 ≤ w ∧ ¬ h.pack ∧ 1 < n ∧ h.strides.getD 0 0 % (w / 8 : Nat) ≠ 0 then some (0x02, opn)
  else none

/-- The B record (07 R240): k by columns, in banks of one format and SCALE. -/
def latchFault (h : Shape) (c : Core) (bf : Vector Word 8) (opn r1 : Nat) : Option (Nat × Nat) :=
  let v := bankWord bf h.base
  let bad4 := h.ndim != 2 || (decide (32 < h.counts.getD 1 0)) ||
    ((latchFormat (fmtCode v)).isSome && decide (latchCap (fmtCode v) < h.counts.getD 0 0))
  match h.fault c bf opn 0 r1 bad4 false with
  | some (0x0E, d) => if d % 256 ≤ 5 then some (0x0E, d) else if mixed then shapeFault opn 5 else some (0x0E, d)
  | some f => some f
  | none => if mixed then shapeFault opn 5 else none
where mixed : Bool :=
  let (lo, hi) := h.hull ((codeBits (fmtCode (bankWord bf h.base))).getD 8) 0 r1
  (List.range ((hi.toNat - 1) / 0x100000 + 1 - lo.toNat / 0x100000)).any fun i =>
    let u := bankWord bf (lo.toNat + i * 0x100000)
    fmtCode u != fmtCode (bankWord bf h.base) || fmtScale u != fmtScale (bankWord bf h.base)

/-- The image record of mcfg.ld and mcfg.add (07 R234). -/
def imageFault (h : Shape) (c : Core) (opn type shape : Nat) : Option (Nat × Nat) :=
  let e : Nat := tileBits type / 8
  let (lo, hi) := h.hull (8 * e) 0 0
  if (h.counts.take h.ndim).contains 0 then shapeFault opn 1
  else if h.rsv ≠ 0 ∨ h.chan then shapeFault opn 2
  else if ¬ h.pack ∧ ¬ c.hullOk lo hi then shapeFault opn 3
  else if h.pack ∨ h.ndim ≠ 2 ∨ h.counts.getD 0 0 ≠ tileCols shape ∨ h.counts.getD 1 0 ≠ tileRows shape ∨ h.base % e ≠ 0
      ∨ h.strides.getD 0 0 % e ≠ 0 ∨ h.strides.getD 1 0 % e ≠ 0 then shapeFault opn 4
  else none

/-- The store record of mst and mst.raw (07 R250 to R252; 08 R266) for a tile of a type and shape, over repetitions 0 to r1. -/
def storeFault (h : Shape) (c : Core) (cap : Capture) (opn r1 : Nat) (tile : Option (Nat × Nat)) (raw : Bool) (op : Nat) :
    Option (Nat × Nat) :=
  let (ty, sh) := tile.getD (0, 0)
  let e : Nat := tileBits ty / 8
  let big := decide (2 < h.ndim) || (tile.isSome && (decide (tileCols sh < h.counts.getD 0 0) ||
    (h.ndim == 2 && decide (tileRows sh < h.counts.getD 1 0))))
  if raw then
    let (lo, hi) := h.hull (8 * e) 0 r1
    if (h.counts.take h.ndim).contains 0 then shapeFault opn 1
    else if h.rsv ≠ 0 ∨ (h.chan ∧ h.base / 2 ^ 16 ≠ 0) then shapeFault opn 2
    else if ¬ c.hullOk lo hi then shapeFault opn 3
    else if big ∨ h.pack ∨ ¬ h.aligned (8 * e) 0 r1 then shapeFault opn 4
    else if h.chan then shapeFault opn 9
    else none
  else
    let bank := fmtOf (fmtCode (bankWord cap.bfmt h.base))
    let f := (h.fault c cap.bfmt opn 0 r1 big false).orElse fun _ => match bank with
      | some .i4o | some (.quire _) => some (0x02, opn)
      | _ => none
    f.orElse fun _ => if anyStoch cap.bfmt (h.range cap.bfmt 0 r1) then stochFault cap opn (0x400 + op) else none

/-- The records of mcomp (07 R255). -/
def compressFault (hd hs : Shape) (c : Core) (bf : Vector Word 8) : Option (Nat × Nat) :=
  let (k, n) := (hs.counts.getD 0 0, hs.counts.getD 1 0)
  let vs := bankWord bf hs.base
  let vd := bankWord bf hd.base
  let bad1 := hs.ndim != 2 || k % 8 != 0 || decide (384 < k) || decide (32 < n)
  let bad0 := hd.ndim != 2 || hd.counts.getD 0 0 != k / 2 || hd.counts.getD 1 0 != n
  let clash := overlaps (hd.range bf 0 0) (hs.range bf 0 0).1 (hs.range bf 0 0).2 && !hd.same hs
  let f := (hd.fault c bf 0 0 0 bad0 clash).orElse fun _ => hs.fault c bf 1 0 0 bad1 false
  f.orElse fun _ =>
    if fmtCode vs ≠ 0x00 ∧ fmtCode vs ≠ 0x14 then some (0x02, 1)
    else if fmtCode vd ≠ fmtCode vs ∨ fmtScale vd ≠ fmtScale vs then some (0x02, 0) else none

/-! ### Gathers (07 R238, R239) -/

/-- A row to gather: the core that holds it and the template at its address; none for a padded row. -/
abbrev GRow := Option (Nat × Shape)

/-- The index word r of a gather; the value of a poisoned one is free (DESIGN CHOICE, log 3). -/
def gatherIndex (s : State) (p : Nat) (bf : Vector Word 8) (h : Shape) (r : Nat) : Nat :=
  let b := (h.bitAt (h.width bf) 0 r).toNat
  if fieldPoison s p b 32 then (Config.freeWord (s.freeIx + r)).toNat % 2 ^ 32 else readField s p b 32

/-- The row that an index word names, or the fault it raises (07 R238, R263). A row at no multiple of its element size is an engine fault 0x02, operand 1: 02 R51
names no fault for an address that is known only then (DESIGN CHOICE, log 76). -/
def gatherRow (s : State) (p : Nat) (bf : Vector Word 8) (h : Shape) (v : Nat) : Except (Nat × Nat) GRow :=
  if v = 0xFFFFFFFF then .ok none
  else if 2 ^ 25 ≤ v then .error (0x0E, 13)
  else
    let q := p / 4 * 4 + v / 2 ^ 23 % 4
    let a := v % 2 ^ 23 + h.base
    let w := (codeBits (fmtCode (bankWord bf h.base))).getD 8
    let row := { h with base := a }
    let (lo, hi) := row.hull w 0 0
    if a / 0x100000 ≠ h.base / 0x100000 ∨ ¬ (s.core q).hullOk lo hi then .error (0x0E, 3)
    else if 8 ≤ w ∧ a % (w / 8) ≠ 0 then .error (0x02, 1)
    else .ok (some (q, row))

/-- The index words of a gather. -/
def gatherWords (s : State) (p : Nat) (bf : Vector Word 8) (hi : Shape) : List Nat := (List.range (hi.counts.getD 0 0)).map (gatherIndex s p bf hi)

/-- The rows that the index words of a gather name, or the first fault in ascending index. -/
def gatherRows (s : State) (p : Nat) (bf : Vector Word 8) (hr : Shape) (vs : List Nat) : Except (Nat × Nat) (List GRow) :=
  vs.foldl (fun acc v => do
    let rows ← acc
    let row ← gatherRow s p bf hr v
    return rows ++ [row]) (.ok [])

/-- The bytes of the rows, named by core. -/
def rowRanges (bf : Vector Word 8) (rows : List GRow) : List (Nat × Nat) :=
  rows.filterMap fun r => r.map fun (q, h) =>
    let (lo, hi) := h.hull ((codeBits (fmtCode (bankWord bf h.base))).getD 8) 0 0
    (spadBase q + lo.toNat, spadBase q + hi.toNat)

/-- A buffer filled by a gather, and the anomalies of its rows; a poisoned index word poisons its row. -/
def gatherLatch (s : State) (p : Nat) (bf : Vector Word 8) (hi hr : Shape) (rows : List GRow) : Latch × Nat :=
  let v := bankWord bf hr.base
  let code := fmtCode v
  let w := (codeBits code).getD 8
  let n := hr.counts.getD 0 0
  let row (r : Nat) : (Nat × Nat) × Nat :=
    match rows.getD r none with
    | none => ((0, 0), 0)
    | some (q, h) =>
      let lost := fieldPoison s p (hi.bitAt (hi.width bf) 0 r).toNat 32
      let at_ (k : Nat) := (h.bitAt w 0 k).toNat
      let bad (k : Nat) : Bool := lost || if code = 0x09 then fieldPoison s q (at_ (k / 4 * 4)) 16 else fieldPoison s q (at_ k) w
      (packRow w ((List.range n).map fun k => (readField s q (at_ k) w, bad k)),
        if code = 0x09 then (List.range (n / 4)).foldl (fun z j => z + (decodeGranule (readField s q (at_ (4 * j)) 16)).2) 0 else 0)
  let rs := (List.range 32).map row
  (⟨code, fmtScale v, (Vector.range 32).map fun r => (rs.getD r ((0, 0), 0)).1.1, (Vector.range 32).map fun r => (rs.getD r ((0, 0), 0)).1.2⟩,
    rs.foldl (fun n r => n + r.2) 0)

/-- A buffer filled from the core's own scratchpad (07 R240), and the anomalies of its granules, which count as those of a gather do (02 R58, R82;
DEDUCED, log 70). -/
def loadLatch (s : State) (p : Nat) (bf : Vector Word 8) (h : Shape) : Latch × Nat :=
  let v := bankWord bf h.base
  let code := fmtCode v
  let w := (codeBits code).getD 8
  let c0 := h.counts.getD 0 0
  let anoms := if code = 0x09 then (List.range (h.counts.getD 1 0 * (c0 / 4))).foldl (fun z g =>
    z + (decodeGranule (readField s p (h.bitAt w 0 (4 * g)).toNat 16)).2) 0 else 0
  let col (j : Nat) : Nat × Nat :=
    if h.counts.getD 1 0 ≤ j then (0, 0)
    else packRow w ((List.range c0).map fun k =>
      let b := (h.bitAt w 0 (k + c0 * j)).toNat
      (readField s p b w, if code = 0x09 then fieldPoison s p (h.bitAt w 0 (k / 4 * 4 + c0 * j)).toNat 16 else fieldPoison s p b w))
  (⟨code, fmtScale v, (Vector.range 32).map fun j => (col j).1, (Vector.range 32).map fun j => (col j).2⟩, anoms)

/-! ### Gates of a command's reads -/

/-- Several checks: the first that does not pass decides. -/
def Gate.all : List Gate → Gate
  | [] => .go
  | .go :: gs => Gate.all gs
  | g :: _ => g

/-- The gates of reads of w bits at bit addresses of a core's scratchpad, in order. -/
def fieldsGate (c : Core) (w : Nat) (bits : List Nat) : Gate :=
  Gate.all (bits.map fun b => readGate c (b / 8) ((b % 8 + w + 7) / 8))

/-- The bit addresses of elements n0 to n0 + k − 1 of a record. -/
def Shape.bits (h : Shape) (w n0 k : Nat) : List Nat := (List.range k).map fun n => (h.bitAt w 0 (n0 + n)).toNat

/-- The gates of the elements of a record, in ascending index. -/
def shapeGate (c : Core) (h : Shape) (w : Nat) : Gate := fieldsGate c w (h.bits w 0 h.total)

/-- The bytes of reads of w bits at bit addresses, named. -/
def namedBits (p w : Nat) (bits : List Nat) : List (Nat × Nat) := named p (bits.map fun b => (b / 8, (b + w + 7) / 8))

/-- The gates of the rows of a gather, each in the scratchpad that holds it. -/
def rowsGate (s : State) (bf : Vector Word 8) (rows : List GRow) : Gate :=
  Gate.all (rows.map fun r => match r with
    | none => .go
    | some (q, h) => shapeGate (s.core q) h ((codeBits (fmtCode (bankWord bf h.base))).getD 8))

/-! ### Timing (07 R235) -/

/-- The number of a latch buffer among a command's resources. -/
def latchNo (b : Bool) (i : Nat) : Nat := if b then 18 + i else 16 + i

/-- The slots of the tile whose first slot is d; that slot alone where it names no tile. -/
def tileUse (ts : List Tile) (d : Nat) : List Nat :=
  match ts.find? (·.first = d) with
  | some t => (List.range (tileSlots t.type)).map (· + d)
  | none => [d]

/-- The slots that forming a tile changes. -/
def formUse (ts : List Tile) (d type : Nat) : List Nat :=
  let k := tileSlots type
  ((List.range k).map (· + d)) ++ (ts.filter fun t => slotsMeet d k t.first (tileSlots t.type)).flatMap fun t =>
    (List.range (tileSlots t.type)).map (· + t.first)

/-- The latch buffers that a macro command of n K-steps fills: A0 and B0 with its first step, A1 and B1 with its second (07 R258). -/
def macroLatches (n : Nat) : List Nat := if n ≤ 1 then [latchNo false 0, latchNo true 0] else [16, 17, 18, 19]

/-- The latch buffers and slots that a command of n K-steps reads and writes, with the tiles as its predecessors leave them. -/
def resources (ts : List Tile) (op : Instr) (n : Nat) : List Nat × List Nat :=
  let tile (d : BitVec 4) := tileUse ts d.toNat
  match op with
  | .mcfg _ d _ t | .mcfgLd _ d _ _ _ t => ([], formUse ts d.toNat t.toNat)
  | .mcfgAdd _ d _ _ _ t => let u := formUse ts d.toNat t.toNat; (u, u)
  | .mgath _ x _ _ _ => ([], [latchNo false x.toNat])
  | .mlatb _ y _ _ => ([], [latchNo true y.toNat])
  | .mma _ d _ _ y x => (latchNo false x.toNat :: latchNo true y.toNat :: tile d, tile d)
  | .mmas _ d _ _ _ x => (latchNo false x.toNat :: 18 :: 19 :: tile d, tile d)
  | .mst _ t _ _ _ | .mstRaw _ t _ _ _ | .mstSt _ t _ => (tile t, [])
  | .mtile _ d _ _ _ _ _ | .mwalk _ d _ _ _ => (macroLatches n ++ tile d, macroLatches n ++ tile d)
  | _ => ([], [])

/-- The K-steps of a macro command. -/
def ACmd.steps (c : ACmd) : Nat := ((c.ms.getD 0 0).extractLsb' 16 16).toNat

/-- A product, whose accumulated value is forwarded to a product (07 R235). -/
def isProduct (op : Instr) : Bool := match op with | .mma _ _ _ _ _ _ | .mmas _ _ _ _ _ _ => true | _ => false

/-- A macro command. -/
def isMacro (op : Instr) : Bool := match op with | .mtile _ _ _ _ _ _ _ | .mwalk _ _ _ _ _ => true | _ => false

/-- An earlier command that writes what a command reads, other than a tile between products. -/
def feeds (e c : ACmd) : Bool := e.sets.any fun x => c.uses.contains x && !(isProduct e.op && isProduct c.op && x < 16)

/-- An earlier command that reads what a command writes. -/
def usedBy (e c : ACmd) : Bool := e.uses.any c.sets.contains

/-- Two commands of a class whose hulls meet where one of them writes: of the earlier command with the rows that it gathers, of the later one without
them (07 R235). -/
def hullsMeet (e c : ACmd) : Bool := e.oc == c.oc && (meet e.writes (c.reads ++ c.writes) || meet (e.reads ++ e.rows) c.writes)

/-- The nominal completion of a command. -/
def ACmd.nominalEnd (c : ACmd) : Nat := c.nominal + c.busy - 1 + c.depth

/-- The nominal start of a command behind those of a list (07 R235). -/
def nominalOf (es : List ACmd) (c : ACmd) : Nat :=
  let prev := match es.getLast? with | some e => e.nominal + e.busy | none => 0
  es.foldl (fun n e =>
    let n := if feeds e c || hullsMeet e c then Nat.max n (e.nominalEnd + 1) else n
    if usedBy e c then Nat.max n (e.nominal + e.busy) else n) (Nat.max (c.issued + 1) prev)

/-- The busy time of a store (07 R235, 08 R267). -/
def storeBusy (shape w : Nat) : Nat := Nat.max 1 (ceilDiv (tileRows shape * tileCols shape * w) 32768)

/-- A command that reads its source over several cycles, and has read some of it (07 R235). -/
def ACmd.staging (c : ACmd) : Bool :=
  c.started.isSome && (match c.op with | .mcfgLd _ _ _ _ _ _ | .mcfgAdd _ _ _ _ _ _ | .mcomp _ _ _ _ _ => true | _ => false) && decide (c.stage < c.busy)

/-- The tiles as the queued commands will leave them, by type and shape. -/
def Quad.planned (q : Quad) : List Tile :=
  (q.cmds.filter fun c => c.started.isNone || c.staging).foldl (fun ts c => match c.op with
    | .mcfg _ d s t | .mcfgLd _ d _ _ s t | .mcfgAdd _ d _ _ s t => formTile ts d.toNat t.toNat s.toNat
    | _ => ts) q.tiles

/-! ### Issue (07 R224, R225; 08 R269) -/

/-- An array command at issue: the lease, the grant, its own faults, its registers and the queue; then it is queued and counts against the lease. A
fault of the lease is reported before any other; without the grant the bundle stalls. srcs: the bytes it reads. -/
def arrayIssue (s : State) (cmd : ACmd) (fault : Option (Nat × Nat)) (wait : Bool) (srcs : List (Nat × Nat)) : Res :=
  let p := s.me
  let c := s.own
  let qn := quadOf p
  let q := s.quad qn
  let full := decide (32 ≤ (q.cmds.filter (·.started.isNone)).length)
  if c.run.lease = 0 then .fault 0x08 (holderId s qn)
  else if c.run.lease = 1 then .stall (if wait then 4 else if full then 10 else 11)
  else match fault with
  | some (code, detail) => .fault code detail
  | none =>
    if wait then .stall 4
    else if full then .stall 10
    else
      let (tags, s) := consumeTags s p srcs
      let (id, s) := launch s p .array cmd.oc (cmd.reads ++ cmd.rows) cmd.writes
      let (uses, sets) := resources q.planned cmd.op cmd.steps
      let cmd := { cmd with id := id, core := p, cap := c.capture, baddr := s.cur.addr, word := s.cur.word, tags := tags, uses := uses,
                            sets := sets, issued := c.run.t }
      let cmd := { cmd with nominal := nominalOf q.cmds cmd }
      let s := s.modQuad qn fun q => { q with cmds := q.cmds ++ [cmd] }
      .ok (s.modOwn fun c => { c with run := { c.run with
        allow := c.run.allow - 1, lease := if c.run.allow ≤ 1 then 3 else c.run.lease } })

/-- A command that reads no record. -/
def newCmd (op : Instr) : ACmd := { id := 0, core := 0, op := op, issued := 0 }

/-- The named bytes of a record's hull for elements of w bits, over repetitions r0 to r1. -/
def hullOf (p : Nat) (h : Shape) (w r1 : Nat) (r0 : Nat := 0) : List (Nat × Nat) :=
  let (lo, hi) := h.hull w r0 r1
  [(spadBase p + lo.toNat, spadBase p + hi.toNat)]

/-- mlease (07 R228). -/
def bodyMlease (n : BitVec 8) (s : State) : Res :=
  if s.own.run.lease ≠ 0 then .fault 0x02 5
  else .ok (s.modOwn fun c => { c with run := { c.run with lease := 1, allow := n.toNat } })

/-- mfree (07 R229). -/
def bodyMfree (s : State) : Res :=
  .ok (s.modOwn fun c => { c with run := { c.run with lease := if c.run.lease = 2 then 3 else 0, allow := 0 } })

/-- mcfg (07 R232). -/
def bodyMcfg (d : BitVec 4) (r : BitVec 2) (t : BitVec 3) (s : State) : Res := arrayIssue s (newCmd (.mcfg 0 d r t)) none false []

/-- mcfg.ld and mcfg.add at issue (07 R232 to R234). -/
def issueImage (op : Instr) (h : BitVec 4) (oc type shape : Nat) (more : Option (Nat × Nat)) (s : State) : Res :=
  let p := s.me
  let v := s.own.h h
  let hull := hullOf p (Shape.of v) (tileBits type) 0
  arrayIssue s { newCmd op with recs := [v], oc := oc, reads := hull, busy := tileSlots type, depth := 4 }
    ((imageFault (Shape.of v) s.own 2 type shape).orElse fun _ => more) false hull

/-- mcfg.ld (07 R232). -/
def bodyMcfgLd (d h c : BitVec 4) (r : BitVec 2) (t : BitVec 3) (s : State) : Res :=
  issueImage (.mcfgLd 0 d h c r t) h c.toNat t.toNat r.toNat none s

/-- mcfg.add (07 R232, R233): a merge of binary32 partials breaks D2 and D3. -/
def bodyMcfgAdd (d h c : BitVec 4) (r : BitVec 2) (t : BitVec 3) (s : State) : Res :=
  issueImage (.mcfgAdd 0 d h c r t) h c.toNat t.toNat r.toNat
    (if t = 0 ∧ 2 ≤ (s.own.ctl.detl.extractLsb' 0 2).toNat then some (0x06, 0x403) else none) s

/-- The rows that gathers of steps k0 to k1 will read, as far as the index words name them now: what the core's later accesses of the class wait for
before the words are read (07 R235, 01 R34; DEDUCED, log 70). -/
def rowsAhead (s : State) (p : Nat) (bf : Vector Word 8) (hi hr : Shape) (k0 k1 : Nat) : List (Nat × Nat) :=
  (List.range (hi.counts.getD 0 0)).filterMap fun r =>
    let v := gatherIndex s p bf hi r
    if 2 ^ 25 ≤ v then none
    else
      let q := p / 4 * 4 + v / 2 ^ 23 % 4
      let (lo, hi) := ({ hr with base := v % 2 ^ 23 + hr.base } : Shape).hull (Nat.max (hr.width bf k0) (hr.width bf k1)) k0 k1
      some (spadBase q + lo.toNat, spadBase q + hi.toNat)

/-- The checks of a gather's two records (07 R238). -/
def gatherFault (c : Core) (bf : Vector Word 8) (hi hr : Shape) (o1 o2 r1 : Nat) : Option (Nat × Nat) :=
  let shapes := (indexFault hi c bf o1 r1).orElse fun _ => templateFault hr bf o2
  shapes.orElse fun _ => if fmtCode (bankWord bf hi.base) ≠ 0x05 then some (0x02, o1) else sourceFormat (bankWord bf hr.base) o2

/-- mgath (07 R238). -/
def bodyMgath (x : BitVec 1) (i r c : BitVec 4) (s : State) : Res :=
  let p := s.me
  let bf := s.own.ctl.bfmt
  let (vi, vr) := (s.own.h i, s.own.h r)
  let fault := gatherFault s.own bf (Shape.of vi) (Shape.of vr) 1 2 0
  let hull := if fault.isNone then hullOf p (Shape.of vi) 32 0 else []
  let rows := if fault.isNone then rowsAhead s p bf (Shape.of vi) (Shape.of vr) 0 0 else []
  arrayIssue s { newCmd (.mgath 0 x i r c) with recs := [vi, vr], oc := c.toNat, reads := hull, rows := rows, depth := 4 } fault false (hull ++ rows)

/-- mlatb (07 R240). -/
def bodyMlatb (y : BitVec 1) (b c : BitVec 4) (s : State) : Res :=
  let bf := s.own.ctl.bfmt
  let v := s.own.h b
  let fault := (latchFault (Shape.of v) s.own bf 1 0).orElse fun _ => sourceFormat (bankWord bf (Shape.of v).base) 1
  let hull := if fault.isNone then hullOf s.me (Shape.of v) ((Shape.of v).width bf) 0 else []
  arrayIssue s { newCmd (.mlatb 0 y b c) with recs := [v], oc := c.toNat, reads := hull, depth := 4 } fault false hull

/-- The depth register's check (07 R242): its own bits, from 1 up. -/
def depthFault (v : Word) (opn : Nat) : Option (Nat × Nat) := if v = 0 ∨ 0x10000 ≤ v.toNat then some (0x02, opn) else none

/-- The formats of the latch buffers as the queued commands leave them: what a product's nominal rate depends on. A macro command fills buffer i last in
its last step of that parity. -/
def Quad.latchCode (q : Quad) (b : Bool) (i : Nat) : Nat :=
  let now := ((if b then q.b else q.a).toList.getD i {}).code
  (q.cmds.filter fun c => c.started.isNone || (isMacro c.op && c.done.isNone)).foldl (fun k c => match c.op with
    | .mgath _ x _ _ _ => if !b && x.toNat == i then fmtCode (bankWord c.cap.bfmt (Shape.of (c.recs.getD 1 0)).base) else k
    | .mlatb _ y _ _ => if b && y.toNat == i then fmtCode (bankWord c.cap.bfmt (Shape.of (c.recs.getD 0 0)).base) else k
    | .mtile _ _ _ _ _ _ _ | .mwalk _ _ _ _ _ =>
      let r := Shape.of (c.recs.getD (if b then 2 else 1) 0)
      let steps := ((c.ms.getD 0 0).extractLsb' 16 16).toNat
      if i < steps then fmtCode (bankWord c.cap.bfmt (r.start (steps - 1 - (steps - 1 + i) % 2))) else k
    | _ => k) now

/-- mma (07 R242). -/
def bodyMma (d m k : BitVec 4) (y x : BitVec 1) (s : State) : Res :=
  let (vm, vk) := (s.own.m m, s.own.m k)
  let q := s.quad (quadOf s.me)
  arrayIssue s { newCmd (.mma 0 d m k y x) with
    ms := [vm, vk], busy := Nat.max 1 (ceilDiv vk.toNat (latchRate (q.latchCode false x.toNat) (q.latchCode true y.toNat))), depth := 6 }
    (depthFault vk 2) false []

/-- A metadata register of a core has a pending write, from mcomp or mdld (07 R257). -/
def mdPending (s : State) (p k : Nat) : Bool :=
  ((s.quad (quadOf p)).cmds.any fun c => c.core == p && match c.op with | .mcomp _ _ _ j _ => j.toNat == k | _ => false) ||
    (s.core p).moves.any fun x => x.load && x.reg == k

/-- mmas (07 R256): the metadata is checked at issue. -/
def bodyMmas (d m k : BitVec 4) (j : BitVec 2) (x : BitVec 1) (s : State) : Res :=
  let (vm, vk) := (s.own.m m, s.own.m k)
  let md := s.own.files.md.toList.getD j.toNat 0
  let wait := mdPending s s.me j.toNat
  let fault := (depthFault vk 2).orElse fun _ => if wait then none else (mdFault md (Nat.min vk.toNat 384)).map fun w => (0x09, w)
  arrayIssue s { newCmd (.mmas 0 d m k j x) with ms := [vm, vk], md := md, depth := 6 } fault wait []

/-- The type and shape of the tile at slot d as the queued commands leave it. -/
def Quad.tileKind (q : Quad) (d : Nat) : Option (Nat × Nat) := (q.planned.find? (·.first = d)).map fun t => (t.type, t.shape)

/-- mst and mst.raw at issue (07 R250 to R252). -/
def issueStore (op : Instr) (t h m : BitVec 4) (oc : Nat) (raw : Bool) (s : State) : Res :=
  let c := s.own
  let v := c.h h
  let kind := (s.quad (quadOf s.me)).tileKind t.toNat
  let (ty, sh) := kind.getD (0, 0)
  let fault := storeFault (Shape.of v) c c.capture 1 0 kind raw 0x08
  let w := if raw then tileBits ty else (Shape.of v).width c.ctl.bfmt
  let hull := if fault.isNone then hullOf s.me (Shape.of v) w 0 else []
  arrayIssue s { newCmd op with recs := [v], ms := [c.m m], oc := oc, writes := hull, busy := storeBusy sh w, depth := 4 } fault false []

/-- mst (07 R250). -/
def bodyMst (t h m c : BitVec 4) (s : State) : Res := issueStore (.mst 0 t h m c) t h m c.toNat false s
/-- mst.raw (07 R250). -/
def bodyMstRaw (t h m c : BitVec 4) (s : State) : Res := issueStore (.mstRaw 0 t h m c) t h m c.toNat true s
/-- mst.st (07 R253). -/
def bodyMstSt (t h : BitVec 4) (s : State) : Res := arrayIssue s (newCmd (.mstSt 0 t h)) none false []

/-- mcomp (07 R255, R257). -/
def bodyMcomp (d r : BitVec 4) (k : BitVec 2) (c : BitVec 4) (s : State) : Res :=
  let bf := s.own.ctl.bfmt
  let (vd, vs) := (s.own.h d, s.own.h r)
  let fault := compressFault (Shape.of vd) (Shape.of vs) s.own bf
  let reads := if fault.isNone then hullOf s.me (Shape.of vs) ((Shape.of vs).width bf) 0 else []
  let writes := if fault.isNone then hullOf s.me (Shape.of vd) ((Shape.of vd).width bf) 0 else []
  arrayIssue s { newCmd (.mcomp 0 d r k c) with recs := [vd, vs], oc := c.toNat, reads := reads, writes := writes, busy := 2, depth := 4 }
    fault (mdPending s s.me k.toNat) reads

/-! ### Macro commands at issue (07 R258, R259) -/

/-- The cost of one step (07 R235). -/
def stepCost (bf : Vector Word 8) (hr hb : Shape) (depth : Nat) : Nat :=
  Nat.max 2 (ceilDiv depth (latchRate (fmtCode (bankWord bf hr.base)) (fmtCode (bankWord bf hb.base))))

/-- The word at a of a core's scratchpad as an engine reads it; the value of a poisoned one is free (DESIGN CHOICE, log 3). -/
def engineWord (s : State) (p a i : Nat) : Nat :=
  if s.poisoned (spadBase p + (s.core p).visible a) then (Config.freeWord (s.freeIx + i)).toNat else readSpad s p a 8

/-- The address of an entry of the topology table that mP+2 names (07 R259). -/
def walkAt (t : Word) (e : Nat) : Nat := (t.extractLsb' 0 23).toNat + 16 * e

/-- An entry of the topology table (12 R359): block, expert, rows; none where its fields break the format. -/
def walkEntry (s : State) (p : Nat) (t : Word) (e : Nat) : Option (Nat × Nat × Nat) :=
  let v := engineWord s p (walkAt t e) 0 + engineWord s p (walkAt t e + 8) 1 * 2 ^ 64
  let rows := bitsOf v 37 32
  if bitsOf v 127 96 ≠ 0 ∨ bitsOf v 63 38 ≠ 0 ∨ bitsOf v 31 26 ≠ 0 ∨ rows = 0 ∨ 32 < rows then none
  else some (bitsOf v 15 0, bitsOf v 25 16, rows)

/-- What one entry of a macro command works on: the moved records of its gather, B and store, its mask, and whether the tile is formed
afresh before it and stored after it. -/
structure MacroEntry where
  index : Option Shape
  b : Option Shape
  store : Option Shape
  mask : Word
  fresh : Bool
  stores : Bool
  deriving DecidableEq, Repr

/-- The table of mwalk: its register, and its entries. -/
def ACmd.walk (c : ACmd) : Option (Word × Nat) :=
  match c.op with
  | .mwalk _ _ _ _ _ => let t := c.ms.getD 2 0; some (t, (t.extractLsb' 32 16).toNat)
  | _ => none

/-- The entries of a macro command. -/
def ACmd.entries (c : ACmd) : Nat := match c.walk with | some (_, n) => n | none => 1

/-- Entry e of a macro command, with the table's entries as `look` gives them (07 R258, R259); none where its entry is bad. -/
def ACmd.entryOf (c : ACmd) (look : Nat → Option (Nat × Nat × Nat)) (e : Nat) : Option MacroEntry :=
  let h (i : Nat) := Shape.of (c.recs.getD i 0)
  let mask := c.ms.getD 1 0
  let block (e : Nat) : Option Nat := (look e).map (·.1)
  match c.op with
  | .mwalk _ _ _ _ _ =>
    (look e).map fun (b, x, rows) =>
      { index := (h 0).shift ((b : Int) * (h 0).delta), b := (h 2).shift ((x : Int) * (c.ms.getD 3 0).toInt),
        store := (h 3).shift ((b : Int) * (h 3).delta), mask := mask &&& (BitVec.ofNat 64 (2 ^ rows - 1) ||| (BitVec.allOnes 32 ++ 0#32)),
        fresh := e == 0 || block (e - 1) != some b, stores := e + 1 == c.entries || block (e + 1) != some b }
  | .mtile _ _ _ _ _ _ st =>
    some { index := some (h 0), b := some (h 2), store := some (h 3), mask := mask, fresh := false, stores := st == 1 }
  | _ => none

/-- The current entry of a macro command, from the table entries that it has read. -/
def ACmd.current (c : ACmd) : Option MacroEntry := c.entryOf (fun e => c.table.getD e none) c.entry

/-- What entry x of a macro command still reads from step k on, the rows it gathers there, and what it writes (07 R235, R236). -/
def ACmd.entryNeeds (c : ACmd) (s : State) (x : MacroEntry) (k : Nat) : List (Nat × Nat) × List (Nat × Nat) × List (Nat × Nat) :=
  let p := c.core
  let bf := c.cap.bfmt
  let of (h : Option Shape) (f : Shape → List (Nat × Nat)) : List (Nat × Nat) := (h.map f).getD []
  let steps (l : List (Nat × Nat)) : List (Nat × Nat) := if k < c.steps then l else []
  (steps (of x.index (fun h => hullOf p h 32 0) ++ of x.b fun h => hullOf p h (h.width bf k) (c.steps - 1) k),
   steps (of x.index fun h => rowsAhead s p bf h (Shape.of (c.recs.getD 1 0)) k (c.steps - 1)),
   if x.stores then of x.store fun h => hullOf p h (h.width bf) 0 else [])

/-- What a macro command still reads, gathers and writes, with the table's entries that it has not read as they stand (07 R235, R236; DEDUCED, log 70). -/
def ACmd.needs (c : ACmd) (s : State) : List (Nat × Nat) × List (Nat × Nat) × List (Nat × Nat) :=
  let look (e : Nat) : Option (Nat × Nat × Nat) :=
    if e < c.table.length then c.table.getD e none else (c.walk.bind fun (t, _) => walkEntry s c.core t e)
  let xs := (List.range (c.entries - c.entry)).filterMap fun i =>
    (c.entryOf look (c.entry + i)).map fun x => c.entryNeeds s x (if i = 0 then c.step else 0)
  let table := match c.walk with
    | some (t, n) => if c.table.length < n then named c.core [(walkAt t c.table.length, walkAt t n)] else []
    | none => []
  (table ++ xs.flatMap (·.1), xs.flatMap (·.2.1), xs.flatMap (·.2.2))

/-- The checks of a row template and its format in the K-steps of a macro command, in their order (07 R238, R258). -/
def stepsFault (h : Shape) (bf : Vector Word 8) (steps : Nat) : Option (Nat × Nat) :=
  (List.range steps).findSome? fun k => match h.shift (k * h.delta) with
    | some h => if 2 ^ 23 ≤ h.base then shapeFault 1 3 else (templateFault h bf 1).orElse fun _ => sourceFormat (bankWord bf h.base) 1
    | none => shapeFault 1 3

/-- A macro command at issue: its parameter words, its records under the rules of their steps over all K-steps, its plan. -/
def issueMacro (op : Instr) (kind : Nat) (d x p : BitVec 4) (oc : Nat) (store : Bool) (entries : Nat) (ms : List Word)
    (more : Option (Nat × Nat)) (s : State) : Res :=
  let c := s.own
  let bf := c.ctl.bfmt
  let recs := (List.range 4).map fun i => c.h (x + BitVec.ofNat 4 i)
  let sh (i : Nat) := Shape.of (recs.getD i 0)
  let mp := c.m p
  let depth := (mp.extractLsb' 0 16).toNat
  let steps := (mp.extractLsb' 16 16).toNat
  let tile := (s.quad (quadOf s.me)).tileKind d.toNat
  let ts := (tile.getD (0, 0)).2
  let bad := if depth = 0 ∨ steps = 0 ∨ 2 ^ 32 ≤ mp.toNat then some (0x02, 2) else more
  let gathers := bad.orElse fun _ => gatherFault c bf (sh 0) (sh 1) 1 1 0
  let latch := (gathers.orElse fun _ => stepsFault (sh 1) bf steps).orElse fun _ => (latchFault (sh 2) c bf 1 (steps - 1)).orElse fun _ => sourceFormat (bankWord bf (sh 2).base) 1
  let fault := latch.orElse fun _ => if store then storeFault (sh 3) c c.capture 1 0 tile false op.opcode else none
  let cost := stepCost bf (sh 1) (sh 2) depth
  let st := if store then storeBusy ts ((sh 3).width bf) else 0
  let cmd : ACmd := { newCmd op with
    core := s.me, recs := recs, ms := mp :: ms, cap := c.capture, oc := oc, busy := entries * (4 + steps * cost + st), depth := 6 }
  let (reads, rows, writes) := if fault.isNone then cmd.needs s else ([], [], [])
  (arrayIssue s { cmd with reads := reads, rows := rows, writes := writes } fault false (reads ++ rows)).bind fun s =>
    match (s.quad (quadOf s.me)).cmds.getLast? with
    | none => .ok s
    | some e =>
      let plan : Plan := { id := e.id, kind := kind, start := e.nominal, steps := steps, cost := cost, store := st, entries := entries }
      .ok (s.modOwn fun c => { c with plans := c.plans ++ [plan] })

/-- mtile (07 R258). -/
def bodyMtile (d x p c : BitVec 4) (z r : BitVec 1) (s : State) : Res :=
  issueMacro (.mtile 0 d x p c z r) 1 d x p c.toNat (r == 1) 1 [s.own.m (p + 1)] none s

/-- mwalk (07 R259): mP+2 holds the table's address and entry count, mP+3 the stride per expert. -/
def bodyMwalk (d x p c : BitVec 4) (s : State) : Res :=
  let t := s.own.m (p + 2)
  let a := (t.extractLsb' 0 23).toNat
  let e := (t.extractLsb' 32 16).toNat
  let bad := if t.extractLsb' 23 9 ≠ 0 ∨ t.extractLsb' 48 16 ≠ 0 ∨ a % 16 ≠ 0 ∨ e = 0 ∨ 8192 < e then some (0x02, 2)
    else s.own.blockFault a (16 * e)
  issueMacro (.mwalk 0 d x p c) 2 d x p c.toNat true e [s.own.m (p + 1), t, s.own.m (p + 3)] bad s

/-! ### Leases (07 R226) -/

/-- Leases that end with this cycle (07 R227). -/
def endLeases (s : State) (q : Nat) : State :=
  (List.range 4).foldl (fun s i =>
    if (s.core (4 * q + i)).run.lease = 3 then s.modCore (4 * q + i) fun c => { c with run := { c.run with lease := 0 } } else s) s

/-- LEASE_GRANT (07 R226): at the end of a cycle in which no core of the quad holds the lease any more, the first requesting core after the
last holder is granted it. -/
def execLeaseGrant (q : Nat) (s : State) : Host.Outcome State Fault Refusal :=
  let s := endLeases s q
  let lease (i : Nat) : Nat := (s.core (4 * q + i)).run.lease
  if (List.range 4).any fun i => lease i = 2 then .next s
  else match ((List.range 4).map fun k => ((s.quad q).last + 1 + k) % 4).find? fun i => lease i = 1 with
    | none => .next s
    | some i => .next ((s.modCore (4 * q + i) fun c => { c with run := { c.run with lease := 2 } }).modQuad q fun r => { r with last := i })

/-! ### Start (07 R235, R236, R263) -/

/-- The outcome of starting a command, or of one step of it: it has not begun, a fault, it goes on in a later cycle with what it has done so far, or it is done. -/
inductive Began where
  | wait
  | fault (code detail : Nat)
  | later (s : State) (cmd : ACmd)
  | ok (s : State) (cmd : ACmd)
  deriving DecidableEq, Repr

/-- A gate before an outcome. -/
def Gate.then_ (g : Gate) (s : State) (cmd : ACmd) (k : Began) : Began :=
  match g with
  | .go => k
  | .wait => .later s cmd
  | .fault code detail => .fault code detail

/-- The tile at slot d, or the fault that it is none (07 R230). -/
def withTile (q : Quad) (d : Nat) (k : Tile → Began) : Began :=
  match q.tile d with
  | some t => k t
  | none => .fault 0x02 0

/-- The bytes of the writes that a command has still to perform, as named bytes. -/
def ACmd.pending (c : ACmd) : List (Nat × Nat) := c.puts.flatMap fun x => namedBits c.core x.w [x.bit]

/-- An earlier command of the class, started and not complete, that writes bytes of some ranges; or a write to them that the command's own last store
has still to perform (07 R235). -/
def earlierWrites (q : Quad) (cmd : ACmd) (rs : List (Nat × Nat)) : Bool :=
  meet cmd.pending rs || q.cmds.any fun e => e.id != cmd.id && e.started.isSome && e.oc == cmd.oc && meet e.writes rs

/-- A command's first reads of some ranges: the checks of tags that fall to them, each made once (07 R263, 09 R291). -/
def passTags (s : State) (cmd : ACmd) (rs : List (Nat × Nat)) (k : ACmd → Began) : Began :=
  let met := cmd.tags.filter (tagFalls s cmd.core rs)
  (tagGate s cmd.core met).then_ s cmd (k { cmd with tags := cmd.tags.filter fun x => !met.contains x })

/-- The accesses of a command's step, each with the words it needs, find their ports, one after the other, in this cycle or in later ones (04 R122, R123; 07 R236);
once all have, the step goes on. -/
def serve (s : State) (cmd : ACmd) (needs : List Held) (k : State → ACmd → Began) : Began :=
  let (s, held) := s.claimEach cmd.part.served needs
  let cmd := { cmd with part := { cmd.part with served := held } }
  if needs.all (·.all held.contains) then k s cmd else .later s cmd

/-- What reads of w bits at bit addresses of core q's scratchpad need. -/
def fieldNeeds (s : State) (q w : Nat) (bits : List Nat) : List Held :=
  (bits.map fun b => readNeed s q (b / 8) ((b % 8 + w + 7) / 8)).eraseDups

/-- A command's reads of fields of w bits, in order, behind the accesses that come before them: tags, faulted halves, watermarks, ports; the halves of the
handles it meets are fixed. -/
def readFields (s : State) (qn : Nat) (cmd : ACmd) (w : Nat) (bits : List Nat) (k : State → ACmd → Began) : Began :=
  let rs := namedBits cmd.core w bits
  if earlierWrites (s.quad qn) cmd rs || (s.core cmd.core).blocked cmd.core cmd.id cmd.oc .array rs [] then .wait
  else passTags s cmd rs fun cmd => (fieldsGate (s.core cmd.core) w bits).then_ s cmd
    (serve s { cmd with halves := cmd.halves.fix s rs } (fieldNeeds s cmd.core w bits) k)

/-- What the rows of a gather need. -/
def rowNeeds (s : State) (bf : Vector Word 8) (rows : List GRow) : List Held :=
  rows.flatMap fun r => match r with
    | none => []
    | some (q, h) => let w := (codeBits (fmtCode (bankWord bf h.base))).getD 8; fieldNeeds s q w (h.bits w 0 h.total)

/-- The rows of a gather whose index words are read, behind what writes them, and the filled buffer. -/
def gatherRest (s : State) (qn : Nat) (cmd : ACmd) (hi hr : Shape) (k : State → ACmd → Latch → Nat → List (Nat × Nat) → Began) : Began :=
  let p := cmd.core
  let bf := cmd.cap.bfmt
  match gatherRows s p bf hr cmd.part.index with
  | .error (code, detail) => .fault code detail
  | .ok rows =>
    let ranges := rowRanges bf rows
    if earlierWrites (s.quad qn) cmd ranges || (s.core p).blocked p cmd.id cmd.oc .array ranges [] then .later s cmd
    else passTags s cmd ranges fun cmd => (rowsGate s bf rows).then_ s cmd (
      serve s { cmd with halves := cmd.halves.fix s ranges } (rowNeeds s bf rows) fun s cmd =>
        let (l, n) := gatherLatch s p bf hi hr rows
        k s cmd l n ranges)

/-- A gather of a command: its index words, once, then its rows. -/
def gatherStep (s : State) (qn : Nat) (cmd : ACmd) (hi hr : Shape) (k : State → ACmd → Latch → Nat → List (Nat × Nat) → Began) : Began :=
  if cmd.part.index.isEmpty then
    readFields s qn cmd 32 (hi.bits 32 0 hi.total) fun s cmd =>
      gatherRest { s with freeIx := s.freeIx + 32 } qn
        { cmd with part := { cmd.part with index := gatherWords s cmd.core cmd.cap.bfmt hi } } hi hr k
  else gatherRest s qn cmd hi hr k

/-- The pairing of a product (07 R241, R263) and its depth. -/
def withRule (t : Tile) (a b : Latch) (depth : Nat) (k : ProductRule → Began) : Began :=
  match productRule a.code b.code t.type with
  | none => .fault 0x02 4
  | some r => if Nat.min (latchCap a.code) (latchCap b.code) < depth then .fault 0x0E 4 else k r

/-- The pairing of a sparse product (07 R256). -/
def sparseRule (t : Tile) (a b0 b1 : Latch) : Option ProductRule :=
  let both (l : List Nat) : Bool := l.contains b0.code && l.contains b1.code
  if a.code = 0x00 ∧ both [0x00, 0x01] ∧ t.type = 1 then some .int
  else if a.code = 0x14 ∧ both [0x14, 0x15] ∧ t.type = 0 then some .f8
  else none

/-- mcomp's values and metadata of source rows 16·c to 16·c + 15 (07 R255), its values written in cycle `due`. -/
def compress (s : State) (p : Nat) (cap : Capture) (hd hs : Shape) (c due : Nat) : List Put × BitVec 24576 :=
  let bf := cap.bfmt
  let (k, n) := (hs.counts.getD 0 0, hs.counts.getD 1 0)
  let groups := (List.range 768).map fun w =>
    let (i, g) := (16 * c + w / 48, w % 48)
    if n ≤ i ∨ k ≤ 8 * g then (0x0688, [])
    else
      let xs := (List.range 8).map fun m => readElt s p bf hs 0 (8 * g + m + k * i)
      let keep := keepFour (xs.map (·.val))
      let bad := xs.any (·.poison)
      let kept : List Put := (List.range 4).map fun q =>
        { due := due, bit := (hd.bitAt 8 0 (4 * g + q + k / 2 * i)).toNat, w := 8, val := (xs.getD (keep.getD q 0) ⟨0, .zero false, false, 0⟩).raw, poison := bad }
      ((List.range 4).foldl (fun z q => z + keep.getD q 0 * 2 ^ (3 * q)) 0, kept)
  (groups.flatMap (·.2), BitVec.ofNat 24576 ((List.range 768).foldl (fun z w => z + (groups.getD w (0, [])).1 * 2 ^ (16 * (768 * c + w))) 0))

/-- The tile that mcfg.ld or mcfg.add reads its image into (07 R232): with the old elements where it adds to them. -/
def imageTile (q : Quad) (d type shape : Nat) (merge : Bool) : Tile × Bool :=
  match q.tile d with
  | some t => if merge ∧ t.type = type ∧ t.shape = shape then (t, true) else ({ first := d, type := type, shape := shape }, false)
  | none => ({ first := d, type := type, shape := shape }, false)

/-- A read cycle of mcfg.ld or mcfg.add (07 R232, R235): the next 4 KiB of the image; after the last the tile is formed. -/
def imageRead (s : State) (qn : Nat) (cmd : ACmd) (d type shape : Nat) (merge : Bool) : Began :=
  let h := Shape.of (cmd.recs.getD 0 0)
  let w := tileBits type
  let (t0, add) := imageTile (s.quad qn) d type shape merge
  readFields s qn cmd w ((imageStage type shape cmd.stage).map fun x => imageAt h x.1 x.2) fun s cmd =>
    let t := (cmd.tile.getD t0).load s cmd.core h add cmd.stage
    let cmd := { cmd with stage := cmd.stage + 1, tile := some t }
    if cmd.stage < cmd.busy then .ok s cmd
    else .ok (s.modQuad qn fun q => (if add then q else q.configure d type shape).setTile t) { cmd with tile := none }

/-- A read cycle of mcomp (07 R235, R255): 16 source rows, written four cycles later. -/
def compressRead (s : State) (qn : Nat) (cmd : ACmd) (k : Nat) : Began :=
  let (hd, hs) := (Shape.of (cmd.recs.getD 0 0), Shape.of (cmd.recs.getD 1 0))
  let (c0, c1) := (hs.counts.getD 0 0, hs.counts.getD 1 0)
  let rows := Nat.min 16 (c1 - 16 * cmd.stage)
  readFields s qn cmd 8 (hs.bits 8 (16 * cmd.stage * c0) (rows * c0)) fun s cmd =>
    let (ps, md) := compress s cmd.core cmd.cap hd hs cmd.stage ((s.core cmd.core).run.t + 4)
    let old := match cmd.mdw with | some (_, v) => v | none => 0
    .ok s { cmd with stage := cmd.stage + 1, puts := cmd.puts ++ ps, mdw := some (k, old ||| md) }

/-- The next read cycle of a command that reads over several cycles. -/
def stageRead (s : State) (qn : Nat) (cmd : ACmd) : Began :=
  match cmd.op with
  | .mcfgLd _ d _ _ sh t => imageRead s qn cmd d.toNat t.toNat sh.toNat false
  | .mcfgAdd _ d _ _ sh t => imageRead s qn cmd d.toNat t.toNat sh.toNat true
  | .mcomp _ _ _ k _ => compressRead s qn cmd k.toNat
  | _ => .ok s cmd

/-- A command starts: the sources of its first cycle are read, and latches, tiles and results fixed (07 R232 to R256). -/
def beginCmd (s : State) (qn : Nat) (cmd : ACmd) : Began :=
  let p := cmd.core
  let now := (s.core p).run.t
  let q := s.quad qn
  let bf := cmd.cap.bfmt
  let rec_ (i : Nat) := Shape.of (cmd.recs.getD i 0)
  let m (i : Nat) := cmd.ms.getD i 0
  let put (f : Quad → Quad) : Began := .ok (s.modQuad qn f) cmd
  match cmd.op with
  | .mcfg _ d sh t => put (·.configure d.toNat t.toNat sh.toNat)
  | .mcfgLd _ _ _ _ _ _ | .mcfgAdd _ _ _ _ _ _ | .mcomp _ _ _ _ _ => stageRead s qn cmd
  | .mgath _ x _ _ _ =>
    gatherStep s qn cmd (rec_ 0) (rec_ 1) fun s cmd l n ranges =>
      .ok (addFanom (s.modQuad qn fun q => { q with a := q.a.setIfInBounds x.toNat l }) p n) { cmd with rows := ranges }
  | .mlatb _ y _ _ =>
    readFields s qn cmd ((rec_ 0).width bf) ((rec_ 0).bits ((rec_ 0).width bf) 0 (rec_ 0).total) fun s cmd =>
      let (l, n) := loadLatch s p bf (rec_ 0)
      .ok (addFanom (s.modQuad qn fun q => { q with b := q.b.setIfInBounds y.toNat l }) p n) cmd
  | .mma _ d _ _ y x =>
    withTile q d.toNat fun t =>
      let (a, b) := (q.a.toList.getD x.toNat {}, q.b.toList.getD y.toNat {})
      withRule t a b (m 1).toNat fun r =>
        .ok (s.modQuad qn (·.setTile (t.mma r (m 0) a b (m 1).toNat))) { cmd with busy := Nat.max 1 (ceilDiv (m 1).toNat (latchRate a.code b.code)) }
  | .mmas _ d _ _ _ x =>
    withTile q d.toNat fun t =>
      let a := q.a.toList.getD x.toNat {}
      let (b0, b1) := (q.b.toList.getD 0 {}, q.b.toList.getD 1 {})
      match sparseRule t a b0 b1 with
      | none => .fault 0x02 4
      | some r => if 384 < (m 1).toNat then .fault 0x0E 4 else put (·.setTile (t.mmas r (m 0) a b0 b1 cmd.md (m 1).toNat))
  | .mst _ t _ _ _ =>
    withTile q t.toNat fun t =>
      .ok s { cmd with puts := t.store cmd.cap (rec_ 0) (m 0) false (now + cmd.depth), busy := storeBusy t.shape ((rec_ 0).width bf) }
  | .mstRaw _ t _ _ _ =>
    withTile q t.toNat fun t =>
      .ok s { cmd with puts := t.store cmd.cap (rec_ 0) (m 0) true (now + cmd.depth), busy := storeBusy t.shape (tileBits t.type) }
  | .mstSt _ t h =>
    withTile q t.toNat fun t =>
      let due := now + cmd.busy - 1 + cmd.depth
      let s := s.modCore p fun c => { c with pipe := { c.pipe with pend := c.pipe.pend ++ [⟨due, cmd.issued, 4, .m h, t.status⟩] } }
      .ok (s.modQuad qn (·.setTile { t with ovf := false })) cmd
  | .mtile _ d _ _ _ z _ =>
    withTile q d.toNat fun t => if z = 1 ∧ cmd.step = 0 then put (·.configure t.first t.type t.shape) else .ok s cmd
  | .mwalk _ d _ _ _ => withTile q d.toNat fun _ => .ok s cmd
  | _ => .ok s cmd

/-- A started command replaced. -/
def Quad.put (q : Quad) (cmd : ACmd) : Quad := { q with cmds := q.cmds.map fun c => if c.core = cmd.core ∧ c.id = cmd.id then cmd else c }

/-- The command of a quad with the number of another, as it stands. -/
def Quad.again (q : Quad) (cmd : ACmd) : Option ACmd := q.cmds.find? fun c => c.core == cmd.core && c.id == cmd.id

/-- Writes of a command perform together, into the halves that its handles keep to, and count their anomalies; others are left. -/
def putAll (s : State) (qn : Nat) (cmd : ACmd) (now rest : List Put) : State :=
  if now.isEmpty then s
  else
    let p := cmd.core
    let halves := cmd.halves.fix s (now.flatMap fun x => namedBits p x.w [x.bit])
    let c := (s.seen halves).core p
    let s := addFanom (s.perform false (now.flatMap fun x => fieldWrs c p x.bit x.w x.val x.poison)) p (now.foldl (fun n x => n + x.anom) 0)
    s.modQuad qn fun q => q.put { cmd with halves := halves, puts := rest }

/-- The words that a write of a command needs, in the half that its handle keeps to or would be fixed in. -/
def Put.need (x : Put) (c : Core) (p : Nat) : Held := writeNeed (fieldWrs c p x.bit x.w 0 false)

/-- The writes of a command that are due in cycle t, in ascending index: those perform that find their ports, and the others wait (04 R123, 07 R236). The state, and
whether some wait. -/
def performPuts (s : State) (qn : Nat) (cmd : ACmd) (t : Nat) : State × Bool :=
  let due := cmd.puts.filter fun x => decide (x.due ≤ t)
  let c := (s.seen cmd.halves).core cmd.core
  let (s, held) := s.claimEach [] ((due.map fun x => x.need c cmd.core).eraseDups)
  let go (x : Put) : Bool := (x.need c cmd.core).all held.contains
  (putAll s qn cmd (due.filter go) (cmd.puts.filter fun x => !(decide (x.due ≤ t) && go x)), !due.all go)

/-- The array detects a fault of a command (07 R263): it and the later commands of its core are discarded, and the core is told.
The stores that a macro command has begun are completed steps of it: they perform. -/
def arrayFault (s : State) (qn : Nat) (cmd : ACmd) (code detail : Nat) : State :=
  let q := s.quad qn
  let drop (x : ACmd) : Bool := x.core == cmd.core && (x.id == cmd.id || (x.started.isNone && decide (cmd.id < x.id)))
  let s := if isMacro cmd.op then ((s.quad qn).again cmd).elim s fun c => putAll s qn c c.puts [] else s
  let s := (q.cmds.filter drop).foldl (fun s x => landed s x.core x.id) s
  let s := s.modQuad qn fun q => { q with cmds := q.cmds.filter (!drop ·) }
  let s := s.modCore cmd.core fun c => { c with plans := c.plans.filter fun x => decide (x.id < cmd.id) }
  engineFault s cmd.core code detail cmd.baddr cmd.word

/-- The first command that has not started, with those before it. -/
def Quad.next (q : Quad) : Option (List ACmd × ACmd) :=
  match q.cmds.span fun c => c.started.isSome with
  | (es, c :: _) => some (es, c)
  | (_, []) => none

/-- A macro command that still has steps to run. -/
def ACmd.running (c : ACmd) : Bool := isMacro c.op && c.started.isSome && c.done.isNone

/-- The start conditions of a command at cycle t behind the earlier ones (07 R235; 01 R34). -/
def mayBegin (s : State) (q : Quad) (es : List ACmd) (cmd : ACmd) (t : Nat) : Bool :=
  decide (cmd.issued + 1 ≤ t) && decide (q.freeAt ≤ t) &&
    es.all (fun e => !e.running && !feeds e cmd && !hullsMeet e cmd &&
      (!usedBy e cmd || match e.started with | some u => isMacro e.op || decide (u + e.busy ≤ t) | none => false)) &&
    !(s.core cmd.core).blocked cmd.core cmd.id cmd.oc .array cmd.reads cmd.writes

/-- A flight of a core changed. -/
def modFlight (s : State) (p id : Nat) (f : Flight → Flight) : State :=
  s.modCore p fun c => { c with flight := c.flight.map fun x => if x.id = id then f x else x }

/-- Ranges with those of others that they do not list. -/
def joinRanges (a b : List (Nat × Nat)) : List (Nat × Nat) := a ++ b.filter fun r => !a.contains r

/-- A command's flight holds what the command still reads, its rows among it, and still writes; what it has accessed stays in its area (09 R286). -/
def showNeeds (s : State) (cmd : ACmd) (reads writes : List (Nat × Nat)) : State :=
  modFlight s cmd.core cmd.id fun f =>
    { f with engine := if isMacro cmd.op then .stepping else f.engine, reads := reads, writes := writes, area := joinRanges f.area (reads ++ writes) }

/-- A command's doing in the halves that it keeps to (09 R288). -/
def seeing (s : State) (cmd : ACmd) (f : State → Began) : Began :=
  match f (s.seen cmd.halves) with
  | .later t c => .later (s.unseen cmd.halves t) c
  | .ok t c => .ok (s.unseen cmd.halves t) c
  | b => b

/-- Cycle t of a command is delayed: every later step of it, and of the commands that come after it, is a cycle later (07 R236). A command before it goes on: it may be
the one that is waited for (R238; DEDUCED, log 10). -/
def delayFrom (s : State) (qn : Nat) (cmd : ACmd) (t : Nat) : State :=
  let shift (n : Nat) : Nat := if t < n then n + 1 else n
  let mine (c : ACmd) : Bool := c.core == cmd.core && c.id == cmd.id
  let slow (c : ACmd) : ACmd :=
    { c with at_ := shift c.at_, done := c.done.map fun n => if mine c ∧ n = t then t + 1 else shift n, puts := c.puts.map fun x => { x with due := shift x.due } }
  let q := s.quad qn
  let after := q.cmds.dropWhile (!mine ·)
  let late (c : ACmd) (r : Pend) : Bool := match c.op with | .mstSt _ _ h => r.issue == c.issued && r.slot == 4 && r.dest == .m h && decide (t < r.due) | _ => false
  let s := s.modQuad qn fun q => { q with freeAt := shift q.freeAt, cmds := q.cmds.takeWhile (!mine ·) ++ after.map slow }
  (after.filter (·.started.isSome)).foldl (fun s c => s.modCore c.core fun r =>
    { r with pipe := { r.pipe with pend := r.pipe.pend.map fun x => if late c x then { x with due := x.due + 1 } else x } }) s

/-- A command's read cycle after its first; whether an access of it waits. -/
def stageCycle (s : State) (qn : Nat) (cmd : ACmd) (t : Nat) : State × Bool :=
  if ¬ cmd.staging ∨ t < cmd.at_ then (s, false)
  else match seeing s cmd fun s => stageRead s qn cmd with
    | .wait => (s, true)
    | .later s cmd => (s.modQuad qn (·.put cmd), true)
    | .fault code detail => (arrayFault s qn cmd code detail, false)
    | .ok s cmd => (s.modQuad qn (·.put { cmd with at_ := t + 1, part := {} }), false)

/-- The reads and the writes of a started command's cycle, and whether one of them waits. -/
def commandAccesses (s : State) (qn : Nat) (cmd : ACmd) : State × Bool :=
  let t := (s.core cmd.core).run.t
  let (s, a) := stageCycle s qn cmd t
  match (s.quad qn).again cmd with
  | none => (s, a)
  | some cmd => let (s, b) := performPuts s qn cmd t; (s, a || b)

/-- The accesses of the started commands of a quad in its cycle, the oldest first; what the oldest that is delayed holds up comes a cycle later (07 R235, R236). -/
def arrayAccesses (s : State) (qn : Nat) : State :=
  let step (x : State × Option ACmd) (cmd : ACmd) : State × Option ACmd :=
    match (x.1.quad qn).again cmd with
    | none => x
    | some c => let (s, late) := commandAccesses x.1 qn c; (s, x.2.orElse fun _ => if late then some c else none)
  let (s, held) := ((s.quad qn).cmds.filter (·.started.isSome)).foldl step (s, none)
  match held with
  | none => s
  | some cmd => delayFrom s qn cmd (s.core cmd.core).run.t

/-- The next command of a quad starts once its conditions hold and its first accesses have found their ports; a fault stops it. A macro command checks tags in its steps. -/
def startNext (s : State) (qn : Nat) : State :=
  let q := s.quad qn
  match q.next with
  | none => s
  | some (es, cmd) =>
    let t := (s.core cmd.core).run.t
    let mac := isMacro cmd.op
    if ¬ mayBegin s q es cmd t then s
    else match seeing s cmd fun s => beginCmd s qn cmd with
      | .wait => s
      | .later s cmd => s.modQuad qn (·.put cmd)
      | .fault code detail => arrayFault s qn cmd code detail
      | .ok s cmd =>
        let cmd := { cmd with
          part := {}, started := some t, at_ := if mac then t else t + 1, done := if mac then none else some (t + cmd.busy - 1 + cmd.depth) }
        (showNeeds s cmd (cmd.reads ++ cmd.rows) cmd.writes).modQuad qn fun q => { q.put cmd with freeAt := t + if mac then 1 else cmd.busy }

/-- ARRAY_COMMAND_START (07 R235): the started commands of the quad make the accesses of their cycle, and the next command starts. -/
def execArrayCommandStart (qn : Nat) (s : State) : Host.Outcome State Fault Refusal := .next (startNext (arrayAccesses s qn) qn)

/-! ### Macro steps (07 R258 to R262) -/

/-- The tile that a macro command names. -/
def ACmd.tileNo (c : ACmd) : Nat := match c.op with | .mtile _ d _ _ _ _ _ | .mwalk _ d _ _ _ => d.toNat | _ => 0

/-- A macro command that has run a step, or stored, in cycle t: what comes next and when (07 R235). -/
def ACmd.advance (c : ACmd) (t : Nat) (e : MacroEntry) (stored : Bool) : ACmd :=
  let h (i : Nat) := Shape.of (c.recs.getD i 0)
  let cost := stepCost c.cap.bfmt (h 1) (h 2) ((c.ms.getD 0 0).extractLsb' 0 16).toNat
  let st := c.busy / c.entries - (4 + c.steps * cost)
  let next (u : Nat) : ACmd :=
    if c.entry + 1 < c.entries then { c with entry := c.entry + 1, step := 0, at_ := u } else { c with at_ := u, done := some (u + 5) }
  if stored then next (t + st)
  else if c.step < c.steps then { c with at_ := t + cost }
  else if e.stores then { c with at_ := t + cost + 4 } else next (t + cost + 4 + st)

/-- Entry e of the table is read, where it has not been (07 R259, R263). -/
def readEntry (s : State) (qn : Nat) (cmd : ACmd) (e : Nat) (k : State → ACmd → Began) : Began :=
  match cmd.walk with
  | none => k s cmd
  | some (t, n) =>
    if n ≤ e ∨ e < cmd.table.length then k s cmd
    else readFields s qn cmd 64 [8 * walkAt t e, 8 * walkAt t e + 64] fun s cmd =>
      k { s with freeIx := s.freeIx + 2 } { cmd with table := cmd.table ++ [walkEntry s cmd.core t e] }

/-- One K-step of a macro command (07 R258, R259): with an entry's first step its table entry, with its last the next one, which decides whether it is stored;
then gather, latch and product, or the fault that stops it. A record that a table entry moves is checked as it is moved: a bad format, alignment or STOCH bank there is
an engine fault of that step, as the checks of R263 are, and the moved index record's bank is not held to N32 again (DESIGN CHOICE, log 76). -/
def macroStep (s : State) (qn : Nat) (cmd : ACmd) : Began :=
  let p := cmd.core
  let bf := cmd.cap.bfmt
  let k := cmd.step
  let hr := Shape.of (cmd.recs.getD 1 0)
  let depth := ((cmd.ms.getD 0 0).extractLsb' 0 16).toNat
  readEntry s qn cmd cmd.entry fun s cmd => readEntry s qn cmd (if k + 1 = cmd.steps then cmd.entry + 1 else 0) fun s cmd =>
    match cmd.current with
    | none => .fault 0x0E 14
    | some e =>
      match e.index, hr.shift (k * hr.delta), e.b.bind fun h => h.shift (k * h.delta) with
      | some hi, some hr, some hb =>
        match (indexFault hi (s.core p) bf 1 0).orElse fun _ => (latchFault hb (s.core p) bf 1 0).orElse fun _ => sourceFormat (bankWord bf hb.base) 1 with
        | some (code, detail) => .fault code detail
        | none =>
          gatherStep s qn cmd hi hr fun s cmd a n rows =>
            readFields s qn cmd (hb.width bf) (hb.bits (hb.width bf) 0 hb.total) fun s cmd =>
              let (b, nb) := loadLatch s p bf hb
              let q := s.quad qn
              let q := if e.fresh ∧ k = 0 then (match q.tile cmd.tileNo with | some t => q.configure t.first t.type t.shape | none => q) else q
              withTile q cmd.tileNo fun t => withRule t a b depth fun r =>
                let q := { q with a := q.a.setIfInBounds (k % 2) a, b := q.b.setIfInBounds (k % 2) b }
                .ok (addFanom (s.modQuad qn fun _ => q.setTile (t.mma r e.mask a b depth)) p (n + nb))
                  ({ cmd with step := k + 1, rows := joinRanges cmd.rows rows }.advance (s.core p).run.t e false)
      | _, _, _ => .fault 0x0E 3

/-- The store of a macro command's entry begins (07 R258, R259): its writes perform as those of an mst that starts now. -/
def macroStore (s : State) (qn : Nat) (cmd : ACmd) : Began :=
  let p := cmd.core
  let now := (s.core p).run.t
  match cmd.current with
  | none => .fault 0x0E 14
  | some e =>
    match e.store with
    | none => .fault 0x0E 3
    | some h =>
      withTile (s.quad qn) cmd.tileNo fun t =>
        match storeFault h (s.core p) cmd.cap 1 0 (some (t.type, t.shape)) false cmd.op.opcode with
        | some (code, detail) => .fault code detail
        | none =>
          let hull := hullOf p h (h.width cmd.cap.bfmt) 0
          let others := (s.quad qn).cmds.any fun x =>
            x.id != cmd.id && x.started.isSome && x.oc == cmd.oc && (meet x.writes hull || meet (x.reads ++ x.rows) hull)
          if others || (s.core p).blocked p cmd.id cmd.oc .array [] hull then .wait
          else .ok s ({ cmd with puts := cmd.puts ++ t.store cmd.cap h e.mask false (now + 4) }.advance now e true)

/-- The purse of a macro command's core pays for a step or a store, or the step waits (07 R261). -/
def payStep (s : State) (p : Nat) (free : Bool) (k : State → Began) : Began :=
  if free then k s
  else if (s.core p).ctl.purse < 16 then .wait
  else k (s.modCore p fun c => { c with ctl := { c.ctl with purse := c.ctl.purse - 16 } })

/-- MACRO_K_STEP (07 R258 to R262): the running macro command of the quad takes its next step, or stores; it stops before a step of a core that
is halted for pre-emption. -/
def execMacroKStep (qn : Nat) (s : State) : Host.Outcome State Fault Refusal :=
  match (s.quad qn).cmds.find? (·.running) with
  | none => .next s
  | some cmd =>
    let p := cmd.core
    let c := s.core p
    let t := c.run.t
    let storing := cmd.steps ≤ cmd.step
    if t < cmd.at_ ∨ (c.run.stopped = 1 ∧ ¬ storing) then .next s
    else match seeing s cmd fun s => payStep s p (cmd.part.paid ∨ (¬ storing ∧ cmd.step = 0 ∧ cmd.entry = 0)) fun s =>
        if storing then macroStore s qn cmd else macroStep s qn cmd with
      | .wait => .next s
      | .later s cmd => .next (s.modQuad qn (·.put { cmd with part := { cmd.part with paid := true } }))
      | .fault code detail => .next (arrayFault s qn cmd code detail)
      | .ok s cmd' =>
        let cmd' := { cmd' with part := {} }
        let (reads, rows, writes) := if cmd'.done.isSome then ([], [], []) else cmd'.needs s
        let cmd := { cmd' with reads := joinRanges cmd'.reads reads, rows := joinRanges cmd'.rows rows, writes := joinRanges cmd'.writes writes }
        .next ((showNeeds s cmd (reads ++ rows) (writes ++ cmd.pending)).modQuad qn fun q => { q.put cmd with freeAt := match cmd.done with | some u => u - 5 | none => t + 1 })

/-! ### Completion (07 R235) -/

/-- A command has written everything: its metadata register changes, it has landed. -/
def completeCmd (s : State) (qn : Nat) (cmd : ACmd) : State :=
  let p := cmd.core
  let s := match cmd.mdw with
    | some (k, v) => s.modCore p fun c => { c with files := { c.files with md := c.files.md.setIfInBounds k v } }
    | none => s
  let s := landed s p cmd.id
  let s := s.modCore p fun c => { c with plans := c.plans.filter fun x => x.id ≠ cmd.id }
  s.modQuad qn fun q => { q with cmds := q.cmds.filter fun x => !(x.core == p && x.id == cmd.id) }

/-- A started command's reads are over after B cycles; it completes at the end of cycle C. -/
def cmdCycle (s : State) (qn : Nat) (cmd : ACmd) : State :=
  let t := (s.core cmd.core).run.t
  match cmd.started, cmd.done with
  | some _, some e =>
    let s := if e ≤ t + cmd.depth then readsDone s cmd.core cmd.id else s
    if e ≤ t then completeCmd s qn cmd else s
  | _, _ => s

/-- ARRAY_COMMAND_COMPLETE (07 R235): the started commands of the quad whose last write has performed complete. -/
def execArrayCommandComplete (qn : Nat) (s : State) : Host.Outcome State Fault Refusal :=
  .next ((s.quad qn).cmds.foldl (fun s c => cmdCycle s qn c) s)

/-! ### Metadata moves (07 R257, 08 R268) -/

/-- mdld and mdst at issue. -/
def issueMove (load : Bool) (k : BitVec 2) (a c : BitVec 4) (s : State) : Res :=
  let p := s.me
  let v := s.own.m a
  let at_ := v.toNat
  if at_ % 64 ≠ 0 then .fault 0x02 7
  else if let some (code, detail) := s.own.blockFault at_ 3072 then .fault code detail
  else if mdPending s p k.toNat then .stall 4
  else
    let range := [(spadBase p + at_, spadBase p + at_ + 3072)]
    let (tags, s) := if load then consumeTags s p range else ([], s)
    let (id, s) := launch s p .metadata c.toNat (if load then range else []) (if load then [] else range)
    .ok (s.modCore p fun r =>
      let data := if load then 0 else r.files.md.toList.getD k.toNat 0
      let x : MdMove :=
        { id := id, load := load, reg := k.toNat, addr := at_, oc := c.toNat, issued := r.run.t, data := data,
          baddr := s.cur.addr, word := s.cur.word, tags := tags }
      { r with moves := r.moves ++ [x] })

/-- mdld (07 R257). -/
def bodyMdld (k : BitVec 2) (a c : BitVec 4) (s : State) : Res := issueMove true k a c s
/-- mdst (07 R257): the register is read at issue. -/
def bodyMdst (k : BitVec 2) (a c : BitVec 4) (s : State) : Res := issueMove false k a c s

/-- The 64 bytes of a chunk as mdld reads them. -/
def moveChunk (s : State) (p a : Nat) : Nat := (List.range 8).foldl (fun z i => z + engineWord s p (a + 8 * i) i * 2 ^ (64 * i)) 0

/-- A move replaced. -/
def putMove (s : State) (p : Nat) (x : MdMove) : State :=
  s.modCore p fun c => { c with moves := c.moves.map fun y => if y.id = x.id then x else y }

/-- A move is over. -/
def endMove (s : State) (p : Nat) (x : MdMove) : State :=
  landed (s.modCore p fun c => { c with moves := c.moves.filter fun y => y.id ≠ x.id }) p x.id

/-- The next chunk of an mdld is read where its port is free (04 R123); after the last its register is written (07 R257). -/
def loadChunk (s : State) (p : Nat) (x : MdMove) : State :=
  let a := x.addr + 64 * x.done
  let v := s.seen x.halves
  match Gate.all [tagGate s p x.tags, readGate (v.core p) a 64] with
  | .wait => s
  | .fault code detail => engineFault (endMove s p x) p code detail x.baddr x.word
  | .go => match s.claim [] (readNeed v p a 64) with
    | none => s
    | some (s, _) =>
      let x := { x with done := x.done + 1, tags := [], data := x.data ||| BitVec.ofNat 24576 (moveChunk v p a * 2 ^ (512 * x.done)),
                        halves := x.halves.fix s (named p [(a, a + 64)]) }
      let s := { s with freeIx := s.freeIx + 8 }
      if x.done < 48 then putMove s p x
      else endMove (s.modCore p fun c => { c with files := { c.files with md := c.files.md.setIfInBounds x.reg x.data } }) p x

/-- The next chunk of an mdst is written where its port is free (04 R123). -/
def storeChunk (s : State) (p : Nat) (x : MdMove) : State :=
  let a := x.addr + 64 * x.done
  let v := x.data.toNat / 2 ^ (512 * x.done) % 2 ^ 512
  let hs := x.halves.fix s (named p [(a, a + 64)])
  let ws : List Wr := [⟨spadBase p + ((s.seen x.halves).core p).shadow a, 0, 512, v, false⟩]
  match s.claim [] (writeNeed ws) with
  | none => s
  | some (s, _) =>
    let s := s.perform false ws
    let x := { x with done := x.done + 1, halves := hs }
    if x.done < 48 then putMove s p x else endMove s p x

/-- One cycle of the moves of a direction: a chunk each, from the cycle after the issue, once the earlier accesses of the class have
performed (01 R34). -/
def moveCycle (load : Bool) (s : State) (p : Nat) : State :=
  (s.core p).moves.foldl (fun s x =>
    let c := s.core p
    let range := [(spadBase p + x.addr, spadBase p + x.addr + 3072)]
    if x.load != load || decide (c.run.t < x.issued + 1 + x.done) ||
      c.blocked p x.id x.oc .metadata (if load then range else []) (if load then [] else range) then s
    else if load then loadChunk s p x else storeChunk s p x) s

/-- MDLD_WRITE (07 R257): mdld moves its chunks and writes its register after the last. -/
def execMdldWrite (p : Nat) (s : State) : Host.Outcome State Fault Refusal := .next (moveCycle true s p)

/-- MDST_COMPLETE (07 R257, 08 R268): mdst writes its chunks, and its last one releases what waits for it. -/
def execMdstComplete (p : Nat) (s : State) : Host.Outcome State Fault Refusal := .next (moveCycle false s p)

/-! ### Scalar operations (07 R265) -/

/-- A result for an m-register. -/
def writeM (d : BitVec 5) (v : Word) (s : State) : Res := .ok (s.modOwn (·.land 4 1 (.m (d.truncate 4)) v))

/-- mli. -/
def bodyMli (d : BitVec 5) (i : BitVec 16) (s : State) : Res := writeM d (i.signExtend 64) s
/-- mliu. -/
def bodyMliu (d : BitVec 5) (i : BitVec 16) (s : State) : Res := writeM d (s.own.m (d.truncate 4) <<< 16 ||| i.zeroExtend 64) s

/-- The operations of madd. -/
def maddOp (f : Nat) (a b : Word) : Word :=
  match f with
  | 0 => a + b
  | 1 => a - b
  | 2 => a &&& b
  | 3 => a ||| b
  | 4 => a ^^^ b
  | 5 => a <<< (b.toNat % 64)
  | _ => a >>> (b.toNat % 64)

/-- madd. -/
def bodyMadd (d a b : BitVec 5) (f : BitVec 6) (s : State) : Res :=
  writeM d (maddOp f.toNat (s.own.m (a.truncate 4)) (s.own.m (b.truncate 4))) s
/-- maddi. -/
def bodyMaddi (d a : BitVec 5) (i : BitVec 11) (s : State) : Res := writeM d (s.own.m (a.truncate 4) + i.signExtend 64) s

/-! ### The instructions of this file at issue -/

/-- MLEASE issued by itself (R228). -/
def execMlease (g : BitVec 4) (n : BitVec 8) (s : State) : Host.Outcome State Fault Refusal :=
  finish s (queueLimit (issue (.mlease g n) g (bodyMlease n) s))
/-- MFREE issued by itself (R229). -/
def execMfree (g : BitVec 4) (s : State) : Host.Outcome State Fault Refusal :=
  finish s (queueLimit (issue (.mfree g) g (bodyMfree) s))
/-- MCFG issued by itself (R232). -/
def execMcfg (g : BitVec 4) (d : BitVec 4) (r : BitVec 2) (t : BitVec 3) (s : State) : Host.Outcome State Fault Refusal :=
  finish s (queueLimit (issue (.mcfg g d r t) g (bodyMcfg d r t) s))
/-- MCFG_LD issued by itself (R232). -/
def execMcfgLd (g : BitVec 4) (d : BitVec 4) (h : BitVec 4) (c : BitVec 4) (r : BitVec 2) (t : BitVec 3) (s : State) : Host.Outcome State Fault Refusal :=
  finish s (queueLimit (issue (.mcfgLd g d h c r t) g (bodyMcfgLd d h c r t) s))
/-- MCFG_ADD issued by itself (R233). -/
def execMcfgAdd (g : BitVec 4) (d : BitVec 4) (h : BitVec 4) (c : BitVec 4) (r : BitVec 2) (t : BitVec 3) (s : State) : Host.Outcome State Fault Refusal :=
  finish s (queueLimit (issue (.mcfgAdd g d h c r t) g (bodyMcfgAdd d h c r t) s))
/-- MGATH issued by itself (R238). -/
def execMgath (g : BitVec 4) (x : BitVec 1) (v : BitVec 4) (r : BitVec 4) (c : BitVec 4) (s : State) : Host.Outcome State Fault Refusal :=
  finish s (queueLimit (issue (.mgath g x v r c) g (bodyMgath x v r c) s))
/-- MLATB issued by itself (R240). -/
def execMlatb (g : BitVec 4) (y : BitVec 1) (b : BitVec 4) (c : BitVec 4) (s : State) : Host.Outcome State Fault Refusal :=
  finish s (queueLimit (issue (.mlatb g y b c) g (bodyMlatb y b c) s))
/-- MMA issued by itself (R242). -/
def execMma (g : BitVec 4) (d : BitVec 4) (m : BitVec 4) (k : BitVec 4) (y : BitVec 1) (x : BitVec 1) (s : State) : Host.Outcome State Fault Refusal :=
  finish s (queueLimit (issue (.mma g d m k y x) g (bodyMma d m k y x) s))
/-- MMAS issued by itself (R256). -/
def execMmas (g : BitVec 4) (d : BitVec 4) (m : BitVec 4) (k : BitVec 4) (j : BitVec 2) (x : BitVec 1) (s : State) : Host.Outcome State Fault Refusal :=
  finish s (queueLimit (issue (.mmas g d m k j x) g (bodyMmas d m k j x) s))
/-- MST issued by itself (R251). -/
def execMst (g : BitVec 4) (t : BitVec 4) (h : BitVec 4) (m : BitVec 4) (c : BitVec 4) (s : State) : Host.Outcome State Fault Refusal :=
  finish s (queueLimit (issue (.mst g t h m c) g (bodyMst t h m c) s))
/-- MST_RAW issued by itself (R252). -/
def execMstRaw (g : BitVec 4) (t : BitVec 4) (h : BitVec 4) (m : BitVec 4) (c : BitVec 4) (s : State) : Host.Outcome State Fault Refusal :=
  finish s (queueLimit (issue (.mstRaw g t h m c) g (bodyMstRaw t h m c) s))
/-- MST_ST issued by itself (R253). -/
def execMstSt (g : BitVec 4) (t : BitVec 4) (h : BitVec 4) (s : State) : Host.Outcome State Fault Refusal :=
  finish s (queueLimit (issue (.mstSt g t h) g (bodyMstSt t h) s))
/-- MCOMP issued by itself (R255). -/
def execMcomp (g : BitVec 4) (d : BitVec 4) (r : BitVec 4) (k : BitVec 2) (c : BitVec 4) (s : State) : Host.Outcome State Fault Refusal :=
  finish s (queueLimit (issue (.mcomp g d r k c) g (bodyMcomp d r k c) s))
/-- MTILE issued by itself (R258). -/
def execMtile (g : BitVec 4) (d : BitVec 4) (x : BitVec 4) (p : BitVec 4) (c : BitVec 4) (z : BitVec 1) (r : BitVec 1) (s : State) : Host.Outcome State Fault Refusal :=
  finish s (queueLimit (issue (.mtile g d x p c z r) g (bodyMtile d x p c z r) s))
/-- MWALK issued by itself (R259). -/
def execMwalk (g : BitVec 4) (d : BitVec 4) (x : BitVec 4) (p : BitVec 4) (c : BitVec 4) (s : State) : Host.Outcome State Fault Refusal :=
  finish s (queueLimit (issue (.mwalk g d x p c) g (bodyMwalk d x p c) s))
/-- MDLD issued by itself (R257). -/
def execMdld (g : BitVec 4) (k : BitVec 2) (a : BitVec 4) (c : BitVec 4) (s : State) : Host.Outcome State Fault Refusal :=
  finish s (queueLimit (issue (.mdld g k a c) g (bodyMdld k a c) s))
/-- MDST issued by itself (R257). -/
def execMdst (g : BitVec 4) (k : BitVec 2) (a : BitVec 4) (c : BitVec 4) (s : State) : Host.Outcome State Fault Refusal :=
  finish s (queueLimit (issue (.mdst g k a c) g (bodyMdst k a c) s))
/-- MLI issued by itself (R265). -/
def execMli (g : BitVec 4) (d : BitVec 5) (v : BitVec 16) (s : State) : Host.Outcome State Fault Refusal :=
  finish s (queueLimit (issue (.mli g d v) g (bodyMli d v) s))
/-- MLIU issued by itself (R265). -/
def execMliu (g : BitVec 4) (d : BitVec 5) (v : BitVec 16) (s : State) : Host.Outcome State Fault Refusal :=
  finish s (queueLimit (issue (.mliu g d v) g (bodyMliu d v) s))
/-- MADD issued by itself (R265). -/
def execMadd (g : BitVec 4) (d : BitVec 5) (a : BitVec 5) (b : BitVec 5) (f : BitVec 6) (s : State) : Host.Outcome State Fault Refusal :=
  finish s (queueLimit (issue (.madd g d a b f) g (bodyMadd d a b f) s))
/-- MADDI issued by itself (R265). -/
def execMaddi (g : BitVec 4) (d : BitVec 5) (a : BitVec 5) (v : BitVec 11) (s : State) : Host.Outcome State Fault Refusal :=
  finish s (queueLimit (issue (.maddi g d a v) g (bodyMaddi d a v) s))

end Sys2Proof.Machine
end

