-- ==== Sys2Proof/Machine/SeqEngine.lean ====
section
/-! DEFINITION. The sequence engine: records and trees, grammar and stop-set images, the sequence commands and sampling (11 R328 to
R352). -/

namespace Sys2Proof.Machine

/-! ### The grammar store (11 R331) -/

/-- The bytes of a die's grammar store. -/
def storeSize : Nat := 0x1800000

/-- n bytes of a die's grammar store; a poisoned word's bytes are free (DESIGN CHOICE, log 3). -/
def readStore (s : State) (d o n : Nat) : Nat :=
  let pa := dieBase d + o
  if s.anyPoison pa n then (List.range n).foldl (fun z i =>
      z + (if s.poisoned (pa + i) then (Config.freeWord (s.freeIx + i)).toNat % 256 else s.read (pa + i) 1) * 2 ^ (8 * i)) 0
  else s.read pa n

/-- GRAMMAR_STORE_WRITE: a helm's or the host's write of a word of the store (11 R331). -/
def execGrammarStoreWrite (d a w : Nat) (s : State) : Host.Outcome State Fault Refusal :=
  .next (if a % 8 = 0 ∧ a < storeSize then s.write false (dieBase d + a) w 8 else s)

/-! ### Images (11 R332 to R336) -/

/-- A grammar image's header. -/
structure Grammar where
  at_ : Nat
  nstate : Nat
  ntok : Nat
  nedge : Nat
  nmask : Nat
  ndep : Nat
  start : Nat
  eos : Nat
  nsym : Nat
  stt : Nat
  edgt : Nat
  mskt : Nat
  dept : Nat
  voct : Nat
  vocb : Nat

/-- The fields of a grammar image's header as they stand (11 R332). -/
def grammarFields (s : State) (d o : Nat) : Grammar :=
  let f := bitsOf (readStore s d o 64)
  ⟨o, f 95 64, f 127 96, f 159 128, f 191 160, f 223 192, f 243 224, f 287 256, f 319 288, f 351 320, f 383 352, f 415 384, f 447 416,
    f 479 448, f 511 480⟩

/-- A grammar image's header where it keeps R331 and R332. -/
def grammarAt (s : State) (d o : Nat) : Option Grammar :=
  let f := bitsOf (readStore s d o 64)
  let offs := [f 351 320, f 383 352, f 415 384, f 447 416, f 479 448, f 511 480]
  if o % 64 ≠ 0 ∨ storeSize < o + 64 ∨ f 31 0 ≠ 0x31434748 ∨ f 47 32 ≠ 1 ∨ f 63 48 ≠ 0 ∨ f 255 244 ≠ 0 ∨ f 95 64 = 0 ∨ 2 ^ 20 < f 95 64
      ∨ f 127 96 = 0 ∨ 2 ^ 20 < f 127 96 ∨ f 319 288 = 0 ∨ 4095 < f 319 288 ∨ offs.any (fun x => x % 64 ≠ 0 ∨ storeSize ≤ o + x) then none
  else some (grammarFields s d o)

/-- Entry i of a table of n entries of w bytes, where it is inside its table and the store. -/
def Grammar.entry (g : Grammar) (s : State) (d off n w i : Nat) : Option Nat :=
  if n ≤ i ∨ storeSize < g.at_ + off + w * (i + 1) then none else some (readStore s d (g.at_ + off + w * i) w)

/-- A state entry without reserved bits. -/
def Grammar.state (g : Grammar) (s : State) (d q : Nat) : Option Nat :=
  (g.entry s d g.stt g.nstate 16 q).bind fun e => if bitsOf e 63 49 = 0 then some e else none

/-- An edge that keeps R335. -/
def Grammar.edge (g : Grammar) (s : State) (d i : Nat) : Option Nat :=
  (g.entry s d g.edgt g.nedge 8 i).bind fun e =>
    let act := bitsOf e 17 16
    let sym := bitsOf e 29 18
    if bitsOf e 63 52 ≠ 0 ∨ bitsOf e 31 30 ≠ 0 ∨ act = 3 ∨ g.nstate ≤ bitsOf e 51 32 ∨ (act ≠ 0 ∧ (sym = 0 ∨ g.nsym < sym)) ∨ (act = 0 ∧ sym ≠ 0) then none
    else some e

/-- A token entry that keeps R334, with its text inside the store (R331): whether it is SPECIAL, STRIP, and its bytes. -/
def Grammar.token (g : Grammar) (s : State) (d t : Nat) : Option (Bool × Bool × List Nat) :=
  (g.entry s d g.voct g.ntok 8 t).bind fun e =>
    let len := bitsOf e 30 24
    let o := g.at_ + g.vocb + bitsOf e 23 0
    if bitsOf e 63 34 ≠ 0 ∨ bitsOf e 31 31 ≠ 0 ∨ 64 < len ∨ (bitsOf e 33 33 = 1 ∧ len ≠ 0) ∨ storeSize < o + len then none
    else some (bitsOf e 33 33 = 1, bitsOf e 32 32 = 1, (List.range len).map fun i => readStore s d (o + i) 1)

/-- Whether a token cannot be consumed whatever the state (11 R344, status TOKEN): at or above NTOK, or a SPECIAL token other than EOSTOK. -/
def Grammar.badToken (g : Grammar) (s : State) (d t : Nat) : Bool :=
  decide (g.ntok ≤ t) || (bitsOf (readStore s d (g.at_ + g.voct + 8 * t) 8) 33 33 == 1 && decide (t ≠ g.eos))

/-- The detokenized text of a token: a leading space goes while DSTATE is 1 and STRIP is set (11 R337). -/
def detok (x : Bool × Bool × List Nat) (dstate : Bool) : List Nat :=
  match x.2.2 with
  | 0x20 :: rest => if dstate && x.2.1 then rest else x.2.2
  | l => l

/-- A stop set's state number n: NST, where the header keeps R336. -/
def stopSetAt (s : State) (d o : Nat) : Option Nat :=
  let f := bitsOf (readStore s d o 64)
  if o % 64 ≠ 0 ∨ storeSize < o + 64 ∨ f 31 0 ≠ 0x31534748 ∨ f 47 32 ≠ 1 ∨ f 79 64 = 0 ∨ 4096 < f 79 64 ∨ f 511 80 ≠ 0 then none else some (f 79 64)

/-- One byte through the scanner: the next state with its DEPTH and MLEN; none where the image breaks R336. -/
def scanByte (s : State) (d : Nat) (o nst : Nat) (q b : Nat) : Option (Nat × Nat × Nat) :=
  let at_ (i : Nat) := o + 64 + 576 * i
  if nst ≤ q ∨ storeSize < at_ (q + 1) then none
  else
    let q' := readStore s d (at_ q + 64 + 2 * b) 2
    if nst ≤ q' ∨ storeSize < at_ (q' + 1) ∨ readStore s d (at_ q' + 2) 62 ≠ 0 then none
    else some (q', readStore s d (at_ q') 1, readStore s d (at_ q' + 1) 1)

/-! ### The walk (11 R335, R337) -/

/-- Where a walk stands: the snapshot, its pool entries and the next number, and for a match the bytes consumed and its length. -/
structure Walk where
  q : Nat
  sp : Nat
  scan : Nat
  held : Nat
  pool : List (Nat × Nat × Nat)
  fresh : Nat
  stop : Option (Nat × Nat) := none

/-- What a walk answers. -/
inductive Walked where
  | ok (w : Walk)
  | refused
  | image

/-- The symbol and the entry below of a stack entry. -/
def poolEntry (pool : List (Nat × Nat × Nat)) (sp : Nat) : Option (Nat × Nat) := (pool.find? (·.1 = sp)).map (·.2)

/-- The first edge of a state that a byte takes, trying n edges from i: none where an entry breaks the image, some none where no edge fits. -/
def findEdge (s : State) (d : Nat) (g : Grammar) (pool : List (Nat × Nat × Nat)) (sp b : Nat) : Nat → Nat → Option (Option Nat)
  | 0, _ => some none
  | n + 1, i =>
    match g.edge s d i with
    | none => none
    | some e =>
      let fits := bitsOf e 7 0 ≤ b ∧ b ≤ bitsOf e 15 8 ∧
        (bitsOf e 17 16 ≠ 2 ∨ (poolEntry pool sp).map (·.1) = some (bitsOf e 29 18))
      if fits then some (some e) else findEdge s d g pool sp b n (i + 1)

/-- The walk and the scan of a text, byte by byte; the bytes after a match are neither walked nor scanned. -/
def walkText (s : State) (d : Nat) (g : Grammar) (stops : Option (Nat × Nat)) : List Nat → Nat → Walk → Walked
  | [], _, w => .ok w
  | b :: rest, n, w =>
    match g.state s d w.q with
    | none => .image
    | some e =>
      match findEdge s d g w.pool w.sp b (bitsOf e 47 32) (bitsOf e 31 0) with
      | none => .image
      | some none => .refused
      | some (some x) =>
        let w := { w with q := bitsOf x 51 32 }
        let w := match bitsOf x 17 16 with
          | 1 => { w with sp := w.fresh, pool := w.pool ++ [(w.fresh, bitsOf x 29 18, w.sp)], fresh := w.fresh + 1 }
          | 2 => { w with sp := ((poolEntry w.pool w.sp).map (·.2)).getD 0 }
          | _ => w
        match stops with
        | none => walkText s d g stops rest (n + 1) w
        | some (o, nst) =>
          match scanByte s d o nst w.scan b with
          | none => .image
          | some (q, depth, mlen) =>
            let w := { w with scan := q, held := depth }
            if mlen ≠ 0 then .ok { w with stop := some (n + 1, mlen) } else walkText s d g stops rest (n + 1) w

/-- A token consumed from a snapshot. -/
def walkToken (s : State) (d : Nat) (g : Grammar) (stops : Option (Nat × Nat)) (t : Nat) (x : Bool × Bool × List Nat) (dstate : Bool) (w : Walk) :
    Walked :=
  if x.1 then
    match g.state s d w.q with
    | none => .image
    | some e => if t = g.eos ∧ bitsOf e 48 48 = 1 ∧ w.sp = 0 then .ok w else .refused
  else walkText s d g stops (detok x dstate) 0 w

/-! ### The tree (11 R329, R330) -/

/-- A node of a record. -/
def SeqRec.node (r : SeqRec) (n : Nat) : SeqNode := r.nodes.getD n {}

/-- A node replaced. -/
def SeqRec.setNode (r : SeqRec) (n : Nat) (x : SeqNode) : SeqRec := { r with nodes := setAt r.nodes n x }

/-- The path from below the root to a node, as node numbers. -/
def SeqRec.path (r : SeqRec) : Nat → Nat → List Nat
  | 0, _ => []
  | fuel + 1, n => if n = 0 then [] else r.path fuel (r.node n).parent ++ [n]

/-- The path to a node of a tree of at most 64. -/
def SeqRec.pathTo (r : SeqRec) (n : Nat) : List Nat := r.path 64 n

/-- Whether a node is another's proper descendant. -/
def SeqRec.below (r : SeqRec) (m n : Nat) : Bool := decide ((r.node m).st ≠ 0 ∧ m ≠ n) && (n == 0 || (r.pathTo m).contains n)

/-- Nodes freed. -/
def SeqRec.freeNodes (r : SeqRec) (p : Nat → Bool) : SeqRec :=
  { r with nodes := (List.range 64).map fun i => if p i then {} else r.node i }

/-- The entries that an entry and those below it make up. -/
def chain (pool : List (Nat × Nat × Nat)) : Nat → Nat → List Nat
  | 0, _ => []
  | fuel + 1, sp => match poolEntry pool sp with
    | some (_, below) => sp :: chain pool fuel below
    | none => []

/-- The pool entries that no snapshot reaches are released; those that are left are USED (11 R338). -/
def SeqRec.prune (r : SeqRec) : SeqRec :=
  let live := ((List.range 64).filter fun i => i = 0 ∨ (r.node i).st ≠ 0).flatMap fun i => chain r.pool (r.pool.length + 1) (r.node i).sp
  { r with pool := r.pool.filter fun e => live.contains e.1 }

/-- The texts of a path's tokens, with DSTATE as it stands at each; none where an entry breaks the image. A STOP node's text is cut before
its match by the bytes of the match that are its own; the rest of the match is cut by the caller. -/
def pathTexts (s : State) (d : Nat) (g : Grammar) (r : SeqRec) : List Nat → Bool → Option (List Nat × Bool)
  | [], ds => some ([], ds)
  | n :: rest, ds =>
    match g.token s d (r.node n).token with
    | none => none
    | some x =>
      let text := detok x ds
      let text := if (r.node n).stop then text.take (r.node n).upto else text
      (pathTexts s d g r rest (ds && x.2.2.isEmpty)).map fun y => (text ++ y.1, y.2)

/-- DSTATE after a node (11 R330). -/
def dstateAt (s : State) (d : Nat) (g : Grammar) (r : SeqRec) (n : Nat) : Bool :=
  r.dstate && (r.pathTo n).all fun i => match g.token s d (r.node i).token with | some x => x.2.2.isEmpty | none => true

/-- The state of a walk at a node. -/
def SeqRec.walkAt (r : SeqRec) (n : Nat) : Walk :=
  { q := (r.node n).q, sp := (r.node n).sp, scan := (r.node n).scan, held := (r.node n).held, pool := r.pool, fresh := r.fresh }

/-! ### What a command answers (11 R340) -/

/-- A command's outcome: its status; on success the other RESULT bits, the record's new state (none: closed or none), and its writes
as address, bytes and value. -/
structure SqOut where
  status : Nat
  result : Nat := 0
  rec_ : Option (Option SeqRec) := none
  ws : List (Nat × Nat × Nat) := []

/-- A refusal: STATUS alone. -/
def SqOut.no (n : Nat) : SqOut := { status := n }

/-- The RESULT bits FIN, EOS, STOPSTR and NODE. -/
def nodeResult (r : SeqRec) (x : SeqNode) (n : Nat) : Nat :=
  (if r.fin then 2 ^ 54 else 0) + (if x.eos then 2 ^ 53 else 0) + (if x.stop then 2 ^ 52 else 0) + n * 2 ^ 8

/-- FIN alone. -/
def finResult (r : SeqRec) : Nat := if r.fin then 2 ^ 54 else 0

/-- A command as the engine sees it: the machine as its core has it, its die, the words of its block, the core's record. -/
structure SqView where
  s : State
  d : Nat
  cmd : SqCmd
  arg : Nat → Nat
  n : Nat
  c : Core

/-- Bytes [a, a + n) lie where the arguments of a command may lie. -/
def SqView.ok (v : SqView) (a n : Nat) : Bool := n == 0 || v.c.hullOk a (a + n : Nat)

/-- The images of a record: its grammar, and its stop set if it has one; none where a header is broken. -/
def SqView.images (v : SqView) (r : SeqRec) : Option (Grammar × Option (Nat × Nat)) :=
  (grammarAt v.s v.d r.gofs).bind fun g => match r.sofs with
    | none => some (g, none)
    | some o => (stopSetAt v.s v.d o).map fun n => (g, some (o, n))

/-! ### open, fork, feed (11 R343, R344) -/

/-- The entries of the stack pool that the open records of a die reserve. -/
def Die.reserved (r : Die) : Nat := r.records.foldl (fun n x => n + x.2.quota) 0

/-- The argument words of sq.open. -/
def SqView.openArgs (v : SqView) : Bool :=
  let a0 := v.arg 0
  let quota := bitsOf (v.arg 2) 53 32
  let stops := bitsOf a0 63 32
  bitsOf a0 31 25 == 0 && bitsOf a0 5 0 == 0 && (stops == 0xFFFFFFFF || (bitsOf a0 63 57 == 0 && stops % 64 == 0)) &&
    bitsOf (v.arg 2) 63 54 == 0 && decide (1 ≤ quota ∧ quota ≤ 4194303) && v.arg 3 == 0

/-- sq.open (11 R343). -/
def SqView.open_ (v : SqView) : SqOut :=
  let a0 := v.arg 0
  let sofs := if bitsOf a0 63 32 = 0xFFFFFFFF then none else some (bitsOf a0 56 32)
  let quota := bitsOf (v.arg 2) 53 32
  let r : SeqRec :=
    { sailing := v.cmd.sailing, lid := v.cmd.lid, gofs := bitsOf a0 24 0, sofs := sofs, seqid := bitsOf (v.arg 1) 31 0, cgpos := bitsOf (v.arg 1) 63 32,
      step := bitsOf (v.arg 2) 31 0, quota := quota }
  match v.images r with
  | none => .no 9
  | some (g, _) =>
    if g.nstate ≤ g.start ∨ (g.ntok ≤ g.eos ∧ g.eos ≠ 0xFFFFFFFF) then .no 9
    else if 4194303 < (v.s.die v.d).reserved + quota then .no 8
    else { status := 0, rec_ := some (some (r.setNode 0 { st := 2, q := g.start })) }

/-- sq.fork and sq.feed: a new child of node N; FINISHED, TOKEN and FULL come before what the walk finds, then POOL (11 R340, R344). -/
def SqView.child (v : SqView) (r : SeqRec) (accept : Bool) : SqOut :=
  let t := v.arg 0
  let p := r.node v.n
  if r.fin ∨ p.stop ∨ p.eos then .no 6
  else if (grammarFields v.s v.d r.gofs).badToken v.s v.d t then .no 5
  else match (List.range 64).find? fun i => (r.node i).st = 0 with
  | none => .no 7
  | some c =>
    match v.images r with
    | none => .no 9
    | some (g, stops) =>
      match g.token v.s v.d t with
      | none => .no 9
      | some x =>
        match walkToken v.s v.d g stops t x (dstateAt v.s v.d g r v.n) (r.walkAt v.n) with
        | .image => .no 9
        | .refused => .no 4
        | .ok w =>
          let node : SeqNode :=
            { st := if accept then 2 else 1, parent := v.n, token := t, depth := p.depth + 1, q := w.q, sp := w.sp, scan := w.scan, held := w.held,
              stop := w.stop.isSome, eos := t == g.eos, upto := (w.stop.map (·.1)).getD 0, mlen := (w.stop.map (·.2)).getD 0 }
          let r' := ({ r with pool := w.pool, fresh := w.fresh, tip := if accept then c else r.tip }.setNode c node).prune
          if r.quota < r'.pool.length then .no 8
          else { status := 0, result := nodeResult r' node c, rec_ := some (some r') }

/-- sq.feed.acc: N and its draft ancestors become accepted. -/
def SqView.accept (v : SqView) (r : SeqRec) : SqOut :=
  let path := r.pathTo v.n
  let r' := { r with nodes := (List.range 64).map fun i => if path.contains i then { r.node i with st := 2 } else r.node i, tip := v.n }
  { status := 0, result := nodeResult r' (r.node v.n) v.n, rec_ := some (some r') }

/-! ### mask, roll, free (11 R345 to R347) -/

/-- The dependent list from entry i: its tokens; none where it breaks the image. -/
def depList (s : State) (d : Nat) (g : Grammar) : Nat → Nat → Option (List Nat)
  | 0, _ => none
  | fuel + 1, i =>
    match g.entry s d g.dept g.ndep 4 i with
    | none => none
    | some e =>
      let t := bitsOf e 20 0
      if bitsOf e 30 21 ≠ 0 ∨ g.ntok ≤ t then none
      else if bitsOf e 31 31 = 1 then some [t]
      else (depList s d g fuel (i + 1)).map (t :: ·)

/-- The dependent tokens that their walks allow; none where a walk breaks the image. -/
def allowed (s : State) (d : Nat) (g : Grammar) (stops : Option (Nat × Nat)) (ds : Bool) (w : Walk) : List Nat → Option (List Nat)
  | [] => some []
  | t :: rest =>
    match g.token s d t with
    | none => none
    | some x => match walkToken s d g stops t x ds w, allowed s d g stops ds w rest with
      | .image, _ | _, none => none
      | .ok _, some l => some (t :: l)
      | .refused, some l => some l

/-- The state mask of a state's entry as a number; none where it breaks the image. -/
def Grammar.stateMask (g : Grammar) (s : State) (d e : Nat) : Option Nat :=
  let i := bitsOf e 95 64
  let n := (g.ntok + 7) / 8
  let o := g.at_ + g.mskt + i * 64 * ((g.ntok + 511) / 512)
  if i = 0xFFFFFFFF then some 0 else if g.nmask ≤ i ∨ storeSize < o + n then none else some (readStore s d o n)

/-- The bits of a list of tokens. -/
def tokenBits (l : List Nat) : Nat := l.foldl (fun z t => if z / 2 ^ t % 2 = 1 then z else z + 2 ^ t) 0

/-- The mask of a node. -/
def SqView.maskOf (v : SqView) (r : SeqRec) (g : Grammar) (stops : Option (Nat × Nat)) : Option Nat :=
  let x := r.node v.n
  if r.fin ∨ x.stop ∨ x.eos then some 0
  else (g.state v.s v.d x.q).bind fun e =>
    let dep := bitsOf e 127 96
    match g.stateMask v.s v.d e, (if dep = 0xFFFFFFFF then some [] else depList v.s v.d g (g.ndep + 1) dep) with
    | some m, some ts => (allowed v.s v.d g stops (dstateAt v.s v.d g r v.n) (r.walkAt v.n) ts).map fun l =>
        Nat.lor (m % 2 ^ g.ntok) (tokenBits l)
    | _, _ => none

/-- sq.mask (11 R345). -/
def SqView.mask (v : SqView) (r : SeqRec) : SqOut :=
  match v.images r with
  | none => .no 9
  | some (g, stops) => match v.maskOf r g stops with
    | none => .no 9
    | some m =>
      let n := (g.ntok + 7) / 8
      { status := 0, result := finResult r + Nat.min n 0xFFFF * 2 ^ 16, ws := [(v.arg 0, n, m)] }

/-- sq.roll (11 R346). -/
def SqView.roll (v : SqView) (r : SeqRec) : SqOut :=
  { status := 0, result := finResult r, rec_ := some (some ({ r.freeNodes (fun i => r.below i v.n) with tip := v.n }).prune) }

/-- sq.free of a node (11 R347). -/
def SqView.freeNode (v : SqView) (r : SeqRec) : SqOut :=
  { status := 0, result := finResult r, rec_ := some (some (r.freeNodes (fun i => i == v.n || r.below i v.n)).prune) }

/-! ### commit (11 R348, R349) -/

/-- The argument words of sq.commit. -/
def SqView.commitArgs (v : SqView) : Bool :=
  let a0 := v.arg 0
  let a1 := v.arg 1
  bitsOf a0 31 23 == 0 && bitsOf a0 63 48 == 0 && bitsOf a1 31 23 == 0 && bitsOf a1 37 36 == 0 && bitsOf a1 63 40 == 0 &&
    bitsOf a1 4 0 == 0 && v.arg 2 == 0 && v.arg 3 == 0 && v.ok (bitsOf a0 22 0) (bitsOf a0 47 32) && v.ok (bitsOf a1 22 0) 32

/-- Bytes as a little-endian number. -/
def bytesNat (l : List Nat) : Nat := l.foldr (fun b z => b % 256 + 256 * z) 0

/-- The trim block (11 R349). -/
def trimBlock (a rel step held : Nat) (fin eos stop : Bool) (tskb lmask : Nat) : Nat :=
  let b (x : Bool) (i : Nat) : Nat := if x then 2 ^ i else 0
  let skb := b fin 1 + b eos 2 + b stop 3 + b (a == 0) 4 + b (held != 0) 5 + tskb * 64
  a + rel * 2 ^ 32 + step * 2 ^ 64 + held * 2 ^ 96 + skb * 2 ^ 128 + lmask * 2 ^ 136

/-- sq.commit (11 R348). -/
def SqView.commit (v : SqView) (r : SeqRec) : SqOut :=
  let path := r.pathTo r.tip
  let tip := r.node r.tip
  match grammarAt v.s v.d r.gofs with
  | none => .no 9
  | some g => match pathTexts v.s v.d g r path r.dstate with
    | none => .no 9
    | some (texts, ds) =>
      let all := r.hbuf ++ texts
      let stop := path.any fun i => (r.node i).stop
      let eos := path.any fun i => (r.node i).eos
      let rel := if stop then all.take (all.length - tip.mlen) else if tip.eos then all else all.take (all.length - tip.held)
      let keep := if stop ∨ tip.eos then [] else all.drop (all.length - tip.held)
      let (rel, keep) := if path.isEmpty then ([], r.hbuf) else (rel, keep)
      if bitsOf (v.arg 0) 47 32 < rel.length then .no 12
      else
        let a := path.length
        let root := { st := 2, q := tip.q, sp := tip.sp, scan := tip.scan, held := keep.length }
        let r' := if path.isEmpty then r else
          ({ (r.freeNodes (· ≠ 0)).setNode 0 root with
            hbuf := keep, dstate := ds, fin := r.fin || stop || tip.eos, tip := 0, step := (r.step + a) % 2 ^ 32 }).prune
        let trim := trimBlock a rel.length r'.step r'.hbuf.length r'.fin eos stop (bitsOf (v.arg 1) 39 38) (bitsOf (v.arg 1) 35 32)
        { status := 0
          result := a * 2 ^ 56 + finResult r' + (if eos then 2 ^ 53 else 0) + (if stop then 2 ^ 52 else 0) + rel.length % 2 ^ 16 * 2 ^ 16
          rec_ := some (some r')
          ws := [(bitsOf (v.arg 0) 22 0, rel.length, bytesNat rel), (bitsOf (v.arg 1) 22 0, 32, trim)] }

/-! ### Sampling (11 R350 to R352) -/

/-- Output word 0 of a draw (11 R350). -/
def drawWord (seed : Word) (r : SeqRec) (n c0 : Nat) : Nat :=
  (philox 10 (bitsOf seed.toNat 31 0, bitsOf seed.toNat 63 32) (c0, r.seqid, (r.step + (r.node n).depth) % 2 ^ 32, r.cgpos)).1

/-- The natural logarithm of m ÷ 2^e with p fraction bits. -/
def lnRatio (p m : Nat) (e : Int) : Int :=
  let k := Nat.log2 m
  (lnFix p (m * 2 ^ p / 2 ^ k) : Int) + ((k : Int) - e) * ln2Fix p

/-- The Gumbel variate of an output word, correctly rounded to F32: where the enclosure does not decide the rounding the choice is free
(DESIGN CHOICE, log 8). -/
def gumbel (w0 : Nat) : Val :=
  let p := 256
  let l := -lnRatio p (2 * w0 + 1) 33
  let g := -lnRatio p l.toNat p
  let at_ (z : Int) : Nat := encodeCompute f32 (Val.mk (decide (z < 0)) z.natAbs (-(p : Int)))
  let lo := at_ (g - 2 ^ 128)
  let hi := at_ (g + 2 ^ 128)
  decodeFloat f32 (if lo = hi then lo else if Config.sfuUp 16 w0 then hi else lo)

/-- The key of an F32 value (11 R351). -/
def keyOf (bits : Nat) : Nat := if bits < 2 ^ 31 then bits + 2 ^ 31 else 2 ^ 32 - 1 - bits

/-- The F32 value of a key. -/
def ofKey (k : Nat) : Nat := if 2 ^ 31 ≤ k then k - 2 ^ 31 else 2 ^ 32 - 1 - k

/-- A positive finite F32. -/
def positiveF32 (b : Nat) : Bool := match decodeFloat f32 b with | .fin false _ _ => true | _ => false

/-- The width of the logits' format; none for a format that the rule does not list (11 R351). -/
def SqView.logitBits (v : SqView) (a : Nat) : Option Nat :=
  match fmtOf (fmtCode (bankWord v.cmd.cap.bfmt a)) with
  | some (.float f) => if f = f32 then some 32 else if f = f16 ∨ f = bf16 then some 16 else none
  | _ => none

/-- The argument words of sq.samp.g and sq.samp.p; the vocabulary's size, where the image's header is good. -/
def SqView.sampArgs (v : SqView) (p : Bool) (ntok : Option Nat) : Bool :=
  let a := v.arg 0
  let vb := bitsOf a 63 32
  let nl := bitsOf (v.arg 1) 31 0
  let cg := BitVec.ofNat 64 (v.arg 3)
  let w := (v.logitBits (bitsOf a 22 0)).getD 0
  let maskOk := if v.arg 2 / 2 ^ 63 = 1 then v.arg 2 % 2 ^ 63 == 0
    else bitsOf (v.arg 2) 63 23 == 0 && v.ok (v.arg 2 + vb / 8) ((vb + nl + 7) / 8 - vb / 8)
  bitsOf a 31 23 == 0 && w != 0 && decide (1 ≤ nl ∧ nl ≤ 2 ^ 20) && (match ntok with | some n => decide (vb + nl ≤ n) | none => true) &&
    (p || positiveF32 (bitsOf (v.arg 1) 63 32)) && maskOk && cg.extractLsb' 40 24 == 0 && decide ((groupFields cg).1 < 4 * v.c.ctl.qcount) &&
    8 * bitsOf a 22 0 % w == 0 && v.ok (bitsOf a 22 0) (nl * w / 8) &&
    (banksOf v.cmd.cap.bfmt (bitsOf a 22 0, bitsOf a 22 0 + nl * w / 8)).all fun x => (v.logitBits (bitsOf a 22 0)) == (match fmtOf (fmtCode x) with
      | some (.float f) => if f = f32 then some 32 else if f = f16 ∨ f = bf16 then some 16 else none
      | _ => none)

/-- The eligible tokens of a shard with their logits as F32 bits (11 R351). -/
def SqView.eligible (v : SqView) (r : SeqRec) : List (Nat × Nat) :=
  let a := bitsOf (v.arg 0) 22 0
  let vb := bitsOf (v.arg 0) 63 32
  let h := denseShape a (bitsOf (v.arg 1) 31 0)
  if r.fin then []
  else (List.range (bitsOf (v.arg 1) 31 0)).filterMap fun i =>
    let t := vb + i
    let bit := v.arg 2 / 2 ^ 63 = 1 ∨ readSpad v.s v.cmd.core (v.arg 2 + t / 8) 1 / 2 ^ (t % 8) % 2 = 1
    let x := encodeCompute f32 (readElt v.s v.cmd.core v.cmd.cap.bfmt h 0 i).val
    match decodeFloat f32 x with
    | .nan | .inf true => none
    | _ => if bit then some (t, x) else none

/-- The packet of a local command (11 R351); nothing is eligible under a status other than OK. -/
def SqView.packet (v : SqView) (p : Bool) (r : Option SeqRec) : Packet :=
  let (owner, group, round, _) := groupFields (BitVec.ofNat 64 (v.arg 3))
  let es := match r with | some r => v.eligible r | none => []
  let rt := decodeFloat f32 (bitsOf (v.arg 1) 63 32)
  let score (r : SeqRec) (x : Nat × Nat) : Nat × Nat :=
    let l := decodeFloat f32 x.2
    (keyOf (encodeCompute f32 ((l.mul rt).add (gumbel (drawWord v.cmd.cap.seed r v.n x.1)))), x.1)
  let items : List (Nat × Nat) :=
    if p then ((es.map fun x => (keyOf x.2, x.1)).mergeSort itemBefore).take 64
    else match r with
      | some r => match (es.map (score r)).mergeSort itemBefore with
        | x :: _ => [x]
        | [] => [(0, 0xFFFFFFFF)]
      | none => [(0, 0xFFFFFFFF)]
  { owner := owner, group := group, round := round, merge := p, n := 1, items := items }

/-- The argument words of sq.samp.fin. -/
def SqView.finArgs (v : SqView) : Bool :=
  let ptop := decodeFloat f32 (bitsOf (v.arg 1) 63 32)
  let good : Bool := match ptop with | .fin false _ _ | .inf false => true | _ => false
  bitsOf (v.arg 0) 63 23 == 0 && bitsOf (v.arg 0) 2 0 == 0 && v.ok (v.arg 0) 520 && positiveF32 (bitsOf (v.arg 1) 31 0) && good &&
    bitsOf (v.arg 2) 63 7 == 0 && decide (v.arg 2 ≤ 64)

/-- The running sums C_i of a list of terms (11 R352). -/
def runningSums : Val → List Val → List Val
  | _, [] => []
  | c, e :: es => let c' := roundIn 0 (c.add e); c' :: runningSums c' es

/-- At least, as values. -/
def Val.ge (a b : Val) : Bool := !a.isNan && !b.isNan && !Val.lt false a b

/-- sq.samp.fin (11 R352). Where no entry reaches the cut, as only keys of no number can bring about, the token and the count are free
(DESIGN CHOICE, log 3). -/
def SqView.fin (v : SqView) (r : SeqRec) : SqOut :=
  let words := (List.range 64).map fun j => readSpad v.s v.cmd.core (v.arg 0 + 8 * j) 8
  let es := words.filter fun x => x % 2 ^ 32 ≠ 0xFFFFFFFF
  let k := if v.arg 2 = 0 then 64 else v.arg 2
  let es := es.take k
  match es with
  | [] => .no 11
  | top :: _ =>
    let l (x : Nat) : Val := decodeFloat f32 (ofKey (x / 2 ^ 32))
    let t := decodeFloat f32 (bitsOf (v.arg 1) 31 0)
    let one : Val := .fin false 1 0
    let term (x : Nat) : Val :=
      if l top = .inf false then (if l x = .inf false then one else .zero false)
      else decodeFloat f64 (sfResult 1 true f64 (roundIn 0 (((l x).add (l top).negate).div t)))
    let cs := runningSums (.zero false) (es.map term)
    let ptop := decodeFloat f32 (bitsOf (v.arg 1) 63 32)
    let cap := if Val.ge ptop one then one else ptop
    let cut := roundIn 0 (cap.mul (cs.getLastD (.zero false)))
    match (List.range cs.length).find? fun i => Val.ge (cs.getD i .nan) cut with
    | none => { status := 0, result := finResult r + (Config.freeWord v.s.freeIx).toNat % 2 ^ 20 * 2 ^ 32 + (Config.freeWord (v.s.freeIx + 1)).toNat % 2 ^ 16 * 2 ^ 16 }
    | some j =>
      let w0 := drawWord v.cmd.cap.seed r v.n 0xFFFFFFFF
      let rsel := roundIn 0 ((Val.mk false w0 (-32)).mul (cs.getD j .nan))
      let i := ((List.range (j + 1)).find? fun i => Val.lt false rsel (cs.getD i .nan)).getD j
      { status := 0, result := finResult r + es.getD i 0 % 2 ^ 20 * 2 ^ 32 + (j + 1) * 2 ^ 16 }

/-! ### The commands (11 R339 to R342) -/

/-- The argument words from number n on are zero. -/
def SqView.restZero (v : SqView) (n : Nat) : Bool := (List.range (4 - n)).all fun i => v.arg (n + i) == 0

/-- The argument words of a command are good; a word that its rule does not list is reserved. -/
def SqView.argsOk (v : SqView) (r : Option SeqRec) : Bool :=
  let g := r.bind fun r => grammarAt v.s v.d r.gofs
  match v.cmd.op, v.cmd.variant with
  | 0x15, _ => v.openArgs
  | 0x16, 0 | 0x18, _ => bitsOf (v.arg 0) 63 20 == 0 && v.restZero 1
  | 0x17, _ => bitsOf (v.arg 0) 63 23 == 0 && v.restZero 1 && v.ok (v.arg 0) ((g.map fun g => (g.ntok + 7) / 8).getD 1)
  | 0x1A, 2 => v.finArgs && v.restZero 3
  | 0x1A, p => v.sampArgs (p == 1) (g.map (·.ntok))
  | 0x1B, _ => v.commitArgs
  | _, _ => v.restZero 0

/-- The node that a command names is one that it accepts. -/
def SqView.nodeOk (v : SqView) (r : SeqRec) : Bool :=
  let x := r.node v.n
  match v.cmd.op, v.cmd.variant with
  | 0x15, _ | 0x1B, _ | 0x1C, 1 => v.n == 0
  | 0x16, 0 => v.n == r.tip
  | 0x16, _ => x.st == 1 && r.below v.n r.tip
  | 0x19, _ => x.st == 2
  | 0x1C, _ => x.st == 1
  | _, _ => x.st != 0

/-- A command whose checks have passed takes effect. -/
def SqView.run (v : SqView) (r : SeqRec) : SqOut :=
  match v.cmd.op, v.cmd.variant with
  | 0x15, _ => v.open_
  | 0x16, 0 => v.child r true
  | 0x16, _ => v.accept r
  | 0x17, _ => v.mask r
  | 0x18, _ => v.child r false
  | 0x19, _ => v.roll r
  | 0x1A, 2 => v.fin r
  | 0x1A, _ => match v.images r with
    | none => .no 9
    | some _ => { status := 0, result := finResult r }
  | 0x1B, _ => v.commit r
  | 0x1C, 0 => v.freeNode r
  | _, _ => { status := 0, result := finResult r, rec_ := some none }

/-- Record number k, where it is open. -/
def SqView.record (v : SqView) (k : Nat) : Option SeqRec := ((v.s.die v.d).records.find? (·.1 = k)).map (·.2)

/-- The status of the checks on TARGET's record number k that come before a command's own rule, in the order of R340; 0 where they pass. -/
def SqView.checks (v : SqView) (target k : Nat) : Nat :=
  let open_ : Bool := v.cmd.op == 0x15
  let r := v.record k
  let rec0 : SeqRec := r.getD {}
  if bitsOf target 15 13 ≠ 0 ∨ bitsOf target 63 22 ≠ 0 then 10
  else if 8191 < k ∨ r.isSome = open_ then 1
  else if ¬ open_ ∧ (rec0.sailing ≠ v.cmd.sailing ∨ rec0.lid ≠ v.cmd.lid) then 2
  else if ¬ v.argsOk r then 10
  else if ¬ v.nodeOk rec0 then 3
  else 0

/-- The outcome of a command on record number k: a refusal reports FIN of the record as it is (11 R340). -/
def SqView.outcome (v : SqView) (target k : Nat) : SqOut :=
  let r := v.record k
  let o := match v.checks target k with
    | 0 => v.run (r.getD {})
    | n => .no n
  if o.status = 0 then o else { o with result := (r.map finResult).getD 0 }

/-- The ranges that a command reads and writes, by its block as it stands (11 R341): the block, and the buffers of its arguments. -/
def sqRanges (s : State) (p op variant a : Nat) (bf : Vector Word 8) : List (Nat × Nat) × List (Nat × Nat) :=
  let arg (i : Nat) : Nat := readSpad s p (a + 32 + 8 * i) 8
  let block := (a, a + 64)
  let span (x n : Nat) : Nat × Nat := (x % 2 ^ 23, Nat.min (x % 2 ^ 23 + n) 0x800000)
  match op with
  | 0x17 => ([block], [(a, a + 16), span (arg 0) 131072])
  | 0x1A =>
    if variant = 2 then ([block, span (arg 0) 520], [(a, a + 16)])
    else
      let nl := Nat.min (bitsOf (arg 1) 31 0) (2 ^ 20)
      let w := (codeBits (fmtCode (bankWord bf (arg 0 % 2 ^ 23)))).getD 32
      ([block, span (arg 0) (nl * w / 8)] ++ (if arg 2 / 2 ^ 63 = 1 then [] else [span (arg 2 + bitsOf (arg 0) 63 32 / 8) (nl / 8 + 2)]), [(a, a + 16)])
  | 0x1B => ([block], [(a, a + 16), span (arg 0) (bitsOf (arg 0) 47 32), span (arg 1) 32])
  | _ => ([block], [(a, a + 16)])

/-- The sequence commands of a core whose DONE has not performed (11 R342). -/
def sqOutstanding (s : State) (p : Nat) : Nat :=
  ((s.die (dieOf p)).sq.filter fun x => x.core = p ∧ x.sailing = (s.core p).run.sailing).length

/-- A sequence operation at issue (11 R339, R342). -/
def sqIssue (op variant : Nat) (b : BitVec 5) (oc : BitVec 4) (s : State) : Res :=
  let v := srcC b s
  let a := v.toNat
  let p := s.me
  let c := s.own
  if a % 64 ≠ 0 ∨ 0x800000 ≤ a ∨ c.pmap.toList.any (fun e => e.v && overlaps (64 * e.base, 64 * (e.base + e.len)) a (a + 64)) then
    .fault 0x02 7
  else if let some (code, detail) := s.blockFault a 64 then .fault code detail
  else if 8 ≤ sqOutstanding s p then .stall 18
  else
    let (reads, writes) := sqRanges s p op variant a c.ctl.bfmt
    let (id, s) := launch s p .sequence oc.toNat (named p reads) (named p writes)
    let x : SqCmd :=
      { id := id, core := p, sailing := c.run.sailing, lid := c.ctl.lid, op := op, variant := variant, addr := a, oc := oc.toNat,
        cap := c.capture, baddr := s.cur.addr, word := s.cur.word,
        ctx := match s.cur.agent with | .skiff _ j => some j | .core _ => none }
    .ok (noResult 1 (s.modDie (dieOf p) fun d => { d with sq := d.sq ++ [x] }))

/-- A command as the engine sees it. -/
def sqView (s : State) (d : Nat) (x : SqCmd) : SqView :=
  let view := s.viewOf x.sailing
  let word (i : Nat) : Nat := readSpad view x.core (x.addr + 8 * i) 8
  { s := view, d := d, cmd := x, arg := fun i => word (4 + i), n := bitsOf (word 3) 21 16, c := s.ctx x.sailing x.core }

/-- The record that a command names by its block as it stands. -/
def sqTarget (s : State) (x : SqCmd) : Nat := readSpad (s.viewOf x.sailing) x.core (x.addr + 24) 8

/-- The first command of its record: no earlier command of the queue names the same one (11 R341). -/
def sqFirst (s : State) (q : List SqCmd) (i : Nat) : Bool :=
  match q[i]? with
  | none => false
  | some x => !(q.take i).any fun y => bitsOf (sqTarget s y) 12 0 == bitsOf (sqTarget s x) 12 0

/-- An engine write of n bytes at address a of core p's scratchpad, c being the core as the command has it, through the shadow half: in the pieces that
64-byte blocks cut, since a publication entry holds whole blocks (09 R285). -/
def spadWrite (s : State) (c : Core) (p a n v : Nat) : State :=
  (List.range ((a % 64 + n + 63) / 64)).foldl (fun s i =>
    let lo := Nat.max a ((a / 64 + i) * 64)
    let hi := Nat.min (a + n) ((a / 64 + i) * 64 + 64)
    s.write false (spadBase p + c.shadow lo) (v / 2 ^ (8 * (lo - a)) % 2 ^ (8 * (hi - lo))) (hi - lo)) s

/-- An engine write of a command: address, bytes and value. -/
def sqWrite (s : State) (x : SqCmd) (w : Nat × Nat × Nat) : State := spadWrite s (s.ctx x.sailing x.core) x.core w.1 w.2.1 w.2.2

/-- A command executes: its writes, its record, a sampling command's packet; then RESULT, then DONE (11 R340, R341). -/
def sqExecute (s : State) (d : Nat) (x : SqCmd) : State :=
  let v := sqView s d x
  let target := sqTarget s x
  let k := bitsOf target 12 0
  let o := v.outcome target k
  let ticket := readSpad v.s x.core (x.addr + 16) 8
  let s := o.ws.foldl (fun s w => sqWrite s x w) s
  let s := match o.rec_ with
    | some (some r) => s.modDie d fun e => { e with records := e.records.set k r }
    | some none => s.modDie d fun e => { e with records := e.records.filter (·.1 ≠ k) }
    | none => s
  let local_ : Bool := x.op == 0x1A && x.variant != 2
  let s := match local_ && o.status != 10, x.sailing with
    | true, some n => s.modSailing n fun g =>
        { g with packets := g.packets ++ [{ v.packet (x.variant == 1) (if o.status = 0 then v.record k else none) with
            rank := 2, lid := x.cap.lid, src := .die d, way := { at_ := s.wall } }] }
    | _, _ => s
  let s := sqWrite s x (x.addr + 8, 8, o.result + o.status)
  let s := sqWrite s x (x.addr, 8, ticket)
  let s := s.modDie d fun e => { e with sq := e.sq.filter fun y => !(y.id == x.id && y.core == x.core && y.sailing == x.sailing) }
  { s.modCtx x.sailing x.core (fun c => { c with flight := c.flight.filter fun f => f.id ≠ x.id }) with freeIx := s.freeIx + 70 }

/-- The release that DONE is has still to wait (11 R341, 12 R354): an earlier access of the issuing agent in the command's class has not performed, or an
invalidation of such a write is in flight (01 R37, R41). For a skiff's command these are its own earlier commands and the special-function unit's result writes that it is
owed (06 R220), since a skiff's other accesses perform in its program order; a primary's waits for the class as a whole but for skiffs' commands. -/
def sqOwes (s : State) (x : SqCmd) : Bool :=
  let c := s.ctx x.sailing x.core
  let d := s.die (dieOf x.core)
  let mine (y : SqCmd) : Bool := y.core == x.core && y.sailing == x.sailing
  let bySkiff (id : Nat) : Option (BitVec 3) := ((d.sq ++ d.pilot).find? fun y => mine y && y.id == id).bind (·.ctx)
  let mask : BitVec 16 := 1#16 <<< x.oc
  c.flight.any (fun f => decide (f.id < x.id) && f.oc == x.oc && f.unperformed && bySkiff f.id == x.ctx)
    || s.owes x.core mask || x.ctx.any (c.sfuOwes · mask)
    || (x.ctx.isNone && (c.remotes.any (fun r => r.result.isNone && r.oc == x.oc && decide (r.seq ≤ x.id))
      || c.ports.any fun q => q.bound && q.desc.oc == x.oc && decide (q.seq < x.id ∧ q.fetched < q.total)))

/-- The bytes that a command reads, and those that it writes. One that the checks on its block refuse touches nothing but its block (11 R340, 12 R354). -/
def SqCmd.ranges (s : State) (x : SqCmd) (refused : Bool) : List (Nat × Nat) × List (Nat × Nat) :=
  let block := (spadBase x.core + x.addr, spadBase x.core + x.addr + 64)
  match (s.ctx x.sailing x.core).flight.find? (·.id = x.id) with
  | none => ([], [])
  | some f => if refused then ([block], [block]) else (f.reads, f.writes)

/-- The words that a command reads and writes. -/
def SqCmd.words (s : State) (x : SqCmd) (refused : Bool) : List (Bool × Nat × Nat) :=
  let r := x.ranges s refused
  readsWrites r.1 r.2

/-- What holds a command back: an earlier access of its class, or a watermark; or the fault of a faulted half (09 R292). -/
def sqGate (s : State) (x : SqCmd) (refused : Bool) : Gate :=
  let c := s.ctx x.sailing x.core
  match c.flight.find? (·.id = x.id) with
  | none => .go
  | some _ =>
    let (reads, writes) := x.ranges s refused
    if sqOwes s x || c.blocked x.core x.id x.oc .sequence reads writes then .wait
    else match reads.findSome? fun r => match readGate c (r.1 - spadBase x.core) (r.2 - r.1) with | .go => none | g => some g with
      | some g => g
      | none => .go

/-- SQ_COMMAND_COMPLETE (11 R341): of the commands of the die that are the first of their record, one that accesses the scratchpad, else one that is free, goes on; it executes
and completes when every word of it has had its port. -/
def execSqCommandComplete (d : Nat) (s : State) : Host.Outcome State Fault Refusal :=
  let (f, s) := s.free
  let q := (s.die d).sq
  let ready := (List.range q.length).filter (sqFirst s q)
  let begun := ready.find? fun i => match q[i]? with | some x => x.served.isSome | none => false
  match begun.orElse fun _ => ready[f.toNat % ready.length]? with
  | none => .next s
  | some i => match q[i]? with
    | none => .next s
    | some x =>
      let refused := (sqView s d x).checks (sqTarget s x) (bitsOf (sqTarget s x) 12 0) != 0
      match sqGate s x refused with
      | .wait => .next s
      | .go =>
        let (s', k) := s.serveWords (x.words s refused) (x.served.getD 0) 64
        if (wordIn (x.words s refused) k).isNone then .next (sqExecute s' d x)
        else .next (s'.modDie d fun e => { e with sq := setAt e.sq i { x with served := some k } })
      | .fault code detail =>
        let s := s.modDie d fun e => { e with sq := e.sq.eraseIdx i }
        let s := s.modCtx x.sailing x.core fun c => { c with flight := c.flight.filter fun f => f.id ≠ x.id }
        .next (engineFaultIn s x.sailing x.core code detail x.baddr x.word)

/-- sq.open (11 R343). -/
def bodySqOpen (b : BitVec 5) (c : BitVec 4) (s : State) : Res := sqIssue 0x15 0 b c s
/-- sq.feed (11 R344). -/
def bodySqFeed (b : BitVec 5) (c : BitVec 4) (s : State) : Res := sqIssue 0x16 0 b c s
/-- sq.feed.acc (11 R344). -/
def bodySqFeedAcc (b : BitVec 5) (c : BitVec 4) (s : State) : Res := sqIssue 0x16 1 b c s
/-- sq.mask (11 R345). -/
def bodySqMask (b : BitVec 5) (c : BitVec 4) (s : State) : Res := sqIssue 0x17 0 b c s
/-- sq.fork (11 R344). -/
def bodySqFork (b : BitVec 5) (c : BitVec 4) (s : State) : Res := sqIssue 0x18 0 b c s
/-- sq.roll (11 R346). -/
def bodySqRoll (b : BitVec 5) (c : BitVec 4) (s : State) : Res := sqIssue 0x19 0 b c s
/-- sq.samp.g (11 R351). -/
def bodySqSampG (b : BitVec 5) (c : BitVec 4) (s : State) : Res := sqIssue 0x1A 0 b c s
/-- sq.samp.p (11 R351). -/
def bodySqSampP (b : BitVec 5) (c : BitVec 4) (s : State) : Res := sqIssue 0x1A 1 b c s
/-- sq.samp.fin (11 R352). -/
def bodySqSampFin (b : BitVec 5) (c : BitVec 4) (s : State) : Res := sqIssue 0x1A 2 b c s
/-- sq.commit (11 R348). -/
def bodySqCommit (b : BitVec 5) (c : BitVec 4) (s : State) : Res := sqIssue 0x1B 0 b c s
/-- sq.free (11 R347). -/
def bodySqFree (b : BitVec 5) (c : BitVec 4) (s : State) : Res := sqIssue 0x1C 0 b c s
/-- sq.free.rec (11 R347). -/
def bodySqFreeRec (b : BitVec 5) (c : BitVec 4) (s : State) : Res := sqIssue 0x1C 1 b c s

/-! ### The instructions of this file at issue -/

/-- SQ_OPEN issued by itself (R343). -/
def execSqOpen (g : BitVec 4) (b : BitVec 5) (c : BitVec 4) (s : State) : Host.Outcome State Fault Refusal :=
  finish s (queueLimit (issue (.sqOpen g b c) g (bodySqOpen b c) s))
/-- SQ_FEED issued by itself (R344). -/
def execSqFeed (g : BitVec 4) (b : BitVec 5) (c : BitVec 4) (s : State) : Host.Outcome State Fault Refusal :=
  finish s (queueLimit (issue (.sqFeed g b c) g (bodySqFeed b c) s))
/-- SQ_FEED_ACC issued by itself (R344). -/
def execSqFeedAcc (g : BitVec 4) (b : BitVec 5) (c : BitVec 4) (s : State) : Host.Outcome State Fault Refusal :=
  finish s (queueLimit (issue (.sqFeedAcc g b c) g (bodySqFeedAcc b c) s))
/-- SQ_MASK issued by itself (R345). -/
def execSqMask (g : BitVec 4) (b : BitVec 5) (c : BitVec 4) (s : State) : Host.Outcome State Fault Refusal :=
  finish s (queueLimit (issue (.sqMask g b c) g (bodySqMask b c) s))
/-- SQ_FORK issued by itself (R344). -/
def execSqFork (g : BitVec 4) (b : BitVec 5) (c : BitVec 4) (s : State) : Host.Outcome State Fault Refusal :=
  finish s (queueLimit (issue (.sqFork g b c) g (bodySqFork b c) s))
/-- SQ_ROLL issued by itself (R346). -/
def execSqRoll (g : BitVec 4) (b : BitVec 5) (c : BitVec 4) (s : State) : Host.Outcome State Fault Refusal :=
  finish s (queueLimit (issue (.sqRoll g b c) g (bodySqRoll b c) s))
/-- SQ_SAMP_G issued by itself (R351). -/
def execSqSampG (g : BitVec 4) (b : BitVec 5) (c : BitVec 4) (s : State) : Host.Outcome State Fault Refusal :=
  finish s (queueLimit (issue (.sqSampG g b c) g (bodySqSampG b c) s))
/-- SQ_SAMP_P issued by itself (R351). -/
def execSqSampP (g : BitVec 4) (b : BitVec 5) (c : BitVec 4) (s : State) : Host.Outcome State Fault Refusal :=
  finish s (queueLimit (issue (.sqSampP g b c) g (bodySqSampP b c) s))
/-- SQ_SAMP_FIN issued by itself (R352). -/
def execSqSampFin (g : BitVec 4) (b : BitVec 5) (c : BitVec 4) (s : State) : Host.Outcome State Fault Refusal :=
  finish s (queueLimit (issue (.sqSampFin g b c) g (bodySqSampFin b c) s))
/-- SQ_COMMIT issued by itself (R348). -/
def execSqCommit (g : BitVec 4) (b : BitVec 5) (c : BitVec 4) (s : State) : Host.Outcome State Fault Refusal :=
  finish s (queueLimit (issue (.sqCommit g b c) g (bodySqCommit b c) s))
/-- SQ_FREE issued by itself (R347). -/
def execSqFree (g : BitVec 4) (b : BitVec 5) (c : BitVec 4) (s : State) : Host.Outcome State Fault Refusal :=
  finish s (queueLimit (issue (.sqFree g b c) g (bodySqFree b c) s))
/-- SQ_FREE_REC issued by itself (R347). -/
def execSqFreeRec (g : BitVec 4) (b : BitVec 5) (c : BitVec 4) (s : State) : Host.Outcome State Fault Refusal :=
  finish s (queueLimit (issue (.sqFreeRec g b c) g (bodySqFreeRec b c) s))

end Sys2Proof.Machine
end

