-- ==== Sys2Proof/Machine/Pilot.lean ====
section
/-! DEFINITION. The Pilot: selection, capacity and dispatch, and token rows (12 R353 to R363). -/

namespace Sys2Proof.Machine

/-! ### Issue (12 R353 to R355) -/

/-- The Pilot commands of a core whose DONE has not performed (12 R355). -/
def pilotOutstanding (s : State) (p : Nat) : Nat :=
  ((s.die (dieOf p)).pilot.filter fun x => x.core = p ∧ x.sailing = (s.core p).run.sailing).length

/-- The fields of a select block (12 R356). -/
structure Select where
  saddr : Nat
  ne : Nat
  nt : Nat
  iaddr : Nat
  waddr : Nat
  haddr : Nat
  taddr : Nat
  k : Nat
  norm : Nat
  cap : Nat
  tcore : Nat
  tstride : Nat
  xaddr : Nat
  maxe : Nat

/-- The fields of a select block from its words. -/
def Select.of (w : Nat → Nat) : Select :=
  { saddr := bitsOf (w 3) 22 0, ne := bitsOf (w 3) 41 32 + 1, nt := bitsOf (w 3) 63 48, iaddr := bitsOf (w 4) 22 0, waddr := bitsOf (w 4) 54 32,
    haddr := bitsOf (w 5) 22 0, taddr := bitsOf (w 5) 54 32, k := bitsOf (w 6) 3 0, norm := bitsOf (w 6) 5 4, cap := bitsOf (w 6) 31 16,
    tcore := bitsOf (w 6) 33 32, tstride := bitsOf (w 6) 62 40, xaddr := bitsOf (w 7) 22 0, maxe := bitsOf (w 7) 47 32 }

/-- The unlisted bits of a select block are zero. -/
def selectZero (w : Nat → Nat) : Bool :=
  bitsOf (w 3) 31 23 == 0 && bitsOf (w 3) 47 42 == 0 && bitsOf (w 4) 31 23 == 0 && bitsOf (w 4) 63 55 == 0 && bitsOf (w 5) 31 23 == 0 &&
    bitsOf (w 5) 63 55 == 0 && bitsOf (w 6) 15 6 == 0 && bitsOf (w 6) 39 34 == 0 && bitsOf (w 6) 63 63 == 0 && bitsOf (w 7) 31 23 == 0 &&
    bitsOf (w 7) 63 48 == 0

/-- The regions of a select command for scores of w and weights of v bits: scores, then indices, weights, histogram, table, dispatch. -/
def Select.regions (b : Select) (w v : Nat) : List (Nat × Nat) :=
  [(b.saddr, b.saddr + b.nt * b.ne * w / 8), (b.iaddr, b.iaddr + 2 * b.nt * b.k), (b.waddr, b.waddr + b.nt * b.k * v / 8),
   (b.haddr, b.haddr + 4 * b.ne), (b.taddr, b.taddr + 16 * b.maxe), (b.xaddr, b.xaddr + 128 * b.maxe)]

/-- The ranges that a Pilot command reads and writes, by its block as it stands. -/
def pilotRanges (s : State) (p variant a : Nat) (bf : Vector Word 8) : List (Nat × Nat) × List (Nat × Nat) :=
  let w (i : Nat) : Nat := readSpad s p (a + 8 * i) 8
  let cut (r : Nat × Nat) : Nat × Nat := (r.1, Nat.min r.2 0x800000)
  let block := (a, a + 64)
  if variant = 0 then
    let b := Select.of w
    let bits (x : Nat) : Nat := (codeBits (fmtCode (bankWord bf x))).getD 32
    let rs := (b.regions (bits b.saddr) (bits b.waddr)).map cut
    ([block, rs.headD block], (a, a + 16) :: rs.drop 1)
  else ([block, cut (bitsOf (w 3) 22 0, bitsOf (w 3) 22 0 + 8 + bitsOf (w 3) 47 32)], [(a, a + 16)])

/-- A Pilot operation at issue. -/
def pilotIssue (variant : Nat) (m oc : BitVec 4) (s : State) : Res :=
  let v := s.own.m m
  let a := v.toNat
  let p := s.me
  let c := s.own
  if a % 64 ≠ 0 ∨ 0x800000 ≤ a ∨ c.pmap.toList.any (fun e => e.v && overlaps (64 * e.base, 64 * (e.base + e.len)) a (a + 64)) then
    .fault 0x02 7
  else if let some (code, detail) := c.blockFault a 64 then .fault code detail
  else if 4 ≤ pilotOutstanding s p then .stall 19
  else
    let (reads, writes) := pilotRanges s p variant a c.ctl.bfmt
    let (id, s) := launch s p .pilot oc.toNat (named p reads) (named p writes)
    let x : SqCmd :=
      { id := id, core := p, sailing := c.run.sailing, lid := c.ctl.lid, op := 0x0E, variant := variant, addr := a, oc := oc.toNat,
        cap := c.capture, baddr := s.cur.addr, word := s.cur.word }
    .ok (s.modDie (dieOf p) fun d => { d with pilot := d.pilot ++ [x] })

/-- route (12 R353). -/
def bodyRoute (m c : BitVec 4) (s : State) : Res := pilotIssue 0 m c s
/-- route.tx (12 R353). -/
def bodyRouteTx (m c : BitVec 4) (s : State) : Res := pilotIssue 1 m c s

/-! ### Selection (12 R356 to R359) -/

/-- The scores' element width where the format is allowed. -/
def scoreBits (v : Word) : Option Nat :=
  match fmtOf (fmtCode v) with
  | some (.float f) => if f = f32 then some 32 else if f = f16 ∨ f = bf16 then some 16 else none
  | _ => none

/-- The weights' element width where the format is allowed. -/
def weightBits (v : Word) : Option Nat :=
  if fmtRnd v = 3 then none
  else match fmtOf (fmtCode v) with
    | some (.tapered 16 _) => some 16
    | _ => scoreBits v

/-- Two of a list of ranges share a byte. -/
def anyOverlap : List (Nat × Nat) → Bool
  | [] => false
  | r :: rs => rs.any (fun q => overlaps r q.1 q.2) || anyOverlap rs

/-- Bytes [lo, hi) lie in one bank. -/
def oneBank (r : Nat × Nat) : Bool := r.2 ≤ r.1 || r.1 / 0x100000 == (r.2 - 1) / 0x100000

/-- The status of a select block by its three stages (12 R356). -/
def selectStatus (c : Core) (bf : Vector Word 8) (w : Nat → Nat) (a : Nat) : Nat :=
  let b := Select.of w
  if b.nt = 0 ∨ b.k = 0 ∨ 8 < b.k ∨ b.maxe = 0 ∨ 8192 < b.maxe ∨ b.norm = 3 ∨ ¬ selectZero w then 1
  else match scoreBits (bankWord bf b.saddr), weightBits (bankWord bf b.waddr) with
  | some ws, some ww =>
    let rs := b.regions ws ww
    if ¬ oneBank (rs.getD 0 (0, 0)) ∨ ¬ oneBank (rs.getD 2 (0, 0)) then 2
    else if 8 * b.saddr % ws ≠ 0 ∨ b.iaddr % 2 ≠ 0 ∨ 8 * b.waddr % ww ≠ 0 ∨ b.haddr % 4 ≠ 0 ∨ b.taddr % 16 ≠ 0 ∨ b.xaddr % 128 ≠ 0
        ∨ rs.any (fun r => !c.hullOk r.1 r.2) ∨ anyOverlap ((a, a + 64) :: rs) ∨ 2 ^ 23 ≤ (b.nt - 1) * b.tstride
        ∨ b.maxe < Nat.min (b.nt * b.k) (ceilDiv (b.nt * b.k) 32 + b.ne) then 1
    else 0
  | _, _ => 2

/-- The selected experts of a token, with their scores, in slot order (12 R357): the score's F32 bits and the expert. -/
def selected (es : List Elt) (k : Nat) : List (Nat × Nat) :=
  let xs := (List.range es.length).filterMap fun e =>
    match es[e]? with
    | some x =>
      let b := encodeCompute f32 x.val
      match decodeFloat f32 b with
      | .nan | .inf true => none
      | _ => if x.poison then none else some (b, e)
    | none => none
  ((xs.map fun x => (keyOf x.1, x)).mergeSort fun a b => itemBefore (a.1, a.2.2) (b.1, b.2.2)).map (·.2) |>.take k

/-- The weights of the selected experts, formed in F64 (12 R357). -/
def selectedWeights (norm : Nat) (xs : List (Nat × Nat)) : List Val :=
  let ls := xs.map fun x => decodeFloat f32 x.1
  let one : Val := .fin false 1 0
  let sum (l : List Val) : Val := l.foldl (fun z x => roundIn 0 (z.add x)) (.zero false)
  match norm with
  | 0 =>
    let top := ls.headD (.zero false)
    let es := ls.map fun l =>
      if top = .inf false then (if l = .inf false then one else .zero false)
      else decodeFloat f64 (sfResult 1 true f64 (roundIn 0 (l.add top.negate)))
    es.map fun e => roundIn 0 (e.div (sum es))
  | 1 =>
    let es := ls.map fun l => decodeFloat f64 (sfResult 7 true f64 l)
    let z := sum es
    match z with
    | .zero _ => es.map fun _ => roundIn 0 (one.div (Val.ofInt es.length))
    | _ => es.map fun e => roundIn 0 (e.div z)
  | _ => ls

/-- Assignments by slot, then token: (slot, token, expert), those that capacity keeps (12 R358). -/
def keepUnder (cap : Nat) (l : List (Nat × Nat × Nat)) : List (Nat × Nat × Nat) :=
  (l.foldl (fun (x : List (Nat × Nat × Nat) × List (Nat × Nat)) a =>
    let n := ((x.2.find? (·.1 = a.2.2)).map (·.2)).getD 0
    if cap ≠ 0 ∧ cap ≤ n then x
    else (x.1 ++ [a], (a.2.2, n + 1) :: x.2.filter (·.1 ≠ a.2.2))) ([], [])).1

/-- A list cut into slices of 32 with the position of each. -/
def slices (e : Nat) : Nat → Nat → List Nat → List (Nat × Nat × List Nat)
  | 0, _, _ => []
  | _, _, [] => []
  | fuel + 1, ofs, l => (e, ofs, l.take 32) :: slices e fuel (ofs + 32) (l.drop 32)

/-- The outcome of a good select command: its writes as address, bytes and value, the weights' writes, the anomalies and RESULT. -/
def selectRun (s : State) (c : Core) (p : Nat) (cap : Capture) (b : Select) : List (Nat × Nat × Nat) × List Wr × Nat × Nat :=
  let h := denseShape b.saddr (b.nt * b.ne)
  let picks := (List.range b.nt).map fun t => selected ((List.range b.ne).map fun e => readElt s p cap.bfmt h 0 (t * b.ne + e)) b.k
  let slot (j t : Nat) : Option (Nat × Nat) := (picks.getD t [])[j]?
  let all := (List.range b.k).flatMap fun j => (List.range b.nt).filterMap fun t => (slot j t).map fun x => (j, t, x.2)
  let kept := keepUnder b.cap all
  let isKept (j t : Nat) : Bool := kept.any fun x => x.1 == j && x.2.1 == t
  let index (t j : Nat) : Nat := match slot j t with
    | none => 0xFFFF
    | some x => if isKept j t then x.2 else 0x8000 + x.2
  let weights := (List.range b.nt).flatMap fun t =>
    let ws := selectedWeights b.norm (picks.getD t [])
    (List.range b.k).map fun j => (if (slot j t).isSome ∧ isKept j t then ws.getD j (.zero false) else .zero false, false)
  let mine (e : Nat) : List Nat := (List.range b.nt).filter fun t => kept.any fun x => x.2.1 == t && x.2.2 == e
  let blocks := (List.range b.ne).flatMap fun e => slices e b.nt 0 (mine e)
  let (ww, anom) := encodeArray c p cap (denseShape b.waddr weights.length) 0 0 none weights
  let entry (i : Nat) (x : Nat × Nat × List Nat) : Nat := i + x.1 * 2 ^ 16 + x.2.2.length * 2 ^ 32 + x.2.1 * 2 ^ 64
  let row (x : Nat × Nat × List Nat) (r : Nat) : Nat := match x.2.2[r]? with
    | some t => b.tcore * 2 ^ 23 + t * b.tstride
    | none => 0xFFFFFFFF
  let numbered := (List.range blocks.length).zip blocks
  let ws := ((List.range b.nt).flatMap fun t => (List.range b.k).map fun j => (b.iaddr + 2 * (t * b.k + j), 2, index t j))
    ++ ((List.range b.ne).map fun e => (b.haddr + 4 * e, 4, (mine e).length))
    ++ (numbered.map fun x => (b.taddr + 16 * x.1, 16, entry x.1 x.2))
    ++ (numbered.flatMap fun x => (List.range 32).map fun r => (b.xaddr + 128 * x.1 + 4 * r, 4, row x.2 r))
  let empty := b.nt * b.k - all.length
  (ws, ww, anom, empty * 2 ^ 44 + (all.length - kept.length) * 2 ^ 24 + blocks.length * 2 ^ 8)

/-! ### Token rows (12 R360 to R363) -/

/-- Bytes of a core's scratchpad as an engine reads them; those of a poisoned word are free (DESIGN CHOICE, log 3). -/
def engineBytes (s : State) (p a n : Nat) : List Byte :=
  (List.range n).map fun i =>
    if s.poisoned (spadBase p + (s.core p).visible (a + i)) then (Config.freeWord (s.freeIx + i)).truncate 8 else readByte s p (a + i)

/-- The status of a route.tx block (12 R361): 1 where nothing is sent. -/
def txStatus (c : Core) (dest : Core) (w : Nat → Nat) : Nat :=
  let plen := bitsOf (w 3) 47 32
  let raddr := bitsOf (w 3) 22 0
  let dofs := bitsOf (w 4) 54 32
  let caddr := bitsOf (w 5) 22 0
  if bitsOf (w 3) 31 23 ≠ 0 ∨ bitsOf (w 3) 63 48 ≠ 0 ∨ bitsOf (w 4) 31 16 ≠ 0 ∨ bitsOf (w 4) 63 55 ≠ 0 ∨ bitsOf (w 5) 63 23 ≠ 0 ∨ w 6 ≠ 0 ∨ w 7 ≠ 0
      ∨ 4 * c.ctl.qcount ≤ bitsOf (w 4) 15 0 ∨ raddr % 8 ≠ 0 ∨ dofs % 8 ≠ 0 ∨ caddr % 16 ≠ 0 ∨ plen % 8 ≠ 0 ∨ plen < 8 ∨ 4088 < plen
      ∨ ¬ c.hullOk raddr (raddr + 8 + plen : Nat) ∨ ¬ dest.hullOk dofs (dofs + 8 + plen : Nat) ∨ ¬ dest.hullOk caddr (caddr + 16 : Nat)
      ∨ (dofs ≤ caddr ∧ caddr < dofs + 8 + plen) then 1 else 0

/-- Word i of a command's block as it stands. -/
def pilotWord (s : State) (x : SqCmd) (i : Nat) : Nat := readSpad (s.viewOf x.sailing) x.core (x.addr + 8 * i) 8

/-- The status of a command by its block as it stands: 0 where it takes effect (12 R356, R361). -/
def pilotStatus (s : State) (x : SqCmd) : Nat :=
  let c := s.ctx x.sailing x.core
  let w := pilotWord s x
  if x.variant = 0 then selectStatus c x.cap.bfmt w x.addr
  else txStatus c (s.ctx x.sailing (s.coreIn x.sailing x.core (bitsOf (w 4) 15 0))) w

/-- A Pilot command executes: its outputs, its row sent, RESULT, then DONE (12 R354). -/
def pilotExecute (s : State) (d : Nat) (x : SqCmd) : State :=
  let view := s.viewOf x.sailing
  let c := s.ctx x.sailing x.core
  let w := pilotWord s x
  let ticket := w 2
  let st := pilotStatus s x
  let (result, s) :=
    if st ≠ 0 then (st, s)
    else if x.variant = 0 then
        let (ws, ww, anom, res) := selectRun view c x.core x.cap (Select.of w)
        let s := ws.foldl (fun s y => sqWrite s x y) (s.perform false ww)
        (res, s.modCtx x.sailing x.core fun c => { c with ctl := { c.ctl with fanom := Nat.min 0xFFFFFFFF (c.ctl.fanom + anom) } })
    else
        let q := s.coreIn x.sailing x.core (bitsOf (w 4) 15 0)
        let row : TokenRow :=
          { sailing := x.sailing, core := q, addr := bitsOf (w 4) 54 32, bytes := engineBytes view x.core (bitsOf (w 3) 22 0) (8 + bitsOf (w 3) 47 32),
            block := bitsOf (w 5) 22 0, src := d, lid := x.lid,
            ways := List.replicate (1 + ceilDiv (8 + bitsOf (w 3) 47 32) 64) { at_ := s.wall } }
        (0, s.modDie (dieOf q) fun e => { e with rows := e.rows ++ [row] })
  let s := sqWrite s x (x.addr + 8, 8, result)
  let s := sqWrite s x (x.addr, 8, ticket)
  let s := s.modDie d fun e => { e with pilot := e.pilot.filter fun y => !(y.id == x.id && y.core == x.core && y.sailing == x.sailing) }
  { s.modCtx x.sailing x.core (fun c => { c with flight := c.flight.filter fun f => f.id ≠ x.id }) with freeIx := s.freeIx + 4096 }

/-- ROUTE_COMPLETE (12 R354): of the two commands that the die's Pilot runs, one that accesses the scratchpad, else one that is free, goes on; it completes when every word
of it has had its port. -/
def execRouteComplete (d : Nat) (s : State) : Host.Outcome State Fault Refusal :=
  let (f, s) := s.free
  let q := (s.die d).pilot.take 2
  match (q.find? (·.served.isSome)).orElse fun _ => q[f.toNat % q.length]? with
  | none => .next s
  | some x =>
    let refused := pilotStatus s x != 0
    match sqGate s x refused with
    | .wait => .next s
    | .go =>
      let (s', k) := s.serveWords (x.words s refused) (x.served.getD 0) 64
      if (wordIn (x.words s refused) k).isNone then .next (pilotExecute s' d x)
      else .next (s'.modDie d fun e => { e with pilot := e.pilot.map fun y => if y == x then { y with served := some k } else y })
    | .fault code detail =>
      let s := s.modDie d fun e => { e with pilot := e.pilot.filter fun y => !(y.id == x.id && y.core == x.core && y.sailing == x.sailing) }
      let s := s.modCtx x.sailing x.core fun c => { c with flight := c.flight.filter fun f => f.id ≠ x.id }
      .next (engineFaultIn s x.sailing x.core code detail x.baddr x.word)

/-- CRC-8 with polynomial x^8 + x^2 + x + 1 and initial value 0 over n bits, the highest first (12 R360). -/
def crcBits (v : Nat) : Nat → Nat → Nat
  | 0, c => c
  | n + 1, c =>
    let top := (c / 128 + v / 2 ^ n) % 2
    crcBits v n (Nat.xor (c * 2 % 256) (if top = 1 then 0x07 else 0))

/-- A word of an arrival block gains 1 in a half of 32 bits. -/
def bumpWord (s : State) (q a : Nat) (high : Bool) : State :=
  let pa := spadBase q + a
  let v := s.read pa 8
  let lo := v % 2 ^ 32
  let hi := v / 2 ^ 32
  s.write false pa (if high then (hi + 1) % 2 ^ 32 * 2 ^ 32 + lo else hi * 2 ^ 32 + (lo + 1) % 2 ^ 32) 8

/-- The header of a row. -/
def TokenRow.header (x : TokenRow) : Nat := bytesNat ((x.bytes.take 8).map (·.toNat))

/-- A row's header fails its check. -/
def TokenRow.badCrc (x : TokenRow) : Bool := decide (crcBits (x.header / 2 ^ 8) 56 0 ≠ x.header % 256 ∨ bitsOf x.header 8 8 ≠ 0)

/-- A row is of another round than its arrival block's. -/
def TokenRow.badRound (s : State) (x : TokenRow) : Bool :=
  decide (bitsOf x.header 32 25 ≠ bitsOf (s.read (spadBase x.core + (s.ctx x.sailing x.core).visible x.block) 8) 63 56)

/-- The words that an arriving row reads and writes. -/
def TokenRow.words (s : State) (x : TokenRow) : List (Bool × Nat × Nat) :=
  let b := spadBase x.core
  (false, b + x.block, b + x.block + 16) ::
    if x.badCrc || x.badRound s then [] else [(true, b + x.addr, b + x.addr + x.bytes.length)]

/-- An arriving row is refused for its CRC, refused for its round, or written and counted (12 R363). -/
def arriveRow (s : State) (x : TokenRow) : State :=
  let c := s.ctx x.sailing x.core
  let a := c.visible x.block
  if x.badCrc then bumpWord (bumpWord s x.core (a + 8) false) x.core a false
  else if x.badRound s then bumpWord s x.core (a + 8) true
  else
    let s := spadWrite s c x.core x.addr x.bytes.length (bytesNat (x.bytes.map (·.toNat)))
    bumpWord s x.core a false

/-- TOKEN_ROW_ARRIVAL (12 R363): of the rows on their way to the die whose flits are there, one that accesses the scratchpad, else one that is free, goes on; it arrives
whole when every word of it has had its port. -/
def execTokenRowArrival (d : Nat) (s : State) : Host.Outcome State Fault Refusal :=
  let (f, s) := s.free
  let q := (s.die d).rows
  let ready := (List.range q.length).filter fun i => match q[i]? with | some x => x.ways.all (·.there) | none => false
  let begun := ready.find? fun i => match q[i]? with | some x => x.served.isSome | none => false
  let i := begun.getD (ready.getD (f.toNat % ready.length) q.length)
  match q[i]? with
  | none => .next s
  | some x =>
    let (s', k) := s.serveWords (x.words s) (x.served.getD 0) 64
    if (wordIn (x.words s) k).isNone then .next (arriveRow (s'.modDie d fun e => { e with rows := e.rows.eraseIdx i }) x)
    else .next (s'.modDie d fun e => { e with rows := setAt e.rows i { x with served := some k } })

/-! ### The instructions of this file at issue -/

/-- ROUTE issued by itself (R356). -/
def execRoute (g : BitVec 4) (m : BitVec 4) (c : BitVec 4) (s : State) : Host.Outcome State Fault Refusal :=
  finish s (queueLimit (issue (.route g m c) g (bodyRoute m c) s))
/-- ROUTE_TX issued by itself (R361). -/
def execRouteTx (g : BitVec 4) (m : BitVec 4) (c : BitVec 4) (s : State) : Host.Outcome State Fault Refusal :=
  finish s (queueLimit (issue (.routeTx g m c) g (bodyRouteTx m c) s))

end Sys2Proof.Machine
end

