-- ==== Sys2Proof/Machine/SkiffOps.lean ====
section
/-! DEFINITION. spawn.s, and the C operations that only a skiff executes (05 R161, R179, R181, R182). -/

namespace Sys2Proof.Machine

/-- The lowest-numbered free context. -/
def Barrel.freeSlot (b : Barrel) : Option (BitVec 3) :=
  ((List.range 8).find? fun i => !(b.ctx.toList.getD i {}).occupied).map (BitVec.ofNat 3)

/-- A new skiff (05 R161): every register zero but s1. -/
def newSkiff (pc : Nat) (s1 : Word) (mask : BitVec 3) (home t lastf : Nat) : Skiff :=
  { occupied := true, s := (Vector.replicate 16 0).set 1 s1, pc := pc, cmask := if mask = 0 then 7 else mask, home := home,
    fetchAt := t + 1, lastf := lastf }

/-- spawn.s (05 R161). -/
def bodySpawnS (h : BitVec 4) (e a : BitVec 5) (m : BitVec 3) (s : State) : Res :=
  let entry := srcC e s
  let c := s.own
  if entry.extractLsb' 48 16 ≠ 0 ∨ entry.toNat % 4 ≠ 0 then .fault 0x02 1
  else match c.barrel.inbox, c.barrel.freeSlot with
    | [], some j =>
      writeG h true (s.modSkiff s.me j fun k => newSkiff entry.toNat (srcC a s) m c.ctl.lid c.run.t k.lastf)
    | _, _ => writeG h false s

/-- An operation of a skiff alone. -/
def asSkiff (s : State) (k : Nat → BitVec 3 → Res) : Res :=
  match s.cur.agent with
  | .core _ => .fault 0x01 9
  | .skiff p j => k p j

/-- The executing context waits. -/
def skiffWaits (s : State) (p : Nat) (j : BitVec 3) (w : SkWait) : Res := .ok (s.modSkiff p j fun k => { k with wait := w })

/-- mig (05 R179, R181). The DETAIL of its access fault, which has no virtual address, is free (DESIGN CHOICE, log 3). -/
def bodyMig (k : BitVec 5) (s : State) : Res :=
  asSkiff s fun p j =>
    let l := (srcC k s).toNat
    if 4 * s.own.ctl.qcount ≤ l then .fault 0x0B s.free.1.toNat
    else if l = s.own.ctl.lid then .ok (skiffResult s p j 1 [] [])
    else skiffWaits s p j (.migrate l false)

/-- yield (05 R182). -/
def bodyYield (s : State) : Res :=
  asSkiff s fun p j => .ok ((skiffResult s p j 8 [] []).modSkiff p j fun k => { k with owed := false })

/-- snooze (05 R182). -/
def bodySnooze (r : BitVec 5) (s : State) : Res :=
  asSkiff s fun p j => skiffWaits s p j (.snooze (s.own.run.t + Nat.max ((srcC r s).extractLsb' 0 32).toNat 1))

/-- snooze.w (05 R182): the word that is visible at the grant; a write of the grant's own cycle performs at that cycle's end and ends the snooze there. -/
def bodySnoozeW (r : BitVec 5) (s : State) : Res :=
  asSkiff s fun p j =>
    let a := (srcC r s).toNat
    if a % 8 ≠ 0 then .fault 0x02 7
    else match place s a 8 with
      | .own x =>
        let w := s.own.visible x
        skiffWaits s p j (if s.own.run.wrote.any (overlaps · w (w + 8)) then .until s.own.run.t else .snoozeWord w (s.own.run.t + 65536))
      | _ => .fault 0x0B a

/-- sexit (05 R182): nothing is written back, and its special-function requests stay (06 R221). -/
def bodySexit (s : State) : Res :=
  asSkiff s fun p j =>
    .ok (freeContext (s.modCore p fun c => { c with sfu := c.sfu.map fun q => if q.ctx = some j then { q with ctx := none } else q }) p j)

/-! ### The instructions of this file at issue -/

/-- SPAWN_S issued by itself (R161). -/
def execSpawnS (g : BitVec 4) (h : BitVec 4) (e : BitVec 5) (a : BitVec 5) (m : BitVec 3) (s : State) : Host.Outcome State Fault Refusal :=
  finish s (queueLimit (issue (.spawnS g h e a m) g (bodySpawnS h e a m) s))
/-- MIG issued by itself (R179). -/
def execMig (g : BitVec 4) (k : BitVec 5) (s : State) : Host.Outcome State Fault Refusal :=
  finish s (queueLimit (issue (.mig g k) g (bodyMig k) s))
/-- YIELD issued by itself (R182). -/
def execYield (g : BitVec 4) (s : State) : Host.Outcome State Fault Refusal :=
  finish s (queueLimit (issue (.yield g) g (bodyYield) s))
/-- SNOOZE issued by itself (R182). -/
def execSnooze (g : BitVec 4) (r : BitVec 5) (s : State) : Host.Outcome State Fault Refusal :=
  finish s (queueLimit (issue (.snooze g r) g (bodySnooze r) s))
/-- SNOOZE_W issued by itself (R182). -/
def execSnoozeW (g : BitVec 4) (r : BitVec 5) (s : State) : Host.Outcome State Fault Refusal :=
  finish s (queueLimit (issue (.snoozeW g r) g (bodySnoozeW r) s))
/-- SEXIT issued by itself (R182). -/
def execSexit (g : BitVec 4) (s : State) : Host.Outcome State Fault Refusal :=
  finish s (queueLimit (issue (.sexit g) g (bodySexit) s))

end Sys2Proof.Machine
end

