-- ==== Sys2Proof/Machine/Slots.lean ====
section
/-! DEFINITION. What an operation does in its slot of a bundle: the same checks, guard and meaning as its arm of exec, without
the outcome. An event is no slot operation. -/

namespace Sys2Proof.Machine

/-- A slot operation inside a bundle. -/
def slotRes (i : Instr) (s : State) : Res :=
  match i with
  | .addA g d a b f => issue (.addA g d a b f) g (bodyAddA d a b f) s
  | .addiA g d a v => issue (.addiA g d a v) g (bodyAddiA d a v) s
  | .liA g d v => issue (.liA g d v) g (bodyLiA d v) s
  | .liuA g d v => issue (.liuA g d v) g (bodyLiuA d v) s
  | .cmpA g h a b c => issue (.cmpA g h a b c) g (bodyCmpA h a b c) s
  | .cmpiA g h a c v => issue (.cmpiA g h a c v) g (bodyCmpiA h a c v) s
  | .ldB g d a c v => issue (.ldB g d a c v) g (bodyLdB d a c v) s
  | .ldH g d a c v => issue (.ldH g d a c v) g (bodyLdH d a c v) s
  | .ldW g d a c v => issue (.ldW g d a c v) g (bodyLdW d a c v) s
  | .ldD g d a c v => issue (.ldD g d a c v) g (bodyLdD d a c v) s
  | .stB g d a c v => issue (.stB g d a c v) g (bodyStB d a c v) s
  | .stH g d a c v => issue (.stH g d a c v) g (bodyStH d a c v) s
  | .stW g d a c v => issue (.stW g d a c v) g (bodyStW d a c v) s
  | .stD g d a c v => issue (.stD g d a c v) g (bodyStD d a c v) s
  | .ldb g d a c r w => issue (.ldb g d a c r w) g (bodyLdb d a c r w) s
  | .stb g d a c w => issue (.stb g d a c w) g (bodyStb d a c w) s
  | .fenceOc g r m => issue (.fenceOc g r m) g (bodyFenceOc r m) s
  | .fenceOcAll g r m => issue (.fenceOcAll g r m) g (bodyFenceOcAll r m) s
  | .amoW g o a b c => issue (.amoW g o a b c) g (bodyAmoW o a b c) s
  | .amoD g o a b c => issue (.amoD g o a b c) g (bodyAmoD o a b c) s
  | .sbind g r a f p => issue (.sbind g r a f p) g (bodySbind r a f p) s
  | .sbindU g r f p => issue (.sbindU g r f p) g (bodySbindU r f p) s
  | .lxsend g a => issue (.lxsend g a) g (bodyLxsend a) s
  | .lxsendCh g n a => issue (.lxsendCh g n a) g (bodyLxsendCh n a) s
  | .lxsendCls g n => issue (.lxsendCls g n) g (bodyLxsendCls n) s
  | .pub g r h t c => issue (.pub g r h t c) g (bodyPub r h t c) s
  | .pubMap g n a => issue (.pubMap g n a) g (bodyPubMap n a) s
  | .pubUnmap g n => issue (.pubUnmap g n) g (bodyPubUnmap n) s
  | .expect g h t => issue (.expect g h t) g (bodyExpect h t) s
  | .expectC g h => issue (.expectC g h) g (bodyExpectC h) s
  | .cp g d r q f => issue (.cp g d r q f) g (bodyCp d r q f) s
  | .sldB g d a c v => issue (.sldB g d a c v) g (bodySldB d a c v) s
  | .sldH g d a c v => issue (.sldH g d a c v) g (bodySldH d a c v) s
  | .sldW g d a c v => issue (.sldW g d a c v) g (bodySldW d a c v) s
  | .sldD g d a c v => issue (.sldD g d a c v) g (bodySldD d a c v) s
  | .sstB g d a c v => issue (.sstB g d a c v) g (bodySstB d a c v) s
  | .sstH g d a c v => issue (.sstH g d a c v) g (bodySstH d a c v) s
  | .sstW g d a c v => issue (.sstW g d a c v) g (bodySstW d a c v) s
  | .sstD g d a c v => issue (.sstD g d a c v) g (bodySstD d a c v) s
  | .samoW g o a b c => issue (.samoW g o a b c) g (bodySamoW o a b c) s
  | .samoD g o a b c => issue (.samoD g o a b c) g (bodySamoD o a b c) s
  | .facqW g a v n l r m => issue (.facqW g a v n l r m) g (bodyFacqW a v n l r m) s
  | .facqT g h a v n l r m => issue (.facqT g h a v n l r m) g (bodyFacqT h a v n l r m) s
  | .frel g a v n l r m => issue (.frel g a v n l r m) g (bodyFrel a v n l r m) s
  | .addX g d a b f => issue (.addX g d a b f) g (bodyAddX d a b f) s
  | .addiX g d a v => issue (.addiX g d a v) g (bodyAddiX d a v) s
  | .andi g d a v => issue (.andi g d a v) g (bodyAndi d a v) s
  | .ori g d a v => issue (.ori g d a v) g (bodyOri d a v) s
  | .xori g d a v => issue (.xori g d a v) g (bodyXori d a v) s
  | .shli g d a r => issue (.shli g d a r) g (bodyShli d a r) s
  | .shri g d a r => issue (.shri g d a r) g (bodyShri d a r) s
  | .srai g d a r => issue (.srai g d a r) g (bodySrai d a r) s
  | .liX g d v => issue (.liX g d v) g (bodyLiX d v) s
  | .liuX g d v => issue (.liuX g d v) g (bodyLiuX d v) s
  | .cmpX g h a b c => issue (.cmpX g h a b c) g (bodyCmpX h a b c) s
  | .cmpiX g h a c v => issue (.cmpiX g h a c v) g (bodyCmpiX h a c v) s
  | .sel g d a b h => issue (.sel g d a b h) g (bodySel d a b h) s
  | .mul g d a b f => issue (.mul g d a b f) g (bodyMul d a b f) s
  | .mulw g d a b u => issue (.mulw g d a b u) g (bodyMulw d a b u) s
  | .div g d a b f => issue (.div g d a b f) g (bodyDiv d a b f) s
  | .bcnt g d a f => issue (.bcnt g d a f) g (bodyBcnt d a f) s
  | .ext g d a l p => issue (.ext g d a l p) g (bodyExt d a l p) s
  | .ins g d a l p => issue (.ins g d a l p) g (bodyIns d a l p) s
  | .exts g d a l p => issue (.exts g d a l p) g (bodyExts d a l p) s
  | .crc8 g d a b n => issue (.crc8 g d a b n) g (bodyCrc8 d a b n) s
  | .rng g d a b h => issue (.rng g d a b h) g (bodyRng d a b h) s
  | .tdec g d a t => issue (.tdec g d a t) g (bodyTdec d a t) s
  | .tcmp g h a b t c => issue (.tcmp g h a b t c) g (bodyTcmp h a b t c) s
  | .tcvt g d a k e r => issue (.tcvt g d a k e r) g (bodyTcvt d a k e r) s
  | .fadd g d a b p => issue (.fadd g d a b p) g (bodyFadd d a b p) s
  | .fsub g d a b p => issue (.fsub g d a b p) g (bodyFsub d a b p) s
  | .fmul g d a b p => issue (.fmul g d a b p) g (bodyFmul d a b p) s
  | .fma g d a b c p => issue (.fma g d a b c p) g (bodyFma d a b c p) s
  | .fms g d a b c p => issue (.fms g d a b c p) g (bodyFms d a b c p) s
  | .fnma g d a b c p => issue (.fnma g d a b c p) g (bodyFnma d a b c p) s
  | .fdiv g d a b p => issue (.fdiv g d a b p) g (bodyFdiv d a b p) s
  | .fsqrt g d a p => issue (.fsqrt g d a p) g (bodyFsqrt d a p) s
  | .fmin g d a b p => issue (.fmin g d a b p) g (bodyFmin d a b p) s
  | .fmax g d a b p => issue (.fmax g d a b p) g (bodyFmax d a b p) s
  | .fcmp g h a b c p => issue (.fcmp g h a b c p) g (bodyFcmp h a b c p) s
  | .fcvt g d a e r => issue (.fcvt g d a e r) g (bodyFcvt d a e r) s
  | .fsgn g d a b o p => issue (.fsgn g d a b o p) g (bodyFsgn d a b o p) s
  | .fcls g d a p => issue (.fcls g d a p) g (bodyFcls d a p) s
  | .tadd g d a b t => issue (.tadd g d a b t) g (bodyTadd d a b t) s
  | .tsub g d a b t => issue (.tsub g d a b t) g (bodyTsub d a b t) s
  | .tmul g d a b t => issue (.tmul g d a b t) g (bodyTmul d a b t) s
  | .vadd g d a b c k => issue (.vadd g d a b c k) g (bodyVadd d a b c k) s
  | .vsub g d a b c k => issue (.vsub g d a b c k) g (bodyVsub d a b c k) s
  | .vmul g d a b c k => issue (.vmul g d a b c k) g (bodyVmul d a b c k) s
  | .vfma g d a b c k => issue (.vfma g d a b c k) g (bodyVfma d a b c k) s
  | .vfms g d a b c k => issue (.vfms g d a b c k) g (bodyVfms d a b c k) s
  | .vfnma g d a b c k => issue (.vfnma g d a b c k) g (bodyVfnma d a b c k) s
  | .vmin g d a b c k => issue (.vmin g d a b c k) g (bodyVmin d a b c k) s
  | .vmax g d a b c k => issue (.vmax g d a b c k) g (bodyVmax d a b c k) s
  | .vabs g d a c k => issue (.vabs g d a c k) g (bodyVabs d a c k) s
  | .vcvt g d a c m => issue (.vcvt g d a c m) g (bodyVcvt d a c m) s
  | .vsf g d a f c r k => issue (.vsf g d a f c r k) g (bodyVsf d a f c r k) s
  | .vred g d a c o k => issue (.vred g d a c o k) g (bodyVred d a c o k) s
  | .vscan g d a c o k => issue (.vscan g d a c o k) g (bodyVscan d a c o k) s
  | .vcmp g d a b c o k => issue (.vcmp g d a b c o k) g (bodyVcmp d a b c o k) s
  | .vsel g d a b c k => issue (.vsel g d a b c k) g (bodyVsel d a b c k) s
  | .vmov g d a c k => issue (.vmov g d a c k) g (bodyVmov d a c k) s
  | .vfill g d v c => issue (.vfill g d v c) g (bodyVfill d v c) s
  | .vdot g d a b c k => issue (.vdot g d a b c k) g (bodyVdot d a b c k) s
  | .tdecv g d a c => issue (.tdecv g d a c) g (bodyTdecv d a c) s
  | .vqacc g q a b c => issue (.vqacc g q a b c) g (bodyVqacc q a b c) s
  | .vqaccS g q a c => issue (.vqaccS g q a c) g (bodyVqaccS q a c) s
  | .vqrd g d q c => issue (.vqrd g d q c) g (bodyVqrd d q c) s
  | .vqrdZ g d q c => issue (.vqrdZ g d q c) g (bodyVqrdZ d q c) s
  | .vqclr g q w => issue (.vqclr g q w) g (bodyVqclr q w) s
  | .vloop g n k => issue (.vloop g n k) g (bodyVloop n k) s
  | .vsync g m => issue (.vsync g m) g (bodyVsync m) s
  | .vsyncT g m h => issue (.vsyncT g m h) g (bodyVsyncT m h) s
  | .chs g e r c => issue (.chs g e r c) g (bodyChs e r c) s
  | .chv g d e c => issue (.chv g d e c) g (bodyChv d e c) s
  | .mlease g n => issue (.mlease g n) g (bodyMlease n) s
  | .mfree g => issue (.mfree g) g (bodyMfree) s
  | .mcfg g d r t => issue (.mcfg g d r t) g (bodyMcfg d r t) s
  | .mcfgLd g d h c r t => issue (.mcfgLd g d h c r t) g (bodyMcfgLd d h c r t) s
  | .mcfgAdd g d h c r t => issue (.mcfgAdd g d h c r t) g (bodyMcfgAdd d h c r t) s
  | .mgath g x v r c => issue (.mgath g x v r c) g (bodyMgath x v r c) s
  | .mlatb g y b c => issue (.mlatb g y b c) g (bodyMlatb y b c) s
  | .mma g d m k y x => issue (.mma g d m k y x) g (bodyMma d m k y x) s
  | .mmas g d m k j x => issue (.mmas g d m k j x) g (bodyMmas d m k j x) s
  | .mst g t h m c => issue (.mst g t h m c) g (bodyMst t h m c) s
  | .mstRaw g t h m c => issue (.mstRaw g t h m c) g (bodyMstRaw t h m c) s
  | .mstSt g t h => issue (.mstSt g t h) g (bodyMstSt t h) s
  | .mcomp g d r k c => issue (.mcomp g d r k c) g (bodyMcomp d r k c) s
  | .mtile g d x p c z r => issue (.mtile g d x p c z r) g (bodyMtile d x p c z r) s
  | .mwalk g d x p c => issue (.mwalk g d x p c) g (bodyMwalk d x p c) s
  | .mdld g k a c => issue (.mdld g k a c) g (bodyMdld k a c) s
  | .mdst g k a c => issue (.mdst g k a c) g (bodyMdst k a c) s
  | .route g m c => issue (.route g m c) g (bodyRoute m c) s
  | .routeTx g m c => issue (.routeTx g m c) g (bodyRouteTx m c) s
  | .mli g d v => issue (.mli g d v) g (bodyMli d v) s
  | .mliu g d v => issue (.mliu g d v) g (bodyMliu d v) s
  | .madd g d a b f => issue (.madd g d a b f) g (bodyMadd d a b f) s
  | .maddi g d a v => issue (.maddi g d a v) g (bodyMaddi d a v) s
  | .br g o => issue (.br g o) g (bodyBr o) s
  | .brl g o => issue (.brl g o) g (bodyBrl o) s
  | .brr g r => issue (.brr g r) g (bodyBrr r) s
  | .brrL g r => issue (.brrL g r) g (bodyBrrL r) s
  | .lset g l v k e => issue (.lset g l v k e) g (bodyLset l v k e) s
  | .lupd g l a v d => issue (.lupd g l a v d) g (bodyLupd l a v d) s
  | .ltrim g r c => issue (.ltrim g r c) g (bodyLtrim r c) s
  | .halt g => issue (.halt g) g (bodyHalt) s
  | .gop g d a b f => issue (.gop g d a b f) g (bodyGop d a b f) s
  | .cli g d v => issue (.cli g d v) g (bodyCli d v) s
  | .cget g d n => issue (.cget g d n) g (bodyCget d n) s
  | .cset g r n => issue (.cset g r n) g (bodyCset r n) s
  | .spawn g k e => issue (.spawn g k e) g (bodySpawn k e) s
  | .join g d => issue (.join g d) g (bodyJoin d) s
  | .spawnS g h e a m => issue (.spawnS g h e a m) g (bodySpawnS h e a m) s
  | .trap g v => issue (.trap g v) g (bodyTrap v) s
  | .chw g e r => issue (.chw g e r) g (bodyChw e r) s
  | .chwRel g e r => issue (.chwRel g e r) g (bodyChwRel e r) s
  | .chr g d e => issue (.chr g d e) g (bodyChr d e) s
  | .chrAcq g d e => issue (.chrAcq g d e) g (bodyChrAcq d e) s
  | .barSync g b r => issue (.barSync g b r) g (bodyBarSync b r) s
  | .barArr g b r => issue (.barArr g b r) g (bodyBarArr b r) s
  | .barWait g b r => issue (.barWait g b r) g (bodyBarWait b r) s
  | .coll g d r n p o => issue (.coll g d r n p o) g (bodyColl d r n p o) s
  | .cmbxMax g p h => issue (.cmbxMax g p h) g (bodyCmbxMax p h) s
  | .cmbxMerge g p h => issue (.cmbxMerge g p h) g (bodyCmbxMerge p h) s
  | .cmbxArmmax g p h => issue (.cmbxArmmax g p h) g (bodyCmbxArmmax p h) s
  | .cmbxArmmerge g p h => issue (.cmbxArmmerge g p h) g (bodyCmbxArmmerge p h) s
  | .sqOpen g b c => issue (.sqOpen g b c) g (bodySqOpen b c) s
  | .sqFeed g b c => issue (.sqFeed g b c) g (bodySqFeed b c) s
  | .sqFeedAcc g b c => issue (.sqFeedAcc g b c) g (bodySqFeedAcc b c) s
  | .sqMask g b c => issue (.sqMask g b c) g (bodySqMask b c) s
  | .sqFork g b c => issue (.sqFork g b c) g (bodySqFork b c) s
  | .sqRoll g b c => issue (.sqRoll g b c) g (bodySqRoll b c) s
  | .sqSampG g b c => issue (.sqSampG g b c) g (bodySqSampG b c) s
  | .sqSampP g b c => issue (.sqSampP g b c) g (bodySqSampP b c) s
  | .sqSampFin g b c => issue (.sqSampFin g b c) g (bodySqSampFin b c) s
  | .sqCommit g b c => issue (.sqCommit g b c) g (bodySqCommit b c) s
  | .sqFree g b c => issue (.sqFree g b c) g (bodySqFree b c) s
  | .sqFreeRec g b c => issue (.sqFreeRec g b c) g (bodySqFreeRec b c) s
  | .mig g k => issue (.mig g k) g (bodyMig k) s
  | .yield g => issue (.yield g) g (bodyYield) s
  | .snooze g r => issue (.snooze g r) g (bodySnooze r) s
  | .snoozeW g r => issue (.snoozeW g r) g (bodySnoozeW r) s
  | .sexit g => issue (.sexit g) g (bodySexit) s
  | .sail g l r => issue (.sail g l r) g (bodySail l r) s
  | .swait g r => issue (.swait g r) g (bodySwait r) s
  | .preempt g r => issue (.preempt g r) g (bodyPreempt r) s
  | .preemptKill g r => issue (.preemptKill g r) g (bodyPreemptKill r) s
  | .ctxsv g r n => issue (.ctxsv g r n) g (bodyCtxsv r n) s
  | .ctxld g r n => issue (.ctxld g r n) g (bodyCtxld r n) s
  | .qpop g b => issue (.qpop g b) g (bodyQpop b) s
  | .qpush g q b => issue (.qpush g q b) g (bodyQpush q b) s
  | .qpushCfg g q b => issue (.qpushCfg g q b) g (bodyQpushCfg q b) s
  | .pgenCap g p d => issue (.pgenCap g p d) g (bodyPgenCap p d) s
  | .pgenPub g p => issue (.pgenPub g p) g (bodyPgenPub p) s
  | .tlbm g r a => issue (.tlbm g r a) g (bodyTlbm r a) s
  | .ovfld g v => issue (.ovfld g v) g (bodyOvfld v) s
  | .ovfldSelf g v => issue (.ovfldSelf g v) g (bodyOvfldSelf v) s
  | _ => .ok s

end Sys2Proof.Machine
end

