-- ==== Sys2Proof/Machine/Bundle.lean ====
section
/-! DEFINITION. The issue of a bundle by a primary or a helm core: header checks, toll, slots in order, landings, loop ends,
bundle skip, stalls (03 R86, R87, R97, R99, R105, R106, R108 to R110, R120; 10 R310; 14 R397). -/

namespace Sys2Proof.Machine

/-! ### Headers (03 R86, R87) -/

/-- The default toll class of an opcode in a class (03 R100). -/
def defaultToll (k : SlotClass) (op : Nat) : Nat :=
  match k with
  | .a => if (0x08 ≤ op ∧ op ≤ 0x11) ∨ (0x13 ≤ op ∧ op ≤ 0x15) ∨ op = 0x17 ∨ (0x40 ≤ op ∧ op ≤ 0x49) ∨ (0x60 ≤ op ∧ op ≤ 0x62) then 1
    else if op = 0x16 then 2 else 0
  | .x => if op = 0x0E ∨ op = 0x0F ∨ op = 0x15 ∨ op = 0x16 ∨ op = 0x17 ∨ op = 0x19 then 1 else if op = 0x10 then 2 else 0
  | .f => if (0x01 ≤ op ∧ op ≤ 0x06) ∨ op = 0x0C ∨ op = 0x0F ∨ op = 0x10 then 1 else if op = 0x07 ∨ op = 0x08 then 2 else 0
  | .v => if (0x01 ≤ op ∧ op ≤ 0x14) ∨ op = 0x20 ∨ op = 0x21 then 2 else 0
  | .m => if 0x04 ≤ op ∧ op ≤ 0x0B then 3 else if op = 0x0C ∨ op = 0x0D then 1 else if op = 0x0E then 2 else 0
  | .c => if op = 0x06 ∨ op = 0x0C ∨ op = 0x0E ∨ op = 0x10 ∨ op = 0x11 ∨ (0x14 ≤ op ∧ op ≤ 0x1C) then 1 else if op = 0x13 then 2 else 0

/-- The opcode of a slot word (03 R88). -/
def opcodeOf (w : Code) : Nat := (w.extractLsb' 25 7).toNat

/-- The TOLL field of a slot in a header (03 R86). -/
def tollField (hdr : Code) (k : SlotClass) : Nat := (hdr.extractLsb' (8 + 2 * slotNo k) 2).toNat

/-- The occupied slots of a bundle with their word and extension word. -/
def pairSlots : List SlotClass → List Code → List (SlotClass × Code × Code)
  | [], _ => []
  | _, [] => []
  | k :: ks, w :: ws =>
    if twoWords k w then match ws with
      | e :: ws => (k, w, e) :: pairSlots ks ws
      | [] => [(k, w, 0)]
    else (k, w, 0) :: pairSlots ks ws

/-- The slot operations of a bundle. -/
def Bundle.slots (b : Bundle) : List (SlotClass × Code × Code) := pairSlots (occupied b.hdr) b.words

/-- The SKIP, LEND and LAND fields. -/
def Bundle.skip (b : Bundle) : Nat := (b.hdr.extractLsb' 20 3).toNat
/-- The LEND field. -/
def Bundle.lend (b : Bundle) : Nat := (b.hdr.extractLsb' 23 3).toNat
/-- The LAND field. -/
def Bundle.land (b : Bundle) : Bool := b.hdr.getLsbD 6

/-- A bad TOLL field: non-zero for an unoccupied slot, or below the default of its opcode (03 R87). -/
def badToll (b : Bundle) : Bool :=
  [SlotClass.a, .x, .f, .v, .m, .c].any fun k =>
    match b.slots.find? (·.1 == k) with
    | some (_, w, _) => decide (tollField b.hdr k < defaultToll k (opcodeOf w))
    | none => !b.hdr.getLsbD (slotNo k) && decide (tollField b.hdr k ≠ 0)

/-- The first header check that fails, as a cause (03 R87). -/
def headerCause (b : Bundle) : Option Nat :=
  if b.hdr.extractLsb' 26 6 ≠ 0 ∨ b.hdr.getLsbD 7 then some 1
  else if 5 ≤ b.lend then some 2
  else if b.overrun then some 7
  else if badToll b then some 3
  else none

/-- The weight of a toll class (10 R310). -/
def tollWeight (n : Nat) : Nat := [0, 1, 4, 16].getD n 0

/-- The cost of a bundle (10 R310). -/
def Bundle.cost (b : Bundle) : Nat := ((occupied b.hdr).map fun k => tollWeight (tollField b.hdr k)).foldl (· + ·) 0

/-! ### Slots (03 R97, R120) -/

/-- What became of the slots of a bundle. -/
inductive Slotted where
  | ok (s : State)
  | fault (slot : Nat) (word : Code) (code detail : Nat)
  | stall (cause : Nat) (act : StallAct) (full : Bool)
  deriving DecidableEq, Repr

/-- The entries of lq and sq that an operation reserves, and those that it pops, where it takes effect (04 R127, R128). -/
def queueUse (k : SlotClass) (i : Instr) : (Nat × Nat) × (Nat × Nat) :=
  let us := i.regUse
  let count (d : Bool) (r : BitVec 5) : Nat := if k = .x ∨ k = .f then (us.filter fun u => u.dest == d && u.reg == r).length else 0
  match i with
  | .ldB _ d _ _ _ | .ldH _ d _ _ _ | .ldW _ d _ _ _ | .ldD _ d _ _ _ | .ldb _ d _ _ _ _ => ((if d = 0 then 1 else 0, 0), (0, 0))
  | .stB _ d _ _ _ | .stH _ d _ _ _ | .stW _ d _ _ _ | .stD _ d _ _ _ | .stb _ d _ _ _ => ((0, 0), (0, if d = 0 then 1 else 0))
  | .amoW _ _ _ _ _ | .amoD _ _ _ _ _ => ((1, 0), (0, 0))
  | .chw _ _ r | .chwRel _ _ r => ((0, 0), (if r = 30 then 1 else 0, 0))
  | .cp _ d src _ f => ((0, if (k = .x ∨ k = .f) ∧ d = 31 then 1 else 0), (if (f = 1 ∨ f = 2) ∧ src = 30 then 1 else 0, 0))
  | _ => ((0, count true 31), (count false 30, 0))

/-- The queues as they would be with a stalled operation's own entries (04 R127). -/
def withQueueUse (s : State) (k : SlotClass) (i : Instr) (g : BitVec 4) : State :=
  let ((lr, sr), (lp, sp)) := queueUse k i
  let more (l : List QEntry) (n m : Nat) : List QEntry := l.drop n ++ List.replicate m { id := 0, val := none }
  if s.guard g then s.modOwn fun c => { c with queues := { c.queues with lq := more c.queues.lq lp lr, sq := more c.queues.sq sp sr } } else s

/-- A queue has more than 32 entries reserved (04 R127). -/
def Core.queueFull (c : Core) : Bool := decide (32 < c.queues.lq.length ∨ 32 < c.queues.sq.length)

/-- The destinations that a bundle has written so far: results of this cycle's issue, and the loop registers of an lset. -/
def written (c : Core) (slot : Nat → Bool) : List Dest :=
  ((c.pipe.pend.filter fun r => r.issue == c.run.t && slot r.slot).map (·.dest)) ++
    (if slot 5 then c.pipe.eoc.flatMap fun e => match e with
      | .lset l _ _ => Dest.c (BitVec.ofNat 4 (8 + l.toNat)) :: (if l = 0 then (List.range 8).map fun i => Dest.g (BitVec.ofNat 4 (8 + i)) else [])
      | _ => []
    else [])

/-- A slot has written what an earlier slot of its bundle wrote, or the counter of the active level that the bundle ends (03 R97). -/
def doubleWrite (c : Core) (slot : Nat) (lend : Option Nat) : Bool :=
  let mine := written c (· == slot)
  let others := written c (fun n => decide (n < slot))
  mine.any fun d => others.contains d || match lend with
    | some n => d == .c (BitVec.ofNat 4 (8 + n)) || (n == 0 && d == .c 12)
    | none => false

/-- The slots of a bundle in order, over the state so far. The first fault decides; of several stalls the lowest cause (14 R397), and whether the bundle
would leave more than 32 entries reserved. Of two slots that pop lq the earlier takes the head: 03 R92 orders X, F, V and M so, and for a cp of slot A, before these,
and one of slot C, after them, the model goes on in that order (DESIGN CHOICE, log 74). -/
def runSlots (lend : Option Nat) : List (SlotClass × Code × Code) → State → Option (Nat × StallAct) → Slotted
  | [], s, none => .ok s
  | [], s, some (c, a) => .stall c a s.own.queueFull
  | (k, w, e) :: rest, s, st =>
    let s := { s with cur := { s.cur with slot := slotNo k, word := w } }
    match agentFault s k (opcodeOf w) with
    | some (code, detail) => .fault (slotNo k) w code detail
    | none =>
      match decodeSlot k w e with
      | .error .illegalOpcode => .fault (slotNo k) w 0x01 4
      | .error (.operand n) => let f := leaseFirst s k (opcodeOf w) (w.extractLsb' 21 4) (0x02, n); .fault (slotNo k) w f.1 f.2
      | .ok i =>
        match slotRes i s with
        | .fault code detail => .fault (slotNo k) w code detail
        | .stall c a => runSlots lend rest (withQueueUse s k i (w.extractLsb' 21 4)) (some (match st with | some (c', a') => if c' ≤ c then (c', a') else (c, a) | none => (c, a)))
        | .ok s' =>
          if doubleWrite s'.own (slotNo k) lend then .fault (slotNo k) w 0x01 5
          else runSlots lend rest s' st

/-- The level that a bundle ends, where it is active (03 R105). -/
def activeLend (c : Core) (b : Bundle) : Option Nat :=
  if b.lend = 0 then none
  else if (c.pipe.loops.toList.getD (b.lend - 1) {}).active then some (b.lend - 1) else none

/-! ### Landings (03 R108 to R110) -/

/-- The conditions of a true landing at the start of a cycle (03 R108): one macro command that has started may run on (07 R262). -/
def Core.trueLanding (c : Core) : Bool :=
  c.pipe.pend.isEmpty && c.queues.lq.isEmpty && c.queues.sq.isEmpty && c.run.lease == 0
    && c.flight.all (fun f => f.engine == .lighter || f.engine == .sequence || f.engine == .pilot || f.engine == .stepping || f.engine == .collective)
    && (c.flight.filter fun f => f.engine == .stepping).length ≤ 1
    && c.ports.all (!·.bound)

/-- The landing action of an issued or skipped landing bundle: LCNT is cleared, or a false landing is counted and recorded. -/
def landAction (c : Core) (isTrue : Bool) (addr : Nat) : Core :=
  if isTrue then { c with run := { c.run with lcnt := 0 } }
  else { c with obs := ({ c.obs with fland := c.obs.fland + 1 }).drift 0 6 addr }

/-- Berths of slots that a header leaves empty (05 R164). -/
def openBerths (hdr : Code) : BitVec 3 :=
  BitVec.ofNat 3 ((if hdr.getLsbD 0 then 0 else 1) + (if hdr.getLsbD 1 then 0 else 2) + (if hdr.getLsbD 5 then 0 else 4))

/-- The berths of a cycle are set (05 R164). -/
def Core.setBerths (c : Core) (b : BitVec 3) : Core := { c with barrel := { c.barrel with berths := b } }

/-! ### Issue -/

/-- The words of a bundle, its header included. -/
def Bundle.size (b : Bundle) : Nat := 1 + b.words.length

/-- The cursor of a bundle of core p. -/
def State.atBundle (s : State) (p addr size : Nat) : State :=
  { s with cur := { agent := .core p, addr := addr, size := size, slot := 6, word := 0, mates := some ((s.core p).nextFlight, (s.core p).remotes.length) } }

/-- Whether the bundle is the last of its segment. -/
def Fetch.isLast (f : Fetch) (side : Bool) (b : Bundle) : Bool :=
  match f.half side with
  | some g => match g.bundles.getLast? with | some l => l.addr == b.addr | none => false
  | none => false

/-- The header's actions after the slots: landing credit, loop end, the next bundle, halt (03 R99, R105, R108, R112). -/
def commit (c : Core) (p : Nat) (side : Bool) (b : Bundle) (isTrue : Bool) : Core :=
  let c := c.endStall p
  let c := if b.land ∧ ¬ isHelm p then landAction c isTrue b.addr else c
  let f := c.fetch
  let back := match activeLend c b with
    | some n => if f.taken.isNone ∧ ¬ c.run.halting then some (BitVec.ofNat 2 n) else none
    | none => none
  let f' : Fetch := match f.taken with
    | some a => { f with side := side, pc := a, fell := false, taken := none }
    | none => { f with side := side, pc := b.addr + 4 * b.size, fell := f.isLast side b }
  { c with
    fetch := f'
    pipe := { c.pipe with back := back }
    dbg := { c.dbg with pass := false }
    run := { c.run with moved := true, spawnAt := none, arrived := false, halted := c.run.halted || c.run.halting,
                        live := c.run.live && !c.run.halting, halting := false } }

/-- The bundle raises a fault: nothing of it takes effect (03 R120). -/
def bundleFault (s : State) (p : Nat) (addr slot : Nat) (word : Code) (code detail : Nat) : State :=
  takeFault { s with cur := { agent := .core p, addr := addr, size := 1, slot := slot, word := word } } code detail

/-- A stalled cycle of core p at a bundle. -/
def bundleStall (s : State) (p addr cause : Nat) (act : StallAct) : State :=
  stallCore s p cause addr act

/-- A marked core halts before a true landing, which it issues first when it resumes (03 R110). -/
def preemptHalt (s : State) (p : Nat) : State :=
  s.modCore p fun c =>
    let c := c.endStall p
    { c with
      run := { c.run with stopped := 1, moved := true, haltAt := c.run.t }
      note := { c.note with stall := 0 }
      barrel := { c.barrel with berths := 0 } }

/-- A marked core whose bundle waits in a barrier or a chr halts there where everything but LAND is given (10 R321). -/
def stallLanding (c : Core) (b : Bundle) (cause : Nat) : Bool :=
  let waits (w : Code) : Bool :=
    (cause == 13 && opcodeOf w == 0x11) || (cause == 14 && opcodeOf w == 0x12 && (w.extractLsb' 3 2).toNat != 1)
  let stalled := match c.run.stall with | some r => r.cause == cause && r.bundle == b.addr | none => false
  c.run.preempt && stalled && c.trueLanding && b.slots.any fun x => x.1 == .c && waits x.2.1

/-- The note of an issued bundle (14 R401). -/
def issueNote (c : Core) (b : Bundle) (isTrue : Bool) : Core :=
  { c with note := { c.note with cost := b.cost, stall := 0, iss := true, occ := (b.hdr.extractLsb' 0 6).toNat, tland := b.land && isTrue } }

/-- LCNT has reached LANDB (03 R109). -/
def Core.overdue (c : Core) (p : Nat) : Bool := !isHelm p && decide (c.ctl.landb ≤ c.run.lcnt)

/-- A bundle issues, faults or stalls (03 R86, R87, R120; 10 R310). One that stalls while it is overdue raises that fault, a true landing too (03 R109), unless the toll
alone holds it, which causes no such fault (10 R311). -/
def issueBundle (s : State) (p : Nat) (side : Bool) (b : Bundle) : State :=
  let s := s.modCore p (·.setBerths (openBerths b.hdr))
  let c := s.core p
  match headerCause b with
  | some cause => bundleFault s p b.addr 6 0 0x01 cause
  | none =>
    let poor := ¬ isHelm p ∧ c.ctl.purse < b.cost
    let st : Option (Nat × StallAct) := if poor then some (16, .none) else none
    match runSlots (activeLend c b) b.slots (s.atBundle p b.addr b.size) none with
    | .fault slot word code detail => bundleFault s p b.addr slot word code detail
    | .stall cause act full =>
      if ¬ (full ∧ 2 < cause) ∧ stallLanding c b cause then preemptHalt s p
      else if c.overdue p then bundleFault s p b.addr 6 0 0x05 c.run.lcnt
      else if full ∧ 2 < cause then bundleStall s p b.addr 2 .none
      else if st.isSome ∧ 16 < cause then bundleStall s p b.addr 16 .none else bundleStall s p b.addr cause act
    | .ok s' =>
      if s'.own.queueFull then (if c.overdue p then bundleFault s p b.addr 6 0 0x05 c.run.lcnt else bundleStall s p b.addr 2 .none)
      else if poor then bundleStall s p b.addr 16 .none
      else s'.modCore p fun c' =>
        let c' := if isHelm p then c' else { c' with ctl := { c'.ctl with purse := c'.ctl.purse - b.cost } }
        issueNote (commit c' p side b c.trueLanding) b c.trueLanding

/-- The skip bit that a bundle names is 1 as it stood at the end of t − 2 (03 R106). -/
def Core.skips (c : Core) (b : Bundle) : Bool := b.skip != 0 && c.pipe.sk2.getLsbD b.skip

/-- The core is due to issue in this cycle. -/
def Core.due (c : Core) : Bool := c.run.live && !c.run.halted && !c.run.moved && c.run.stopped == 0

/-- The next bundle issues, unless it is to be skipped, or is overdue and not a true landing; what is wrong with its fetch or its header comes before that
(03 R120). -/
def tryIssue (s : State) (p : Nat) : State :=
  let c := s.core p
  match c.nextBundle with
  | .miss => bundleStall s p c.nextBaddr 1 .none
  | .fault code detail => bundleFault s p c.nextBaddr 6 0 code detail
  | .bundle side b =>
    if c.skips b then s
    else if c.run.preempt ∧ b.land ∧ c.trueLanding then preemptHalt s p
    else if c.overdue p ∧ ¬ (b.land ∧ c.trueLanding) ∧ (headerCause b).isNone then s
    else issueBundle s p side b

/-- BUNDLE_ISSUE: the next bundle of a core that is not in a stall run (03 R86). -/
def execBundleIssue (p : Nat) (s : State) : Host.Outcome State Fault Refusal :=
  .next (if (s.core p).due ∧ (s.core p).run.stall.isNone then tryIssue s p else s)

/-- STALL_END: a stalled bundle tries again; where its wait is satisfied it issues and its stall run ends, else the run
grows by this cycle (14 R397). -/
def execStallEnd (p : Nat) (s : State) : Host.Outcome State Fault Refusal :=
  .next (if (s.core p).due ∧ (s.core p).run.stall.isSome then tryIssue s p else s)

/-- A skipped bundle (03 R106): its cycle passes, its berths are open, its LEND and LAND act. -/
def skipBundle (s : State) (p : Nat) (side : Bool) (b : Bundle) : State :=
  s.modCore p fun c =>
    let t := c.trueLanding
    let c := (commit { c with fetch := { c.fetch with taken := none } } p side b t).setBerths 7
    { c with note := { c.note with skip := true, tland := b.land && t } }

/-- BUNDLE_SKIP: the next bundle, where its skip bit is 1 (03 R106). -/
def execBundleSkip (p : Nat) (s : State) : Host.Outcome State Fault Refusal :=
  let c := s.core p
  match c.nextBundle with
  | .bundle side b =>
    if c.due ∧ c.skips b then
      (if c.run.preempt ∧ b.land ∧ c.trueLanding then .next (preemptHalt s p)
       else match headerCause b with
        | some cause => .next (bundleFault s p b.addr 6 0 0x01 cause)
        | none => .next (skipBundle s p side b))
    else .next s
  | _ => .next s

/-- LANDING_OVERDUE: LCNT has reached LANDB and the bundle due this cycle is no true landing; it raises the fault (03 R109), unless its fetch or its header
has a fault, which is the one reported (03 R120). -/
def execLandingOverdue (p : Nat) (s : State) : Host.Outcome State Fault Refusal :=
  let c := s.core p
  if ¬ (c.due ∧ c.overdue p) then .next s
  else match c.nextBundle with
    | .bundle _ b =>
      if (b.land ∧ c.trueLanding) ∨ (headerCause b).isSome then .next s else .next (bundleFault s p b.addr 6 0 0x05 c.run.lcnt)
    | .miss => .next (bundleFault s p c.nextBaddr 6 0 0x05 c.run.lcnt)
    | .fault _ _ => .next s

end Sys2Proof.Machine
end

