-- ==== Sys2Proof/Machine/Skiffs.lean ====
section
/-! DEFINITION. The barrel: fetch buffers, grants, port requests, completions, the skiff cache and TLB at work, migration, and the end
of a core's part of its sailing (05 R162 to R185). -/

namespace Sys2Proof.Machine

/-! ### Faults after the grant -/

/-- A fault that an operation raises after its grant: the record names the operation, its slot and the cycle of the grant (05 R184). -/
def lateFault (s : State) (p : Nat) (j : BitVec 3) (code detail : Nat) : State :=
  let k := s.skiff p j
  let s := { s with freeIx := s.freeIx + 1 }
  match k.last with
  | some b =>
    let slot := match occupied b.hdr with | y :: _ => slotNo y | [] => 6
    skiffFault s p j k.granted b.addr slot (b.words.headD 0) code detail
  | none => skiffFault s p j k.granted k.pc 6 0 code detail

/-- An operation has still to access memory. -/
def SkWait.accessing (w : SkWait) : Bool := match w with | .port _ _ | .walk _ _ _ _ _ _ | .fill _ _ _ _ | .home _ _ _ _ _ _ | .drain _ _ _ => true | _ => false

/-- A failed fetch: SLOT 6, OPWORD 0, and the address that failed (03 R121, 05 R160). The operation before it keeps its effect (05 R184): while that has still to access
memory, the fetch is tried again. -/
def fetchFault (s : State) (p : Nat) (j : BitVec 3) (va : Nat) : State :=
  if (s.skiff p j).wait.accessing then s else skiffFault s p j (s.core p).run.t (s.skiff p j).pc 6 0 0x0B va

/-! ### The skiff TLB and cache -/

/-- The translation of a virtual address that the skiff TLB holds. -/
def Barrel.lookup (b : Barrel) (va : Nat) : Option TlbEntry := b.tlb.find? (·.covers va)

/-- A translation becomes the most recent of the 256 (05 R175). -/
def Barrel.useTlb (b : Barrel) (e : TlbEntry) : Barrel :=
  { b with tlb := (e :: b.tlb.filter fun x => x.va ≠ e.va ∨ x.bits ≠ e.bits).take 256 }

/-- A line becomes the most recent. -/
def Barrel.useLine (b : Barrel) (l : Line) : Barrel := { b with cache := l :: b.cache.filter fun x => x.line ≠ l.line }

/-- Whether the bytes [o, o + n) of a line are valid. -/
def Line.holds (l : Line) (o n : Nat) : Bool := l.valid &&& spanMask o n == spanMask o n

/-- The bytes [o, o + n) of a line. -/
def Line.bytes (l : Line) (o n : Nat) : Nat := l.data.toNat / 2 ^ (8 * o) % 2 ^ (8 * n)

/-- Whether any word of the bytes [o, o + n) of a line is poisoned. -/
def Line.poisoned (l : Line) (o n : Nat) : Bool := (wordsOf o n).any fun w => l.bad.getLsbD w

/-- Context j's misses gain 1 (05 R186). -/
def Barrel.missed (b : Barrel) (j : BitVec 3) : Barrel :=
  { b with cnt := b.cnt.setIfInBounds j.toNat (let k := b.cnt.toList.getD j.toNat {}; { k with miss := k.miss + 1 }) }

/-- A miss of a line: its fill starts where fewer than 8 are under way, else it waits for a slot; a line that is being filled, or waits,
is requested once (05 R176). The first 8 entries of `fills` are under way. -/
def Barrel.fill (b : Barrel) (line : Nat) : Barrel :=
  if b.fills.contains line then b
  else { b with fills := b.fills ++ [line], cacheMiss := if b.fills.length < 8 then b.cacheMiss + 1 else b.cacheMiss }

/-- A line as its fill leaves it: bytes that are dirty in the cache stay (05 R174). -/
def filledLine (s : State) (p line : Nat) : Line :=
  let fresh := BitVec.ofNat 512 (s.readVia (dieOf p) (64 * line) 64)
  let bad := BitVec.ofNat 8 ((List.range 8).foldl (fun z i => if s.poisoned (64 * line + 8 * i) then z + 2 ^ i else z) 0)
  match (s.core p).barrel.line (64 * line) with
  | none => ⟨line, fresh, BitVec.allOnes 64, 0, bad⟩
  | some l =>
    let m := byteMask l.dirty
    let whole (i : Nat) : Bool := l.dirty.extractLsb' (8 * i) 8 == 0xFF
    ⟨line, (fresh &&& ~~~m) ||| (l.data &&& m), BitVec.allOnes 64, l.dirty,
      (List.range 8).foldl (fun z i => if whole i then z &&& ~~~(1#8 <<< i) else z) bad⟩

/-- An sld of a line that holds its bytes: the result lands when the operation completes; a poisoned word faults (05 R173). -/
def loadLine (s : State) (p : Nat) (j : BitVec 3) (l : Line) (va pa w done : Nat) (dst : BitVec 5) : State :=
  if l.poisoned (pa % 64) w then lateFault s p j 0x0B va
  else (s.modBarrel p (·.useLine l)).modSkiff p j fun k =>
    { k with wait := .until done, landS := k.landS ++ [(dst, BitVec.ofNat 64 (l.bytes (pa % 64) w))] }

/-- An sst into the skiff cache: the bytes written are valid and dirty; a miss allocates the line with those bytes alone (05 R173, R174). -/
def storeLine (s : State) (p pa w : Nat) (v : Word) : State :=
  let m := spanMask (pa % 64) w
  let bits : BitVec 512 := BitVec.ofNat 512 (v.toNat % 2 ^ (8 * w) * 2 ^ (8 * (pa % 64)))
  let put (l : Line) : Line :=
    let dirty := l.dirty ||| m
    { l with data := (l.data &&& ~~~(byteMask m)) ||| bits, valid := l.valid ||| m, dirty := dirty,
             bad := (List.range 8).foldl (fun z i => if m.extractLsb' (8 * i) 8 = 0xFF then z &&& ~~~(1#8 <<< i) else z) l.bad }
  match (s.core p).barrel.line pa with
  | some l => s.modBarrel p (·.useLine (put l))
  | none =>
    let s := { s with freeIx := s.freeIx + 1 }
    insertLine s p (put ⟨pa / 64, 0, 0, 0, 0⟩)

/-- The first address of a core's special-function request page (15 R405, R406). -/
def requestPage (p : Nat) : Nat := dieBase (dieOf p) + 0x4000000 + 0x20000 * (p % 96) + 0x10000

/-- Whether a samo is a request to its core's special-function unit: samo.d.swap of its request page (06 R220). -/
def isRequest (p : Nat) (k : SkGlobal) (pa w : Nat) : Bool :=
  k == .samo 0 && w == 8 && decide (requestPage p ≤ pa) && decide (pa < requestPage p + 0x10000)

/-- A translated global access, as if granted in this cycle (05 R173, R175): an access that the leaf or the map forbids faults. -/
def globalAccess (s : State) (p : Nat) (j : BitVec 3) (e : TlbEntry) (k : SkGlobal) (va w : Nat) (v v2 : Word) (dst : BitVec 5) : State :=
  let t := (s.core p).run.t
  let ok : Bool := match k with | .sld => e.rd | .sst => e.w | .samo _ => e.rd && e.w
  let s := s.modBarrel p (·.useTlb e)
  match e.translate (if k = .sst then .write else .read) va with
  | none => lateFault s p j 0x0B va
  | some pa =>
    if ¬ ok ∨ (isControl pa ∧ ¬ isRequest p k pa w) then lateFault s p j 0x0B va
    else match k with
    | .sst =>
      let s := if ((s.core p).barrel.line pa).isNone then s.modBarrel p (·.missed j) else s
      (storeLine s p pa w v).modSkiff p j fun x => { x with wait := .until (t + 2) }
    | .samo _ => s.modSkiff p j fun x => { x with wait := .home k pa w v v2 dst, way := { at_ := s.wall } }
    | .sld =>
      match (s.core p).barrel.line pa with
      | some l =>
        if l.holds (pa % 64) w then loadLine s p j l va pa w (t + 4) dst
        else (s.modBarrel p fun b => (b.missed j).fill (pa / 64)).modSkiff p j fun x => { x with wait := .fill va pa w dst }
      | none => (s.modBarrel p fun b => (b.missed j).fill (pa / 64)).modSkiff p j fun x => { x with wait := .fill va pa w dst }

/-- A global access at its grant: it goes on where the TLB holds its translation, else the miss is counted and it waits for its walk. -/
def globalStep (s : State) (p : Nat) (j : BitVec 3) : State :=
  match (s.skiff p j).wait with
  | .walk k va w v v2 dst =>
    match (s.core p).barrel.lookup va with
    | some e => globalAccess s p j e k va w v v2 dst
    | none => (s.modBarrel p fun b => { b with tlbMiss := b.tlbMiss + 1 }).modSkiff p j fun k => { k with way := { at_ := s.wall } }
  | _ => s

/-- A samo performs at its line's home; the line leaves the skiff cache, its dirty bytes written back first (05 R173). A request to
the special-function unit is answered by it (06 R220). A poisoned word reads as 0 and is counted, at the die of its stacks (15 R407, R415). -/
def homeAtomic (s : State) (p : Nat) (j : BitVec 3) (k : SkGlobal) (pa w : Nat) (v v2 : Word) (dst : BitVec 5) : State :=
  let t := (s.core p).run.t
  let answer (s : State) (old : Nat) : State := s.modSkiff p j fun x =>
    { x with wait := .until t, landS := x.landS ++ [(dst, BitVec.ofNat 64 old)] }
  if isControl pa then
    let oc := match (s.skiff p j).last with | some b => ((b.words.headD 0).extractLsb' 0 4).toNat | none => 0
    let (r, s) := sfuRequest s p j v oc
    answer s r
  else
    let s := match (s.core p).barrel.line pa with
      | some l => (if l.dirty = 0 then s else (writeLine s p l).modBarrel p fun b => { b with wbLines := b.wbLines + 1 }).modBarrel p fun b =>
          { b with cache := b.cache.filter fun x => x.line ≠ l.line }
      | none => s
    let old := s.seenWord pa w
    let s := (s.countPoisonAt pa w).observe p 16 pa w
    let op := match k with | .samo o => o | _ => 0
    answer (s.writeBy (.core p 16) false pa (amoNew op w old (v.toNat % 2 ^ (8 * w)) v2.toNat) w) old

/-! ### Fetch (05 R163, R175, R176) -/

/-- One word of skiff code: there, wanting a walk or a line, or failed. -/
inductive SkWord where
  | word (v : Code)
  | walk (va : Nat)
  | miss (line : Nat)
  | bad (va : Nat)
  deriving DecidableEq, Repr

/-- The code word at a virtual address as a skiff of core p finds it. -/
def skiffWord (s : State) (p va : Nat) : SkWord :=
  let c := s.core p
  match windowOf c va with
  | some none => .bad va
  | some (some (l, a)) =>
    let q := s.coreAt p l
    let pa := spadBase q + (s.core q).visible a
    if ¬ c.inside a 4 ∨ s.poisoned pa then .bad va else .word (BitVec.ofNat 32 (s.read pa 4))
  | none =>
    match c.barrel.lookup va with
    | none => .walk va
    | some e =>
      match e.translate .fetch va with
      | none => .bad va
      | some pa =>
        if isControl pa then .bad va
        else match c.barrel.line pa with
          | none => .miss (pa / 64)
          | some l =>
            if ¬ l.holds (pa % 64) 4 then .miss (pa / 64)
            else if l.poisoned (pa % 64) 4 then .bad va
            else .word (BitVec.ofNat 32 (l.bytes (pa % 64) 4))

/-- The classes of a skiff bundle's OCC (05 R162): exactly one of A, X and C. -/
def skiffClass (hdr : Code) : Option SlotClass :=
  match occupied hdr with
  | [.a] => some .a
  | [.x] => some .x
  | [.c] => some .c
  | _ => none

/-- A fetch: the bundle, or the first word that is not there. -/
def skiffBundle (s : State) (p pc : Nat) : Except SkWord Bundle :=
  match skiffWord s p pc with
  | .word hdr =>
    match skiffClass hdr with
    | none => .ok { addr := pc, hdr := hdr, words := [] }
    | some k =>
      match skiffWord s p (pc + 4) with
      | .word w =>
        if twoWords k w then
          match skiffWord s p (pc + 8) with
          | .word e => .ok { addr := pc, hdr := hdr, words := [w, e] }
          | x => .error x
        else .ok { addr := pc, hdr := hdr, words := [w] }
      | x => .error x
  | x => .error x

/-- The translation and the line that a code word is read through become the most recent (05 R174, R175). -/
def useCode (s : State) (p va : Nat) : State :=
  match windowOf (s.core p) va, (s.core p).barrel.lookup va with
  | none, some e =>
    let s := s.modBarrel p (·.useTlb e)
    (match (e.translate .fetch va).bind (s.core p).barrel.line with
    | some l => s.modBarrel p (·.useLine l)
    | none => s)
  | _, _ => s

/-- Context j of core p refills its fetch buffer (05 R163): its first miss of a line, or of the TLB, is counted and starts a fill or a walk. -/
def refillBuffer (s : State) (p : Nat) (j : BitVec 3) : State :=
  let k := s.skiff p j
  match skiffBundle s p k.pc with
  | .ok b =>
    ((List.range b.size).foldl (fun s i => useCode s p (k.pc + 4 * i)) s).modSkiff p j fun k =>
      { k with buf := some b, fetchWait := none }
  | .error (.walk va) =>
    if k.fetchWait = some (true, va) then s
    else (s.modBarrel p fun b => { b with tlbMiss := b.tlbMiss + 1 }).modSkiff p j fun k =>
      { k with fetchWait := some (true, va), fetchWay := { at_ := s.wall } }
  | .error (.miss line) =>
    if k.fetchWait = some (false, line) then s.modBarrel p (·.fill line)
    else (s.modBarrel p fun b => (b.missed j).fill line).modSkiff p j fun k => { k with fetchWait := some (false, line) }
  | .error (.bad va) => fetchFault s p j va
  | .error (.word _) => s

/-- A wait that keeps the PC on its operation, or takes the skiff away: no fetch begins. -/
def SkWait.leaving (w : SkWait) : Bool := match w with | .migrate _ _ => true | _ => false

/-- SKIFF_FETCH (05 R163): from the cycle after the grant the empty fetch buffer of context j is refilled. -/
def execSkiffFetch (p j : Nat) (s : State) : Host.Outcome State Fault Refusal :=
  let j := BitVec.ofNat 3 j
  let k := s.skiff p j
  .next (if k.occupied ∧ k.buf.isNone ∧ ¬ k.wait.leaving ∧ k.fetchAt ≤ (s.core p).run.t then refillBuffer s p j else s)

/-- The links that the walk of a context's access, or its samo, passes, there and back (10 R307). -/
def Skiff.links (k : Skiff) (s : State) (p : Nat) : List Nat :=
  match k.wait with
  | .walk _ va _ _ _ _ => walkLinks s.pteWord (dieOf p) (s.core p).ctl.ptroot va
  | .home _ pa _ _ _ _ => if isControl pa then [] else pathOver [.core p, homeOf pa, .core p]
  | _ => []

/-- The links that the walk of a context's fetch passes. -/
def Skiff.fetchLinks (k : Skiff) (s : State) (p : Nat) : List Nat :=
  match k.fetchWait with
  | some (true, va) => walkLinks s.pteWord (dieOf p) (s.core p).ctl.ptroot va
  | _ => []

/-- SKIFF_TLB_WALK_RESULT (05 R175): the walk of context j's access, or of its fetch, arrives, its flits having passed the links on its way (10 R307); where both may
the choice is free. The access counts as granted, or the fetch as begun, in this cycle; a walk that fails faults. -/
def execSkiffTlbWalkResult (p j : Nat) (s : State) : Host.Outcome State Fault Refusal :=
  let j := BitVec.ofNat 3 j
  let k := s.skiff p j
  let root := (s.core p).ctl.ptroot
  let fetch (s : State) (va : Nat) : State :=
    match s.walk root va with
    | none => fetchFault s p j va
    | some e => (s.modBarrel p (·.useTlb e)).modSkiff p j fun k => { k with fetchAt := (s.core p).run.t, fetchWait := none }
  let first := Config.moment s.freeIx
  let s := { s with freeIx := s.freeIx + 1 }
  let access (s : State) (op : SkGlobal) (va w : Nat) (v v2 : Word) (dst : BitVec 5) : State :=
    match s.walk root va with
    | none => lateFault s p j 0x0B va
    | some e => globalAccess s p j e op va w v v2 dst
  let come := k.way.over (k.links s p)
  let found := k.fetchWay.over (k.fetchLinks s p)
  .next (if ¬ k.occupied then s
    else match k.wait, k.fetchWait with
    | .walk op va w v v2 dst, some (true, fva) =>
      if found ∧ (first ∨ ¬ come) then fetch s fva else if come then access s op va w v v2 dst else s
    | .walk op va w v v2 dst, _ => if come then access s op va w v v2 dst else s
    | _, some (true, fva) => if found then fetch s fva else s
    | _, _ => s)

/-- SKIFF_CACHE_FILL (05 R176): a line under way arrives: it enters the cache, every sld that waits on it completes, and a waiting miss takes
the slot. Which of the lines under way arrives is free. -/
def execSkiffCacheFill (p : Nat) (s : State) : Host.Outcome State Fault Refusal :=
  let fills := (s.core p).barrel.fills
  let n := Nat.min 8 fills.length
  let (f, s) := s.free
  match fills[f.toNat % n]? with
  | none => .next s
  | some line =>
    let l := filledLine s p line
    let s := insertLine ((s.observe p 16 (64 * line) 64).keepReplica (dieOf p) (64 * line)) p l
    let s := s.modBarrel p fun b => { b with
      fills := b.fills.filter (· ≠ line), cacheMiss := if 8 < b.fills.length then b.cacheMiss + 1 else b.cacheMiss }
    .next ((List.range 8).foldl (fun s i =>
      let j := BitVec.ofNat 3 i
      match (s.skiff p j).wait with
      | .fill va pa w dst => if pa / 64 = line then loadLine s p j l va pa w (s.core p).run.t dst else s
      | _ => s) s)

/-! ### Berths and grants (05 R164, R165; 10 R310) -/

/-- The berths of this cycle (05 R164): those that the issuing or stalled bundle left open; all of them for a core that has halted or is
idle, or was when the cycle began and starts at its end (03 R118); none for one that a fault, a pre-emption or a debug stop holds, or while its segment is missing. -/
def Core.openNow (c : Core) : Core :=
  if c.run.faulted ∨ c.run.stopped ≠ 0 then { c with barrel := { c.barrel with berths := 0 } }
  else if c.run.moved then c
  else if c.run.halted ∨ ¬ c.run.live ∨ c.barrel.before.idle then c.setBerths 7
  else { c with barrel := { c.barrel with berths := 0 } }

/-- The berths of the cycle are counted as advertised (05 R186): those that neither a fault nor a halt of the cycle has taken back. -/
def Core.countBerths (c : Core) : Core :=
  { c with barrel := { c.barrel with openB := (List.range 3).foldl (fun v i =>
      if c.barrel.berths.getLsbD i then v.setIfInBounds i (v.toList.getD i 0 + 1) else v) c.barrel.openB } }

/-- The number of a class among the berths. -/
def berthNo (k : SlotClass) : Nat := match k with | .a => 0 | .x => 1 | _ => 2

/-- The first failed check of a skiff bundle's header, as a cause (05 R163). -/
def skiffHeaderCause (b : Bundle) : Option Nat :=
  if b.hdr.extractLsb' 26 6 ≠ 0 ∨ b.hdr.getLsbD 7 then some 1
  else if (skiffClass b.hdr).isNone ∨ b.land ∨ b.skip ≠ 0 ∨ b.lend ≠ 0 then some 11
  else if badToll b then some 3
  else none

/-- The bundle of a ready context: its previous operation has completed and its next bundle is in its fetch buffer (05 R163). -/
def Skiff.ready (k : Skiff) : Option Bundle := if k.occupied ∧ k.wait = .none then k.buf else none

/-- A granted bundle issues (05 R163, R167, R184): its operation takes effect or begins, faults, or finds no room and tries again. -/
def skiffIssue (s : State) (p : Nat) (j : BitVec 3) (b : Bundle) (k : SlotClass) : State :=
  let t := (s.core p).run.t
  let w := b.words.headD 0
  let s := { s with cur := { agent := .skiff p j, addr := b.addr, size := b.size, slot := slotNo k, word := w } }
  let s' := s.modSkiff p j fun x =>
    { x with pc := b.addr + 4 * b.size, buf := none, last := some b, granted := t, fetchAt := t + 1, fetchWait := none }
  match runSlots none [(k, w, (b.words.drop 1).headD 0)] s' none with
  | .fault slot word code detail => takeFault { s with cur := { s.cur with slot := slot, word := word } } code detail
  | .stall _ _ _ => s.modSkiff p j fun x => { x with wait := .until (t + 1), last := some b, granted := t }
  | .ok s => globalStep s p j

/-- A context that a berth of its class passes over: OWED (05 R165). -/
def Skiff.owe (k : Skiff) (t : Nat) : Skiff := if k.owed then k else { k with owed := true, owedAt := t }

/-- The candidates for a berth, in order (05 R165): the OWED ones by the age of their bit, then the others in rotation. -/
def candidates (b : Barrel) (t : Nat) (ready : Nat → Bool) : List Nat :=
  let rot := ((List.range 8).map fun i => (t + i) % 8).filter ready
  let ctx (i : Nat) := b.ctx.toList.getD i {}
  let owed := rot.filter fun i => (ctx i).owed
  let ages := (owed.map fun i => (ctx i).owedAt).eraseDups
  (sortBy (fun x y => decide (x ≤ y)) ages).flatMap (fun a => owed.filter fun i => (ctx i).owedAt = a) ++ rot.filter fun i => !(ctx i).owed

/-- One berth of class k is granted, if a ready context may take it: the grant is counted, TOLLS pays, the others are owed (05 R165). -/
def grantBerth (t : Nat) (start : List (Nat × Bundle)) (p : Nat) (s : State) (k : SlotClass) : State :=
  let n := berthNo k
  let c := s.core p
  let wants (i : Nat) : Option Bundle :=
    match start.find? (·.1 = i) with
    | some (_, b) => if skiffClass b.hdr = some k ∧ ((c.barrel.ctx.toList.getD i {}).cmask.getLsbD n) then some b else none
    | none => none
  let can (i : Nat) : Bool := match wants i with | some b => decide (b.cost ≤ c.ctl.tolls) | none => false
  match (if c.barrel.berths.getLsbD n then candidates c.barrel t can else []) with
  | [] => s
  | i :: _ =>
    match wants i with
    | none => s
    | some b =>
      let s := s.modCore p fun c =>
        { c with ctl := { c.ctl with tolls := c.ctl.tolls - b.cost }, note := { c.note with grant := c.note.grant ||| (1#3 <<< n) } }
      let s := s.modBarrel p fun r =>
        let q := r.cnt.toList.getD i {}
        let q := match n with | 0 => { q with a := q.a + 1 } | 1 => { q with x := q.x + 1 } | _ => { q with c := q.c + 1 }
        { r with usedB := r.usedB.setIfInBounds n (r.usedB.toList.getD n 0 + 1), cnt := r.cnt.setIfInBounds i q }
      let s := (List.range 8).foldl (fun s m =>
        if m = i then s.modSkiff p (BitVec.ofNat 3 m) fun x => { x with owed := false }
        else if (wants m).isSome then s.modSkiff p (BitVec.ofNat 3 m) fun x => x.owe t else s) s
      skiffIssue s p (BitVec.ofNat 3 i) b k

/-- A ready context whose bundle no berth can take faults (05 R163, R165): a bad header at the first open berth of any class; a class
outside CMASK at the first open berth of that class, with a cause that the spec does not name (free, DESIGN CHOICE, log 3). -/
def rejectBundle (s : State) (p : Nat) (x : Nat × Bundle) : State :=
  let j := BitVec.ofNat 3 x.1
  let berths := (s.core p).barrel.berths
  match skiffHeaderCause x.2, skiffClass x.2.hdr with
  | some cause, _ => if berths ≠ 0 then skiffFault s p j (s.core p).run.t (s.skiff p j).pc 6 0 0x01 cause else s
  | none, some k =>
    if berths.getLsbD (berthNo k) ∧ ¬ (s.skiff p j).cmask.getLsbD (berthNo k) then
      let (f, s) := s.free
      skiffFault s p j (s.core p).run.t (s.skiff p j).pc (slotNo k) (x.2.words.headD 0) 0x01 (f.toNat % 256)
    else s
  | none, none => s

/-- SKIFF_BARREL_GRANT (05 R164, R165): the cycle's open berths go to ready contexts, A, then X, then C; a context whose bundle has
faulted is not among them. -/
def execSkiffBarrelGrant (p : Nat) (s : State) : Host.Outcome State Fault Refusal :=
  let s := s.modCore p (·.openNow.countBerths)
  let b := (s.core p).barrel
  let ready := (List.range 8).filterMap fun i => ((b.ctx.toList.getD i {}).ready).map fun x => (i, x)
  let s := ready.foldl (fun s x => rejectBundle s p x) s
  let good (x : Nat × Bundle) : Bool :=
    (skiffHeaderCause x.2).isNone && ((s.core p).barrel.ctx.toList.getD x.1 {}).ready == some x.2
  .next ([SlotClass.a, .x, .c].foldl (grantBerth (s.core p).run.t (ready.filter good) p) s)

/-! ### Port requests (05 R171, R172) -/

/-- The port of context j's request is lost: nothing happens but the counts, and the skiff is ready again in the next cycle. -/
def forfeit (s : State) (p : Nat) (j : BitVec 3) (counted : Bool) : State :=
  let s := s.modSkiff p j fun k => { k with
    wait := .until (s.core p).run.t, buf := k.last, pc := (k.last.map (·.addr)).getD k.pc, fetchWait := none }
  if ¬ counted then s
  else (s.modCore p fun c => { c with run := { c.run with forfeited := true } }).modBarrel p fun b => { b with
    forfeit := b.forfeit + 1
    cnt := b.cnt.setIfInBounds j.toNat (let k := b.cnt.toList.getD j.toNat {}; { k with forfeit := k.forfeit + 1 }) }

/-- Whether a request reads. -/
def SkAccess.reads (a : SkAccess) : Bool := match a.kind with | .store | .stb | .frel => false | _ => true

/-- A request that holds its ports performs in this cycle (05 R167, R171, R172). -/
def portAccess (s : State) (p : Nat) (j : BitVec 3) (a : SkAccess) : State :=
  let t := (s.core p).run.t
  let done (s : State) (u : Nat) (rs : List (BitVec 5 × Word)) (gs : List (BitVec 4 × Bool)) : State :=
    s.modSkiff p j fun k => { k with wait := .until u, landS := k.landS ++ rs, landG := k.landG ++ gs }
  let s := if a.reads then countPoison s p a.span.1 a.span.2 else s
  let v := readSpad s p a.addr a.width
  let acquired (s : State) : State := if 2 ≤ a.scope then invalidateClean s p else s
  match a.kind with
  | .load => done s (t + 5) [(a.dst, BitVec.ofNat 64 v)] []
  | .store => done (writeSpad s false p a.addr a.val.toNat a.width) t [] []
  | .amo op => done (writeSpad s false p a.addr (amoNew op a.width v (a.val.toNat % 2 ^ (8 * a.width)) a.val2.toNat) a.width) (t + 7)
      [(a.dst, BitVec.ofNat 64 v)] []
  | .ldb sx => done s (if straddles a.addr a.width then t + 6 else t + 5) [(a.dst, extendBits sx (readBits s p a.addr a.width) a.width)] []
  | .stb => done (writeBits s false p a.addr a.width a.val.toNat) t [] []
  | .facqW => if v = a.val.toNat then done (acquired s) t [] [] else forfeit s p j false
  | .facqT => done (if v = a.val.toNat then acquired s else s) (t + 1) [] [(a.dst.truncate 4, v == a.val.toNat)]
  | .frel => done (writeSpad s false p a.addr a.val.toNat 8) t [] []

/-- A request at its port (05 R171): a ring whose refill has failed, or for a read a faulted half, faults it; a ring above its watermark or a lost port forfeits it. -/
def portRequest (s : State) (p : Nat) (j : BitVec 3) (a : SkAccess) : State :=
  let c := s.core p
  let (lo, n) := a.span
  let ring := c.watermark lo n
  match (if a.reads then c.halfFault lo n else none).orElse fun _ => ring.bind id with
  | some src => lateFault s p j 0x0B src
  | none =>
    if ring.isSome then forfeit s p j true
    else match s.takePorts p (portsOf (c.visible lo) n) with
      | none => forfeit s p j true
      | some s => portAccess s p j a

/-- A draining release or fence goes on when nothing that it waits for is left, at a time that cannot be counted (05 R167, 06 R220, 01 R41). -/
def drainStep (s : State) (p : Nat) (j : BitVec 3) (scope : Nat) (mask : BitVec 16) (a : Option SkAccess) : State :=
  let c := s.core p
  let go := decide ((s.skiff p j).granted < c.run.t) && !s.skiffOwed p j mask && !s.invalsHold p a.isSome scope mask && Config.moment s.freeIx
  let s := { s with freeIx := s.freeIx + 1 }
  if ¬ go then s
  else match a with
    | some a => portRequest s p j a
    | none => s.modSkiff p j fun k => { k with wait := .until c.run.t }

/-- SKIFF_PORT_REQUEST (05 R171): context j's request of the last cycle's grant is served, or forfeits; a release that drains asks for its port here when nothing that
it waits for is left. -/
def execSkiffPortRequest (p j : Nat) (s : State) : Host.Outcome State Fault Refusal :=
  let j := BitVec.ofNat 3 j
  match (s.skiff p j).wait with
  | .port a t => .next (if t ≤ (s.core p).run.t then portRequest s p j a else s)
  | .drain scope mask (some a) => .next (drainStep s p j scope mask (some a))
  | _ => .next s

/-! ### Completion (05 R167) -/

/-- The results of a completed operation land: registers (s0 ignores them) and guards. -/
def Skiff.complete (k : Skiff) : Skiff :=
  { k with
    wait := .none, landS := [], landG := []
    s := k.landS.foldl (fun v x => if x.1 = 0 then v else v.setIfInBounds x.1.toNat x.2) k.s
    g := k.landG.foldl (fun v x => if x.1 = 0 then v else v.setIfInBounds x.1.toNat x.2) k.g }

/-- SKIFF_OP_COMPLETE (05 R167): context j's operation completes at the end of its cycle; a snooze ends; a samo's reply, and the end of a
drain, come at a time that cannot be counted. -/
def execSkiffOpComplete (p j : Nat) (s : State) : Host.Outcome State Fault Refusal :=
  let j := BitVec.ofNat 3 j
  let t := (s.core p).run.t
  let s := match (s.skiff p j).wait with
    | .home k pa w v v2 dst =>
      if ¬ (s.skiff p j).way.over ((s.skiff p j).links s p) then s
      else if Config.moment s.freeIx then homeAtomic { s with freeIx := s.freeIx + 1 } p j k pa w v v2 dst else { s with freeIx := s.freeIx + 1 }
    | .drain scope mask none => drainStep s p j scope mask none
    | .snooze u => if u ≤ t then s.modSkiff p j fun k => { k with wait := .until t } else s
    | .snoozeWord _ u => if u ≤ t then s.modSkiff p j fun k => { k with wait := .until t } else s
    | _ => s
  match (s.skiff p j).wait with
  | .until u => .next (if u ≤ t then s.modSkiff p j Skiff.complete else s)
  | _ => .next s

/-! ### Migration (05 R179, R180) -/

/-- MIGRATION_PACK (05 R179, R180): context j, whose special-function requests are served, has the dirty lines of the cache written back, once; then it is
packed, as soon as an outbound slot is free, the invalidations of its writes have arrived, so that it finds them on the die that it comes to (01 R33), and its own
commands have performed; and its context becomes free. -/
def execMigrationPack (p j : Nat) (s : State) : Host.Outcome State Fault Refusal :=
  let j := BitVec.ofNat 3 j
  let c := s.core p
  let k := s.skiff p j
  match k.wait with
  | .migrate target flushed =>
    if c.sfu.any fun q => q.ctx = some j then .next s
    else
      let s := if flushed then s else writeBackAll s p
      if 8 ≤ c.barrel.out.length ∨ s.owes p 0 ∨ s.sqBusy p j 0xFFFF then .next (s.modSkiff p j fun k => { k with wait := .migrate target true })
      else
        let m := { Message.of target c.ctl.lid { k with migs := Nat.min 255 (k.migs + 1) }.image with ways := List.replicate 3 { at_ := s.wall } }
        .next (freeContext (s.modBarrel p fun b => { b with out := b.out ++ [m], migOut := b.migOut + 1 }) p j)
  | _ => .next s

/-- A message reaches its target (05 R179, R180): a free context of a core with an empty inbox takes the image, else the inbox, else it is refused. -/
def deliver (s : State) (p q i : Nat) (m : Message) : State :=
  let b := (s.core q).barrel
  let accept (s : State) : State := (s.modBarrel q fun b => { b with migIn := b.migIn + 1 }).modBarrel p fun b => { b with out := b.out.eraseIdx i }
  match b.freeSlot, b.inbox with
  | some j, [] => accept (inboxInstall (s.modBarrel q fun b => { b with inbox := [m.image] }) q j)
  | _, inbox =>
    if inbox.length < 4 then accept (s.modBarrel q fun b => { b with inbox := b.inbox ++ [m.image] })
    else (s.modBarrel p fun b => { b with migWait := b.migWait + 1, out := setAt b.out i { m with refusedAt := some (s.core p).run.t } })

/-- The outbound slots whose three flits are over their way, and that no refusal holds back (05 R178, R180). -/
def Barrel.underWay (b : Barrel) : List Nat :=
  (List.range b.out.length).filter fun i => match b.out[i]? with | some m => m.refusedAt.isNone && m.ways.all (·.there) | none => false

/-- MIGRATION_MESSAGE (05 R178, R179): one of core p's messages under way arrives; which one is free. -/
def execMigrationMessage (p : Nat) (s : State) : Host.Outcome State Fault Refusal :=
  let out := (s.core p).barrel.out
  let under := (s.core p).barrel.underWay
  let (f, s) := s.free
  match under[f.toNat % under.length]? with
  | none => .next s
  | some i => match out[i]? with
    | none => .next s
    | some m => .next (deliver s p (s.coreAt p m.target) i m)

/-- MIGRATION_RESEND (05 R180): messages that were refused 64 cycles ago are sent again, in new residue slots. -/
def execMigrationResend (p : Nat) (s : State) : Host.Outcome State Fault Refusal :=
  .next (s.modBarrel p fun b => { b with out := b.out.map fun m =>
    match m.refusedAt with
    | some u => if u + 64 ≤ (s.core p).run.t then { m with refusedAt := none, ways := List.replicate 3 { at_ := s.wall } } else m
    | none => m })

/-! ### The end of a core's part (05 R183, 03 R112, 13 R376) -/

/-- Every context is free, and no image waits in the inbox or an outbound slot. -/
def Barrel.empty (b : Barrel) : Bool := b.ctx.all (!·.occupied) && b.inbox.isEmpty && b.out.isEmpty

/-- The primary has done its part: it has halted under R112 and everything it began has completed; in task mode it is idle. -/
def Core.finished (c : Core) (task : Bool) : Bool :=
  !c.run.faulted && (if task then !c.run.busy else c.run.halted) && c.quiet

/-- CORE_PART_END (05 R183): the dirty lines of the skiff cache are written back and the core's part of the sailing ends. -/
def execCorePartEnd (p : Nat) (s : State) : Host.Outcome State Fault Refusal :=
  let c := s.core p
  match c.run.sailing with
  | none => .next s
  | some n =>
    if c.finished (s.sailing n).task ∧ c.barrel.empty ∧ ¬ c.run.ended then
      .next ((writeBackAll s p).modCore p fun c => { c with run := { c.run with ended := true } })
    else .next s

end Sys2Proof.Machine
end

