-- ==== Sys2Proof/Machine/Residue.lean ====
section
/-! DEFINITION. Residue slots: the flits that wait for them, what each lane offers, and the flits that pass; the lane monitors; link frames (10 R304, R307, R327;
14 R399). -/

namespace Sys2Proof.Machine

/-! ### The flits that wait (10 R307) -/

/-- A flit of unscheduled traffic: of a remote access or its reply, of a migration message, of a combining packet, of a collective's data, of a token row, of the next
elements or the walk of a copy command of a Lighter or of a stream unit, of the walk or the samo of a context's access, of the walk of its fetch, of a drift record,
or of what the host sends. -/
inductive Flit where
  | remote (p i : Nat)
  | message (p i j : Nat)
  | packet (sn i : Nat)
  | coll (sn i j k : Nat)
  | row (d i j : Nat)
  | copy (k i : Nat)
  | refill (p n : Nat)
  | access (p : Nat) (j : BitVec 3)
  | fetch (p : Nat) (j : BitVec 3)
  | drift (p : Nat)
  | host
  deriving DecidableEq, Repr

/-- A flit under way: how far it has come, the links of its way, its rank, and the logical core id of its source (10 R307). -/
structure Waiting where
  flit : Flit
  way : Transit
  links : List Nat
  rank : Nat
  lid : Nat := 0
  deriving DecidableEq, Repr

/-- The entries of a list, each with its place, that a function turns into something. -/
def places {α β : Type} (l : List α) (f : Nat → α → Option β) : List β :=
  (List.range l.length).filterMap fun i => l[i]?.bind (f i)

/-- The flits of a core under way: those of its accesses, rank 1; those of its stream unit and of walkers, rank 2; those of its skiffs, rank 3; and its drift records, which
are engine writes (14 R398). -/
def coreFlits (s : State) (p : Nat) (c : Core) : List Waiting :=
  let lid := c.ctl.lid
  let held : Bool := match c.run.sailing with | some n => !(s.sailing n).running | none => false
  (places c.remotes fun i r => some { flit := .remote p i, way := r.way, links := r.links p, rank := 1, lid := lid }) ++
  (places c.barrel.out fun i m => if m.refusedAt.isSome then none else
    some (places m.ways fun j w => some { flit := .message p i j, way := w, links := path (.core p) (.core (s.coreAt p m.target)), rank := 3, lid := lid })).flatten ++
  (places c.refills.toList fun n q => q.head?.bind fun y =>
    if y.started then some { flit := .refill p n, way := y.way, links := y.links s true, rank := 2, lid := lid } else none) ++
  (places c.barrel.ctx.toList fun i k => if k.occupied then
    some [{ flit := .access p (BitVec.ofNat 3 i), way := k.way, links := k.links s p, rank := (match k.wait with | .home _ _ _ _ _ _ => 3 | _ => 2), lid := lid },
      { flit := .fetch p (BitVec.ofNat 3 i), way := k.fetchWay, links := k.fetchLinks s p, rank := 2, lid := lid }] else none).flatten ++
  (if c.obs.queue.isEmpty ∨ c.obs.drlen = 0 ∨ held then [] else [{ flit := .drift p, way := c.obs.way, links := c.obs.links p, rank := 2, lid := lid }])

/-- The flits of a sailing under way: combining packets, by their sender's rank, and the data of collectives, rank 2. -/
def sailingFlits (s : State) (n : Nat) (g : Sailing) : List Waiting :=
  (places g.packets fun i y => some { flit := .packet n i, way := y.way, links := y.links g, rank := y.rank, lid := y.lid }) ++
  (places g.colls fun i y => some (places y.parts fun j z => some (places z.ways fun k w =>
    some ({ flit := .coll n i j k, way := w, links := z.links y.scope y.inst, rank := 2, lid := (s.core z.core).ctl.lid } : Waiting))).flatten).flatten

/-- The flits of the token rows on their way to die d: of the Pilot that sends them, rank 2. -/
def rowFlits (d : Nat) (r : Die) : List Waiting :=
  (places r.rows fun i y => some (places y.ways fun j w =>
    some ({ flit := .row d i j, way := w, links := path (.die y.src) (.core y.core), rank := 2, lid := y.lid } : Waiting))).flatten

/-- The flits of Lighter k: of the commands that it runs, rank 2. -/
def lighterFlits (s : State) (k : Nat) (q : List CopyCmd) : List Waiting :=
  places q fun i y => if y.started then some { flit := .copy k i, way := y.way, links := y.links s false, rank := 2, lid := y.cap.lid } else none

/-- The flit of what the host sends first; the spec gives it no rank (DESIGN CHOICE, log 54: rank 2). -/
def hostFlits (s : State) : List Waiting :=
  match s.hostWrites with
  | h :: _ => [{ flit := .host, way := s.hostWay, links := h.links, rank := 2 }]
  | [] => []

/-- The flits of the pod that are on their way over links. -/
def State.flits (s : State) : List Waiting :=
  ((s.cores.map fun (x : Nat × Core) => coreFlits s x.1 x.2).flatten ++
    (s.sailings.map fun (x : Nat × Sailing) => if x.2.running then sailingFlits s x.1 x.2 else []).flatten ++
    (s.dies.map fun (x : Nat × Die) => rowFlits x.1 x.2).flatten ++
    (s.lighters.map fun (x : Nat × List CopyCmd) => lighterFlits s x.1 x.2).flatten ++ hostFlits s).filter fun w => !w.way.over w.links

/-- The link that a flit waits at. -/
def Waiting.at_ (w : Waiting) : Nat := (w.way.link w.links).getD 0

/-- One waiting flit goes before another: by rank, then the older, then the lower logical core id (10 R307). -/
def Waiting.before (a b : Waiting) : Bool :=
  decide (a.rank < b.rank) || (a.rank == b.rank && (decide (a.way.at_ < b.way.at_) || (a.way.at_ == b.way.at_ && decide (a.lid ≤ b.lid))))

/-- The flits that wait at links of die d in this cycle, in order. -/
def waitingFlits (s : State) (d : Nat) : List Waiting :=
  sortBy Waiting.before (s.flits.filter fun w => linkDie w.at_ == d && decide (w.way.last < s.wall))

/-- One entry of a list changed. -/
def setIn {α : Type} (l : List α) (i : Nat) (f : α → α) : List α := match l[i]? with | some x => setAt l i (f x) | none => l

/-- The way of a flit changed. -/
def setWay (s : State) (f : Transit → Transit) : Flit → State
  | .remote p i => s.modCore p fun c => { c with remotes := setIn c.remotes i fun r => { r with way := f r.way } }
  | .message p i j => s.modBarrel p fun b => { b with out := setIn b.out i fun m => { m with ways := setIn m.ways j f } }
  | .packet n i => s.modSailing n fun g => { g with packets := setIn g.packets i fun x => { x with way := f x.way } }
  | .coll n i j k => s.modSailing n fun g =>
      { g with colls := setIn g.colls i fun x => { x with parts := setIn x.parts j fun y => { y with ways := setIn y.ways k f } } }
  | .row d i j => s.modDie d fun r => { r with rows := setIn r.rows i fun x => { x with ways := setIn x.ways j f } }
  | .copy k i => { s with lighters := s.lighters.set k (setIn (s.lighters.get [] k) i fun x => { x with way := f x.way }) }
  | .refill p n => s.modCore p fun c => { c with refills := c.refills.setIfInBounds n (setIn (c.refills.toList.getD n []) 0 fun x => { x with way := f x.way }) }
  | .access p j => s.modSkiff p j fun k => { k with way := f k.way }
  | .fetch p j => s.modSkiff p j fun k => { k with fetchWay := f k.fetchWay }
  | .drift p => s.modCore p fun c => { c with obs := { c.obs with way := f c.obs.way } }
  | .host => { s with hostWay := f s.hostWay }

/-! ### What a lane offers (10 R300, R304, R307) -/

/-- The sailing whose Timetable a lane is allotted to, with its link record. -/
def State.allotted (s : State) (key lane : Nat) : Option (Sailing × Link) :=
  s.sailings.findSome? fun x =>
    if x.2.running then (x.2.links.find? fun l => linkId l.key = linkId key ∧ lane < l.lanes.length).map fun l => (x.2, l) else none

/-- The flits of channel i that pass a link in the sailing's present cycle: behind the injection link those that left as many cycles ago as the link lies away. -/
def Sailing.passing (g : Sailing) (i : Nat) (l : Link) (ch : Chan) : Nat :=
  let words := if linkKind l.key = 0 then (ch.slots_ g.t (ch.slots.count (g.t % g.period))).air.length - ch.air.length
    else match g.delay ch i l with
      | some d => (ch.air.filter fun x => x.1 + d = g.t + ch.route).length
      | none => 0
  if ch.bulk then words else ceilDiv words 8

/-- A lane carries a scheduled flit in the sailing's present cycle: of those of its channel that pass the link, each takes the next of the channel's lanes. -/
def Sailing.laneBusy (g : Sailing) (l : Link) (lane i : Nat) : Bool :=
  match g.chans[i]? with
  | some ch => decide ((l.lanesOf i (g.t % g.period)).idxOf lane < g.passing i l ch)
  | none => false

/-- What a lane has in a cycle: no slot for residue, a residue slot, or a slack slot with no scheduled flit to resend. -/
inductive LaneSlot where
  | closed | residue | slack
  deriving DecidableEq, Repr

/-- The slot that a lane of a link has in the present cycle (10 R298, R300, R304, R307). -/
def laneSlot (s : State) (key lane : Nat) : LaneSlot :=
  if ¬ linkExists (linkId key) ∨ linkLanes (linkKind key) ≤ lane then .closed
  else match s.allotted key lane with
    | some (g, l) =>
      let e := l.entry lane (g.t % g.period)
      match e / 2 ^ 14 with
      | 0 => .residue
      | 1 => if g.laneBusy l lane (e % 4096) then .closed else .residue
      | 2 => if g.retries.any fun r => linkId r.key == linkId key && r.lane == lane && decide (r.since < g.t) then .closed else .slack
      | _ => .closed
    | none => if linkKind key = 4 ∧ lane = 1 ∧ s.pod.tt % 5 ≠ 0 ∧ s.pod.tt % 5 ≠ 2 then .closed else .residue

/-- A lane has slack slots in some phase. -/
def hasSlack (s : State) (key lane : Nat) : Bool :=
  match s.allotted key lane with
  | some (_, l) => (l.lanes.getD lane []).any fun e => e / 2 ^ 14 == 2
  | none => false

/-! ### The slots of a cycle -/

/-- The flit that a lane's slot takes: one that the lane has garbled is sent again in its next slack slot, or in its next residue slot where it has no slack
(DESIGN CHOICE, log 54); else the first flit that waits at the link (10 R304, R307). -/
def slotTaker (s : State) (key lane : Nat) (ws : List Waiting) : Option Waiting :=
  let fresh := ws.find? fun w => w.way.lost.isNone
  match laneSlot s key lane with
  | .closed => none
  | .slack => (ws.find? fun w => w.way.lost = some lane).orElse fun _ => fresh
  | .residue => if hasSlack s key lane then fresh else (ws.find? fun w => w.way.lost = some lane).orElse fun _ => fresh

/-- A flit that waits to be sent again over a lane. -/
def lostOn (ws : List Waiting) (lane : Nat) : Bool := ws.any fun w => w.way.lost == some lane

/-- Whether the lane that a die's LMSEL names exists and offers a residue slot in this cycle (14 R399). -/
def laneOffers (s : State) (d : Nat) : Bool :=
  let v := (s.die d).lmsel.toNat
  let key := d / 4 * 2 ^ 26 + d % 4 * 2 ^ 24 + bitsOf v 23 8 * 2 ^ 8
  let lane := bitsOf v 39 32
  match laneSlot s key lane with
  | .closed => false
  | .residue => true
  | .slack => !lostOn (s.flits.filter fun w => w.at_ == key) lane

/-- LMSEL of a die names a lane. -/
def laneSelected (s : State) (d key lane : Nat) : Bool :=
  let v := (s.die d).lmsel.toNat
  linkId (d / 4 * 2 ^ 26 + d % 4 * 2 ^ 24 + bitsOf v 23 8 * 2 ^ 8) == linkId key && bitsOf v 39 32 == lane

/-- A flit passes a lane of die d: its copy is good, or garbled, so that it waits to be sent again; a resent one is counted (10 R304; 15 R407), and so is one in the
slot that the monitored lane offers (14 R399). The CRC is linear, so that whether it shows the noise does not depend on the flit. -/
def passLane (s : State) (d key lane : Nat) (offered : Bool) (w : Waiting) : State :=
  let bad := crcBad (Config.lineNoise s.freeIx)
  let s := setWay { s with freeIx := s.freeIx + 1 } (fun x =>
    if bad then { x with lost := some lane, last := s.wall }
    else { x with lost := none, hop := x.hop + 1, there := decide (w.links.length ≤ x.hop + 1), last := s.wall }) w.flit
  s.modDie d fun r => { r with
    lretry := if w.way.lost.isSome then r.lretry + 1 else r.lretry
    lmused := if offered ∧ laneSelected s d key lane then r.lmused + 1 else r.lmused }

/-- The lanes of a link, in order, take the flits that wait at it; s0 is the state at the start of the cycle's slots. -/
def takeLanes (s0 : State) (d key : Nat) : List Nat → List Waiting → State → State
  | [], _, s => s
  | _, [], s => s
  | lane :: ls, w :: ws, s =>
    match slotTaker s0 key lane (w :: ws) with
    | some x => takeLanes s0 d key ls ((w :: ws).erase x) (passLane s d key lane (laneOffers s0 d) x)
    | none => takeLanes s0 d key ls (w :: ws) s

/-- RESIDUE_SLOT (10 R307): in each cycle every link of die d grants its residue slots to the flits that wait at it, by rank and age. -/
def execResidueSlot (d : Nat) (s : State) : Host.Outcome State Fault Refusal :=
  let ws := waitingFlits s d
  .next (((ws.map (·.at_)).eraseDups).foldl (fun t key =>
    takeLanes s d key (List.range (linkLanes (linkKind key))) (ws.filter fun w => w.at_ == key) t) s)

/-- The dies at whose links flits wait. -/
def State.waitingDies (s : State) : List Nat := (s.flits.map fun w => linkDie w.at_).eraseDups

/-- A cycle of the lane monitors (14 R399): LMOFFER counts the Timetable cycles since LMSEL was written but for those in which the lane offers no residue slot,
which are counted here. A die of which nothing is recorded names a core's injection lane that no sailing has: it offers a slot in each of them. -/
def countOffers (s : State) : State :=
  let dies := (s.dies.map Prod.fst ++ s.sailings.flatMap fun x => if x.2.running then x.2.links.map (linkDie ·.key) else []).eraseDups
  dies.foldl (fun s d => if laneOffers s d then s else s.modDie d fun r => { r with lmmiss := r.lmmiss + 1 }) s

/-! ### Roslys Link frames (10 R327) -/

/-- The CRCs of the 21 flits that a port's lanes have carried in the 15 cycles before a frame: lane 0's, then lane 1's, by cycle (10 R304). A slot of no channel
carries a flit that no state records, or none (DESIGN CHOICE, log 72). -/
def RPort.frameCrcs (x : RPort) (tt ix : Nat) : List Nat :=
  let sent (lane u : Nat) : Option (BitVec 512) := (x.flits.find? fun y => y.1 = lane ∧ y.2.1 = u).map (·.2.2)
  let window := (List.range 15).map fun i => tt + i - 15
  let lane0 := window.map fun u => sent 0 u
  let lane1 := (window.filterMap fun u => sent 1 u).map some
  let flits := lane0 ++ (lane1 ++ List.replicate 6 none).take 6
  (List.range 21).map fun i => crc16 ((flits.getD i none).getD (Config.frameFlit (ix + i))) 512 0

/-- ROSLYS_FRAME: a port that is up sends its next frame: its number, the number of its peer's last one, the CRCs of 21 flits, and six bytes of hold and
alignment signalling; no program sees frames. -/
def execRoslysFrame (k r : Nat) (s : State) : Host.Outcome State Fault Refusal :=
  let a := s.pkgs.get {} k
  let x := a.ports.toList.getD r {}
  if ¬ x.up then .next s
  else
    let peer := (s.pkgs.get {} x.peer).ports.toList.getD x.peerPort {}
    let sent := { x with
      seq := x.seq + 1, ack := peer.seq, crcs := x.frameCrcs s.pod.tt s.freeIx, signal := Config.frameSignal s.freeIx
      flits := x.flits.filter fun y => decide (s.pod.tt ≤ y.2.1) }
    .next { s with pkgs := s.pkgs.set k { a with ports := a.ports.setIfInBounds r sent }, freeIx := s.freeIx + 21 }

end Sys2Proof.Machine
end

