-- ==== Sys2Proof/Machine/Sailings.lean ====
section
/-! DEFINITION. The life of a sailing: its launch, start, end and stop cycle (13 R370 to R373, R384). -/

namespace Sys2Proof.Machine

/-! ### The launch (13 R370, R371; 10 R299 to R301) -/

/-- n bytes at a physical address lie in one populated region. -/
def regionGood (pa n : Nat) : Bool := n == 0 || (populated pa && populated (pa + n - 1))

/-- n bytes at a physical address can be read: populated, and no poisoned word among them. -/
def readable (s : State) (pa n : Nat) : Bool :=
  regionGood pa n && !s.poison.any fun w => decide (8 * w < pa + n) && decide (pa < 8 * w + 8)

/-- A package takes part in the pod of a launching package. -/
def pkgExists (home k : Nat) : Bool := k == home || (List.range 24).any fun i => (Config.wiring k i).isSome

/-- The quad entries of a launch, in order. -/
def quadEntries (s : State) (g : Sailing) : List Nat := (List.range g.nquads).map fun i => s.read (g.qlist + 2 * i) 2

/-- The quad that an entry names. -/
def entryQuad (v : Nat) : Nat := bitsOf v 14 9 * 96 + bitsOf v 8 7 * 24 + bitsOf v 4 0

/-- A quad entry names no quad. -/
def entryBad (home v : Nat) : Bool := decide (bitsOf v 15 15 ≠ 0 ∨ bitsOf v 6 5 ≠ 0 ∨ 24 ≤ bitsOf v 4 0) || !pkgExists home (bitsOf v 14 9)

/-- One Timetable entry of a lane is good (10 R300): absent exactly where Roslys lane 1 carries no flit. -/
def laneEntryGood (roslys1 : Bool) (nchan phase e : Nat) : Bool :=
  let kind := e / 2 ^ 14
  let ch := e % 4096
  let absent := roslys1 && phase % 5 != 0 && phase % 5 != 2
  decide (bitsOf e 13 12 = 0) && (if kind = 1 then decide (ch < nchan) else decide (ch = 0)) && ((kind == 3) == absent)

/-- The stated latency of a hop over a link of a kind, in cycles (10 R297). -/
def hopLatency (latr kind : Nat) : Nat := [2, 2, 6, 20, latr].getD kind 0

/-- The latency of a route over links of some kinds (10 R297): their hops, and a crossing of 4 cycles for each quad router: one between the two core links, and
one more behind each other link. -/
def routeLatency (latr : Nat) (kinds : List Nat) : Nat :=
  kinds.foldl (fun n k => n + hopLatency latr k) 0 + 4 * (1 + (kinds.filter (2 ≤ ·)).length)

/-- The least latency of a route between two cores (10 R297). -/
def leastRoute (latr p q : Nat) : Nat :=
  routeLatency latr ([0, 1] ++ if quadOf p = quadOf q then [] else if dieOf p = dieOf q then [2] else if pkgOf p = pkgOf q then [3] else [4])

/-- The links on which channel i has a slot. -/
def chanLinks (links : List Link) (i : Nat) : List Nat :=
  ((links.filter fun l => l.lanes.any fun row => row.contains (2 ^ 14 + i)).map (·.key)).eraseDups

/-- The ROUTE of channel i from core p to core q goes by R297 (10 R301): no less than the least route between them, none other for cores of one quad; and where
the link records show its slots from p's injection to q's ejection, the sum over those links (DEDUCED, log 71). -/
def routeGood (latr : Nat) (links : List Link) (p q i route : Nat) : Bool :=
  let ks := chanLinks links i
  let core (kind r : Nat) : Bool := ks.any fun k => bitsOf k 23 21 == kind && bitsOf k 31 26 * 384 + bitsOf k 25 24 * 96 + bitsOf k 20 9 == r
  let least := leastRoute latr p q
  (if quadOf p = quadOf q then route == least else decide (least ≤ route)) &&
    (!(core 0 p && core 1 q) || route == routeLatency latr (ks.map fun k => bitsOf k 23 21))

/-- A link record's header is good (10 R300). -/
def linkGood (home period v : Nat) : Bool :=
  let kind := bitsOf v 23 21
  let index := bitsOf v 20 9
  let lanes := bitsOf v 39 32
  decide (bitsOf v 63 40 = 0 ∧ bitsOf v 7 0 = 0 ∧ 1 ≤ lanes ∧ lanes ≤ linkLanes kind ∧ kind ≤ 4) && pkgExists home (bitsOf v 31 26)
    && (if kind ≤ 1 then decide (index < 96) else if kind = 4 then decide (index < 24 ∧ period % 5 = 0) else true)

/-- The link records of a Timetable image from an address: links, the address after them, and whether all are good. -/
def parseLinks (s : State) (home period nchan : Nat) : Nat → Nat → List Link × Nat × Bool
  | 0, a => ([], a, true)
  | n + 1, a =>
    let v := s.read a 8
    let lanes := bitsOf v 39 32
    let rows := (List.range lanes).map fun i => (List.range period).map fun k => s.read (a + 8 + 2 * (i * period + k)) 2
    let good := linkGood home period v && (List.range lanes).all fun i => (List.range period).all fun k =>
      laneEntryGood (decide (bitsOf v 23 21 = 4 ∧ i = 1)) nchan k ((rows.getD i []).getD k 0)
    let (rest, b, ok) := parseLinks s home period nchan n (a + 8 + 2 * lanes * period)
    ({ key := bitsOf v 31 0, lanes := rows } :: rest, b, good && ok)

/-- A channel record, and whether it is good by itself (10 R301). -/
def parseChan (v cores : Nat) : Chan × Bool :=
  let f := bitsOf v
  let c : Chan := { wcore := f 15 0, wep := f 21 16, rcore := f 39 24, rep := f 45 40, bulk := f 48 48 == 1, width := f 51 49,
                    depth := f 63 56, route := f 79 64, credits := f 63 56 }
  (c, decide (f 127 80 = 0 ∧ f 55 52 = 0 ∧ f 47 46 = 0 ∧ f 23 22 = 0 ∧ 1 ≤ f 79 64 ∧ f 79 64 ≤ 4095 ∧ 8 ≤ f 63 56 ∧ f 63 56 ≤ 64)
    && decide (f 51 49 ≤ 3 ∧ (f 48 48 = 1 ∨ f 51 49 = 0) ∧ f 15 0 < cores ∧ f 39 24 < cores ∧ f 15 0 ≠ f 39 24))

/-- A Timetable image as a launch reads it: its period, channels and links, its length, and whether it keeps R299 to R301 and the pod's latencies. -/
structure Image10 where
  period : Nat
  chans : List Chan
  links : List Link
  size : Nat
  good : Bool
  deriving DecidableEq, Repr

/-- The Timetable image at a physical address for a partition of `cores` cores (10 R299 to R301, R303). -/
def parseImage (s : State) (home a cores : Nat) : Image10 :=
  let w0 := s.read a 8
  let w1 := s.read (a + 8) 8
  let period := bitsOf w0 15 0
  let nchan := bitsOf w0 31 16
  let head : Bool := decide (bitsOf w0 63 48 = 0 ∧ 1 ≤ period ∧ period ≤ 4096 ∧ nchan ≤ 4096 ∧ bitsOf w1 63 32 = 0)
    && decide (bitsOf w1 15 0 = s.pod.latr ∧ bitsOf w1 31 16 = s.pod.hlat) && (List.range 6).all fun i => s.read (a + 16 + 8 * i) 8 = 0
  if ¬ head then { period := period, chans := [], links := [], size := 64, good := false }
  else
    let cs := (List.range nchan).map fun i => parseChan (s.read (a + 64 + 16 * i) 16) cores
    let (links, b, ok) := parseLinks s home period nchan (bitsOf w0 47 32) (a + 64 + 16 * nchan)
    let ends := cs.flatMap fun c => [(c.1.wcore, c.1.wep), (c.1.rcore, c.1.rep)]
    { period := period, chans := cs.map (·.1), links := links, size := b - a,
      good := ok && cs.all (·.2) && decide (ends.eraseDups.length = ends.length) }

/-- The phases of channel i's slots on the injection lanes of core p (10 R300, R313). -/
def slotPhases (links : List Link) (p i : Nat) : List Nat :=
  links.flatMap fun l =>
    if bitsOf l.key 23 21 = 0 ∧ bitsOf l.key 31 26 * 384 + bitsOf l.key 25 24 * 96 + bitsOf l.key 20 9 = p then
      l.lanes.flatMap fun row => (List.range row.length).filter fun k => row.getD k 0 = 2 ^ 14 + i
    else []

/-- The routes of an image's channels between the cores of a partition are good (10 R297, R301). -/
def Image10.routesGood (im : Image10) (latr : Nat) (quads : List Nat) : Bool :=
  let g : Sailing := { quads := quads }
  (List.range im.chans.length).all fun i => match im.chans[i]? with
    | some c => routeGood latr im.links (g.coreAt c.wcore) (g.coreAt c.rcore) i c.route
    | none => true

/-- The length of a start image (13 R370). -/
def startSize (s : State) (a : Nat) : Nat := 640 + 128 * bitsOf (s.read (a + 64) 8) 19 16

/-- A start image keeps R370. -/
def startGood (s : State) (a : Nat) : Bool :=
  let v := s.read (a + 64) 8
  decide (v < 2 ^ 20 ∧ bitsOf v 19 16 ≤ 8) && (List.range 7).all fun i => s.read (a + 72 + 8 * i) 8 = 0

/-- Skiff k of a start image, in a core of logical id lid (13 R370; 05 R161). -/
def imageSkiff (s : State) (a k lid : Nat) : Skiff :=
  let b := a + 640 + 128 * k
  { occupied := true, pc := s.read b 8 % 2 ^ 48, cmask := 7, home := lid,
    s := Vector.ofFn fun i : Fin 16 => if i.val = 0 then 0 else BitVec.ofNat 64 (s.read (b + 8 * i.val) 8) }

/-- The DETL that a launch loads (01 R27). -/
def Sailing.detl (g : Sailing) : Word := BitVec.ofNat 64 (g.level % 4 + (if g.redir ∧ g.level = 0 then 4 else 0))

/-- Core p as a launch loads it, with logical core id k (01 R18; 03 R109; 10 R310; 13 R371); its segment is read afterwards. -/
def launchCore (s : State) (n : Nat) (g : Sailing) (p k : Nat) : Core :=
  let c := s.core p
  let shmask := bitsOf (s.read (g.image + 64) 8) 15 0
  let skn := bitsOf (s.read (g.image + 64) 8) 19 16
  let ctl : Ctl :=
    { detl := g.detl, seed := g.seed, spwin := g.spwin, ptroot := g.ptroot, ovf := g.ovf, landb := g.landb, qcount := g.quads.length, lid := k,
      carve := g.carve, bfmt := Vector.ofFn fun i : Fin 8 => BitVec.ofNat 64 (s.read (g.image + 8 * i.val) 8 % 65536) }
  let files : Files := { h := Vector.ofFn fun i : Fin 16 =>
    if shmask / 2 ^ i.val % 2 = 1 then BitVec.ofNat 256 (s.read (g.image + 128 + 32 * i.val) 32) else 0 }
  let ctx : Vector Skiff 8 := Vector.ofFn fun i : Fin 8 => if i.val < skn then imageSkiff s g.image i.val k else {}
  { ({} : Core) with
    run := { sailing := some n, live := !g.task }
    files := files
    ctl := (capTolls ctl (launchTolls g.tollr) none).refillPurses
    fetch := { pc := g.entry + 16 }
    obs := c.obs.fresh
    dbg := c.dbg
    barrel := { ctx := ctx } }

/-- Core p's entry segment is expanded into its loop buffer. -/
def loadEntry (s : State) (p entry : Nat) : State :=
  s.modCore p fun c => { c with fetch := { c.fetch with half0 := some (readSegment s p entry) } }

/-- One line of a skiff's code is fetched before cycle 0, where it can be (05 R160). -/
def preloadLine (s : State) (p va : Nat) : State :=
  let c := s.core p
  if (windowOf c va).isSome then s
  else match s.walk c.ctl.ptroot va with
    | none => s
    | some e =>
      match e.translate .fetch va with
      | none => s
      | some pa =>
        if isControl pa ∨ s.anyPoison (pa / 64 * 64) 64 then s
        else insertLine (s.modBarrel p (·.useTlb e)) p (filledLine s p (pa / 64))

/-- A skiff of core p's start image: four lines of its code are fetched, and its first bundle where its line is loaded, whatever later lines then drive out
(05 R160). -/
def preloadSkiff (s : State) (p : Nat) (j : BitVec 3) : State :=
  let pc := (s.skiff p j).pc
  let s := (List.range 4).foldl (fun s i => preloadLine s p (pc / 64 * 64 + 64 * i)) s
  match skiffBundle s p pc with
  | .ok b => s.modSkiff p j fun k => { k with buf := some b }
  | .error _ => s

/-- The skiffs of core p's start image, from context 0. -/
def preloadSkiffs (s : State) (p : Nat) : State :=
  (List.range 8).foldl (fun s j => let j := BitVec.ofNat 3 j; if (s.skiff p j).occupied then preloadSkiff s p j else s) s

/-- A launch clears the writer bits of its carve-out (04 R139). -/
def clearForeign (s : State) (ps : List Nat) (carve : BitVec 8) : State :=
  { s with foreign := s.foreign.filter fun w => !match spadOwner (8 * w) with
      | some p => ps.contains p && carve.getLsbD ((8 * w - spadBase p) / 0x100000)
      | none => false }

/-- The sailing with everything that its launch loads: cores, quads, Timetable; its clock begins with the next cycle. -/
def loadSailing (s : State) (n : Nat) (quads : List Nat) (im : Image10) : State :=
  let s := s.modSailing n fun g => { g with quads := quads }
  let g := s.sailing n
  let ids := List.range (4 * quads.length)
  let chans := (List.range im.chans.length).filterMap fun i => im.chans[i]?.map fun c =>
    { c with slots := slotPhases im.links (g.coreAt c.wcore) i }
  let s := s.modSailing n fun g => { g with
    period := im.period, latr := s.pod.latr, hlat := s.pod.hlat, links := im.links, chans := chans, loaded := true, t := 0 }
  let s := ids.foldl (fun s k => s.setCore (g.coreAt k) (launchCore s n g (g.coreAt k) k)) s
  let s := quads.foldl (fun s q => s.modQuad q fun _ => {}) s
  let s := ids.foldl (fun s k => preloadSkiffs (loadEntry s (g.coreAt k) g.entry) (g.coreAt k)) s
  clearForeign s (ids.map g.coreAt) g.carve

/-- The root task starts on logical core 0 (13 R376). -/
def startRoot (s : State) (n : Nat) : State :=
  let g := s.sailing n
  if ¬ g.task then s
  else
    let xs := (List.range 8).map fun i => BitVec.ofNat 64 (readSpad s g.helm (g.rootarg + 8 * i) 8)
    s.modCore (g.coreAt 0) fun c => startTask c none 0 xs (g.entry + 16)

/-- The first refusal of a launch that holds, in the order of the table of R371; none where it may go on. -/
def refusal (s : State) (n : Nat) (g : Sailing) : Option Nat :=
  let home := pkgOf g.helm
  let listGood := readable s g.qlist (2 * g.nquads)
  let es := quadEntries s g
  let quads := es.map entryQuad
  let im := parseImage s home g.ttbl (4 * g.nquads)
  let tableGood := readable s g.ttbl im.size
  let lanes := ({ g with links := im.links } : Sailing).lanes
  let q := (s.die (dieOf g.helm)).queues.toList.getD g.queue {}
  if listGood ∧ (es.any (entryBad home) ∨ quads.eraseDups.length ≠ quads.length ∨ quadsTaken s n quads) then some 1
  else if listGood ∧ s.sailings.any (fun x => x.2.isSaved && (x.2.carve &&& g.carve != 0) && quads.any x.2.quads.contains) then some 2
  else if tableGood ∧ ¬ (im.good ∧ (¬ listGood ∨ im.routesGood s.pod.latr quads)) then some 3
  else if tableGood ∧ lanesTaken s n lanes then some 4
  else if ¬ q.attr.conf then some 5
  else if ¬ listGood ∨ ¬ tableGood ∨ ¬ readable s g.image (startSize s g.image) ∨ ¬ startGood s g.image then some 6
  else none

/-- A launch reaches its loading: it is refused, or loaded and started. -/
def launchSailing (s : State) (n : Nat) : State :=
  let g := s.sailing n
  let refuse (s : State) (cause : Nat) : State := setSailingState (s.modSailing n fun g => { g with cause := cause }) n 7
  match refusal s n g with
  | some cause => refuse s cause
  | none =>
    let im := parseImage s (pkgOf g.helm) g.ttbl (4 * g.nquads)
    let s' := loadSailing s n ((quadEntries s g).map entryQuad) im
    let seg := readSegment s' ((s'.sailing n).coreAt 0) g.entry
    if seg.failed.isSome ∨ seg.badHdr then refuse s 6 else startRoot s' n

/-- SAILING_START (13 R371; 15 R414): a launch is loaded, at a time that cannot be counted; it waits for a change of the clock that came before it. -/
def execSailingStart (sn : Nat) (s : State) : Host.Outcome State Fault Refusal :=
  let g := s.sailing sn
  let waits : Bool := match s.pod.change with | some (_, first) => decide (first ≤ sn) | none => false
  .next (if g.state ≠ 0 ∨ g.loaded ∨ g.killed ∨ waits ∨ s.nextSailing ≤ sn then s else launchSailing s sn)

/-- Sailings that are loaded begin, or resume, with this cycle (10 R302; 13 R372, R387): the numbers of those that do, and the state. -/
def beginSailings (s : State) : List Nat × State :=
  let ns := (s.sailings.filter fun x => x.2.loaded && !x.2.killed).map (·.1)
  (ns, ns.foldl (fun s n =>
    let g := s.sailing n
    let fresh := g.state == 0
    let s := s.modSailing n fun g => { g with loaded := false, running := true, start := if fresh then s.wallOf (dieOf g.helm) else g.start }
    if fresh then setSailingState s n 1 else s) s)

/-- Each queue with a sailing in STATE 1 or 2 is charged one cycle (13 R381). -/
def chargeQueues (s : State) : State :=
  let used := (s.sailings.filter fun x => x.2.state = 1 ∨ x.2.state = 2).map fun x => (dieOf x.2.helm, x.2.queue)
  used.eraseDups.foldl (fun s x => s.modDie x.1 fun r =>
    let q := r.queues.toList.getD x.2 {}
    { r with queues := r.queues.setIfInBounds x.2 { q with used := q.used + 1 } }) s

/-! ### The end of a sailing (13 R373) -/

/-- Every core of a sailing has ended its part, every command has completed, every armed round has closed. -/
def sailingEnded (s : State) (n : Nat) (g : Sailing) : Bool :=
  let ps := (List.range (4 * g.quads.length)).map g.coreAt
  ps.all (fun p =>
      let c := s.core p
      c.run.ended && c.finished g.task && c.barrel.empty && c.groups.all fun x => x.armed.isNone)
    && !s.engineWork n

/-- SAILING_DONE (13 R373): the sailing is done; its quads, lanes and carve-out are free. -/
def execSailingDone (sn : Nat) (s : State) : Host.Outcome State Fault Refusal :=
  let g := s.sailing sn
  if ¬ g.running ∨ ¬ (g.state = 1 ∨ g.state = 2) ∨ ¬ sailingEnded s sn g then .next s
  else
    let s := ((List.range (4 * g.quads.length)).map g.coreAt).foldl writeBackAll s
    let d := dieOf g.helm
    let late := decide (g.deadline ≠ 0 ∧ g.deadline < s.wallOf d)
    let s := if late then s.modDie d fun r => { r with dlmiss := r.dlmiss + 1 } else s
    let s := setSailingState (s.modSailing sn fun g => { g with late := late, running := false }) sn 5
    .next (freeCores (closeRecords s sn) sn)

/-! ### The stop cycle (13 R384) -/

/-- A skiff's operation that was granted before the stop goes on by one stage (05 R185). -/
def settleStep (s : State) (p : Nat) (j : BitVec 3) : State :=
  let t := (s.core p).run.t
  match (s.skiff p j).wait with
  | .until _ => s.modSkiff p j Skiff.complete
  | .port a _ => portRequest s p j a
  | .walk k va w v v2 dst =>
    match s.walk (s.core p).ctl.ptroot va with
    | none => lateFault s p j 0x0B va
    | some e => globalAccess s p j e k va w v v2 dst
  | .fill va pa w dst =>
    let l := filledLine s p (pa / 64)
    loadLine (insertLine s p l) p j l va pa w t dst
  | .home k pa w v v2 dst => homeAtomic s p j k pa w v v2 dst
  | .drain _ _ (some a) => portRequest s p j a
  | .drain _ _ none => s.modSkiff p j fun k => { k with wait := .until t }
  | .snooze _ | .snoozeWord _ _ => s.modSkiff p j fun k => { k with wait := .none }
  | .migrate _ _ | .none => s

/-- Context j of a stopped core: its operation completes; it resumes ready at its PC, its OWED bit kept with the rest of its STATE (05 R185, R187). -/
def settleSkiff (s : State) (p : Nat) (j : BitVec 3) : State :=
  let s := (List.range 4).foldl (fun s _ => settleStep s p j) s
  s.modSkiff p j fun k => { k with buf := none, fetchWait := none, fetchAt := (s.core p).run.t }

/-- The messages that core p has sent are delivered (05 R185). -/
def deliverAll (s : State) (p : Nat) : State :=
  (List.range 8).foldl (fun s _ =>
    let out := (s.core p).barrel.out
    match (List.range out.length).find? fun i => match out[i]? with | some m => m.refusedAt.isNone && m.ways.any fun w => w.there || w.last != 0 | none => false with
    | some i => match out[i]? with
      | some m => deliver s p (s.coreAt p m.target) i m
      | none => s
    | none => s) s

/-- No access has a port of core p. -/
def freePorts (s : State) (p : Nat) : State := s.modCore p fun c => { c with run := { c.run with used := [] } }

/-- The skiffs of a stopped core: operations complete, the special-function unit serves every queued request (06 R221), each in cycles of its own, so that no port is
taken; messages are delivered, the cache is written back; cache and TLB are cold. -/
def settleCore (s : State) (p : Nat) : State :=
  let s := (List.range 8).foldl (fun s j => settleSkiff (freePorts s p) p (BitVec.ofNat 3 j)) s
  let s := (s.core p).sfu.foldl (fun s _ => serveRequest (freePorts s p) p) s
  (writeBackAll (deliverAll s p) p).modBarrel p fun b => { b with cache := [], fills := [], tlb := [] }

/-- The primary of a core has halted, by itself or for pre-emption, or its task core is idle. -/
def Core.atRest (c : Core) (task : Bool) : Bool := c.run.halted || c.run.stopped == 1 || (task && !c.run.busy)

/-- The record of a core that halted for pre-emption before the stop cycle (13 R384). -/
def Core.preempted (c : Core) (stop : Nat) : Core :=
  if c.run.stopped = 1 ∧ c.run.haltAt < stop then
    { c with obs := c.obs.driftRun (stop - c.run.haltAt) 17 c.nextBaddr ((stop - c.run.haltAt) / 8191 + 1) }
  else c

/-- STOP_CYCLE (13 R384): the first cycle in which no core issues, every core has halted, and every scheduled flit is delivered; the clock stops. -/
def execStopCycle (sn : Nat) (s : State) : Host.Outcome State Fault Refusal :=
  let g := s.sailing sn
  let ps := (List.range (4 * g.quads.length)).map g.coreAt
  let rest := ps.all fun p => (s.core p).atRest g.task && !(s.core p).note.iss
  if ¬ g.running ∨ g.state ≠ 2 ∨ ¬ rest ∨ g.chans.any (fun c => !c.air.isEmpty) then .next s
  else
    let s := ps.foldl (fun s p => settleCore (s.modCore p (·.preempted g.t)) p) s
    .next (setSailingState (s.modSailing sn fun g => { g with running := false, stopW := s.wall }) sn 3)

end Sys2Proof.Machine
end

