-- ==== Sys2Proof/Machine/Sha3.lean ====
section
/-! DEFINITION. SHA3-256, the hash that boot and attestation name (15 R411), as the standard that defines it has it (PRESUMED, log 24). -/

namespace Sys2Proof.Machine

/-- The round constants of the permutation. -/
def keccakRounds : List Word :=
  [0x1, 0x8082, 0x800000000000808A, 0x8000000080008000, 0x808B, 0x80000001, 0x8000000080008081, 0x8000000000008009,
   0x8A, 0x88, 0x80008009, 0x8000000A] ++
  [0x8000808B, 0x800000000000008B, 0x8000000000008089, 0x8000000000008003, 0x8000000000008002, 0x8000000000000080, 0x800A,
   0x800000008000000A, 0x8000000080008081, 0x8000000000008080, 0x80000001, 0x8000000080008008]

/-- The rotation of lane x + 5y. -/
def keccakShifts : List Nat := [0, 1, 62, 28, 27, 36, 44, 6, 55, 20, 3, 10, 43] ++ [25, 39, 41, 45, 15, 21, 8, 18, 2, 61, 56, 14]

/-- One round over the 25 lanes. -/
def keccakRound (a : List Word) (rc : Word) : List Word :=
  let l (a : List Word) (i : Nat) : Word := a.getD i 0
  let c := (List.range 5).map fun x => l a x ^^^ l a (x + 5) ^^^ l a (x + 10) ^^^ l a (x + 15) ^^^ l a (x + 20)
  let a := (List.range 25).map fun i => l a i ^^^ l c ((i % 5 + 4) % 5) ^^^ (l c ((i % 5 + 1) % 5)).rotateLeft 1
  let b := (List.range 25).map fun i =>
    let (x, y) := (i % 5, i / 5)
    let j := (x + 3 * y) % 5 + 5 * x
    (l a j).rotateLeft (keccakShifts.getD j 0)
  (List.range 25).map fun i =>
    let y := i / 5 * 5
    let v := l b i ^^^ (~~~(l b ((i + 1) % 5 + y)) &&& l b ((i + 2) % 5 + y))
    if i = 0 then v ^^^ rc else v

/-- The permutation. -/
def keccak (a : List Word) : List Word := keccakRounds.foldl keccakRound a

/-- A lane of eight bytes, little-endian. -/
def laneOf (bs : List Byte) : Word := (bs.take 8).reverse.foldl (fun v b => v * 256 + b.zeroExtend 64) 0

/-- A block of 136 bytes is absorbed. -/
def absorb (a : List Word) (bs : List Byte) : List Word :=
  keccak ((List.range 25).map fun i => if i < 17 then a.getD i 0 ^^^ laneOf (bs.drop (8 * i)) else a.getD i 0)

/-- Blocks are absorbed as long as they last; the rest is padded. -/
def absorbAll : Nat → List Word → List Byte → List Word
  | 0, a, _ => a
  | n + 1, a, bs =>
    if bs.length < 136 then
      let k := 136 - bs.length
      let pad : List Byte := if k = 1 then [0x86] else [(0x06 : Byte)] ++ List.replicate (k - 2) 0 ++ [0x80]
      absorb a (bs ++ pad)
    else absorbAll n (absorb a (bs.take 136)) (bs.drop 136)

/-- The SHA3-256 digest of a list of bytes, its first byte least significant. -/
def sha3 (bs : List Byte) : BitVec 256 :=
  let a := absorbAll (bs.length / 136 + 1) (List.replicate 25 0) bs
  (a.getD 3 0 ++ a.getD 2 0 ++ a.getD 1 0 ++ a.getD 0 0 : BitVec 256)

end Sys2Proof.Machine
end

