-- ==== Sys2Proof/Machine/Platform.lean ====
section
/-! DEFINITION. Remote accesses and control space, drift rings, the host link, debug stops, the wake recorder's control, the clock, boot,
attestation, resets, ports, power and memory errors (04 R126, R138; 14 R395 to R404; 15 R405 to R416). -/

namespace Sys2Proof.Machine

/-! ### Debug stop (14 R403, R404) -/

/-- DBGCTL as it reads. -/
def Core.dbgctl (c : Core) : Nat :=
  let b (x : Bool) (n : Nat) : Nat := if x then n else 0
  c.dbg.reason % 4 * 16 + b (c.run.stopped == 2) 8 + b c.dbg.step 4 + b c.dbg.go 2 + b c.dbg.stop 1

/-- A stopped core goes on at the stopped bundle, from the next cycle; its record gives the stopped cycles, of which this is the last (14 R404). -/
def Core.goOn (c : Core) : Core :=
  let n := c.run.t + 1 - c.dbg.since
  let c := { c with obs := c.obs.driftRun n 20 c.dbg.addr (n / 8191 + 1) }
  { c with run := { c.run with stopped := 0 }, dbg := { c.dbg with go := false, pass := true, stepping := c.dbg.step, held := true } }

/-- GO takes effect where the core is stopped; until then it stays (14 R403). -/
def Core.tryGo (c : Core) : Core := if c.dbg.go ∧ c.run.stopped = 2 then c.goOn else c

/-- A write of DBGCTL: STOP, GO and STEP take the written bits (14 R403). -/
def Core.setDbgctl (c : Core) (v : Nat) : Core :=
  { c with dbg := { c.dbg with stop := v % 2 == 1, go := v / 2 % 2 == 1, step := v / 4 % 2 == 1 } }.tryGo

/-- DBG_STOP: a DBGCTL write of STOP. -/
def execDbgStop (p : Nat) (s : State) : Host.Outcome State Fault Refusal := .next (s.modCore p (·.setDbgctl 1))

/-- DBG_GO: a DBGCTL write of GO. -/
def execDbgGo (p : Nat) (s : State) : Host.Outcome State Fault Refusal := .next (s.modCore p (·.setDbgctl 2))

/-- DBG_STEP: a DBGCTL write of STEP with GO. -/
def execDbgStep (p : Nat) (s : State) : Host.Outcome State Fault Refusal := .next (s.modCore p (·.setDbgctl 6))

/-- The reason for which a core stops before the bundle at an address, lowest code first (14 R403). -/
def Core.stopReason (c : Core) (addr : Nat) : Option Nat :=
  let hit (b : Nat) : Bool := b % 2 == 1 && b / 4 == addr / 4 && !c.dbg.pass
  if c.dbg.stop then some 0
  else if hit c.dbg.brk0 then some 1
  else if hit c.dbg.brk1 then some 2
  else if c.dbg.stepping ∧ ¬ c.dbg.pass then some 3
  else none

/-- DEBUG_STOP_TAKEN (14 R404): core p stops before its next bundle and posts its record, which changes no status block; a GO that waits takes effect then. -/
def execDebugStopTaken (p : Nat) (s : State) : Host.Outcome State Fault Refusal :=
  let c := s.core p
  let addr := c.nextBaddr
  if ¬ c.due ∨ isHelm p then .next s
  else match c.stopReason addr with
    | none => .next s
    | some r =>
      let c := c.endStall p
      let c := { c with
        run := { c.run with stopped := 2, moved := true }
        dbg := { c.dbg with reason := r, stop := if r = 0 then false else c.dbg.stop, stepping := false, since := c.run.t, addr := addr }
        obs := { c.obs with now := c.obs.now ||| 1 }
        barrel := { c.barrel with berths := 0 } }
      let rec_ : FaultRec := ⟨0x0D, r, c.run.t, addr, 0, c.ctl.lid, false, none, 6⟩
      .next ((postRelease (s.setCore p c) p (s.recordDie p) rec_.bits).modCore p (·.tryGo))

/-! ### Monitors, the lane monitor, the wake recorder (14 R399 to R402) -/

/-- MCFG as it is stored: SRC 7 to 15 as 0, reserved bits zero (14 R400). -/
def mcfgValue (v : Word) : Word :=
  let src := (v.extractLsb' 0 4).toNat
  BitVec.ofNat 64 ((v.extractLsb' 12 36).toNat * 2 ^ 12 + (v.extractLsb' 4 5).toNat * 2 ^ 4 + (if src < 7 then src else 0))

/-- Whether a hold freezes the pod in a WALL cycle (10 R305). -/
def State.frozenIn (s : State) (wall : Nat) : Bool := match s.pod.freeze with | some (a, b) => decide (a ≤ wall ∧ wall ≤ b) | none => false

/-- A write of MCFGk of core p: at the end of its cycle where the core sails, else for the next sailing start (14 R400). In a cycle whose end the core has gone through,
or that is frozen, it takes effect at once. -/
def writeMcfg (s : State) (p k : Nat) (v : Word) : State :=
  let sails : Bool := match (s.core p).run.sailing with
    | some n => (s.sailing n).running && (s.core p).run.closed != s.wall && !s.frozenIn s.wall
    | none => false
  let n := 0xC0 + 16 * (k % 4)
  s.modCore p fun c => if sails then c.later (.ctl n (mcfgValue v)) else c.cset n (mcfgValue v)

/-- MCFG_WRITE (14 R400). -/
def execMcfgWrite (p n v : Nat) (s : State) : Host.Outcome State Fault Refusal := .next (writeMcfg s p n (BitVec.ofNat 64 v))

/-- The fields of a register, as a mask. -/
def keepBits (v : Nat) (fields : List (Nat × Nat)) : Nat := fields.foldl (fun z f => z + bitsOf v f.1 f.2 * 2 ^ f.2) 0

/-- A write of LMSEL: both counts are cleared (14 R399, 15 R407). -/
def writeLmsel (s : State) (d v : Nat) : State :=
  s.modDie d fun r => { r with lmsel := BitVec.ofNat 64 (keepBits v [(39, 32), (23, 21), (20, 9), (8, 8)]), lmfrom := s.pod.tt, lmmiss := 0, lmused := 0 }

/-- LMSEL_WRITE (14 R399). -/
def execLmselWrite (d v : Nat) (s : State) : Host.Outcome State Fault Refusal := .next (writeLmsel s d v)

/-- WAKECTL as it reads (14 R402). -/
def Wake.word (w : Wake) : Nat :=
  w.start * 2 ^ 32 + w.trig * 2 ^ 17 + (if w.mode then 2 ^ 16 else 0) + (if w.done then 2 ^ 9 else 0) + (if w.arm then 2 ^ 8 else 0) + w.quad

/-- A write of WAKECTL: one that sets ARM follows the sailing that owns QUAD now, and clears DONE and WAKELAST (14 R402). -/
def writeWakectl (s : State) (d v : Nat) : State :=
  let arm := bitsOf v 8 8 == 1
  let quad := bitsOf v 4 0
  let owner := (s.sailings.find? fun x => x.2.holdsQuads && decide (quad < 24) && x.2.quads.contains (24 * d + quad)).map (·.1)
  s.modDie d fun r =>
    let w := r.wake
    { r with wake :=
        { start := bitsOf v 63 32, trig := bitsOf v 21 17, mode := bitsOf v 16 16 == 1, arm := arm, quad := quad,
          done := if arm then false else w.done, last := if arm then 0 else w.last, sailing := if arm then owner else w.sailing,
          stop := if arm then none else w.stop } }

/-- WAKECTL_WRITE (14 R402). -/
def execWakectlWrite (d v : Nat) (s : State) : Host.Outcome State Fault Refusal := .next (writeWakectl s d v)

/-- WAKE_DONE (14 R402): the window has been recorded, or the sailing has reached STATE 5 to 8. -/
def execWakeDone (d : Nat) (s : State) : Host.Outcome State Fault Refusal :=
  let w := (s.die d).wake
  match w.sailing with
  | none => .next s
  | some n =>
    let g := s.sailing n
    let full : Bool := if w.mode then (match w.stop with | some u => decide (u ≤ g.t) | none => false) else decide (w.start + 65535 ≤ g.t)
    .next (if w.arm ∧ (5 ≤ g.state ∨ (g.running ∧ full)) then s.modDie d fun r => { r with wake := { w with done := true, arm := false } } else s)

/-! ### Drift rings (14 R398) -/

/-- DRIFT_RECORD_DRAIN (14 R398): the oldest queued record, when residue slots have carried it there, goes to its place in the core's ring, without a port of its
own (DESIGN CHOICE, log 36); not while the core's sailing is stopped, whose records are saved with its context and drain after the resume. -/
def execDriftRecordDrain (p : Nat) (s : State) : Host.Outcome State Fault Refusal :=
  let o := (s.core p).obs
  match o.queue with
  | [] => .next s
  | v :: rest =>
    let held : Bool := match (s.core p).run.sailing with | some n => !(s.sailing n).running | none => false
    if o.drlen = 0 ∨ held ∨ ¬ o.way.over (o.links p) then .next s
    else
      let pa := o.drbase + 8 * (o.drdrn.toNat % o.drlen)
      let s := if populated pa ∧ ¬ isControl pa then s.write false pa v.toNat 8 else s
      .next (s.modCore p fun c => { c with obs := { c.obs with queue := rest, drdrn := c.obs.drdrn + 1, way := { at_ := s.wall } } })

/-! ### Reset, boot and attestation (15 R410 to R412) -/

/-- The record of a package. -/
def State.pkg (s : State) (k : Nat) : Package := s.pkgs.get {} k

/-- The state with a package's record changed. -/
def State.modPkg (s : State) (k : Nat) (f : Package → Package) : State := { s with pkgs := s.pkgs.set k (f (s.pkg k)) }

/-- The ports of a package as the pod's wiring sets them (15 R410). -/
def wiredPorts (k : Nat) : Vector RPort 24 :=
  Vector.ofFn fun i : Fin 24 => match Config.wiring k i.val with
    | some (q, r) => { up := true, peer := q, peerPort := r }
    | none => {}

/-- A sailing has a quad in a package, or was launched by a helm of it. -/
def Sailing.inPkg (g : Sailing) (k : Nat) : Bool := pkgOf g.helm == k || g.quads.any fun q => q / 96 == k

/-- Every sailing of a package is stopped (13 R388); those launched by its own helms are over, their status blocks being lost with their SRAM. -/
def stopPackage (s : State) (k : Nat) : State :=
  s.sailings.foldl (fun s x =>
    if (s.sailing x.1).inPkg k ∧ (s.sailing x.1).alive ∨ ((s.sailing x.1).inPkg k ∧ (s.sailing x.1).state = 6) then
      let s := killSailing s x.1
      if pkgOf x.2.helm = k then freeCores (closeRecords (s.modSailing x.1 fun g => { g with state := 8, slot := none, saved := [] }) x.1) x.1
      else s
    else s) s

/-- The die d of package k, by number over the pod. -/
def inPackage (k d : Nat) : Bool := d / 4 == k

/-- What the pod shares, of a pod of one package that is reset: the clock runs, no change of it is pending, and LATR and HLAT are as after reset. -/
def Pod.clear (x : Pod) (alone : Bool) : Pod :=
  { x with clk := if alone then 0 else x.clk, change := if alone then none else x.change, latr := if alone then ({} : Pod).latr else x.latr,
           hlat := if alone then ({} : Pod).hlat else x.hlat }

/-- A package's SRAM reads zero with valid check bits, its registers hold their reset values, CLKSEL, LATR and HLAT among them, until the pod sets them again; its HBM and
the poison there are kept (15 R412). -/
def clearPackage (s : State) (k : Nat) : State :=
  let sram (pa : Nat) : Bool := pa / 0x400000000000 == k && decide (0x300000000000 ≤ pa % 0x400000000000)
  let born := s.wall - s.pod.stood
  let s := { s with
    mem := s.mem.filter fun x => !sram x.1
    poison := s.poison.filter fun w => !sram (8 * w)
    foreign := s.foreign.filter fun w => !sram (8 * w)
    upsets := s.upsets.filter fun u => !sram (8 * u.word)
    pod := s.pod.clear ((List.range 24).all fun i => (Config.wiring k i).isNone)
    cores := s.cores.filter fun x => pkgOf x.1 ≠ k
    helms := s.helms.filter fun x => pkgOf x.1 ≠ k
    quads := s.quads.filter fun x => x.1 / 96 ≠ k
    lighters := s.lighters.filter fun x => x.1 / 8 ≠ k
    dies := s.dies.filter fun x => !inPackage k x.1 }
  let s := (List.range 4).foldl (fun s i => s.modDie (4 * k + i) fun r => { r with zero := born, lmfrom := s.pod.tt }) s
  s.modPkg k fun a => { ports := wiredPorts k, off := a.off, fresh := true }

/-- PACKAGE_RESET (15 R412). -/
def execPackageReset (k : Nat) (s : State) : Host.Outcome State Fault Refusal := .next (clearPackage (stopPackage s k) k)

/-- The helm cores of a package stop and stand as at reset. -/
def stopHelms (s : State) (k : Nat) : State := { s with cores := s.cores.filter fun x => !(isHelm x.1 && pkgOf x.1 == k) }

/-- A reboot: the helm cores stop, and the boot ROM runs again, from BOOTADDR (15 R410, R411). -/
def rebootPackage (s : State) (k : Nat) : State := (stopHelms s k).modPkg k fun a => { a with code := 0xFF }

/-- REBOOT (15 R411). -/
def execReboot (k : Nat) (s : State) : Host.Outcome State Fault Refusal := .next (rebootPackage s k)

/-- n bytes of a firmware image at a physical address; the bytes of a poisoned word are free (DESIGN CHOICE, log 3). -/
def imageBytes (s : State) (a n : Nat) : List Byte :=
  (List.range n).map fun i => if s.poisoned (a + i) then (Config.freeWord (s.freeIx + i)).truncate 8 else s.mem.get (a + i)

/-- A list of bytes as a number, the first least significant. -/
def leBytes (bs : List Byte) : Nat := bs.foldr (fun b v => b.toNat + 256 * v) 0

/-- The outcome of the boot ROM's checks of an image, and the image's digest and entry (15 R411). -/
def bootCheck (s : State) (k : Nat) : Nat × BitVec 256 × Nat :=
  let base := pkgBase k + (s.pkg k).bootAddr
  let head := imageBytes s base 64
  let len := leBytes ((head.drop 8).take 4)
  let fits := decide ((s.pkg k).bootAddr + 64 + 1312 + 2420 + len ≤ 0xB2D05E0000)
  let zeros := ((head.drop 12).take 4 ++ head.drop 24).all (· = 0)
  if leBytes (head.take 4) ≠ 0x57464D4C ∨ ¬ fits ∨ ¬ zeros then (1, 0, 0)
  else
    let key := imageBytes s (base + 64) 1312
    let sig := imageBytes s (base + 64 + 1312) 2420
    let digest := sha3 (head ++ imageBytes s (base + 64 + 1312 + 2420) len)
    if sha3 key ≠ Config.fusedDigest k then (4, 0, 0)
    else if leBytes ((head.drop 4).take 4) < Config.fusedMinimum k then (3, 0, 0)
    else if ¬ Config.dsaVerify (BitVec.ofNat 10496 (leBytes key)) digest (BitVec.ofNat 19360 (leBytes sig)) then (2, 0, 0)
    else (0, digest, leBytes ((head.drop 16).take 8))

/-- A helm core as it starts at the firmware's entry. -/
def bootHelm (wall entry : Nat) : Core := { run := { live := true, t := wall }, fetch := { pc := entry } }

/-- BOOT (15 R411): the boot ROM of a package that is booting has checked its image: every helm starts at the entry, or none runs. -/
def execBoot (k : Nat) (s : State) : Host.Outcome State Fault Refusal :=
  if (s.pkg k).code ≠ 0xFF ∨ (s.pkg k).off then .next s
  else
    let (code, digest, entry) := bootCheck s k
    let s := { s with freeIx := s.freeIx + 1 }
    if code ≠ 0 then .next (s.modPkg k fun a => { a with code := code })
    else
      let s := s.modPkg k fun a =>
        { a with code := 0, meas := (a.meas.set 0 Config.romDigest).set 1 digest, idpk := Config.identityKey k }
      .next ((List.range 8).foldl (fun s i => s.setCore (helmBase + 8 * k + i) (bootHelm s.wall entry)) s)

/-- A write to ATTGO: 1 begins the signature of the nonce as it stands (15 R411). -/
def writeAttgo (s : State) (k v : Nat) : State :=
  s.modPkg k fun a => if v % 2 = 1 ∧ a.signing.isNone then { a with signing := some a.nonce } else a

/-- ATTGO_WRITE (15 R411). -/
def execAttgoWrite (k v : Nat) (s : State) : Host.Outcome State Fault Refusal := .next (writeAttgo s k v)

/-- ATTESTATION_SIGNED (15 R411): ATTSIG is valid, and ATTGO reads 0. -/
def execAttestationSigned (k : Nat) (s : State) : Host.Outcome State Fault Refusal :=
  .next (match (s.pkg k).signing with
    | some nonce => s.modPkg k fun a => { a with sig := Config.identitySign k nonce a.meas.toList k, signing := none }
    | none => s)

/-! ### The clock (15 R414) -/

/-- A write of CLKSEL: the change is pending on every package; launches that come after it wait for it, those after an earlier write that is still pending too. -/
def writeClksel (s : State) (v : Nat) : State :=
  let first := match s.pod.change with | some (_, n) => n | none => s.nextSailing
  { s with
    pod := { s.pod with change := some (if v % 4 = 1 then 1 else 0, first) }
    pkgs := s.pkgs.map fun (x : Nat × Package) => (x.1, { x.2 with fresh := false }) }

/-- CLKSEL_WRITE (15 R414), on whichever package. -/
def execClkselWrite (_k v : Nat) (s : State) : Host.Outcome State Fault Refusal := .next (writeClksel s v)

/-- CLOCK_CHANGE (15 R414): with no earlier sailing in STATE 0 to 4 the change takes effect; a restart measures the links again, to values of R303
that are free. -/
def execClockChange (s : State) : Host.Outcome State Fault Refusal :=
  match s.pod.change with
  | none => .next s
  | some (v, first) =>
    if s.sailings.any fun x => decide (x.1 < first) && x.2.alive then .next s
    else
      let (f, s) := s.free
      let latr := 64 + 8 * (f.toNat % 249)
      let hlat := 8 * (f.toNat / 256 % 8192)
      .next { s with pkgs := s.pkgs.map (fun (x : Nat × Package) => (x.1, { x.2 with fresh := false })), pod := { s.pod with
        change := none, clk := v, latr := if v = 0 then latr else s.pod.latr, hlat := if v = 0 then hlat else s.pod.hlat } }

/-! ### Control space (15 R405 to R410) -/

/-- Bits 64i + 63 to 64i of a number. -/
def wordAt (v i : Nat) : Nat := v / 2 ^ (64 * i) % 2 ^ 64

/-- The 16 bytes of WMCn and its FADDR (09 R271). -/
def Core.wmcWord (c : Core) (n i : Nat) : Nat :=
  let w := c.wmc.toList.getD n {}
  let b (x : Bool) : Nat := if x then 1 else 0
  match i with
  | 0 => w.rlen * 2 ^ 32 + w.rbase
  | 1 => Nat.min 1 ((c.refills.toList.getD n []).length - 1) * 2 ^ 34 + b w.flt * 2 ^ 33 + b w.act * 2 ^ 32 + w.filled
  | 2 => w.faddr
  | _ => 0

/-- The 16 bytes of PMAPn (09 R285). -/
def Core.pmapWord (c : Core) (n i : Nat) : Nat :=
  let e := c.pmap.toList.getD n {}
  let b (x : Bool) : Nat := if x then 1 else 0
  wordAt (e.tag * 2 ^ 96 + b e.f1 * 2 ^ 93 + e.fofs1 * 2 ^ 76 + b e.f0 * 2 ^ 75 + e.fofs0 * 2 ^ 58 + b e.vis * 2 ^ 54 + b e.v * 2 ^ 53
    + e.len * 2 ^ 34 + e.alt * 2 ^ 17 + e.base) i

/-- A mirrored control register; of a core that is not sailing only MCFG is not zero (15 R406). -/
def Core.mirror (c : Core) (n : Nat) : Nat :=
  if c.run.sailing.isNone ∧ ¬ (0xC0 ≤ n ∧ n % 16 = 0) then 0
  else ((((contextWord c n).orElse fun _ => residueCounter c.counts n).orElse fun _ => monitorWord c n).getD 0).toNat

/-- A register of a core's control block (15 R406). -/
def coreRegister (c : Core) (y : Nat) : Nat :=
  if y < 0x100 then c.wmcWord (y / 32) (y % 32 / 8)
  else if y < 0x200 then c.pmapWord ((y - 0x100) / 16) (y % 16 / 8)
  else if y = 0x200 then c.ctl.tolls
  else if y = 0x208 then c.obs.drbase
  else if y = 0x210 then c.obs.drlen
  else if y = 0x400 then c.dbgctl
  else if y = 0x408 then c.dbg.brk0
  else if y = 0x410 then c.dbg.brk1
  else if 0x800 ≤ y ∧ y < 0x1000 then c.mirror ((y - 0x800) / 8)
  else 0

/-- A die register (15 R407). -/
def dieRegister (s : State) (r : Die) (y : Nat) : Nat :=
  match y with
  | 0x00 => r.wake.word
  | 0x08 => r.wake.last
  | 0x40 => r.ceSram.toNat
  | 0x48 => r.ueSram.toNat
  | 0x50 => r.ceHbm.toNat
  | 0x58 => r.ueHbm.toNat
  | 0x60 => r.poisrd.toNat
  | 0x68 => r.lretry.toNat
  | 0x80 => r.bardrop.toNat
  | 0x88 => r.cmbdrop.toNat
  | 0x90 => r.hchdrop.toNat
  | 0x98 => r.dlmiss.toNat
  | 0xA0 => r.lmsel.toNat
  | 0xA8 => (s.pod.tt - r.lmfrom - r.lmmiss) % 2 ^ 64
  | 0xB0 => r.lmused.toNat
  | _ => 0

/-- A package register (15 R410). -/
def packageRegister (s : State) (k y : Nat) : Nat :=
  let a := s.pkg k
  if y = 0x000 then a.code
  else if y = 0x008 then a.bootAddr
  else if y = 0x010 then k
  else if y = 0x018 then (if a.fresh then ({} : Pod).latr else s.pod.latr)
  else if y = 0x020 then (if a.fresh then ({} : Pod).hlat else s.pod.hlat)
  else if y = 0x028 then (if a.fresh then 0 else match s.pod.change with | some (v, _) => v + 256 | none => s.pod.clk)
  else if 0x100 ≤ y ∧ y < 0x1C0 then
    let r := a.ports.toList.getD ((y - 0x100) / 8) {}
    (if r.up then 2 ^ 31 else 0) + r.peer % 64 * 2 ^ 16 + r.peerPort % 32 * 2 ^ 8
  else if 0x400 ≤ y ∧ y < 0x500 then wordAt (a.meas.toList.getD ((y - 0x400) / 32) 0).toNat (y % 32 / 8)
  else if 0x500 ≤ y ∧ y < 0x520 then wordAt a.nonce.toNat ((y - 0x500) / 8)
  else if y = 0x520 then (if a.signing.isSome then 1 else 0)
  else if 0x1000 ≤ y ∧ y < 0x1520 then wordAt a.idpk.toNat ((y - 0x1000) / 8)
  else if 0x2000 ≤ y ∧ y < 0x2978 then wordAt a.sig.toNat ((y - 0x2000) / 8)
  else 0

/-- An offset of a die's control space that is memory: grammar store, helm scratchpad, wake recorder (15 R405). -/
def isControlMemory (x : Nat) : Bool :=
  decide (x < 0x1800000) || (decide (0x2000000 ≤ x) && decide (x < 0x2200000)) || (decide (0x5100000 ≤ x) && decide (x < 0x5200000))

/-- The die and offset of a control-space address. -/
def controlOffset (pa : Nat) : Nat × Nat :=
  let o := pa % 0x400000000000 - 0x3F0000000000
  (pa / 0x400000000000 * 4 + o / 0x40000000, o % 0x40000000)

/-- An 8-byte word of control space as a helm or the host reads it (15 R405 to R410). -/
def ctlRead (s : State) (pa : Nat) : Nat :=
  let (d, x) := controlOffset pa
  if isControlMemory x then (if s.poisoned pa then 0 else s.read pa 8)
  else if 0x4000000 ≤ x ∧ x < 0x4000000 + 96 * 0x20000 then
    let y := (x - 0x4000000) % 0x20000
    if y < 0x10000 then coreRegister (s.core (96 * d + (x - 0x4000000) / 0x20000)) y else 0
  else if 0x5000000 ≤ x ∧ x < 0x5001000 then dieRegister s (s.die d) (x - 0x5000000)
  else if 0x7000000 ≤ x ∧ x < 0x7010000 ∧ d % 4 = 0 then packageRegister s (d / 4) (x - 0x7000000)
  else 0

/-- A write to a register of core p's control block (15 R406). A DRLEN out of its range is free (DESIGN CHOICE, log 3). -/
def writeCoreRegister (s : State) (p y v : Nat) : State :=
  if y = 0x208 then s.modCore p fun c => { c with obs := { c.obs with drbase := keepBits v [(51, 3)] } }
  else if y = 0x210 then
    let (f, s) := s.free
    s.modCore p fun c => { c with obs := { c.obs with drlen := if v ≤ 65536 then v else f.toNat % 65537 } }
  else if y = 0x400 then s.modCore p (·.setDbgctl v)
  else if y = 0x408 then s.modCore p fun c => { c with dbg := { c.dbg with brk0 := keepBits v [(47, 2), (0, 0)] } }
  else if y = 0x410 then s.modCore p fun c => { c with dbg := { c.dbg with brk1 := keepBits v [(47, 2), (0, 0)] } }
  else if 0x800 + 8 * 0xC0 ≤ y ∧ y < 0x1000 ∧ (y - 0x800) / 8 % 16 = 0 then writeMcfg s p (((y - 0x800) / 8 - 0xC0) / 16) (BitVec.ofNat 64 v)
  else s

/-- A write to a package register (15 R410). -/
def writePackageRegister (s : State) (k y v : Nat) : State :=
  if y = 0x008 then s.modPkg k fun a => { a with bootAddr := v / 64 * 64 % 2 ^ 46 }
  else if y = 0x028 then writeClksel s v
  else if y = 0x030 then
    (if v % 2 = 1 then clearPackage (stopPackage s k) k else if v / 2 % 2 = 1 then rebootPackage s k else s)
  else if 0x500 ≤ y ∧ y < 0x520 then
    let i := (y - 0x500) / 8
    s.modPkg k fun a => { a with nonce := BitVec.ofNat 256 (a.nonce.toNat - wordAt a.nonce.toNat i * 2 ^ (64 * i) + v % 2 ^ 64 * 2 ^ (64 * i)) }
  else if y = 0x520 then writeAttgo s k v
  else s

/-- An 8-byte word of control space written by a helm or the host (15 R405 to R410). -/
def ctlWrite (s : State) (pa v : Nat) : State :=
  let (d, x) := controlOffset pa
  if x < 0x1800000 ∨ (0x2000000 ≤ x ∧ x < 0x2200000) then s.write false pa v 8
  else if 0x4000000 ≤ x ∧ x < 0x4000000 + 96 * 0x20000 then
    writeCoreRegister s (96 * d + (x - 0x4000000) / 0x20000) ((x - 0x4000000) % 0x20000) v
  else if x = 0x5000000 then writeWakectl s d v
  else if x = 0x50000A0 then writeLmsel s d v
  else if 0x7000000 ≤ x ∧ x < 0x7010000 ∧ d % 4 = 0 then writePackageRegister s (d / 4) (x - 0x7000000) v
  else s

/-- CONTROL_REGISTER_WRITE (15 R408): a write through BAR 2, of a whole aligned word; any other is not accepted. -/
def execControlRegisterWrite (pa v : Nat) (s : State) : Host.Outcome State Fault Refusal :=
  .next (if isControl pa ∧ populated pa ∧ pa % 8 = 0 then ctlWrite s pa v else s)

/-- A write stalls for want of room in a die that retains lines: each full die on which no shootdown is pending starts one of its own (09 R294). -/
def shootAll (s : State) : State := (List.range 256).foldl dieShoot s

/-! ### Remote accesses (04 R126, R138, R140; 09 R291; 13 R365) -/

/-- What a remote access comes to: it must wait, or it has performed with a value or a fault. -/
inductive Performed where
  | wait (s : State)
  | done (s : State) (v : Word) (bad : Option (Nat × Nat))
  deriving DecidableEq, Repr

/-- The fault of a remote read of core q's scratchpad, by a primary or a helm core, found where it performs: a stamped tag, a faulted half, a faulted ring
(09 R274, R291, R292); none where it goes on, an inner none where it waits for a watermark. That a read of bytes above another core's watermark waits at the
home's port, and that its fault is raised where the lq entry is popped, is the model's choice: 04 R129 speaks of a stall and of a fault at issue, for rings
that the issuing core can see (DESIGN CHOICE, log 62). -/
def remoteGate (s : State) (q a : Nat) (r : Remote) : Option (Option (Nat × Nat)) :=
  let c := s.core q
  let stampOf (h : Nat) : Nat := let e := c.pmap.toList.getD (h % 16) {}; if e.v then e.tag else 0
  let tagBad := match r.tag with
    | some (h, tag) => if stampOf h = tag then none else some (0x04, tagDetail tag (stampOf h))
    | none => none
  match tagBad with
  | some f => some (some f)
  | none => match c.halfFault a r.width with
    | some src => some (some (0x07, src))
    | none => match c.watermark a r.width with
      | some (some f) => some (some (0x07, f))
      | some none => some none
      | none => none

/-- An access to another core's scratchpad performs at its port, where no access of higher rank has it in this cycle (04 R123). -/
def performSpad (s : State) (q a : Nat) (r : Remote) : Performed :=
  match s.takePorts q (portsOf ((s.core q).visible a) r.width) with
  | none => .wait s
  | some s' => atPort s s'
where
  /-- The access in the state in which it has its port; s0 is the state in which it waits. -/
  atPort (s0 s : State) : Performed :=
  let n := r.width
  let old := readSpad s q a n
  let gate := remoteGate s q a r
  match r.op with
  | .store v => .done (writeSpad s false q a v.toNat n) 0 none
  | .flagWrite v => .done (writeSpad s false q a v.toNat n) 0 none
  | op => match gate with
    | some none => .wait s0
    | some (some f) => .done s 0 (some f)
    | none => match op with
      | .amo o b new => .done (writeSpad (countPoison s q a n) false q a (amoNew o n old (b.toNat % 2 ^ (8 * n)) new.toNat) n) (BitVec.ofNat 64 old) none
      | _ => .done (countPoison s q a n) (BitVec.ofNat 64 old) none

/-- A helm's access to control space or to memory performs at its home. A poisoned word of memory reads as 0 and is counted, in control space (15 R407) and for an atomic (R415);
what a helm's load of one in HBM reads is free (DESIGN CHOICE, log 3). -/
def performPhys (s : State) (p : Nat) (r : Remote) : Performed :=
  let n := r.width
  if isControl r.pa then
    let old := ctlRead s r.pa
    let reads : Bool := match r.op with | .store _ | .flagWrite _ => false | _ => true
    let s := if reads ∧ isControlMemory (controlOffset r.pa).2 ∧ s.poisoned r.pa then s.modDie (controlOffset r.pa).1 fun d => { d with poisrd := d.poisrd + 1 } else s
    match r.op with
    | .store v => .done (ctlWrite s r.pa v.toNat) 0 none
    | .amo o b new => .done (ctlWrite s r.pa (amoNew o n old (b.toNat % 2 ^ (8 * n)) new.toNat)) (BitVec.ofNat 64 old) none
    | _ => .done s (BitVec.ofNat 64 old) none
  else
    let (f, s) := s.free
    let seen := if s.poisoned r.pa then f.toNat % 2 ^ (8 * n) else s.readVia (dieOf p) r.pa n
    let home := s.seenWord r.pa n
    let read (s : State) : State := s.observe p r.oc r.pa n
    match r.op with
    | .store v => if retainFull s r.pa then .wait (shootAll s) else .done (helmWrite s (.core p r.oc) r.pa v.toNat n) 0 none
    | .amo o b new =>
      if retainFull s r.pa then .wait (shootAll s)
      else .done (helmWrite (read (s.countPoisonAt r.pa n)) (.core p r.oc) r.pa (amoNew o n home (b.toNat % 2 ^ (8 * n)) new.toNat) n) (BitVec.ofNat 64 home) none
    | _ => .done ((read s).keepReplica (dieOf p) r.pa) (BitVec.ofNat 64 seen) none

/-- The status blocks of core p's sailing that wait for its remote accesses are written as far as they can be (13 R372). -/
def flushOwn (s : State) (p : Nat) : State := match (s.core p).run.sailing with | some n => flushBlocks s n | none => s

/-- Remote access i of core p performs, and its reply sets out; with the last one the fault records, and the status blocks, that waited for it go out (13 R367, R372). One
that loses its port, or has to wait at its home, tries again in the next cycle (04 R123). -/
def performRemote (s : State) (p i : Nat) (r : Remote) : State :=
  match (match spadOwner r.pa with | some q => performSpad s q (r.pa - spadBase q) r | none => performPhys s p r) with
  | .wait s => s.modCore p fun c =>
      { c with remotes := setAt c.remotes i { r with asked := some (r.asked.getD s.wall), way := { r.way with last := s.wall } } }
  | .done s v bad => flushOwn (flushPosts (s.modCore p fun c =>
      { c with remotes := setAt c.remotes i { r with result := some v, bad := bad, way := { at_ := s.wall } } }) p) p

/-- The places of a core's remote accesses that pass a test. -/
def Core.remoteSet (c : Core) (f : Remote → Bool) : List Nat :=
  (List.range c.remotes.length).filter fun i => match c.remotes[i]? with | some r => f r | none => false

/-- A remote access has asked its home in an earlier cycle and not yet in this one (04 R123). -/
def Remote.again (r : Remote) (wall : Nat) : Bool := r.asked.isSome && r.result.isNone && decide (r.way.last < wall)

/-- Of the accesses of core p that ask again in this cycle the one that asked first. -/
def Core.oldestAgain (c : Core) (wall : Nat) : Option Nat :=
  let l := c.remoteSet (·.again wall)
  let age (i : Nat) : Nat := (c.remotes[i]?.bind (·.asked)).getD 0
  (sortBy (fun i j => decide (age i ≤ age j)) l).head?

/-- REMOTE_ACCESS_PERFORM (04 R126): an access that has lost in an earlier cycle asks again, the oldest first, else one that is over its way, which one is free, asks its
home: it performs, or tries again in the next cycle (R123). -/
def execRemoteAccessPerform (p : Nat) (s : State) : Host.Outcome State Fault Refusal :=
  let c := s.core p
  let ready := c.remoteSet fun r => r.way.over (r.links p) && r.result.isNone && r.asked.isNone
  let (f, s) := s.free
  match (c.oldestAgain s.wall).orElse fun _ => ready[f.toNat % ready.length]? with
  | none => .next s
  | some i => match c.remotes[i]? with
    | some r => .next (performRemote s p i r)
    | none => .next s

/-- The reply of a remote access reaches its core (04 R127, R138). -/
def Core.reply (c : Core) (i : Nat) (r : Remote) (v : Word) : Core :=
  let c := { c with remotes := c.remotes.eraseIdx i }
  match r.op, r.entry with
  | .flagRead, _ => { c with run := { c.run with flag := some (v, r.bad) } }
  | _, some e => { c with queues := { c.queues with lq := c.queues.lq.map fun x => if x.id = e then { x with val := some v, bad := r.bad } else x } }
  | _, none => c

/-- REMOTE_REPLY (04 R126): the reply of an access that has performed is over its way and returns, not before its earliest cycle; which one is free. -/
def execRemoteReply (p : Nat) (s : State) : Host.Outcome State Fault Refusal :=
  let c := s.core p
  let ready := c.remoteSet fun r => r.result.isSome && r.way.over (r.links p) && decide (r.due ≤ c.run.t)
  let (f, s) := s.free
  match ready[f.toNat % ready.length]? with
  | none => .next s
  | some i => match c.remotes[i]? with
    | some r => match r.result with
      | some v => .next (s.modCore p fun c => c.reply i r v)
      | none => .next s
    | none => .next s

/-! ### The host link (13 R368; 15 R409) -/

/-- A host word arrives at helm core h's inbound endpoint e, or is dropped and counted where that is full. -/
def hostWord (s : State) (h e v : Nat) : State :=
  let q := (s.helm h).inbound.toList.getD e []
  if 64 ≤ q.length then s.modDie (dieOf h) fun r => { r with hchdrop := r.hchdrop + 1 }
  else s.modHelm h fun r => { r with inbound := r.inbound.setIfInBounds e (q ++ [BitVec.ofNat 64 v]) }

/-- What the host has sent performs in order, each when it is over its way (10 R307): a write as far as the dies can retain the lines that it changes (09 R294); a
channel word once every earlier write has performed, its invalidations included, whose time no program can count: the word is a release (01 R48). -/
def hostGo : List HostOp → State → State
  | [], s => { s with hostWrites := [] }
  | h :: rest, s =>
    let wait := { s with hostWrites := h :: rest }
    let next (s : State) : State := { s with hostWay := { at_ := s.wall } }
    if ¬ s.hostWay.over h.links then wait
    else match h with
      | .mem pa v => if retainFull s pa then shootAll wait else hostGo rest (next (helmWrite s .host pa v 8))
      | .word u e v => hostGo rest (next (hostWord (deliverInvals s (· == .host)) (helmBase + u) e v))

/-- What the host sends sets out behind what it has sent before. -/
def hostSends (s : State) (h : HostOp) : State :=
  hostGo (s.hostWrites ++ [h]) (if s.hostWrites.isEmpty then { s with hostWay := { at_ := s.wall } } else s)

/-- HOST_CHANNEL_WRITE: a host word for helm u's inbound endpoint e sets out, behind the host's earlier writes. -/
def execHostChannelWrite (u e v : Nat) (s : State) : Host.Outcome State Fault Refusal :=
  .next (if 16 ≤ e then s else hostSends s (.word u e v))

/-- HOST_OUTBOUND_READ: a host read pops a word of helm u's outbound endpoint e, 16 to 31. -/
def execHostOutboundRead (u e : Nat) (s : State) : Host.Outcome State Fault Refusal :=
  let h := helmBase + u
  if e < 16 ∨ 32 ≤ e then .next s
  else .next (s.modHelm h fun r => { r with outbound := r.outbound.setIfInBounds (e - 16) ((r.outbound.toList.getD (e - 16) []).drop 1) })

/-- HOST_FAULT_POP: a host read of 0x218 pops the head of die d's fault buffer. -/
def execHostFaultPop (d : Nat) (s : State) : Host.Outcome State Fault Refusal :=
  .next (s.modDie d fun r => { r with faultBuf := r.faultBuf.drop 1 })

/-- HOST_MEMORY_WRITE (15 R409; 09 R294): a host write of a word to HBM offset o of package k; above the HBM it is dropped; where a die can retain
no more lines it stalls, and is tried again in each cycle. -/
def execHostMemoryWrite (k o v : Nat) (s : State) : Host.Outcome State Fault Refusal :=
  if 0xB2D05E0000 < o + 8 ∨ 64 ≤ k then .next s
  else .next (hostSends s (.mem (pkgBase k + o) v))

/-! ### Ports and power (15 R410, R413) -/

/-- A port and its peer are down, and the sailings that span both packages are killed. -/
def portDown (s : State) (k r : Nat) : State :=
  let x := (s.pkg k).ports.toList.getD r {}
  if ¬ x.up then s
  else
    let down (s : State) (k r : Nat) : State := s.modPkg k fun a =>
      { a with ports := a.ports.setIfInBounds r { a.ports.toList.getD r {} with up := false } }
    let s := down (down s k r) x.peer x.peerPort
    let spans (g : Sailing) : Bool := g.quads.any (fun q => q / 96 == k) && g.quads.any fun q => q / 96 == x.peer
    s.sailings.foldl (fun s y => if spans (s.sailing y.1) then killSailing s y.1 else s) s

/-- PORT_DOWN (15 R410). -/
def execPortDown (k r : Nat) (s : State) : Host.Outcome State Fault Refusal := .next (portDown s k r)

/-- THERMAL_SHUTDOWN (15 R413): the package removes its own power: nothing of it goes on, and its peers see their ports go down. -/
def execThermalShutdown (k : Nat) (s : State) : Host.Outcome State Fault Refusal :=
  let s := (List.range 24).foldl (fun s r => portDown s k r) s
  .next ((clearPackage (stopPackage s k) k).modPkg k fun _ => { off := true })

/-! ### Memory errors and invalidations (15 R415, R416; 01 R41) -/

/-- The die whose counters an error in a word is counted in, and whether the word lies in HBM (15 R407). -/
def errorDie (pa : Nat) : Nat × Bool :=
  if pa % 0x400000000000 < 0x300000000000 then (hbmDie pa, true)
  else (match spadOwner pa with | some p => dieOf p | none => controlDie pa, false)

/-- A word has been read with b bits in error: one is corrected, more poison it; either is counted (15 R415). -/
def foundError (s : State) (pa b : Nat) : State :=
  let (d, hbm) := errorDie pa
  let s := { s with upsets := s.upsets.filter fun u => u.word ≠ pa / 8 }
  if b = 1 then s.modDie d fun r => if hbm then { r with ceHbm := r.ceHbm + 1 } else { r with ceSram := r.ceSram + 1 }
  else (s.setPoison (pa / 8 * 8) 8).modDie d fun r => if hbm then { r with ueHbm := r.ueHbm + 1 } else { r with ueSram := r.ueSram + 1 }

/-- SCRUB (15 R415, R416): a word is read, by an access or by the scrubber, with b bits in error. -/
def execScrub (pa b : Nat) (s : State) : Host.Outcome State Fault Refusal := .next (if ¬ populated pa ∨ b = 0 then s else foundError s pa b)

/-- The errors of some words are found. -/
def findErrors (s : State) (f : Upset → Bool) : State := (s.upsets.filter f).foldl (fun s u => foundError s (8 * u.word) u.bits) s

/-- HBM_PATROL_SCRUB (15 R416): package k's HBM is read, and every error in it found. -/
def execHbmPatrolScrub (k : Nat) (s : State) : Host.Outcome State Fault Refusal :=
  .next (findErrors s fun u => (errorDie (8 * u.word)).2 && 8 * u.word / 0x400000000000 == k)

/-- A bit of memory is upset in this cycle, or none: which one is free (DESIGN CHOICE, log 77). A word with two bits or more in error can be read as nothing else than
poisoned from then on; it is counted when it is found. -/
def upset (s : State) : State :=
  let w := Config.upset s.freeIx
  let old := s.upsets.find? (·.word = w / 8)
  let u : Upset := { word := w / 8, bits := (old.map (·.bits)).getD 0 + 1, at_ := (old.map (·.at_)).getD s.wall }
  let hit := decide (w % 8 = 0) && populated w && !s.poisoned w
  { s with
    freeIx := s.freeIx + 1
    upsets := if hit then s.upsets.filter (·.word ≠ w / 8) ++ [u] else s.upsets
    poison := if hit ∧ 2 ≤ u.bits then insWord s.poison (w / 8) else s.poison }

/-- The scrubber reads every word of SRAM at least once in 2^28 cycles, at times that are free, and HBM is read once in 24 hours of WALL, at 1.2 GHz (15 R416; 00 R1): the
errors that they come upon are found, single ones corrected. -/
def scrub (s : State) : State :=
  let s := s.upsets.foldl (fun s u =>
    let due := !(errorDie (8 * u.word)).2 && (decide (u.at_ + 2 ^ 28 ≤ s.wall + 1) || Config.moment s.freeIx)
    let s := { s with freeIx := s.freeIx + 1 }
    if due then foundError s (8 * u.word) u.bits else s) s
  if s.wall % 103680000000000 = 0 then findErrors s fun u => (errorDie (8 * u.word)).2 else s

/-- INVALIDATION_ARRIVAL (01 R41): an invalidation under way towards die d removes its replica of the line; which one is free. -/
def execInvalidationArrival (d : Nat) (s : State) : Host.Outcome State Fault Refusal :=
  let l := (s.die d).invals
  let (f, s) := s.free
  match l[f.toNat % l.length]? with
  | none => .next s
  | some i => .next (s.modDie d fun r => { r with
      invals := r.invals.eraseIdx (f.toNat % l.length), replicas := r.replicas.filter fun x => x.1 ≠ i.line })

end Sys2Proof.Machine
end

