-- ==== Sys2Proof/Machine/Cycle.lean ====
section
/-! DEFINITION. A cycle of the pod: what its beginning does, and the list of the events that happen in it, in order. An event whose
condition does not hold changes nothing. An event whose time no program can count happens in the cycles that Config.moment picks (DESIGN CHOICE, log 5). -/

namespace Sys2Proof.Machine

/-- The state after an event. -/
def after (o : Host.Outcome State Fault Refusal) (s : State) : State := match o with | .next s' => s' | _ => s

/-- The machine has no power: its one package has removed it, and none is wired to that (15 R413). -/
def State.dead (s : State) : Bool := (s.pkg 0).off && (List.range 24).all fun i => (Config.wiring 0 i).isNone

/-- What a core keeps of a cycle only until its next one begins. -/
def Core.newCycle (c : Core) : Core :=
  { c with
    run := { c.run with moved := false, stallNow := false, tollStall := false, forfeited := false, wrote := [] }
    note := {}
    dbg := { c.dbg with held := false }
    barrel := { c.barrel with berths := 0 } }

/-- The ports of every scratchpad are free, and no ring has been written, at the start of a cycle, be it frozen or of a core whose clock stands (04 R123, 09 R272). -/
def Core.freshPorts (c : Core) : Core := { c with run := { c.run with used := [], ringBits := 0 } }

/-- What a cget of the cycle's skiffs finds is fixed. -/
def Core.snapshot (c : Core) : Core := { c with barrel := { c.barrel with before := c.counts } }

/-- A helm core at the start of its next cycle. -/
def Core.tickHelm (c : Core) (wall : Nat) : Core :=
  let c := c.newCycle
  { c with run := { c.run with t := wall } }

/-- A core of a running sailing at the start of cycle t: LCNT advances, but not into the sailing's first cycle or from a resume, over a toll
stall (03 R109), or while a debug stop holds the core, its last stopped cycle among them (14 R404). -/
def Core.tick (c : Core) (t : Nat) (first : Bool) : Core :=
  let n := if first ∨ c.run.tollStall ∨ c.run.stopped = 2 ∨ c.dbg.held then c.run.lcnt else c.run.lcnt + 1
  let c := c.newCycle
  ({ c with run := { c.run with t := t, lcnt := n } } : Core).snapshot

/-! ### Events that follow from the cycle that has ended -/

/-- Barrier messages and credits that the ended cycle delivers (10 R313, R319). -/
def deliverSailing (s : State) (n : Nat) : State :=
  let s := after (execBarrierArrival n s) s
  let s := after (execBarrierCompletion n s) s
  (List.range (s.sailing n).chans.length).foldl (fun s i => after (execCreditReturn n i s) s) s

/-- A sailing that has ended, stopped or been killed says so (13 R373, R384, R388). -/
def closeSailing (s : State) (n : Nat) : State :=
  let s := after (execSailingDone n s) s
  let s := after (execStopCycle n s) s
  after (execKillComplete n s) s

/-- The end of a cycle for what is shared: publications, barriers, credits, sailings, status blocks and host writes that waited, recorders. -/
def endOfCycle (s : State) : State :=
  let s := applySwaps s
  let live := (s.sailings.filter fun x => x.2.running || x.2.killed).map Prod.fst
  let s := live.foldl (fun s n => askHolds (deliverSailing s n) n) s
  let s := live.foldl closeSailing s
  let s := s.sailings.foldl (fun s x => flushBlocks s x.1) s
  let s := s.dies.foldl (fun s x => after (execWakeDone x.1 s) s) s
  hostGo s.hostWrites s

/-! ### Events whose time cannot be counted, at the start of a cycle -/

/-- The event happens where the free choice picks this cycle (DESIGN CHOICE, log 5). -/
def maybe (s : State) (f : State → Host.Outcome State Fault Refusal) : State :=
  let go := Config.moment s.freeIx
  let s := { s with freeIx := s.freeIx + 1 }
  if go then after (f s) s else s

/-- The dies that have a record, a core with one, or copy commands. -/
def State.diesAtWork (s : State) : List Nat :=
  (s.dies.map Prod.fst ++ s.lighters.map (fun (x : Nat × List CopyCmd) => x.1 / 2) ++ s.cores.map fun (x : Nat × Core) => dieOf x.1).eraseDups

/-- The firmware of a booted package may extend a measurement: how it hands the digest over the spec does not say, so that when it does, and by what, is free
(15 R411; DESIGN CHOICE, log 24). -/
def extendMeas (s : State) (k : Nat) : State :=
  let (i, d) := Config.extension s.freeIx
  { s with freeIx := s.freeIx + 1 }.modPkg k fun a =>
    if a.code = 0 ∧ 2 ≤ i ∧ i < 8 then
      { a with meas := a.meas.setIfInBounds i (sha3 (bytesOf (a.meas.toList.getD i 0) ++ bytesOf d)) }
    else a
where
  /-- The 32 bytes of a digest, the least significant first. -/
  bytesOf (v : BitVec 256) : List Byte := (List.range 32).map fun i => v.extractLsb' (8 * i) 8

/-- The packages of the pod: position 0, which there always is (01 R22), and those that something is recorded of. -/
def State.packages (s : State) : List Nat := (0 :: s.pkgs.map Prod.fst).eraseDups

/-- Walkers, markers, invalidations, boots, from reset on, signatures, scrubbing: they go on through a hold (10 R305). -/
def background (s : State) : State :=
  let s := scrub (upset s)
  let s := s.diesAtWork.foldl (fun s d => maybe (maybe (maybe s (execPageWalk d)) (execMarkerPass d)) (execInvalidationArrival d)) s
  s.packages.foldl (fun s k => extendMeas (maybe (maybe s (execBoot k)) (execAttestationSigned k)) k) s

/-- A core whose ring takes no record now: one that comes has waited since then. -/
def Observe.idle (o : Observe) (wall : Nat) : Observe := if o.queue.isEmpty ∨ o.drlen = 0 then { o with way := { at_ := wall } } else o

/-- Drift records that residue slots have carried to their ring drain (14 R398). -/
def drainDrift (s : State) : State :=
  let s := s.cores.foldl (fun s x => if x.2.obs.queue.isEmpty ∨ x.2.obs.drlen = 0 then s else maybe s (execDriftRecordDrain x.1)) s
  { s with cores := s.cores.map fun (x : Nat × Core) => (x.1, { x.2 with obs := x.2.obs.idle s.wall }) }

/-- Launches that wait are loaded, at times that cannot be counted (13 R371). -/
def startLaunches (s : State) : State :=
  s.sailings.foldl (fun s x => if x.2.state = 0 ∧ ¬ x.2.loaded then maybe s (execSailingStart x.1) else s) s

/-! ### The events of a cycle -/

/-- The contexts of a core that hold a skiff. -/
def Barrel.busy (b : Barrel) : List Nat := (List.range 8).filter fun j => (b.ctx.toList.getD j {}).occupied

/-- The issue of a core: its fault, stop, skip, or bundle. -/
def issueEvents (p : Nat) (c : Core) : List Instr :=
  if c.run.live ∧ ¬ c.run.halted then [.debugStopTaken p, .landingOverdue p, .bundleSkip p, .stallEnd p, .bundleIssue p] else []

/-- Cores in the order in which they issue in a cycle: by logical core id, which decides between two spawns of one core (01 R29); helm cores last. -/
def issueOrder (cs : Tab Core) : Tab Core :=
  let key (x : Nat × Core) : Nat := if isHelm x.1 then 2 ^ 20 + x.1 else x.2.ctl.lid
  sortBy (fun x y => decide (key x ≤ key y)) cs

/-- The skiffs' ports, with the result writes of the special-function unit for them, and grants. -/
def barrelEvents (p : Nat) (c : Core) : List Instr := .sfuRequestServe p :: (c.barrel.busy.map fun j => .skiffPortRequest p j) ++ [.skiffBarrelGrant p]

/-- The channels of a core whose queued refill follows one that has completed: it starts in the next cycle (09 R272). -/
def Core.following (c : Core) : List Nat :=
  (List.range 8).filter fun n => match c.refills.toList.getD n [] with | x :: _ => x.follows && !x.started | [] => false

/-- The engines of a core: sequencer, stream ports, refills that follow. -/
def engineEvents (p : Nat) (c : Core) : List Instr := [.vectorEntryStart p, .streamPortRefill p] ++ c.following.map (.refillStart p)

/-- The array of a quad. -/
def arrayEvents (q : Nat) : List Instr := [.arrayCommandStart q, .macroKStep q, .arrayCommandComplete q]

/-- A core's metadata moves, which are the array's (07 R257). -/
def moveEvents (p : Nat) : List Instr := [.mdldWrite p, .mdstComplete p]

/-- The channels of a sailing. -/
def channelEvents (n : Nat) (g : Sailing) : List Instr := ((List.range g.chans.length).map fun i => .channelSlot n i) ++ [.flitDelivery n]

/-- A core's watermark refills, whose times cannot be counted. -/
def refillEvents (p : Nat) (c : Core) : List Instr :=
  ((List.range 8).filter fun n => !(c.refills.toList.getD n []).isEmpty).flatMap fun n => [.refillStart p n, .watermarkAdvance p n, .refillFault p n]

/-- The other events of a core whose time cannot be counted. -/
def looseEvents (p : Nat) (c : Core) : List Instr :=
  (if c.run.live then [.segmentMiss p, .segmentPrefetch p] else [])
    ++ (if c.remotes.isEmpty then [] else [.remoteAccessPerform p, .remoteReply p])
    ++ (if c.run.sailing.isNone then [] else
        [.skiffCacheFill p, .migrationMessage p, .preemptMark p, .corePartEnd p] ++
          c.barrel.busy.flatMap fun j => [.skiffTlbWalkResult p j, .migrationPack p j])

/-- The end of a core's cycle: skiffs' fetches and completions, tolls, results. -/
def endEvents (p : Nat) (c : Core) : List Instr :=
  (c.barrel.busy.flatMap fun j => [.skiffFetch p j, .skiffOpComplete p j])
    ++ (if c.barrel.out.isEmpty then [] else [.migrationResend p]) ++ [.tollPeriodBoundary p, .lqFill p, .resultLanding p]

/-- Units that have begun to access a scratchpad go on in every cycle (04 R123): collectives and combining groups of a sailing, the engines of a die. -/
def begunEvents (s : State) (run : Tab Sailing) (dies : List Nat) : List Instr :=
  (run.filter fun x => x.2.colls.any fun y => y.parts.any (·.served.isSome)).map (fun x => .collectiveComplete x.1) ++
  (run.filter fun x => (List.range (4 * x.2.quads.length)).any fun k => (s.core (x.2.coreAt k)).groups.any (·.served.isSome)).map (fun x => .combiningPacket x.1) ++
  (dies.filter fun d => (s.die d).sq.any (·.served.isSome)).map .sqCommandComplete ++
  (dies.filter fun d => (s.die d).pilot.any (·.served.isSome)).map .routeComplete ++
  (dies.filter fun d => (s.die d).rows.any (·.served.isSome)).map .tokenRowArrival

/-- The other events of sailings' collectives and of dies' engines, whose time cannot be counted. -/
def dieEvents (run : Tab Sailing) (dies : List Nat) : List Instr :=
  run.flatMap (fun x => [.collectiveComplete x.1, .combiningPacket x.1]) ++ dies.flatMap fun d => [.sqCommandComplete d, .routeComplete d, .tokenRowArrival d]

/-- Remote accesses that have lost in an earlier cycle ask again, the oldest first, and of equal age those of the lower logical core id (04 R123). -/
def retryEvents (wall : Nat) (cs : Tab Core) : List Instr :=
  let asks := cs.flatMap fun x => (x.2.remotes.filter (·.again wall)).map fun r => (r.asked.getD 0, x.2.ctl.lid, x.1)
  (sortBy (fun (a b : Nat × Nat × Nat) => decide (a.1 < b.1 ∨ (a.1 = b.1 ∧ a.2.1 ≤ b.2.1))) asks).map fun x => .remoteAccessPerform x.2.2

/-- The frames that the ports of the pod send, one every 15 Timetable cycles (10 R327). -/
def sendFrames (s : State) : State :=
  if s.pod.tt % 15 ≠ 0 then s
  else s.pkgs.foldl (fun s x => (List.range 24).foldl (fun s r => if (x.2.ports.toList.getD r {}).up then after (execRoslysFrame x.1 r s) s else s) s) s

/-- What the links do at the start of a Timetable cycle: lane monitors count, residue slots take the flits that wait, flits that have a slack slot are resent, the power
manager asks for its holds, ports send their frames (10 R304, R307, R311, R327; 14 R399). -/
def linkCycle (s : State) : State :=
  let s := countOffers s
  let s := s.waitingDies.foldl (fun s d => after (execResidueSlot d s) s) s
  let s := s.sailings.foldl (fun s x => if x.2.retries.isEmpty then s else after (execFlitResend x.1 s) s) s
  sendFrames (powerHolds s)

/-- The events of the Lighters: they go on through a hold (10 R305). -/
def lighterEvents (s : State) : List Instr := s.lighters.flatMap fun x => if x.2.isEmpty then [] else
  [.lighterAccept x.1, .lighterStart x.1, .lighterComplete x.1]

/-- The events of a list that the free choice picks, starting at a place of the stream of choices (DESIGN CHOICE, log 5). -/
def picked (ix : Nat) : List Instr → List Instr
  | [] => []
  | e :: es => if Config.moment ix then e :: picked (ix + 1) es else picked (ix + 1) es

/-- A core takes part in this cycle: a helm core, or a core of a running sailing. -/
def State.active (s : State) (p : Nat) (c : Core) : Bool :=
  isHelm p || match c.run.sailing with | some n => (s.sailing n).running | none => false

/-- The events of a cycle that no hold freezes, in the order of the ports' ranks (04 R123): the primaries' bundles; the arrays, the vector sequencers, the stream
units, the Lighters and collectives, and the engines of the dies (DEDUCED, log 10); what comes over the fabric; the skiffs, whose grants find every fault of the cycle
(05 R185). Leases end and pass on once every command of the cycle has run (07 R226, R227). -/
def cycleEvents (s : State) : List Instr × State :=
  let cs := s.cores.filter fun x => s.active x.1 x.2
  let prims := cs.filter fun x => !isHelm x.1
  let quads := (prims.map fun x => quadOf x.1).eraseDups
  let run := s.sailings.filter fun x => x.2.running
  let dies := s.diesAtWork
  let near := s.cores.flatMap (fun x => refillEvents x.1 x.2) ++ lighterEvents s ++ dieEvents run dies
  let far := (issueOrder s.cores).flatMap fun x => looseEvents x.1 x.2
  ((issueOrder cs).flatMap (fun x => issueEvents x.1 x.2) ++ quads.flatMap arrayEvents ++ prims.flatMap (fun x => moveEvents x.1)
    ++ prims.flatMap (fun x => engineEvents x.1 x.2) ++ run.flatMap (fun x => channelEvents x.1 x.2) ++ prims.map (fun x => .vectorEntryComplete x.1)
    ++ begunEvents s run dies ++ picked s.freeIx near ++ retryEvents s.wall s.cores ++ picked (s.freeIx + near.length) far
    ++ prims.flatMap (fun x => barrelEvents x.1 x.2) ++ quads.map .leaseGrant ++ cs.flatMap (fun x => endEvents x.1 x.2) ++ [.holdFreeze],
   { s with freeIx := s.freeIx + near.length + far.length })

/-- The events of a frozen cycle (10 R305): Lighters and loads under way go on; whether helm cores issue the spec does not say (DESIGN CHOICE, log 12). -/
def frozenEvents (s : State) : List Instr × State :=
  let helms := s.cores.filter fun x => isHelm x.1
  let loose := lighterEvents s ++ helms.flatMap fun x => looseEvents x.1 x.2
  ((if Config.helmInHold then helms.flatMap fun x => issueEvents x.1 x.2 else []) ++ retryEvents s.wall helms ++ picked s.freeIx loose
    ++ (if Config.helmInHold then helms.flatMap fun x => [.lqFill x.1, .resultLanding x.1] else []) ++ [.holdFreezeEnd],
   { s with freeIx := s.freeIx + loose.length })

/-- Sailings whose clocks run advance by a cycle, those that are loaded begin or resume at their cycle, and their cores follow (10 R302). -/
def advanceSailings (s : State) : State :=
  let s := { s with sailings := s.sailings.map fun (x : Nat × Sailing) => if x.2.running then (x.1, { x.2 with t := x.2.t + 1 }) else x }
  let (begun, s) := beginSailings s
  { s with cores := s.cores.map fun (x : Nat × Core) =>
      match x.2.run.sailing with
      | some n => if (s.sailing n).running then (x.1, x.2.tick (s.sailing n).t (begun.contains n)) else x
      | none => x }

/-- The next cycle begins. What the outside does in it comes after the machine's own events: a core that samples a register in the cycle of a write sees the
old value (15 R408). -/
def newCycle (s : State) : State :=
  let s := endOfCycle s
  let wall := s.wall + 1
  let due := (s.inputs.filter fun (x : Nat × Instr) => decide (x.1 ≤ wall)).map Prod.snd
  let s := { s with wall := wall, freeIx := s.freeIx + 1, inputs := s.inputs.filter fun (x : Nat × Instr) => decide (wall < x.1) }
  let s := { s with cores := s.cores.map fun (x : Nat × Core) => (x.1, x.2.freshPorts) }
  let change := if s.pod.change.isSome then [Instr.clockChange] else []
  if s.pod.clk = 1 then { s with pod := { s.pod with stood := s.pod.stood + 1 }, moves := due ++ change }
  else
    let s := s.dies.foldl (fun s x => after (execBudgetPeriodBoundary x.1 s) s) s
    let s := { s with cores := s.cores.map fun (x : Nat × Core) => if isHelm x.1 then (x.1, x.2.tickHelm wall) else x }
    let s := background s
    if s.frozenIn wall then
      let (es, s) := frozenEvents (chargeQueues s)
      { s with moves := es ++ due ++ change }
    else
      let s := linkCycle (startLaunches (drainDrift (chargeQueues (advanceSailings { s with pod := { s.pod with tt := s.pod.tt + 1 } }))))
      let (es, s) := cycleEvents s
      { s with moves := es ++ due ++ change }

/-! ### A word placed for the next step (DESIGN CHOICE, log 7) -/

/-- Where a word placed for the next step stands: a code address of a segment of its own. -/
def placeAddr : Nat := 0x10000

/-- A bundle that holds one operation of a class. -/
def oneOpBundle (k : SlotClass) (w e : Code) : Bundle :=
  { addr := placeAddr + 16
    hdr := BitVec.ofNat 32 (2 ^ slotNo k + defaultToll k (opcodeOf w) * 2 ^ (8 + 2 * slotNo k))
    words := if twoWords k w then [w, e] else [w] }

/-- A core whose loop buffer holds one bundle, which it issues next; its purse pays for it (10 R310). -/
def Core.place (c : Core) (b : Bundle) : Core :=
  { c with
    run := { c.run with live := true, halted := false, moved := false, stall := none, stopped := 0 }
    ctl := { c.ctl with purse := Nat.max c.ctl.purse 96 }
    fetch := { half0 := some { addr := placeAddr, stop := true, len := b.size, bundles := [b] }, pc := placeAddr + 16 } }

/-- A context whose fetch buffer holds one bundle, in a core with every berth open (05 R163, R164). -/
def Barrel.place (b : Barrel) (x : Bundle) : Barrel :=
  { b with berths := 7, ctx := b.ctx.set 0 { b.ctx[0] with occupied := true, pc := x.addr, cmask := 7, buf := some x, wait := .none } }

/-- The instruction w stands where the next step runs it (DESIGN CHOICE, log 7): in the loop buffer of core 0, in context 0 of core 0
for a word that only a skiff issues, in helm core 0 for a word that only a helm issues. -/
def placeWord (s : State) (w : Nat) : State :=
  let w0 : Code := BitVec.ofNat 32 w
  let w1 : Code := BitVec.ofNat 32 (w / 2 ^ 32)
  let k := match decodeAny w0 w1 with | some (k, _) => k | none => .a
  let b := oneOpBundle k w0 w1
  if skiffOnly k (opcodeOf w0) then
    { (s.modCore 0 fun c => { c with
        run := { c.run with live := true, moved := true }, ctl := { c.ctl with tolls := Nat.max c.ctl.tolls 16 }, barrel := c.barrel.place b }) with
      moves := [.skiffBarrelGrant 0] }
  else if helmOnly k (opcodeOf w0) then { (s.modCore helmBase (·.place b)) with moves := [.bundleIssue helmBase] }
  else { (s.modCore 0 (·.place b)) with moves := [.bundleIssue 0] }

end Sys2Proof.Machine
end

