-- ==== Sys2Proof/Machine/Dispatch.lean ====
section
/-! DEFINITION. One arm per row of the opcode table. -/

namespace Sys2Proof.Machine

/-- The meaning of every instruction and event. -/
def exec (i : Instr) (s : State) : Host.Outcome State Fault Refusal :=
  match i with
  | .addA g d a b f => Sys2Proof.Machine.execAddA g d a b f s
  | .addiA g d a v => Sys2Proof.Machine.execAddiA g d a v s
  | .liA g d v => Sys2Proof.Machine.execLiA g d v s
  | .liuA g d v => Sys2Proof.Machine.execLiuA g d v s
  | .cmpA g h a b c => Sys2Proof.Machine.execCmpA g h a b c s
  | .cmpiA g h a c v => Sys2Proof.Machine.execCmpiA g h a c v s
  | .ldB g d a c v => Sys2Proof.Machine.execLdB g d a c v s
  | .ldH g d a c v => Sys2Proof.Machine.execLdH g d a c v s
  | .ldW g d a c v => Sys2Proof.Machine.execLdW g d a c v s
  | .ldD g d a c v => Sys2Proof.Machine.execLdD g d a c v s
  | .stB g d a c v => Sys2Proof.Machine.execStB g d a c v s
  | .stH g d a c v => Sys2Proof.Machine.execStH g d a c v s
  | .stW g d a c v => Sys2Proof.Machine.execStW g d a c v s
  | .stD g d a c v => Sys2Proof.Machine.execStD g d a c v s
  | .ldb g d a c r w => Sys2Proof.Machine.execLdb g d a c r w s
  | .stb g d a c w => Sys2Proof.Machine.execStb g d a c w s
  | .fenceOc g r m => Sys2Proof.Machine.execFenceOc g r m s
  | .fenceOcAll g r m => Sys2Proof.Machine.execFenceOcAll g r m s
  | .amoW g o a b c => Sys2Proof.Machine.execAmoW g o a b c s
  | .amoD g o a b c => Sys2Proof.Machine.execAmoD g o a b c s
  | .sbind g r a f p => Sys2Proof.Machine.execSbind g r a f p s
  | .sbindU g r f p => Sys2Proof.Machine.execSbindU g r f p s
  | .lxsend g a => Sys2Proof.Machine.execLxsend g a s
  | .lxsendCh g n a => Sys2Proof.Machine.execLxsendCh g n a s
  | .lxsendCls g n => Sys2Proof.Machine.execLxsendCls g n s
  | .pub g r h t c => Sys2Proof.Machine.execPub g r h t c s
  | .pubMap g n a => Sys2Proof.Machine.execPubMap g n a s
  | .pubUnmap g n => Sys2Proof.Machine.execPubUnmap g n s
  | .expect g h t => Sys2Proof.Machine.execExpect g h t s
  | .expectC g h => Sys2Proof.Machine.execExpectC g h s
  | .cp g d r q f => Sys2Proof.Machine.execCp g d r q f s
  | .sldB g d a c v => Sys2Proof.Machine.execSldB g d a c v s
  | .sldH g d a c v => Sys2Proof.Machine.execSldH g d a c v s
  | .sldW g d a c v => Sys2Proof.Machine.execSldW g d a c v s
  | .sldD g d a c v => Sys2Proof.Machine.execSldD g d a c v s
  | .sstB g d a c v => Sys2Proof.Machine.execSstB g d a c v s
  | .sstH g d a c v => Sys2Proof.Machine.execSstH g d a c v s
  | .sstW g d a c v => Sys2Proof.Machine.execSstW g d a c v s
  | .sstD g d a c v => Sys2Proof.Machine.execSstD g d a c v s
  | .samoW g o a b c => Sys2Proof.Machine.execSamoW g o a b c s
  | .samoD g o a b c => Sys2Proof.Machine.execSamoD g o a b c s
  | .facqW g a v n l r m => Sys2Proof.Machine.execFacqW g a v n l r m s
  | .facqT g h a v n l r m => Sys2Proof.Machine.execFacqT g h a v n l r m s
  | .frel g a v n l r m => Sys2Proof.Machine.execFrel g a v n l r m s
  | .addX g d a b f => Sys2Proof.Machine.execAddX g d a b f s
  | .addiX g d a v => Sys2Proof.Machine.execAddiX g d a v s
  | .andi g d a v => Sys2Proof.Machine.execAndi g d a v s
  | .ori g d a v => Sys2Proof.Machine.execOri g d a v s
  | .xori g d a v => Sys2Proof.Machine.execXori g d a v s
  | .shli g d a r => Sys2Proof.Machine.execShli g d a r s
  | .shri g d a r => Sys2Proof.Machine.execShri g d a r s
  | .srai g d a r => Sys2Proof.Machine.execSrai g d a r s
  | .liX g d v => Sys2Proof.Machine.execLiX g d v s
  | .liuX g d v => Sys2Proof.Machine.execLiuX g d v s
  | .cmpX g h a b c => Sys2Proof.Machine.execCmpX g h a b c s
  | .cmpiX g h a c v => Sys2Proof.Machine.execCmpiX g h a c v s
  | .sel g d a b h => Sys2Proof.Machine.execSel g d a b h s
  | .mul g d a b f => Sys2Proof.Machine.execMul g d a b f s
  | .mulw g d a b u => Sys2Proof.Machine.execMulw g d a b u s
  | .div g d a b f => Sys2Proof.Machine.execDiv g d a b f s
  | .bcnt g d a f => Sys2Proof.Machine.execBcnt g d a f s
  | .ext g d a l p => Sys2Proof.Machine.execExt g d a l p s
  | .ins g d a l p => Sys2Proof.Machine.execIns g d a l p s
  | .exts g d a l p => Sys2Proof.Machine.execExts g d a l p s
  | .crc8 g d a b n => Sys2Proof.Machine.execCrc8 g d a b n s
  | .rng g d a b h => Sys2Proof.Machine.execRng g d a b h s
  | .tdec g d a t => Sys2Proof.Machine.execTdec g d a t s
  | .tcmp g h a b t c => Sys2Proof.Machine.execTcmp g h a b t c s
  | .tcvt g d a k e r => Sys2Proof.Machine.execTcvt g d a k e r s
  | .fadd g d a b p => Sys2Proof.Machine.execFadd g d a b p s
  | .fsub g d a b p => Sys2Proof.Machine.execFsub g d a b p s
  | .fmul g d a b p => Sys2Proof.Machine.execFmul g d a b p s
  | .fma g d a b c p => Sys2Proof.Machine.execFma g d a b c p s
  | .fms g d a b c p => Sys2Proof.Machine.execFms g d a b c p s
  | .fnma g d a b c p => Sys2Proof.Machine.execFnma g d a b c p s
  | .fdiv g d a b p => Sys2Proof.Machine.execFdiv g d a b p s
  | .fsqrt g d a p => Sys2Proof.Machine.execFsqrt g d a p s
  | .fmin g d a b p => Sys2Proof.Machine.execFmin g d a b p s
  | .fmax g d a b p => Sys2Proof.Machine.execFmax g d a b p s
  | .fcmp g h a b c p => Sys2Proof.Machine.execFcmp g h a b c p s
  | .fcvt g d a e r => Sys2Proof.Machine.execFcvt g d a e r s
  | .fsgn g d a b o p => Sys2Proof.Machine.execFsgn g d a b o p s
  | .fcls g d a p => Sys2Proof.Machine.execFcls g d a p s
  | .tadd g d a b t => Sys2Proof.Machine.execTadd g d a b t s
  | .tsub g d a b t => Sys2Proof.Machine.execTsub g d a b t s
  | .tmul g d a b t => Sys2Proof.Machine.execTmul g d a b t s
  | .vadd g d a b c k => Sys2Proof.Machine.execVadd g d a b c k s
  | .vsub g d a b c k => Sys2Proof.Machine.execVsub g d a b c k s
  | .vmul g d a b c k => Sys2Proof.Machine.execVmul g d a b c k s
  | .vfma g d a b c k => Sys2Proof.Machine.execVfma g d a b c k s
  | .vfms g d a b c k => Sys2Proof.Machine.execVfms g d a b c k s
  | .vfnma g d a b c k => Sys2Proof.Machine.execVfnma g d a b c k s
  | .vmin g d a b c k => Sys2Proof.Machine.execVmin g d a b c k s
  | .vmax g d a b c k => Sys2Proof.Machine.execVmax g d a b c k s
  | .vabs g d a c k => Sys2Proof.Machine.execVabs g d a c k s
  | .vcvt g d a c m => Sys2Proof.Machine.execVcvt g d a c m s
  | .vsf g d a f c r k => Sys2Proof.Machine.execVsf g d a f c r k s
  | .vred g d a c o k => Sys2Proof.Machine.execVred g d a c o k s
  | .vscan g d a c o k => Sys2Proof.Machine.execVscan g d a c o k s
  | .vcmp g d a b c o k => Sys2Proof.Machine.execVcmp g d a b c o k s
  | .vsel g d a b c k => Sys2Proof.Machine.execVsel g d a b c k s
  | .vmov g d a c k => Sys2Proof.Machine.execVmov g d a c k s
  | .vfill g d v c => Sys2Proof.Machine.execVfill g d v c s
  | .vdot g d a b c k => Sys2Proof.Machine.execVdot g d a b c k s
  | .tdecv g d a c => Sys2Proof.Machine.execTdecv g d a c s
  | .vqacc g q a b c => Sys2Proof.Machine.execVqacc g q a b c s
  | .vqaccS g q a c => Sys2Proof.Machine.execVqaccS g q a c s
  | .vqrd g d q c => Sys2Proof.Machine.execVqrd g d q c s
  | .vqrdZ g d q c => Sys2Proof.Machine.execVqrdZ g d q c s
  | .vqclr g q w => Sys2Proof.Machine.execVqclr g q w s
  | .vloop g n k => Sys2Proof.Machine.execVloop g n k s
  | .vsync g m => Sys2Proof.Machine.execVsync g m s
  | .vsyncT g m h => Sys2Proof.Machine.execVsyncT g m h s
  | .chs g e r c => Sys2Proof.Machine.execChs g e r c s
  | .chv g d e c => Sys2Proof.Machine.execChv g d e c s
  | .mlease g n => Sys2Proof.Machine.execMlease g n s
  | .mfree g => Sys2Proof.Machine.execMfree g s
  | .mcfg g d r t => Sys2Proof.Machine.execMcfg g d r t s
  | .mcfgLd g d h c r t => Sys2Proof.Machine.execMcfgLd g d h c r t s
  | .mcfgAdd g d h c r t => Sys2Proof.Machine.execMcfgAdd g d h c r t s
  | .mgath g x v r c => Sys2Proof.Machine.execMgath g x v r c s
  | .mlatb g y b c => Sys2Proof.Machine.execMlatb g y b c s
  | .mma g d m k y x => Sys2Proof.Machine.execMma g d m k y x s
  | .mmas g d m k j x => Sys2Proof.Machine.execMmas g d m k j x s
  | .mst g t h m c => Sys2Proof.Machine.execMst g t h m c s
  | .mstRaw g t h m c => Sys2Proof.Machine.execMstRaw g t h m c s
  | .mstSt g t h => Sys2Proof.Machine.execMstSt g t h s
  | .mcomp g d r k c => Sys2Proof.Machine.execMcomp g d r k c s
  | .mtile g d x p c z r => Sys2Proof.Machine.execMtile g d x p c z r s
  | .mwalk g d x p c => Sys2Proof.Machine.execMwalk g d x p c s
  | .mdld g k a c => Sys2Proof.Machine.execMdld g k a c s
  | .mdst g k a c => Sys2Proof.Machine.execMdst g k a c s
  | .route g m c => Sys2Proof.Machine.execRoute g m c s
  | .routeTx g m c => Sys2Proof.Machine.execRouteTx g m c s
  | .mli g d v => Sys2Proof.Machine.execMli g d v s
  | .mliu g d v => Sys2Proof.Machine.execMliu g d v s
  | .madd g d a b f => Sys2Proof.Machine.execMadd g d a b f s
  | .maddi g d a v => Sys2Proof.Machine.execMaddi g d a v s
  | .br g o => Sys2Proof.Machine.execBr g o s
  | .brl g o => Sys2Proof.Machine.execBrl g o s
  | .brr g r => Sys2Proof.Machine.execBrr g r s
  | .brrL g r => Sys2Proof.Machine.execBrrL g r s
  | .lset g l v k e => Sys2Proof.Machine.execLset g l v k e s
  | .lupd g l a v d => Sys2Proof.Machine.execLupd g l a v d s
  | .ltrim g r c => Sys2Proof.Machine.execLtrim g r c s
  | .halt g => Sys2Proof.Machine.execHalt g s
  | .gop g d a b f => Sys2Proof.Machine.execGop g d a b f s
  | .cli g d v => Sys2Proof.Machine.execCli g d v s
  | .cget g d n => Sys2Proof.Machine.execCget g d n s
  | .cset g r n => Sys2Proof.Machine.execCset g r n s
  | .spawn g k e => Sys2Proof.Machine.execSpawn g k e s
  | .join g d => Sys2Proof.Machine.execJoin g d s
  | .spawnS g h e a m => Sys2Proof.Machine.execSpawnS g h e a m s
  | .trap g v => Sys2Proof.Machine.execTrap g v s
  | .chw g e r => Sys2Proof.Machine.execChw g e r s
  | .chwRel g e r => Sys2Proof.Machine.execChwRel g e r s
  | .chr g d e => Sys2Proof.Machine.execChr g d e s
  | .chrAcq g d e => Sys2Proof.Machine.execChrAcq g d e s
  | .barSync g b r => Sys2Proof.Machine.execBarSync g b r s
  | .barArr g b r => Sys2Proof.Machine.execBarArr g b r s
  | .barWait g b r => Sys2Proof.Machine.execBarWait g b r s
  | .coll g d r n p o => Sys2Proof.Machine.execColl g d r n p o s
  | .cmbxMax g p h => Sys2Proof.Machine.execCmbxMax g p h s
  | .cmbxMerge g p h => Sys2Proof.Machine.execCmbxMerge g p h s
  | .cmbxArmmax g p h => Sys2Proof.Machine.execCmbxArmmax g p h s
  | .cmbxArmmerge g p h => Sys2Proof.Machine.execCmbxArmmerge g p h s
  | .sqOpen g b c => Sys2Proof.Machine.execSqOpen g b c s
  | .sqFeed g b c => Sys2Proof.Machine.execSqFeed g b c s
  | .sqFeedAcc g b c => Sys2Proof.Machine.execSqFeedAcc g b c s
  | .sqMask g b c => Sys2Proof.Machine.execSqMask g b c s
  | .sqFork g b c => Sys2Proof.Machine.execSqFork g b c s
  | .sqRoll g b c => Sys2Proof.Machine.execSqRoll g b c s
  | .sqSampG g b c => Sys2Proof.Machine.execSqSampG g b c s
  | .sqSampP g b c => Sys2Proof.Machine.execSqSampP g b c s
  | .sqSampFin g b c => Sys2Proof.Machine.execSqSampFin g b c s
  | .sqCommit g b c => Sys2Proof.Machine.execSqCommit g b c s
  | .sqFree g b c => Sys2Proof.Machine.execSqFree g b c s
  | .sqFreeRec g b c => Sys2Proof.Machine.execSqFreeRec g b c s
  | .mig g k => Sys2Proof.Machine.execMig g k s
  | .yield g => Sys2Proof.Machine.execYield g s
  | .snooze g r => Sys2Proof.Machine.execSnooze g r s
  | .snoozeW g r => Sys2Proof.Machine.execSnoozeW g r s
  | .sexit g => Sys2Proof.Machine.execSexit g s
  | .sail g l r => Sys2Proof.Machine.execSail g l r s
  | .swait g r => Sys2Proof.Machine.execSwait g r s
  | .preempt g r => Sys2Proof.Machine.execPreempt g r s
  | .preemptKill g r => Sys2Proof.Machine.execPreemptKill g r s
  | .ctxsv g r n => Sys2Proof.Machine.execCtxsv g r n s
  | .ctxld g r n => Sys2Proof.Machine.execCtxld g r n s
  | .qpop g b => Sys2Proof.Machine.execQpop g b s
  | .qpush g q b => Sys2Proof.Machine.execQpush g q b s
  | .qpushCfg g q b => Sys2Proof.Machine.execQpushCfg g q b s
  | .pgenCap g p d => Sys2Proof.Machine.execPgenCap g p d s
  | .pgenPub g p => Sys2Proof.Machine.execPgenPub g p s
  | .tlbm g r a => Sys2Proof.Machine.execTlbm g r a s
  | .ovfld g v => Sys2Proof.Machine.execOvfld g v s
  | .ovfldSelf g v => Sys2Proof.Machine.execOvfldSelf g v s
  | .bundleIssue p => Sys2Proof.Machine.execBundleIssue p s
  | .bundleSkip p => Sys2Proof.Machine.execBundleSkip p s
  | .stallEnd p => Sys2Proof.Machine.execStallEnd p s
  | .driftRecordDrain p => Sys2Proof.Machine.execDriftRecordDrain p s
  | .resultLanding p => Sys2Proof.Machine.execResultLanding p s
  | .lqFill p => Sys2Proof.Machine.execLqFill p s
  | .landingOverdue p => Sys2Proof.Machine.execLandingOverdue p s
  | .segmentPrefetch p => Sys2Proof.Machine.execSegmentPrefetch p s
  | .segmentMiss p => Sys2Proof.Machine.execSegmentMiss p s
  | .remoteAccessPerform p => Sys2Proof.Machine.execRemoteAccessPerform p s
  | .remoteReply p => Sys2Proof.Machine.execRemoteReply p s
  | .streamPortRefill p => Sys2Proof.Machine.execStreamPortRefill p s
  | .skiffBarrelGrant p => Sys2Proof.Machine.execSkiffBarrelGrant p s
  | .skiffFetch p j => Sys2Proof.Machine.execSkiffFetch p j s
  | .skiffOpComplete p j => Sys2Proof.Machine.execSkiffOpComplete p j s
  | .skiffPortRequest p j => Sys2Proof.Machine.execSkiffPortRequest p j s
  | .skiffCacheFill p => Sys2Proof.Machine.execSkiffCacheFill p s
  | .skiffTlbWalkResult p j => Sys2Proof.Machine.execSkiffTlbWalkResult p j s
  | .migrationPack p j => Sys2Proof.Machine.execMigrationPack p j s
  | .migrationMessage p => Sys2Proof.Machine.execMigrationMessage p s
  | .migrationResend p => Sys2Proof.Machine.execMigrationResend p s
  | .corePartEnd p => Sys2Proof.Machine.execCorePartEnd p s
  | .sfuRequestServe p => Sys2Proof.Machine.execSfuRequestServe p s
  | .vectorEntryStart p => Sys2Proof.Machine.execVectorEntryStart p s
  | .vectorEntryComplete p => Sys2Proof.Machine.execVectorEntryComplete p s
  | .leaseGrant q => Sys2Proof.Machine.execLeaseGrant q s
  | .arrayCommandStart q => Sys2Proof.Machine.execArrayCommandStart q s
  | .arrayCommandComplete q => Sys2Proof.Machine.execArrayCommandComplete q s
  | .macroKStep q => Sys2Proof.Machine.execMacroKStep q s
  | .mdldWrite p => Sys2Proof.Machine.execMdldWrite p s
  | .refillStart p n => Sys2Proof.Machine.execRefillStart p n s
  | .watermarkAdvance p n => Sys2Proof.Machine.execWatermarkAdvance p n s
  | .refillFault p n => Sys2Proof.Machine.execRefillFault p n s
  | .lighterAccept l => Sys2Proof.Machine.execLighterAccept l s
  | .lighterStart l => Sys2Proof.Machine.execLighterStart l s
  | .lighterComplete l => Sys2Proof.Machine.execLighterComplete l s
  | .pageWalk d => Sys2Proof.Machine.execPageWalk d s
  | .markerPass d => Sys2Proof.Machine.execMarkerPass d s
  | .dieShootdown d => Sys2Proof.Machine.execDieShootdown d s
  | .linkAlignment latr hlat => Sys2Proof.Machine.execLinkAlignment latr hlat s
  | .flitDelivery sn => Sys2Proof.Machine.execFlitDelivery sn s
  | .flitResend sn => Sys2Proof.Machine.execFlitResend sn s
  | .holdRequest h => Sys2Proof.Machine.execHoldRequest h s
  | .holdFreeze => Sys2Proof.Machine.execHoldFreeze s
  | .holdFreezeEnd => Sys2Proof.Machine.execHoldFreezeEnd s
  | .residueSlot d => Sys2Proof.Machine.execResidueSlot d s
  | .tollPeriodBoundary p => Sys2Proof.Machine.execTollPeriodBoundary p s
  | .powerLimit k refill resv => Sys2Proof.Machine.execPowerLimit k refill resv s
  | .channelSlot sn c => Sys2Proof.Machine.execChannelSlot sn c s
  | .channelWordArrival sn c => Sys2Proof.Machine.execChannelWordArrival sn c s
  | .creditReturn sn c => Sys2Proof.Machine.execCreditReturn sn c s
  | .barrierArrival sn => Sys2Proof.Machine.execBarrierArrival sn s
  | .barrierCompletion sn => Sys2Proof.Machine.execBarrierCompletion sn s
  | .collectiveComplete sn => Sys2Proof.Machine.execCollectiveComplete sn s
  | .combiningPacket sn => Sys2Proof.Machine.execCombiningPacket sn s
  | .roslysFrame k r => Sys2Proof.Machine.execRoslysFrame k r s
  | .portDown k r => Sys2Proof.Machine.execPortDown k r s
  | .sqCommandComplete d => Sys2Proof.Machine.execSqCommandComplete d s
  | .grammarStoreWrite d o v => Sys2Proof.Machine.execGrammarStoreWrite d o v s
  | .routeComplete d => Sys2Proof.Machine.execRouteComplete d s
  | .tokenRowArrival d => Sys2Proof.Machine.execTokenRowArrival d s
  | .sailingStart sn => Sys2Proof.Machine.execSailingStart sn s
  | .sailingDone sn => Sys2Proof.Machine.execSailingDone sn s
  | .preemptMark p => Sys2Proof.Machine.execPreemptMark p s
  | .stopCycle sn => Sys2Proof.Machine.execStopCycle sn s
  | .killComplete sn => Sys2Proof.Machine.execKillComplete sn s
  | .budgetPeriodBoundary d => Sys2Proof.Machine.execBudgetPeriodBoundary d s
  | .hostChannelWrite u e v => Sys2Proof.Machine.execHostChannelWrite u e v s
  | .hostOutboundRead u e => Sys2Proof.Machine.execHostOutboundRead u e s
  | .hostFaultPop d => Sys2Proof.Machine.execHostFaultPop d s
  | .mcfgWrite p n v => Sys2Proof.Machine.execMcfgWrite p n v s
  | .lmselWrite d v => Sys2Proof.Machine.execLmselWrite d v s
  | .wakectlWrite d v => Sys2Proof.Machine.execWakectlWrite d v s
  | .wakeDone d => Sys2Proof.Machine.execWakeDone d s
  | .dbgStop p => Sys2Proof.Machine.execDbgStop p s
  | .dbgGo p => Sys2Proof.Machine.execDbgGo p s
  | .dbgStep p => Sys2Proof.Machine.execDbgStep p s
  | .debugStopTaken p => Sys2Proof.Machine.execDebugStopTaken p s
  | .clkselWrite k v => Sys2Proof.Machine.execClkselWrite k v s
  | .clockChange => Sys2Proof.Machine.execClockChange s
  | .packageReset k => Sys2Proof.Machine.execPackageReset k s
  | .reboot k => Sys2Proof.Machine.execReboot k s
  | .boot k => Sys2Proof.Machine.execBoot k s
  | .attgoWrite k v => Sys2Proof.Machine.execAttgoWrite k v s
  | .attestationSigned k => Sys2Proof.Machine.execAttestationSigned k s
  | .controlRegisterWrite o v => Sys2Proof.Machine.execControlRegisterWrite o v s
  | .scrub o b => Sys2Proof.Machine.execScrub o b s
  | .hbmPatrolScrub k => Sys2Proof.Machine.execHbmPatrolScrub k s
  | .thermalShutdown k => Sys2Proof.Machine.execThermalShutdown k s
  | .hostMemoryWrite k o v => Sys2Proof.Machine.execHostMemoryWrite k o v s
  | .invalidationArrival d => Sys2Proof.Machine.execInvalidationArrival d s
  | .mdstComplete p => Sys2Proof.Machine.execMdstComplete p s

end Sys2Proof.Machine
end

