-- ==== Sys2Proof/Machine/Step.lean ====
section
/-! DEFINITION. One step of the machine. Within a cycle the events of every running unit happen one after another, in the list
`moves`; when it is empty the next cycle begins (DESIGN CHOICE, log 5). -/

namespace Sys2Proof.Machine

/-- One step: the next event of the cycle, or the next cycle; a machine without power takes no step (15 R413). -/
def step (s : State) : Host.Outcome State Fault Refusal :=
  if s.dead then .fault .powerOff
  else match s.moves with
    | m :: rest => exec m { s with moves := rest }
    | [] => .next (newCycle s)

/-- The state whose next step fetches and runs the instruction w (DESIGN CHOICE, log 7). -/
def State.withFetchWord (s : State) (_nbits w : Nat) : State := placeWord s w

end Sys2Proof.Machine
end

