-- ==== Sys2Proof/Safety.lean ====
section
/-! DEFINITION. What a claim may say of a run: the states that follow from a state, a run that never stops, and the invariant
of the model's data that every state of a run is meant to have. -/

namespace Sys2Proof.Machine

/-- A state follows from another by steps that each answer a next state. -/
inductive Reaches : State → State → Prop where
  | refl (s : State) : Reaches s s
  | step {s t u : State} (h : Reaches s t) (hu : Machine.step t = .next u) : Reaches s u

/-- A property of states that holds after reset and that every step keeps. -/
def Invariant (I : State → Prop) : Prop := I State.reset ∧ ∀ s t, I s → Machine.step s = .next t → I t

/-- A state from which no step stops: the only stop of this machine is the loss of its power (15 R413). -/
def Safe (s : State) : Prop := ∀ t, Reaches s t → ∃ u, Machine.step t = .next u

/-- Memory is in its canonical form. -/
def MemoryCanonical (s : State) : Prop := s.mem.wf = true

/-- An invariant holds in every state of a run from reset. -/
theorem Invariant.holds {I : State → Prop} (h : Invariant I) {t : State} (ht : Reaches State.reset t) : I t := by
  induction ht with
  | refl => exact h.1
  | step _ hu ih => exact h.2 _ _ ih hu

end Sys2Proof.Machine
end

