-- ==== Sys2Proof/Certificates/Slice0/Obligations.lean ====
section
/-! DEFINITION. The statements about this model that are to be proved. Each is a proposition of the spec's numbered rules, or rests on the
sections that its entry in OBLIGATIONS.json cites. -/

namespace Sys2Proof.Claims
open Sys2Proof.Machine

/-! ### Where an instruction runs -/

/-- Core p, a primary or a helm core, executes word i, which is good for it; its guard reads true, and its queues hold no more than they can. -/
def CoreRuns (s : State) (p : Nat) (g : BitVec 4) (i : Instr) : Prop :=
  s.cur.agent = .core p ∧ encodingFault s i = none ∧ (s.core p).g g = true ∧
    (s.core p).queues.lq.length ≤ 32 ∧ (s.core p).queues.sq.length ≤ 32

/-- The same, on a primary. -/
def PrimaryRuns (s : State) (p : Nat) (g : BitVec 4) (i : Instr) : Prop := CoreRuns s p g i ∧ isHelm p = false

/-- The same, on a helm core. -/
def HelmRuns (s : State) (p : Nat) (g : BitVec 4) (i : Instr) : Prop := CoreRuns s p g i ∧ isHelm p = true

/-- Context j of core p executes word i, which is good for it, and its guard reads true. -/
def SkiffRuns (s : State) (p : Nat) (j : BitVec 3) (g : BitVec 4) (i : Instr) : Prop :=
  s.cur.agent = .skiff p j ∧ encodingFault s i = none ∧ (s.skiff p j).guard g = true ∧
    (s.core p).queues.lq.length ≤ 32 ∧ (s.core p).queues.sq.length ≤ 32

/-- A name of the X or F file that is an ordinary register: no queue, and no stream port bound to it. -/
def Plain (s : State) (p : Nat) (file : FileId) (r : BitVec 5) : Prop :=
  r ≠ 30 ∧ r ≠ 31 ∧ (s.core p).boundTo file r = none

/-- Core p in state s has a result in flight to an a-name, landing at the end of the cycle lat cycles on; a0 takes none. -/
def toA (s : State) (p : Nat) (d : BitVec 5) (lat : Nat) (v : Word) : State :=
  if d = 0 then s else s.modCore p fun c => c.land s.cur.slot lat (.a (c.physA d)) v

/-- The same for an x-name; x0 takes none. -/
def toX (s : State) (p : Nat) (d : BitVec 5) (lat : Nat) (v : Word) : State :=
  if d = 0 then s else s.modCore p fun c => c.land s.cur.slot lat (.x (physRot c.pipe.xb d)) v

/-- The same for an f-name. -/
def toF (s : State) (p : Nat) (d : BitVec 5) (lat : Nat) (v : Word) : State :=
  s.modCore p fun c => c.land s.cur.slot lat (.f (physRot c.pipe.fb d)) v

/-- The same for an m-register. -/
def toM (s : State) (p : Nat) (d : BitVec 5) (lat : Nat) (v : Word) : State := s.modCore p fun c => c.land 4 lat (.m (d.truncate 4)) v

/-- The same for a c-register. -/
def toC (s : State) (p : Nat) (d : BitVec 5) (lat : Nat) (v : Word) : State :=
  s.modCore p fun c => c.land s.cur.slot lat (.c (d.truncate 4)) v

/-- A comparison's result in flight to a guard. -/
def toG (s : State) (p : Nat) (h : BitVec 4) (v : Bool) : State := s.modCore p fun c => c.land s.cur.slot 1 (.g h) (if v then 1 else 0)

/-- A new load-queue entry of core p, filled at the end of the cycle lat cycles on (04 R127). -/
def toLq (s : State) (p : Nat) (lat : Nat) (v : Word) : State :=
  let e := (s.core p).queues.nextId
  (s.modCore p fun c => { c with queues := { c.queues with lq := c.queues.lq ++ [{ id := e, val := none }], nextId := e + 1 } }).modCore p
    fun c => c.land s.cur.slot lat (.lq e) v

/-- A new store-queue entry of core p, filled at the end of the cycle lat cycles on (04 R127). -/
def toSq (s : State) (p : Nat) (lat : Nat) (v : Word) : State :=
  let e := (s.core p).queues.nextId
  (s.modCore p fun c => { c with queues := { c.queues with sq := c.queues.sq ++ [{ id := e, val := none }], nextId := e + 1 } }).modCore p
    fun c => c.land s.cur.slot lat (.sq e) v

/-- Core p does e at the end of its cycle. -/
def later (s : State) (p : Nat) (e : EndAct) : State := s.modCore p (·.later e)

/-- An instruction completes in state s with next state t. -/
def Completes (i : Instr) (s t : State) : Prop := exec i s = .next t

/-- The bundle of the executing core waits with a cause of 14 R396, and does nothing else. -/
def Waits (i : Instr) (s : State) (p cause : Nat) : Prop := exec i s = .next (stallCore s p cause s.cur.addr .none)

/-- What a command that is only sent leaves alone: memory, the register files, the control registers, the pipeline. -/
def Kept (s t : State) (p : Nat) : Prop :=
  t.mem = s.mem ∧ (t.core p).files = (s.core p).files ∧ (t.core p).ctl = (s.core p).ctl ∧ (t.core p).pipe = (s.core p).pipe

/-! ### Tables of the rules -/

/-- The functions of add (04 R142), by their number. -/
def Alu (f : Nat) (a b r : Word) : Prop :=
  (f = 0 → r = a + b) ∧ (f = 1 → r = a - b) ∧ (f = 2 → r = a &&& b) ∧ (f = 3 → r = a ||| b) ∧ (f = 4 → r = a ^^^ b) ∧
  (f = 5 → r = a <<< (b.toNat % 64)) ∧ (f = 6 → r = a >>> (b.toNat % 64)) ∧ (f = 7 → r = a.sshiftRight (b.toNat % 64)) ∧
  (f = 8 → r = a &&& ~~~b) ∧ (f = 9 → r = a.rotateLeft (b.toNat % 64)) ∧ (f = 10 → r.toInt = min a.toInt b.toInt) ∧
  (f = 11 → r.toInt = max a.toInt b.toInt) ∧ (f = 12 → r.toNat = min a.toNat b.toNat) ∧ (f = 13 → r.toNat = max a.toNat b.toNat)

/-- The conditions of cmp and cmpi (04 R144), by their number. -/
def Compares (c : Nat) (a b : Word) (r : Bool) : Prop :=
  (c = 0 → (r = true ↔ a = b)) ∧ (c = 1 → (r = true ↔ a ≠ b)) ∧ (c = 2 → (r = true ↔ a.toInt < b.toInt)) ∧
  (c = 3 → (r = true ↔ b.toInt ≤ a.toInt)) ∧ (c = 4 → (r = true ↔ a.toNat < b.toNat)) ∧ (c = 5 → (r = true ↔ b.toNat ≤ a.toNat))

/-- The functions of mul (04 R146): the low half, the high half of the signed and of the unsigned product. -/
def Multiplies (f : Nat) (a b r : Word) : Prop :=
  (f = 0 → r.toNat = a.toNat * b.toNat % 2 ^ 64) ∧ (f = 1 → r.toInt = a.toInt * b.toInt / 2 ^ 64) ∧
  (f = 2 → r.toNat = a.toNat * b.toNat / 2 ^ 64)

/-- The functions of div (04 R147), with the results that the rule gives for a divisor of 0 and for −2^63 ÷ −1. -/
def Divides (f : Nat) (a b r : Word) : Prop :=
  (f = 0 → (b = 0 → r = BitVec.allOnes 64) ∧ (b ≠ 0 → r = BitVec.ofInt 64 (a.toInt.tdiv b.toInt))) ∧
  (f = 1 → (b = 0 → r = BitVec.allOnes 64) ∧ (b ≠ 0 → r.toNat = a.toNat / b.toNat)) ∧
  (f = 2 → (b = 0 → r = a) ∧ (b ≠ 0 → r = BitVec.ofInt 64 (a.toInt.tmod b.toInt))) ∧
  (f = 3 → (b = 0 → r = a) ∧ (b ≠ 0 → r.toNat = a.toNat % b.toNat))

/-- The functions of bcnt (04 R148): leading zeros, trailing zeros, ones. -/
def Counts (f : Nat) (a r : Word) : Prop :=
  (f = 0 → (a = 0 → r = 64) ∧ (a ≠ 0 → r.toNat = 63 - Nat.log2 a.toNat)) ∧
  (f = 1 → (a = 0 → r = 64) ∧ (a ≠ 0 → a.toNat % 2 ^ r.toNat = 0 ∧ a.getLsbD r.toNat = true)) ∧
  (f = 2 → r.toNat = ((List.range 64).filter a.getLsbD).length)

end Sys2Proof.Claims

open Sys2Proof Sys2Proof.Machine Sys2Proof.Claims

/-! ## Encoding -/

/-- What encode writes for a slot instruction whose fields are good, its decoder reads back, with every operand (03 R88 to R90, R100); a cp in
each of the six classes (03 R102). -/
def Obligations.DecodeOfEncode : Prop :=
  (∀ (i : Instr) (k : SlotClass), i.slotClass = some k → i.badField = none → decodeWords k (encode i) = .ok i) ∧
  (∀ (k : SlotClass) (g : BitVec 4) (d r : BitVec 5) (q : BitVec 2) (f : BitVec 3), f.toNat ≤ 5 →
    decodeWords k (encode (.cp g d r q f)) = .ok (.cp g d r q f))

/-- What the decoder reads from a slot word, and from the word after it where it is a two-word form, encode writes back bit by bit:
every word has one meaning in its class (03 R88 to R90). -/
def Obligations.EncodeOfDecode : Prop :=
  ∀ (k : SlotClass) (w e : Code) (i : Instr), decodeSlot k w e = .ok i → encode i = if twoWords k w then [w, e] else [w]

/-- Words written out from the encodings of the spec decode to what they stand for. -/
def Obligations.WordsDecode : Prop :=
  decodeSlot .a 0x05100805#32 0 = .ok (.addiA 8 16 1 5) ∧
  decodeSlot .x 0x021FF780#32 0 = .ok (.addX 0 31 30 30 0) ∧
  decodeSlot .a 0x1E001881#32 0 = .ok (.stD 0 0 3 1 1) ∧
  decodeSlot .a 0xC4001840#32 0x00090004#32 = .ok (.frel 0 3 1 0 1 1 4) ∧
  decodeSlot .v 0x14062021#32 0 = .ok (.vred 0 3 1 1 0 1) ∧
  decodeSlot .m 0x0C002400#32 0 = .ok (.mma 0 0 1 2 0 0) ∧
  decodeSlot .c 0x2C002811#32 0 = .ok (.sqFeedAcc 0 5 1) ∧
  decodeSlot .c 0x60000880#32 0 = .ok (.sail 0 1 2)

/-- An opcode that the map of its class lists (03 R90). -/
def Sys2Proof.Claims.Listed (k : SlotClass) (o : Nat) : Prop :=
  match k with
  | .a => 1 ≤ o ∧ o ≤ 0x18 ∧ o ≠ 7 ∨ o = 0x3F ∨ 0x40 ≤ o ∧ o ≤ 0x49 ∨ 0x60 ≤ o ∧ o ≤ 0x62
  | .x => 1 ≤ o ∧ o ≤ 0x19 ∨ o = 0x3F
  | .f => 1 ≤ o ∧ o ≤ 0x10 ∨ o = 0x3F
  | .v => 1 ≤ o ∧ o ≤ 0x16 ∨ 0x20 ≤ o ∧ o ≤ 0x21 ∨ o = 0x3F
  | .m => 1 ≤ o ∧ o ≤ 0x0E ∨ 0x10 ≤ o ∧ o ≤ 0x13 ∨ o = 0x3F
  | .c => 1 ≤ o ∧ o ≤ 0x1C ∨ 0x20 ≤ o ∧ o ≤ 0x23 ∨ 0x30 ≤ o ∧ o ≤ 0x39 ∨ o = 0x3F

/-- An opcode that the map of its class does not list is illegal, whatever its other bits (03 R90, R100). -/
def Obligations.UnlistedOpcodesIllegal : Prop :=
  ∀ (k : SlotClass) (w e : Code), ¬ Claims.Listed k (w.extractLsb' 25 7).toNat → decodeSlot k w e = .error .illegalOpcode

/-! ## Register operations -/

namespace Sys2Proof.Claims

/-- A read of a name of the X or F file by core p: the value, and the state after it. A plain name has its register's value; x30 and f30 pop
the filled head of the load queue (04 R128); a bound name pops the next element that its port holds (04 R136). -/
inductive Reads (file : FileId) (p : Nat) (r : BitVec 5) : State → Word → State → Prop where
  | plain (s : State) (h : Plain s p file r) : Reads file p r s (if file = .f then (s.core p).f r else (s.core p).x r) s
  | queue (s : State) (e : QEntry) (rest : List QEntry) (v : Word) (hr : r = 30) (hq : (s.core p).queues.lq = e :: rest)
      (hv : e.val = some v) (hb : e.bad = none) :
      Reads file p r s v (s.modCore p fun c => { c with queues := { c.queues with lq := rest } })
  | port (s : State) (i : Nat) (q : Port) (v : Word) (rest : List Word) (hr : r ≠ 30) (hp : (s.core p).boundTo file r = some (i, q))
      (ht : q.at_ + 8 ≤ (s.core p).run.t) (hn : q.popped < q.total) (hb : q.buf = v :: rest) :
      Reads file p r s v
        (s.modCore p fun c => { c with ports := c.ports.setIfInBounds i { q with buf := rest, popped := q.popped + 1 } })

/-- Several reads in order (03 R92). -/
inductive ReadsAll (file : FileId) (p : Nat) : List (BitVec 5) → State → List Word → State → Prop where
  | nil (s : State) : ReadsAll file p [] s [] s
  | cons {r : BitVec 5} {rs : List (BitVec 5)} {s t u : State} {v : Word} {vs : List Word} (h : Reads file p r s v t)
      (hs : ReadsAll file p rs t vs u) : ReadsAll file p (r :: rs) s (v :: vs) u

/-- A name that may take a result: register 31 pushes the store queue where that has room; a bound name takes none (04 R127, R128, R136). -/
def Takes (s : State) (p : Nat) (file : FileId) (r : BitVec 5) : Prop :=
  (r = 31 → (s.core p).queues.sq.length < 32) ∧ (r ≠ 31 → (s.core p).boundTo file r = none)

/-- A read of a name of the X or F file, behind k others of that name, for which the bundle waits, with its cause (14 R396): the entry of the load queue is not
there or not filled, or the element that the port has then is not there yet: one above a watermark waits with that cause (04 R128, R136). -/
inductive Lacks (file : FileId) (p : Nat) (r : BitVec 5) (k : Nat) : State → Nat → Prop where
  | queue (s : State) (hr : r = 30) (h : ∀ e ∈ (s.core p).queues.lq[k]?, e.val = none) : Lacks file p r k s 2
  | port (s : State) (i : Nat) (q : Port) (hr : r ≠ 30) (hp : (s.core p).boundTo file r = some (i, q)) (hn : q.popped + k < q.total)
      (h : (s.core p).run.t < q.at_ + 8 ∨ q.buf.length ≤ k ∧ q.fault = none) : Lacks file p r k s
        (if q.buf.length ≤ k ∧ (s.core p).watermark (q.desc.at_ (q.popped + k)) q.desc.width ≠ none then 3 else 2)

/-- A read that faults: the load of the head, or the element of the port, has failed; the port's walk is at its end (04 R127, R136). -/
inductive Fails (file : FileId) (p : Nat) (r : BitVec 5) : State → Nat → Nat → Prop where
  | queue (s : State) (e : QEntry) (rest : List QEntry) (code detail : Nat) (hr : r = 30) (hq : (s.core p).queues.lq = e :: rest)
      (hv : e.val ≠ none) (hb : e.bad = some (code, detail)) : Fails file p r s code detail
  | over (s : State) (i : Nat) (q : Port) (hr : r ≠ 30) (hp : (s.core p).boundTo file r = some (i, q)) (hn : q.total ≤ q.popped) :
      Fails file p r s 0x0E (15 * 256 + 11)
  | element (s : State) (i : Nat) (q : Port) (code detail : Nat) (hr : r ≠ 30) (hp : (s.core p).boundTo file r = some (i, q))
      (hn : q.popped < q.total) (ht : q.at_ + 8 ≤ (s.core p).run.t) (hb : q.buf = []) (hf : q.fault = some (code, detail)) :
      Fails file p r s code detail

/-- The result of an X operation in flight: 31 pushes the store queue. -/
def putX (s : State) (p : Nat) (d : BitVec 5) (lat : Nat) (v : Word) : State := if d = 31 then toSq s p lat v else toX s p d lat v

/-- The result of an F operation in flight. -/
def putF (s : State) (p : Nat) (d : BitVec 5) (lat : Nat) (v : Word) : State := if d = 31 then toSq s p lat v else toF s p d lat v

/-- An operation on registers: its guard, its destination, its sources in order, its latency, and what its result is for the values of the
sources in a state. -/
structure Form (δ ρ : Type) where
  guard : BitVec 4
  dst : δ
  srcs : List (BitVec 5)
  lat : Nat
  means : State → List Word → ρ → Prop

/-- A result for one value, for two, for three. -/
def one (f : Word → Word → Prop) : State → List Word → Word → Prop := fun _ vs r => match vs with | [x] => f x r | _ => False
def two (f : Word → Word → Word → Prop) : State → List Word → Word → Prop := fun _ vs r => match vs with | [x, y] => f x y r | _ => False

/-- The A-slot integer operations (04 R142, R143). -/
inductive FormA : Instr → (Form (BitVec 5) Word) → Prop where
  | addA (g : BitVec 4) (d a b : BitVec 5) (f : BitVec 6) : FormA (.addA g d a b f) ⟨g, d, [a, b], 1, two fun x y r => Alu f.toNat x y r⟩
  | addiA (g : BitVec 4) (d a : BitVec 5) (v : BitVec 11) : FormA (.addiA g d a v) ⟨g, d, [a], 1, one fun x r => r = x + v.signExtend 64⟩
  | liA (g : BitVec 4) (d : BitVec 5) (v : BitVec 16) : FormA (.liA g d v) ⟨g, d, [], 1, fun _ _ r => r = v.signExtend 64⟩
  | liuA (g : BitVec 4) (d : BitVec 5) (v : BitVec 16) : FormA (.liuA g d v) ⟨g, d, [d], 1, one fun x r => r = (x <<< 16) ||| v.zeroExtend 64⟩

/-- The X-slot integer operations with one result, and tdec (04 R142 to R152). -/
inductive FormX : Instr → (Form (BitVec 5) Word) → Prop where
  | addX (g : BitVec 4) (d a b : BitVec 5) (f : BitVec 6) : FormX (.addX g d a b f) ⟨g, d, [a, b], 1, two fun x y r => Alu f.toNat x y r⟩
  | addiX (g : BitVec 4) (d a : BitVec 5) (v : BitVec 11) : FormX (.addiX g d a v) ⟨g, d, [a], 1, one fun x r => r = x + v.signExtend 64⟩
  | andi (g : BitVec 4) (d a : BitVec 5) (v : BitVec 11) : FormX (.andi g d a v) ⟨g, d, [a], 1, one fun x r => r = x &&& v.signExtend 64⟩
  | ori (g : BitVec 4) (d a : BitVec 5) (v : BitVec 11) : FormX (.ori g d a v) ⟨g, d, [a], 1, one fun x r => r = x ||| v.signExtend 64⟩
  | xori (g : BitVec 4) (d a : BitVec 5) (v : BitVec 11) : FormX (.xori g d a v) ⟨g, d, [a], 1, one fun x r => r = x ^^^ v.signExtend 64⟩
  | shli (g : BitVec 4) (d a : BitVec 5) (n : BitVec 6) : FormX (.shli g d a n) ⟨g, d, [a], 1, one fun x r => r = x <<< n.toNat⟩
  | shri (g : BitVec 4) (d a : BitVec 5) (n : BitVec 6) : FormX (.shri g d a n) ⟨g, d, [a], 1, one fun x r => r = x >>> n.toNat⟩
  | srai (g : BitVec 4) (d a : BitVec 5) (n : BitVec 6) : FormX (.srai g d a n) ⟨g, d, [a], 1, one fun x r => r = x.sshiftRight n.toNat⟩
  | liX (g : BitVec 4) (d : BitVec 5) (v : BitVec 16) : FormX (.liX g d v) ⟨g, d, [], 1, fun _ _ r => r = v.signExtend 64⟩
  | liuX (g : BitVec 4) (d : BitVec 5) (v : BitVec 16) : FormX (.liuX g d v) ⟨g, d, [d], 1, one fun x r => r = (x <<< 16) ||| v.zeroExtend 64⟩
  | sel (g : BitVec 4) (d a b : BitVec 5) (h : BitVec 4) :
      FormX (.sel g d a b h) ⟨g, d, [a, b], 1, fun s vs r => match vs with | [x, y] => r = if s.guard h then x else y | _ => False⟩
  | mul (g : BitVec 4) (d a b : BitVec 5) (f : BitVec 2) : FormX (.mul g d a b f) ⟨g, d, [a, b], 3, two fun x y r => Multiplies f.toNat x y r⟩
  | div (g : BitVec 4) (d a b : BitVec 5) (f : BitVec 2) : FormX (.div g d a b f) ⟨g, d, [a, b], 18, two fun x y r => Divides f.toNat x y r⟩
  | bcnt (g : BitVec 4) (d a : BitVec 5) (f : BitVec 6) : FormX (.bcnt g d a f) ⟨g, d, [a], 1, one fun x r => Counts f.toNat x r⟩
  | ext (g : BitVec 4) (d a l : BitVec 5) (p : BitVec 6) :
      FormX (.ext g d a l p) ⟨g, d, [a], 1, one fun x r => r.toNat = bitsOf x.toNat (p.toNat + l.toNat) p.toNat⟩
  | exts (g : BitVec 4) (d a l : BitVec 5) (p : BitVec 6) :
      FormX (.exts g d a l p) ⟨g, d, [a], 1, one fun x r => r.toInt = sextOf (bitsOf x.toNat (p.toNat + l.toNat) p.toNat) (l.toNat + 1)⟩
  | ins (g : BitVec 4) (d a l : BitVec 5) (p : BitVec 6) :
      FormX (.ins g d a l p) ⟨g, d, [a, d], 1, two fun x y r => ∀ i : Nat, i < 64 →
      r.getLsbD i = if p.toNat ≤ i ∧ i ≤ p.toNat + l.toNat then x.getLsbD (i - p.toNat) else y.getLsbD i⟩
  | crc8 (g : BitVec 4) (d a b : BitVec 5) (n : BitVec 3) :
      FormX (.crc8 g d a b n) ⟨g, d, [a, b], 2, two fun x y r =>
      r = (((List.range (8 * (n.toNat + 1))).foldl (fun (c : BitVec 8) k =>
        if c.getLsbD 7 != y.getLsbD (63 - k) then (c <<< 1) ^^^ 0x07 else c <<< 1) (x.truncate 8)).zeroExtend 64)⟩
  | rng (g : BitVec 4) (d a b : BitVec 5) (h : BitVec 1) :
      FormX (.rng g d a b h) ⟨g, d, [a, b], 4, fun s vs r => match vs with
      | [x, y] => r = rngResult s.own.ctl.seed (h == 1) x y
      | _ => False⟩
  | tdec (g : BitVec 4) (d a : BitVec 5) (t : BitVec 2) :
      FormX (.tdec g d a t) ⟨g, d, [a], 2, one fun x r => r = decodeRecord (taperedOf t.toNat).1 (taperedOf t.toNat).2
      (x.toNat % 2 ^ (taperedOf t.toNat).1)⟩

/-- The F-slot operations with one result (04 R154 to R158), over the model's exact values and its one rounding at the end. -/
inductive FormF : Instr → (Form (BitVec 5) Word) → Prop where
  | fadd (g : BitVec 4) (d a b : BitVec 5) (p : BitVec 1) :
      FormF (.fadd g d a b p) ⟨g, d, [a, b], 4, two fun x y r => r = result p ((operand p x).add (operand p y))⟩
  | fsub (g : BitVec 4) (d a b : BitVec 5) (p : BitVec 1) :
      FormF (.fsub g d a b p) ⟨g, d, [a, b], 4, two fun x y r => r = result p ((operand p x).add (operand p y).negate)⟩
  | fmul (g : BitVec 4) (d a b : BitVec 5) (p : BitVec 1) :
      FormF (.fmul g d a b p) ⟨g, d, [a, b], 4, two fun x y r => r = result p ((operand p x).mul (operand p y))⟩
  | fma (g : BitVec 4) (d a b c : BitVec 5) (p : BitVec 1) :
      FormF (.fma g d a b c p) ⟨g, d, [a, b, c], 4, fun _ vs r => match vs with
      | [x, y, z] => r = result p (((operand p x).mul (operand p y)).add (operand p z))
      | _ => False⟩
  | fms (g : BitVec 4) (d a b c : BitVec 5) (p : BitVec 1) :
      FormF (.fms g d a b c p) ⟨g, d, [a, b, c], 4, fun _ vs r => match vs with
      | [x, y, z] => r = result p (((operand p x).mul (operand p y)).add (operand p z).negate)
      | _ => False⟩
  | fnma (g : BitVec 4) (d a b c : BitVec 5) (p : BitVec 1) :
      FormF (.fnma g d a b c p) ⟨g, d, [a, b, c], 4, fun _ vs r => match vs with
      | [x, y, z] => r = result p (((operand p x).mul (operand p y)).negate.add (operand p z))
      | _ => False⟩
  | fdiv (g : BitVec 4) (d a b : BitVec 5) (p : BitVec 1) :
      FormF (.fdiv g d a b p) ⟨g, d, [a, b], 14, two fun x y r => r = result p ((operand p x).div (operand p y))⟩
  | fsqrt (g : BitVec 4) (d a : BitVec 5) (p : BitVec 1) : FormF (.fsqrt g d a p) ⟨g, d, [a], 16, one fun x r => r = result p (operand p x).sqrt⟩
  | fmin (g : BitVec 4) (d a b : BitVec 5) (p : BitVec 1) :
      FormF (.fmin g d a b p) ⟨g, d, [a, b], 2, two fun x y r => r = result p ((operand p x).min (operand p y))⟩
  | fmax (g : BitVec 4) (d a b : BitVec 5) (p : BitVec 1) :
      FormF (.fmax g d a b p) ⟨g, d, [a, b], 2, two fun x y r => r = result p ((operand p x).max (operand p y))⟩
  | fsgn (g : BitVec 4) (d a b : BitVec 5) (o : BitVec 2) (p : BitVec 1) :
      FormF (.fsgn g d a b o p) ⟨g, d, [a, b], 1, two fun x y r => r = fsgnResult p o.toNat x y⟩
  | fcls (g : BitVec 4) (d a : BitVec 5) (p : BitVec 1) :
      FormF (.fcls g d a p) ⟨g, d, [a], 1, one fun x r => r = 1 <<< classOf (precision p) (operand p x)⟩
  | tadd (g : BitVec 4) (d a b : BitVec 5) (t : BitVec 2) :
      FormF (.tadd g d a b t) ⟨g, d, [a, b], 4, fun s vs r => match vs with
      | [x, y] => r = taperedResult s.own.ctl.ovf t.toNat ((taperedVal t.toNat x).add (taperedVal t.toNat y))
      | _ => False⟩
  | tsub (g : BitVec 4) (d a b : BitVec 5) (t : BitVec 2) :
      FormF (.tsub g d a b t) ⟨g, d, [a, b], 4, fun s vs r => match vs with
      | [x, y] => r = taperedResult s.own.ctl.ovf t.toNat ((taperedVal t.toNat x).add (taperedVal t.toNat y).negate)
      | _ => False⟩
  | tmul (g : BitVec 4) (d a b : BitVec 5) (t : BitVec 2) :
      FormF (.tmul g d a b t) ⟨g, d, [a, b], 4, fun s vs r => match vs with
      | [x, y] => r = taperedResult s.own.ctl.ovf t.toNat ((taperedVal t.toNat x).mul (taperedVal t.toNat y))
      | _ => False⟩

/-- The M-slot integer operations (07 R265). -/
inductive FormM : Instr → (Form (BitVec 5) Word) → Prop where
  | mli (g : BitVec 4) (d : BitVec 5) (v : BitVec 16) : FormM (.mli g d v) ⟨g, d, [], 1, fun _ _ r => r = v.signExtend 64⟩
  | mliu (g : BitVec 4) (d : BitVec 5) (v : BitVec 16) : FormM (.mliu g d v) ⟨g, d, [d], 1, one fun x r => r = (x <<< 16) ||| v.zeroExtend 64⟩
  | madd (g : BitVec 4) (d a b : BitVec 5) (f : BitVec 6) : FormM (.madd g d a b f) ⟨g, d, [a, b], 1, two fun x y r => Alu f.toNat x y r⟩
  | maddi (g : BitVec 4) (d a : BitVec 5) (v : BitVec 11) : FormM (.maddi g d a v) ⟨g, d, [a], 1, one fun x r => r = x + v.signExtend 64⟩

/-- The comparisons of the X and F slots (04 R144, R152, R155): the guard they write. -/
inductive FormG : Instr → (FileId × Form (BitVec 4) Bool) → Prop where
  | cmpX (g h : BitVec 4) (a b : BitVec 5) (c : BitVec 3) :
      FormG (.cmpX g h a b c) (.x, ⟨g, h, [a, b], 1, fun _ vs r => match vs with | [x, y] => Compares c.toNat x y r | _ => False⟩)
  | cmpiX (g h : BitVec 4) (a : BitVec 5) (c : BitVec 3) (v : BitVec 8) :
      FormG (.cmpiX g h a c v) (.x, ⟨g, h, [a], 1, fun _ vs r => match vs with
      | [x] => Compares c.toNat x (v.signExtend 64) r
      | _ => False⟩)
  | tcmp (g h : BitVec 4) (a b : BitVec 5) (t c : BitVec 2) :
      FormG (.tcmp g h a b t c) (.x, ⟨g, h, [a, b], 1, fun _ vs r => match vs with
      | [x, y] => r = taperedCondition c.toNat (sextOf x.toNat (taperedOf t.toNat).1) (sextOf y.toNat (taperedOf t.toNat).1)
      | _ => False⟩)
  | fcmp (g h : BitVec 4) (a b : BitVec 5) (c : BitVec 3) (p : BitVec 1) :
      FormG (.fcmp g h a b c p) (.f, ⟨g, h, [a, b], 1, fun _ vs r => match vs with
      | [x, y] => r = floatCondition c.toNat (operand p x) (operand p y)
      | _ => False⟩)

/-- An operation that reads its sources from the X or F file, in their order, with the register that it writes there, if it writes one. -/
inductive FormOf : Instr → (FileId × BitVec 4 × List (BitVec 5) × Option (BitVec 5)) → Prop where
  | x (i : Instr) (f : Form (BitVec 5) Word) (h : FormX i f) : FormOf i (.x, f.guard, f.srcs, some f.dst)
  | f (i : Instr) (f : Form (BitVec 5) Word) (h : FormF i f) : FormOf i (.f, f.guard, f.srcs, some f.dst)
  | g (i : Instr) (file : FileId) (f : Form (BitVec 4) Bool) (h : FormG i (file, f)) : FormOf i (file, f.guard, f.srcs, none)
  | tcvt (g : BitVec 4) (d a : BitVec 5) (k e r : BitVec 2) : FormOf (.tcvt g d a k e r) (.x, g, [a], some d)
  | fcvt (g : BitVec 4) (d a : BitVec 5) (e r : BitVec 3) : FormOf (.fcvt g d a e r) (.f, g, [a], some d)
  | mulw (g : BitVec 4) (d a b : BitVec 5) (u : BitVec 1) : FormOf (.mulw g d a b u) (.x, g, [a, b], some d)

end Sys2Proof.Claims

/-- The A-slot integer operations and comparisons: the result lands in an a-register at the end of the next cycle, a0 takes none; in a skiff it
is the operation's result (04 R142 to R144, 05 R167). -/
def Obligations.IntegerOfTheASlot : Prop :=
  (∀ (s : State) (p : Nat) (i : Instr) (f : Form (BitVec 5) Word), FormA i f → CoreRuns s p f.guard i →
    ∃ r, f.means s (f.srcs.map (s.core p).a) r ∧ Completes i s (toA s p f.dst f.lat r)) ∧
  (∀ (s : State) (p : Nat) (j : BitVec 3) (i : Instr) (f : Form (BitVec 5) Word), FormA i f → SkiffRuns s p j f.guard i →
    ∃ r, f.means s (f.srcs.map (s.skiff p j).reg) r ∧ Completes i s (skiffResult s p j f.lat [(f.dst, r)] [])) ∧
  (∀ (s : State) (p : Nat) (g h : BitVec 4) (a b : BitVec 5) (c : BitVec 3), CoreRuns s p g (.cmpA g h a b c) →
    ∃ r, Compares c.toNat ((s.core p).a a) ((s.core p).a b) r ∧ Completes (.cmpA g h a b c) s (toG s p h r)) ∧
  (∀ (s : State) (p : Nat) (g h : BitVec 4) (a : BitVec 5) (c : BitVec 3) (v : BitVec 8), CoreRuns s p g (.cmpiA g h a c v) →
    ∃ r, Compares c.toNat ((s.core p).a a) (v.signExtend 64) r ∧ Completes (.cmpiA g h a c v) s (toG s p h r))

/-- The X-slot integer operations, on every form of their operands: registers, the load queue, stream ports; the store queue (04 R142 to R152,
R128, R136). -/
def Sys2Proof.Claims.IntegerOfTheXSlot : Prop :=
  ∀ (s t : State) (p : Nat) (i : Instr) (f : Form (BitVec 5) Word) (vs : List Word), FormX i f → CoreRuns s p f.guard i →
    ReadsAll .x p f.srcs s vs t → Takes t p .x f.dst → ∃ r, f.means t vs r ∧ Completes i s (putX t p f.dst f.lat r)

/-- The X-slot integer operations in a skiff, whose operands are its own registers (05 R167, R168). -/
def Sys2Proof.Claims.IntegerOfASkiff : Prop :=
  ∀ (s : State) (p : Nat) (j : BitVec 3) (i : Instr) (f : Form (BitVec 5) Word), FormX i f → SkiffRuns s p j f.guard i →
    ∃ r, f.means s (f.srcs.map (s.skiff p j).reg) r ∧ Completes i s (skiffResult s p j f.lat [(f.dst, r)] [])

/-- mulw writes the whole product into a pair of registers with latency 3 (03 R95, 04 R146). -/
def Sys2Proof.Claims.WideMultiply : Prop :=
  ∀ (s t : State) (p : Nat) (g : BitVec 4) (d a b : BitVec 5) (u : BitVec 1) (x y : Word), CoreRuns s p g (.mulw g d a b u) →
    ReadsAll .x p [a, b] s [x, y] t → (t.core p).boundTo .x d = none → (t.core p).boundTo .x (d + 1) = none →
    ∃ lo hi : Word, (hi ++ lo : BitVec 128) =
        (if u = 1 then BitVec.ofNat 128 (x.toNat * y.toNat) else BitVec.ofInt 128 (x.toInt * y.toInt)) ∧
      Completes (.mulw g d a b u) s (toX (toX t p d 3 lo) p (d + 1) 3 hi)

/-- An operation of the X or F slot waits for a source that is not there, with the lowest cause among its sources', and faults with one that has failed, whatever
sources it has read before; it waits where its result would over-fill the store queue, and a result for a bound register is an illegal operand (04 R127, R128, R136;
14 R397). -/
def Sys2Proof.Claims.SourcesAndResultsThatAreNotThere : Prop :=
  ∀ (s t : State) (p : Nat) (i : Instr) (file : FileId) (g : BitVec 4) (srcs : List (BitVec 5)) (d : Option (BitVec 5)) (vs : List Word),
    FormOf i (file, g, srcs, d) → CoreRuns s p g i →
    (∀ (before after : List (BitVec 5)) (r : BitVec 5), srcs = before ++ r :: after → ReadsAll file p before s vs t →
      (∀ cause, Lacks file p r 0 t cause →
        ((∃ (b1 b2 : List (BitVec 5)) (x : BitVec 5), after = b1 ++ x :: b2 ∧ Lacks file p x ((before ++ r :: b1).count x) s 2) → Waits i s p 2) ∧
        ((∀ (b1 b2 : List (BitVec 5)) (x : BitVec 5), after = b1 ++ x :: b2 → ¬ Lacks file p x ((before ++ r :: b1).count x) s 2) →
          Waits i s p cause)) ∧
      (∀ code detail, Fails file p r t code detail → Completes i s (takeFault s code detail))) ∧
    (∀ r, ReadsAll file p srcs s vs t → d = some r →
      (r = 31 → (t.core p).queues.sq.length = 32 → Waits i s p 2) ∧
      (r ≠ 31 → (t.core p).boundTo file r ≠ none → Completes i s (takeFault s 0x02 0)))

/-- The X slot computes with its registers, and the wide multiply writes the high half beside the low one; sources that are not there, or have failed, and
results that have no place (04 R127, R128, R136, R142 to R152; 03 R95). -/
def Obligations.IntegerOfTheXSlotAndMultiply : Prop := Claims.IntegerOfTheXSlot ∧ Claims.WideMultiply ∧ Claims.SourcesAndResultsThatAreNotThere

/-- The F-slot operations, on every form of their operands (04 R153 to R158). -/
def Sys2Proof.Claims.FloatOfTheFSlot : Prop :=
  ∀ (s t : State) (p : Nat) (i : Instr) (f : Form (BitVec 5) Word) (vs : List Word), FormF i f → CoreRuns s p f.guard i →
    ReadsAll .f p f.srcs s vs t → Takes t p .f f.dst → ∃ r, f.means t vs r ∧ Completes i s (putF t p f.dst f.lat r)

/-- The magnitude that a code of an IEEE-family format stands for; past the finite codes the exponents go on without end (02 R60, R73). -/
def Sys2Proof.Claims.magnitude (f : FloatFmt) (b : Nat) : ℚ :=
  if b / 2 ^ f.fb = 0 then ((b % 2 ^ f.fb : Nat) : ℚ) * 2 ^ (1 - (f.bias : Int) - f.fb)
  else ((2 ^ f.fb + b % 2 ^ f.fb : Nat) : ℚ) * 2 ^ (((b / 2 ^ f.fb : Nat) : Int) - f.bias - f.fb)

/-- The pattern w of a format is finite and stands for x (02 R60). -/
def Sys2Proof.Claims.FloatIs (f : FloatFmt) (w : Nat) (x : ℚ) : Prop :=
  w % 2 ^ (f.eb + f.fb) ≤ f.max ∧
    x = (if w / 2 ^ (f.eb + f.fb) % 2 = 1 then -1 else 1) * Claims.magnitude f (w % 2 ^ (f.eb + f.fb))

/-- Code b is the nearest one to an exact magnitude, of which `below` says what it is less than and `at_` what it equals; a tie goes to the even code (02 R61). -/
def Sys2Proof.Claims.NearestCode (f : FloatFmt) (below at_ : ℚ → Prop) (b : Nat) : Prop :=
  let mid (k : Nat) : ℚ := (Claims.magnitude f k + Claims.magnitude f (k + 1)) / 2
  (below (mid b) ∨ at_ (mid b) ∧ b % 2 = 0) ∧ ∀ k : Nat, b = k + 1 → ¬ below (mid k) ∧ (at_ (mid k) → b % 2 = 0)

/-- r is a binary64 or binary32 result for an exact magnitude that is not zero: the nearest code with its sign, an infinity past the largest finite one (02 R61). -/
def Sys2Proof.Claims.Rounds (p : BitVec 1) (neg : Prop) (below at_ : ℚ → Prop) (r : Word) : Prop :=
  let f := precision p
  ∃ b s : Nat, Claims.NearestCode f below at_ b ∧ (neg → s = 2 ^ (f.eb + f.fb)) ∧ (¬ neg → s = 0) ∧ r.toNat = s + min b (f.max + 1)

/-- r is the result for the exact value v (02 R61): a zero for 0. -/
def Sys2Proof.Claims.RoundsValue (p : BitVec 1) (v : ℚ) (r : Word) : Prop :=
  (v = 0 → r.toNat % 2 ^ ((precision p).eb + (precision p).fb) = 0) ∧ (v ≠ 0 → Claims.Rounds p (v < 0) (|v| < ·) (|v| = ·) r)

/-- A finite value encoded into any IEEE-family format is the nearest code, or what the overflow entry says where that is past the finite ones; and the results of the F slot's
operations on finite operands are the exact sums, products, quotients and roots, rounded so once (02 R60, R61, R72, R73, R76). -/
def Sys2Proof.Claims.FloatsRoundCorrectly : Prop :=
  (∀ (f : FloatFmt) (neg : Bool) (m entry : Nat) (e : Int) (s : Nat), f ∈ [f64, f32, f16, bf16, e4m3, e5m2] → m ≠ 0 →
    s = (if neg then 2 ^ (f.eb + f.fb) else 0) → ∃ b, Claims.NearestCode f ((m : ℚ) * 2 ^ e < ·) ((m : ℚ) * 2 ^ e = ·) b ∧
      (b ≤ f.max → encodeFloat f 0 0 entry (.fin neg m e) = s + b) ∧
      (f.max < b → (entry = 0 ∨ entry = 3 → encodeFloat f 0 0 entry (.fin neg m e) = s + f.max) ∧
        (entry = 2 ∨ entry = 1 ∧ f.inf = none → encodeFloat f 0 0 entry (.fin neg m e) = f.nan) ∧
        (∀ i, entry = 1 → f.inf = some i → encodeFloat f 0 0 entry (.fin neg m e) = s + i))) ∧
  (∀ (p : BitVec 1) (a b c : Word) (x y z : ℚ) (w : Nat), w = (if p = 1 then 32 else 64) → Claims.FloatIs (precision p) (a.toNat % 2 ^ w) x →
    Claims.FloatIs (precision p) (b.toNat % 2 ^ w) y → Claims.FloatIs (precision p) (c.toNat % 2 ^ w) z →
    Claims.RoundsValue p (x + y) (result p ((operand p a).add (operand p b))) ∧
    Claims.RoundsValue p (x - y) (result p ((operand p a).add (operand p b).negate)) ∧
    Claims.RoundsValue p (x * y) (result p ((operand p a).mul (operand p b))) ∧
    Claims.RoundsValue p (x * y + z) (result p (((operand p a).mul (operand p b)).add (operand p c))) ∧
    Claims.RoundsValue p (x * y - z) (result p (((operand p a).mul (operand p b)).add (operand p c).negate)) ∧
    Claims.RoundsValue p (z - x * y) (result p (((operand p a).mul (operand p b)).negate.add (operand p c))) ∧
    (y ≠ 0 → Claims.RoundsValue p (x / y) (result p ((operand p a).div (operand p b)))) ∧
    (0 < x → Claims.Rounds p False (fun q => 0 ≤ q ∧ x < q * q) (fun q => 0 ≤ q ∧ x = q * q) (result p (operand p a).sqrt)))

/-- tcvt and fcvt write the converted value, and FANOM takes the anomalies that the conversion counts (02 R82; 04 R152, R156). -/
def Sys2Proof.Claims.ConversionsCountAnomalies : Prop :=
  (∀ (s t : State) (p : Nat) (g : BitVec 4) (d a : BitVec 5) (k e r : BitVec 2) (v : Word), CoreRuns s p g (.tcvt g d a k e r) →
    Reads .x p a s v t → Takes t p .x d →
    ∃ x n, (x, n) = tcvtResult (t.core p).ctl.ovf k.toNat e.toNat r.toNat v ∧
      Completes (.tcvt g d a k e r) s (putX (t.anomalies n) p d 2 x)) ∧
  (∀ (s t : State) (p : Nat) (g : BitVec 4) (d a : BitVec 5) (e r : BitVec 3) (v : Word), CoreRuns s p g (.fcvt g d a e r) →
    Reads .f p a s v t → Takes t p .f d →
    ∃ x n, (x, n) = fcvtResult (t.core p).ctl.ovf r.toNat e.toNat v ∧
      Completes (.fcvt g d a e r) s (putF (t.anomalies n) p d 4 (BitVec.ofNat 64 x)))

/-- The F slot's operations round their results, correctly: to the code nearest the exact value, a tie to the even one (02 R60, R61, R72, R73, R76);
and conversions count their anomalies (04 R152 to R158; 02 R82). -/
def Obligations.FloatAndConversions : Prop := Claims.FloatOfTheFSlot ∧ Claims.FloatsRoundCorrectly ∧ Claims.ConversionsCountAnomalies

/-- The comparisons of the X and F slots write their guard with latency 1 (03 R94; 04 R144, R152, R155). -/
def Sys2Proof.Claims.ComparisonsWriteTheirGuard : Prop :=
  ∀ (s t : State) (p : Nat) (i : Instr) (file : FileId) (f : Form (BitVec 4) Bool) (vs : List Word), FormG i (file, f) →
    CoreRuns s p f.guard i → ReadsAll file p f.srcs s vs t →
    ∃ r, f.means t vs r ∧ Completes i s (toG t p f.dst r)

/-- The M-slot integer operations write an m-register with latency 1 (07 R265). -/
def Sys2Proof.Claims.IntegerOfTheMSlot : Prop :=
  ∀ (s : State) (p : Nat) (i : Instr) (f : Form (BitVec 5) Word), FormM i f → PrimaryRuns s p f.guard i →
    ∃ r, f.means s (f.srcs.map fun x => (s.core p).m (x.truncate 4)) r ∧ Completes i s (toM s p f.dst f.lat r)

/-- Comparisons write their guard, and the M slot's integer operations its registers (03 R94; 04 R144, R152, R155; 07 R265). -/
def Obligations.ComparisonsAndTheMSlot : Prop := Claims.ComparisonsWriteTheirGuard ∧ Claims.IntegerOfTheMSlot

/-- cp copies a register of the file that f names, or a quarter of an h-register, into its slot's own file, landing at the end of t + 2
(03 R102). -/
def Sys2Proof.Claims.CopyBetweenFiles : Prop :=
  ∀ (s t : State) (p : Nat) (g : BitVec 4) (d r : BitVec 5) (q : BitVec 2) (f : BitVec 3) (v : Word), CoreRuns s p g (.cp g d r q f) →
    s.cur.slot ≤ 5 →
    (f = 0 → v = (s.core p).a r ∧ t = s) → (f = 1 → Reads .x p r s v t) → (f = 2 → Reads .f p r s v t) →
    (f = 3 → v = (s.core p).m (r.truncate 4) ∧ t = s) → (f = 4 → v = (s.core p).c (r.truncate 4) ∧ t = s) →
    (f = 5 → v = ((s.core p).h (r.truncate 4)).extractLsb' (64 * q.toNat) 64 ∧ t = s) →
    (s.cur.slot = 1 → Takes t p .x d) → (s.cur.slot = 2 → Takes t p .f d) →
    Completes (.cp g d r q f) s
      (match s.cur.slot with
       | 0 => toA t p d 2 v
       | 1 => putX t p d 2 v
       | 2 => putF t p d 2 v
       | 3 => t.modCore p fun c => c.land 3 2 (.h (d.truncate 4) q) v
       | 4 => toM t p d 2 v
       | _ => toC t p d 2 v)

/-- cli and gop: the c-register and the guard that they write, with latency 1; a cli of c14 is an illegal operand; the fields of their words, and
the ones of gop that are refused (03 R94, R113, R114). -/
def Sys2Proof.Claims.ConstantsAndGuardLogic : Prop :=
  (∀ (s : State) (p : Nat) (g : BitVec 4) (d : BitVec 5) (v : BitVec 16), CoreRuns s p g (.cli g d v) →
    Completes (.cli g d v) s (toC s p d 1 (v.signExtend 64))) ∧
  (∀ (s : State) (p : Nat) (g d a b : BitVec 4) (f : BitVec 3) (r : Bool), CoreRuns s p g (.gop g d a b f) →
    (∀ x y : Bool, x = (s.core p).g a → y = (s.core p).g b →
      (f = 0 → r = (x && y)) ∧ (f = 1 → r = (x || y)) ∧ (f = 2 → r = (x != y)) ∧ (f = 3 → r = (x && !y)) ∧ (f = 4 → r = (x || !y)) ∧
      (f = 5 → r = !x) ∧ (f = 6 → r = true) ∧ (f = 7 → r = false)) →
    Completes (.gop g d a b f) s (toG s p d r)) ∧
  (∀ (s : State) (p : Nat) (g : BitVec 4) (v : BitVec 16), s.cur.agent = .core p → Completes (.cli g 14 v) s (takeFault s 0x02 0)) ∧
  (∀ w e : Code, w.extractLsb' 25 7 = 9 → w.extractLsb' 20 1 = 0 →
    decodeSlot .c w e = .ok (.cli (w.extractLsb' 21 4) (w.extractLsb' 16 5) (w.extractLsb' 0 16))) ∧
  (∀ w e : Code, w.extractLsb' 25 7 = 8 →
    (w.extractLsb' 20 1 = 0 → w.extractLsb' 15 1 = 0 → w.extractLsb' 10 1 = 0 → w.extractLsb' 3 3 = 0 → w.extractLsb' 16 4 ≠ 0 →
      decodeSlot .c w e = .ok (.gop (w.extractLsb' 21 4) (w.extractLsb' 16 4) (w.extractLsb' 11 4) (w.extractLsb' 6 4) (w.extractLsb' 0 3))) ∧
    (w.extractLsb' 20 1 ≠ 0 ∨ w.extractLsb' 15 1 ≠ 0 ∨ w.extractLsb' 10 1 ≠ 0 ∨ w.extractLsb' 3 3 ≠ 0 ∨ w.extractLsb' 16 4 = 0 →
      ∃ n, decodeSlot .c w e = .error (.operand n)))

/-- cp, cli and gop write what they select, combine or copy (03 R102, R113, R114). -/
def Obligations.CopiesConstantsAndGuards : Prop := Claims.CopyBetweenFiles ∧ Claims.ConstantsAndGuardLogic

/-- The guards, constants and conversions of a skiff: they are results of its operation, which completes at the end of its latency
(05 R167, R168). -/
def Sys2Proof.Claims.ComparisonsOfASkiff : Prop :=
  (∀ (s : State) (p : Nat) (j : BitVec 3) (g h : BitVec 4) (a b : BitVec 5) (c : BitVec 3), SkiffRuns s p j g (.cmpA g h a b c) →
    ∃ r, Compares c.toNat ((s.skiff p j).reg a) ((s.skiff p j).reg b) r ∧
      Completes (.cmpA g h a b c) s (skiffResult s p j 1 [] [(h, r)])) ∧
  (∀ (s : State) (p : Nat) (j : BitVec 3) (g h : BitVec 4) (a : BitVec 5) (c : BitVec 3) (v : BitVec 8),
    SkiffRuns s p j g (.cmpiA g h a c v) →
    ∃ r, Compares c.toNat ((s.skiff p j).reg a) (v.signExtend 64) r ∧
      Completes (.cmpiA g h a c v) s (skiffResult s p j 1 [] [(h, r)])) ∧
  (∀ (s : State) (p : Nat) (j : BitVec 3) (i : Instr) (f : Form (BitVec 4) Bool), FormG i (.x, f) → SkiffRuns s p j f.guard i →
    ∃ r, f.means s (f.srcs.map (s.skiff p j).reg) r ∧ Completes i s (skiffResult s p j 1 [] [(f.dst, r)])) ∧
  (∀ (s : State) (p : Nat) (j : BitVec 3) (g : BitVec 4) (d : BitVec 5) (v : BitVec 16), SkiffRuns s p j g (.cli g d v) →
    Completes (.cli g d v) s (skiffResult s p j 1 [(d, v.signExtend 64)] [])) ∧
  (∀ (s : State) (p : Nat) (j : BitVec 3) (g : BitVec 4) (d a b : BitVec 5) (u : BitVec 1), SkiffRuns s p j g (.mulw g d a b u) →
    ∃ lo hi : Word, (hi ++ lo : BitVec 128) = (if u = 1 then BitVec.ofNat 128 (((s.skiff p j).reg a).toNat * ((s.skiff p j).reg b).toNat)
        else BitVec.ofInt 128 (((s.skiff p j).reg a).toInt * ((s.skiff p j).reg b).toInt)) ∧
      Completes (.mulw g d a b u) s (skiffResult (skiffResult s p j 3 [(d, lo)] []) p j 3 [(d + 1, hi)] []))

/-- A skiff computes and compares with its own registers, and its results land when its operation completes (05 R167, R168). -/
def Obligations.SkiffsCompute : Prop := Claims.IntegerOfASkiff ∧ Claims.ComparisonsOfASkiff

/-! ## Scratchpad accesses -/

namespace Sys2Proof.Claims

/-- Nothing holds back an access of core p, in class oc, to [a, a + n) of its own scratchpad, a write or a read: no half 1 is named, and no
earlier access of the class (or of the same bytes, for a remote access) has still to perform (01 R34, 04 R126, 09 R273, R281, R287). -/
def Clear (s : State) (p oc a n : Nat) (write : Bool) : Prop :=
  (s.core p).spanAlt a n = false ∧ (s.core p).heldBack p oc (spadBase p + a) (spadBase p + a + n) write = false

/-- The armed checks that a read of [a, a + n) of its own scratchpad by core p consumes hold: the tag of each is the one stamped (09 R290, R291). -/
abbrev ChecksHold (s : State) (p a n : Nat) : Prop := ∀ x ∈ armed s (s.core p).ctl.lid p a n, x.2.1 = x.2.2

/-- A read of [a, a + n) of its own scratchpad passes its armed checks, and meets no faulted half and no watermark that it is above (09 R273, R290 to R292). -/
def Unwatched (s : State) (p a n : Nat) : Prop :=
  ChecksHold s p a n ∧ (s.core p).halfFault a n = none ∧ (s.core p).watermark a n = none

/-- The effective address of the MEM format: base plus the immediate times the width, modulo 2^64 (04 R129). -/
def address (base : Word) (v : BitVec 7) (w : Nat) : Nat := (base + BitVec.ofInt 64 (v.toInt * w)).toNat

/-- The address of a flag word: base + 8 × imm12, modulo 2^64 (04 R137). -/
def flagWord (base : Word) (n : BitVec 12) : Nat := (base + BitVec.ofInt 64 (n.toInt * 8)).toNat

/-- A load of the A slot: its guard, destination, base register, class, offset and width. -/
inductive LoadForm : Instr → (BitVec 4 × BitVec 5 × BitVec 5 × BitVec 4 × BitVec 7 × Nat) → Prop where
  | ldB (g : BitVec 4) (d a : BitVec 5) (c : BitVec 4) (v : BitVec 7) : LoadForm (.ldB g d a c v) (g, d, a, c, v, 1)
  | ldH (g : BitVec 4) (d a : BitVec 5) (c : BitVec 4) (v : BitVec 7) : LoadForm (.ldH g d a c v) (g, d, a, c, v, 2)
  | ldW (g : BitVec 4) (d a : BitVec 5) (c : BitVec 4) (v : BitVec 7) : LoadForm (.ldW g d a c v) (g, d, a, c, v, 4)
  | ldD (g : BitVec 4) (d a : BitVec 5) (c : BitVec 4) (v : BitVec 7) : LoadForm (.ldD g d a c v) (g, d, a, c, v, 8)

/-- A store of the A slot, likewise. -/
inductive StoreForm : Instr → (BitVec 4 × BitVec 5 × BitVec 5 × BitVec 4 × BitVec 7 × Nat) → Prop where
  | stB (g : BitVec 4) (d a : BitVec 5) (c : BitVec 4) (v : BitVec 7) : StoreForm (.stB g d a c v) (g, d, a, c, v, 1)
  | stH (g : BitVec 4) (d a : BitVec 5) (c : BitVec 4) (v : BitVec 7) : StoreForm (.stH g d a c v) (g, d, a, c, v, 2)
  | stW (g : BitVec 4) (d a : BitVec 5) (c : BitVec 4) (v : BitVec 7) : StoreForm (.stW g d a c v) (g, d, a, c, v, 4)
  | stD (g : BitVec 4) (d a : BitVec 5) (c : BitVec 4) (v : BitVec 7) : StoreForm (.stD g d a c v) (g, d, a, c, v, 8)

/-- An atomic of the A slot: guard, operation, base register, operand register, class and width. -/
inductive AmoForm : Instr → (BitVec 4 × BitVec 5 × BitVec 5 × BitVec 5 × BitVec 4 × Nat) → Prop where
  | amoW (g : BitVec 4) (o a b : BitVec 5) (c : BitVec 4) : AmoForm (.amoW g o a b c) (g, o, a, b, c, 4)
  | amoD (g : BitVec 4) (o a b : BitVec 5) (c : BitVec 4) : AmoForm (.amoD g o a b c) (g, o, a, b, c, 8)

/-- The state in which an own-scratchpad read of core p has performed: the checks that it consumes are gone, its poisoned words are counted, its ports are
taken. -/
def readDone (s : State) (p a n : Nat) : State :=
  usePorts (countPoison (disarm s (armed s (s.core p).ctl.lid p a n)) p a n) ((s.core p).visible a) n

/-- An access of n bytes leads to another core's scratchpad, and not to half 1 there, or, in a helm core, to physical memory, where control space takes
whole words alone: its physical address, and the check that a read of it consumes (04 R125; 09 R287, R290; 13 R365; 15 R408). -/
inductive Away (s : State) (ea n : Nat) : Nat → Option (Nat × Nat × Nat) → Prop where
  | core (k q x : Nat) (h : place s ea n = .remote k q x) (hx : (s.core q).inAlt x = false) : Away s ea n (spadBase q + x) (armed s k q x 1).head?
  | memory (pa : Nat) (h : place s ea n = .phys pa) (hw : isControl pa = true → n = 8) : Away s ea n pa none

/-- An access of n bytes names what it may not: half 1 of another core's entry, or a part of a word of control space (09 R287; 15 R408). -/
inductive Barred (s : State) (ea n : Nat) : Prop where
  | half (k q x : Nat) (h : place s ea n = .remote k q x) (hx : (s.core q).inAlt x = true) : Barred s ea n
  | control (pa : Nat) (h : place s ea n = .phys pa) (hc : isControl pa = true) (hw : n ≠ 8) : Barred s ea n

/-- The data register of a store, or the filled head of the store queue where d is 0 (04 R130). -/
inductive StoreData (p : Nat) (d : BitVec 5) : State → Word → State → Prop where
  | reg (s : State) (h : d ≠ 0) : StoreData p d s ((s.core p).a d) s
  | queue (s : State) (e : QEntry) (rest : List QEntry) (v : Word) (hd : d = 0) (hq : (s.core p).queues.sq = e :: rest)
      (hv : e.val = some v) :
      StoreData p d s v (s.modCore p fun c => { c with queues := { c.queues with sq := rest } })

/-- The new value that an atomic of w bytes stores for an old one (04 R140): swap, add, and, or, xor, min, max, minu, maxu, cas. -/
def Atomic (op w old b new r : Nat) : Prop :=
  (op = 0 → r = b) ∧ (op = 1 → r = (old + b) % 2 ^ (8 * w)) ∧ (op = 2 → r = Nat.land old b) ∧ (op = 3 → r = Nat.lor old b) ∧
  (op = 4 → r = Nat.xor old b) ∧ (op = 5 → sextOf r (8 * w) = min (sextOf old (8 * w)) (sextOf b (8 * w))) ∧
  (op = 6 → sextOf r (8 * w) = max (sextOf old (8 * w)) (sextOf b (8 * w))) ∧ (op = 7 → r = min old b) ∧ (op = 8 → r = max old b) ∧
  (op = 9 → r = if old = b then new % 2 ^ (8 * w) else old)

end Sys2Proof.Claims

/-- A load from the own scratchpad: its bytes, little-endian and zero-extended, land in the a-register at the end of t + 6, or fill a load-queue
entry reserved at issue where d is 0, for which it waits where the queue is full (04 R127, R129). -/
def Sys2Proof.Claims.OwnLoads : Prop :=
  ∀ (s : State) (p : Nat) (i : Instr) (g : BitVec 4) (d a : BitVec 5) (c : BitVec 4) (v : BitVec 7) (w x : Nat),
    LoadForm i (g, d, a, c, v, w) → CoreRuns s p g i →
    address ((s.core p).a a) v w % w = 0 → place s (address ((s.core p).a a) v w) w = .own x → Clear s p c.toNat x w false → Unwatched s p x w →
    ((d = 0 → (s.core p).queues.lq.length < 32) → Completes i s (let r := BitVec.ofNat 64 (readSpad (readDone s p x w) p x w)
      if d = 0 then toLq (readDone s p x w) p 6 r else toA (readDone s p x w) p d 6 r)) ∧
    (d = 0 → (s.core p).queues.lq.length = 32 → Waits i s p 2)

namespace Sys2Proof.Claims

/-- An instruction of core p that reads [a, a + n) of its own scratchpad in class oc: a load, a bit field, an atomic, a flag that it may test, a trim block
(04 R129, R131, R138 to R140; 03 R107). -/
inductive OwnRead (s : State) (p : Nat) : Instr → (Nat × Nat × Nat) → Prop where
  | load (i : Instr) (g : BitVec 4) (d a : BitVec 5) (c : BitVec 4) (v : BitVec 7) (w x : Nat) (h : LoadForm i (g, d, a, c, v, w)) (hr : CoreRuns s p g i)
      (ha : address ((s.core p).a a) v w % w = 0) (hp : place s (address ((s.core p).a a) v w) w = .own x) : OwnRead s p i (c.toNat, x, w)
  | bits (g : BitVec 4) (d a : BitVec 5) (c : BitVec 4) (r : BitVec 1) (w : BitVec 5) (b : Nat) (hr : PrimaryRuns s p g (.ldb g d a c r w))
      (hb : b = ((s.core p).a a).toNat) (he : b + (w.toNat + 1) ≤ 2 ^ 26) (hi : (s.core p).inside (b / 8) ((b % 8 + (w.toNat + 1) + 7) / 8) = true) :
      OwnRead s p (.ldb g d a c r w) (c.toNat, b / 8, (b % 8 + (w.toNat + 1) + 7) / 8)
  | atomic (i : Instr) (g : BitVec 4) (o a b : BitVec 5) (c : BitVec 4) (w x : Nat) (h : AmoForm i (g, o, a, b, c, w)) (hr : CoreRuns s p g i)
      (ha : ((s.core p).a a).toNat % w = 0) (hp : place s ((s.core p).a a).toNat w = .own x) : OwnRead s p i (c.toNat, x, w)
  | wait (g : BitVec 4) (a v : BitVec 5) (n : BitVec 12) (l : BitVec 1) (r : BitVec 3) (m : BitVec 16) (x : Nat) (hr : CoreRuns s p g (.facqW g a v n l r m))
      (ha : flagWord ((s.core p).a a) n % 8 = 0) (hp : place s (flagWord ((s.core p).a a) n) 8 = .own x) : OwnRead s p (.facqW g a v n l r m) (16, x, 8)
  | test (g h : BitVec 4) (a v : BitVec 5) (n : BitVec 12) (l : BitVec 1) (r : BitVec 3) (m : BitVec 16) (x : Nat) (hr : CoreRuns s p g (.facqT g h a v n l r m))
      (ha : flagWord ((s.core p).a a) n % 8 = 0) (hp : place s (flagWord ((s.core p).a a) n) 8 = .own x)
      (hd : (s.core p).ctl.detl.extractLsb' 0 2 = 0 ∨ s.foreign.contains ((spadBase p + (s.core p).visible x) / 8) = false) :
      OwnRead s p (.facqT g h a v n l r m) (16, x, 8)
  | trim (g : BitVec 4) (r : BitVec 5) (oc : BitVec 4) (x : Nat) (hr : PrimaryRuns s p g (.ltrim g r oc)) (hx : x = ((s.core p).c (r.truncate 4)).toNat)
      (ha : x % 32 = 0) (hi : (s.core p).inside x 32 = true) : OwnRead s p (.ltrim g r oc) (oc.toNat, x, 32)

end Sys2Proof.Claims

/-- A read of its own scratchpad that does not perform: half 1 named directly is an illegal operand, a tag that differs from the stamped one a schedule
fault, a faulted half or ring a stream fault with the failed source address; bytes above a watermark make the bundle wait, and so does an earlier access of the
class (01 R34; 03 R121; 04 R129; 09 R273, R274, R287, R291, R292). -/
def Sys2Proof.Claims.ReadsThatDoNotPerform : Prop :=
  ∀ (s : State) (p : Nat) (i : Instr) (oc a n : Nat), OwnRead s p i (oc, a, n) →
    ((s.core p).spanAlt a n = true → Completes i s (takeFault s 0x02 7)) ∧
    ((s.core p).spanAlt a n = false →
      (∀ h tag stamp : Nat, (armed s (s.core p).ctl.lid p a n).find? (fun x => x.2.1 != x.2.2) = some (h, tag, stamp) →
        Completes i s (takeFault s 0x04 (stamp * 2 ^ 32 + tag))) ∧
      (ChecksHold s p a n →
        (∀ src, (s.core p).halfFault a n = some src → Completes i s (takeFault s 0x07 src)) ∧
        ((s.core p).halfFault a n = none →
          (∀ f, (s.core p).watermark a n = some (some f) → Completes i s (takeFault s 0x07 f)) ∧
          ((s.core p).watermark a n = some none → Waits i s p 3) ∧
          ((s.core p).watermark a n = none → (s.core p).heldBack p oc (spadBase p + a) (spadBase p + a + n) false = true → Waits i s p 4))))

/-- A load from the own scratchpad reads its bytes; every read of it that does not perform faults or waits (01 R34; 03 R107, R121; 04 R127, R129, R131, R138 to R140;
09 R273, R274, R287, R291, R292). -/
def Obligations.LoadsFromTheOwnScratchpad : Prop := Claims.OwnLoads ∧ Claims.ReadsThatDoNotPerform

/-- A store to the own scratchpad writes the low bytes of its data at the end of its cycle, through the visible half (04 R130, 09 R287);
nothing else of the core changes but the ports it takes and the store queue it pops. -/
def Sys2Proof.Claims.StoresToTheOwnScratchpad : Prop :=
  ∀ (s t : State) (p : Nat) (i : Instr) (g : BitVec 4) (d a : BitVec 5) (c : BitVec 4) (v : BitVec 7) (w x : Nat) (r : Word),
    StoreForm i (g, d, a, c, v, w) → CoreRuns s p g i →
    address ((s.core p).a a) v w % w = 0 → place s (address ((s.core p).a a) v w) w = .own x → Clear s p c.toNat x w true →
    StoreData p d (usePorts s ((s.core p).visible x) w) r t →
    Completes i s (writeSpad t true p x r.toNat w)

/-- After a store to the own scratchpad its bytes read back as the data, and every other byte of memory reads as before; the register files,
the guards and the control registers stay (04 R130). -/
def Sys2Proof.Claims.StoresChangeOnlyTheirBytes : Prop :=
  ∀ (s t u : State) (p : Nat) (i : Instr) (g : BitVec 4) (d a : BitVec 5) (c : BitVec 4) (v : BitVec 7) (w x : Nat) (r : Word),
    StoreForm i (g, d, a, c, v, w) → CoreRuns s p g i → MemoryCanonical s →
    address ((s.core p).a a) v w % w = 0 → place s (address ((s.core p).a a) v w) w = .own x → Clear s p c.toNat x w true →
    StoreData p d (usePorts s ((s.core p).visible x) w) r t → exec i s = .next u →
    u.mem.read (spadBase p + (s.core p).visible x) w = r.toNat % 256 ^ w ∧
    (∀ y : Nat, y < spadBase p + (s.core p).visible x ∨ spadBase p + (s.core p).visible x + w ≤ y → u.mem.get y = s.mem.get y) ∧
    (u.core p).files = (s.core p).files ∧ (u.core p).ctl = (s.core p).ctl ∧ (u.core p).pipe = (s.core p).pipe

/-- A store to the own scratchpad that does not perform: half 1 named directly is an illegal operand, the head of the store queue that is not there or not filled makes
the bundle wait, and so does an earlier access of the class to its bytes; a stb likewise (01 R34; 04 R128, R130, R131; 09 R287). -/
def Sys2Proof.Claims.StoresThatDoNotPerform : Prop :=
  (∀ (s : State) (p : Nat) (i : Instr) (g : BitVec 4) (d a : BitVec 5) (c : BitVec 4) (v : BitVec 7) (w x : Nat),
    StoreForm i (g, d, a, c, v, w) → CoreRuns s p g i → address ((s.core p).a a) v w % w = 0 → place s (address ((s.core p).a a) v w) w = .own x →
    ((s.core p).inAlt x = true → Completes i s (takeFault s 0x02 7)) ∧
    ((s.core p).inAlt x = false → d = 0 → (∀ e ∈ (s.core p).queues.sq.head?, e.val = none) → Waits i s p 2) ∧
    (∀ (r : Word) (t : State), (s.core p).spanAlt x w = false → (s.core p).inAlt x = false → StoreData p d s r t →
      (s.core p).heldBack p c.toNat (spadBase p + x) (spadBase p + x + w) true = true → Waits i s p 4)) ∧
  (∀ (s : State) (p b n : Nat) (g : BitVec 4) (d a : BitVec 5) (c : BitVec 4) (w : BitVec 5), PrimaryRuns s p g (.stb g d a c w) →
    b = ((s.core p).a a).toNat → n = (b % 8 + (w.toNat + 1) + 7) / 8 →
    (2 ^ 26 < b + (w.toNat + 1) ∨ (s.core p).inside (b / 8) n = false → Completes (.stb g d a c w) s (takeFault s 0x02 7)) ∧
    (b + (w.toNat + 1) ≤ 2 ^ 26 → (s.core p).inside (b / 8) n = true →
      ((s.core p).spanAlt (b / 8) n = true → Completes (.stb g d a c w) s (takeFault s 0x02 7)) ∧
      ((s.core p).spanAlt (b / 8) n = false → d = 0 → (∀ e ∈ (s.core p).queues.sq.head?, e.val = none) → Waits (.stb g d a c w) s p 2) ∧
      (∀ (r : Word) (t : State), (s.core p).spanAlt (b / 8) n = false → StoreData p d s r t →
        (s.core p).heldBack p c.toNat (spadBase p + b / 8) (spadBase p + b / 8 + n) true = true → Waits (.stb g d a c w) s p 4)))

/-- A store to the own scratchpad writes its bytes, and no others, or faults, or waits (01 R34; 04 R128, R130, R131; 09 R287). -/
def Obligations.StoresWriteTheirBytesAlone : Prop :=
  Claims.StoresToTheOwnScratchpad ∧ Claims.StoresChangeOnlyTheirBytes ∧ Claims.StoresThatDoNotPerform

/-- ldb reads a field of w bits at a bit address, extended to 64 bits, in 6 cycles, or 7 where it crosses a 64-byte word; a field that is not inside the
scratchpad and the carve-out is an illegal operand; stb replaces exactly the field's bits (04 R131). -/
def Obligations.BitFields : Prop :=
  (∀ (s : State) (p : Nat) (g : BitVec 4) (d a : BitVec 5) (c : BitVec 4) (r : BitVec 1) (w : BitVec 5) (b n : Nat),
    PrimaryRuns s p g (.ldb g d a c r w) → b = ((s.core p).a a).toNat → n = (b % 8 + (w.toNat + 1) + 7) / 8 →
    (2 ^ 26 < b + (w.toNat + 1) ∨ (s.core p).inside (b / 8) n = false → Completes (.ldb g d a c r w) s (takeFault s 0x02 7)) ∧
    (b + (w.toNat + 1) ≤ 2 ^ 26 → (s.core p).inside (b / 8) n = true → Clear s p c.toNat (b / 8) n false → Unwatched s p (b / 8) n →
    (d = 0 → (s.core p).queues.lq.length < 32) → Completes (.ldb g d a c r w) s
      (let t := readDone s p (b / 8) n
       let x := readSpad t p (b / 8) n / 2 ^ (b % 8) % 2 ^ (w.toNat + 1)
       let y : Word := if r = 1 then BitVec.ofInt 64 (sextOf x (w.toNat + 1)) else BitVec.ofNat 64 x
       let lat := if b / 512 ≠ (b + w.toNat) / 512 then 7 else 6
       if d = 0 then toLq t p lat y else toA t p d lat y))) ∧
  (∀ (s t : State) (p : Nat) (g : BitVec 4) (d a : BitVec 5) (c : BitVec 4) (w : BitVec 5) (b n : Nat) (x : Word),
    PrimaryRuns s p g (.stb g d a c w) → MemoryCanonical s → b = ((s.core p).a a).toNat → n = (b % 8 + (w.toNat + 1) + 7) / 8 →
    b + (w.toNat + 1) ≤ 2 ^ 26 → (s.core p).inside (b / 8) n = true → Clear s p c.toNat (b / 8) n true →
    (∀ k < n, (s.core p).visible (b / 8 + k) = (s.core p).visible (b / 8) + k) →
    StoreData p d (usePorts s ((s.core p).visible (b / 8)) n) x t →
    ∃ u first, Completes (.stb g d a c w) s u ∧ first = 8 * (spadBase p + (s.core p).visible (b / 8)) + b % 8 ∧
      (u.core p).files = (s.core p).files ∧ (u.core p).ctl = (s.core p).ctl ∧ (u.core p).pipe = (s.core p).pipe ∧
      ∀ k i : Nat, i < 8 → (u.mem.get k).getLsbD i =
        if first ≤ 8 * k + i ∧ 8 * k + i ≤ first + w.toNat then x.getLsbD (8 * k + i - first) else (s.mem.get k).getLsbD i)

/-- An atomic on the own scratchpad writes its new value at the end of its cycle, and the old one fills a load-queue entry at the end of
t + 8 (04 R140). -/
def Obligations.AtomicsOnTheOwnScratchpad : Prop :=
  ∀ (s : State) (p : Nat) (i : Instr) (g : BitVec 4) (o a b : BitVec 5) (c : BitVec 4) (w x : Nat),
    AmoForm i (g, o, a, b, c, w) → CoreRuns s p g i →
    ((s.core p).a a).toNat % w = 0 → place s ((s.core p).a a).toNat w = .own x → Clear s p c.toNat x w false → Unwatched s p x w →
    (s.core p).queues.lq.length < 32 → ∃ r, Atomic o.toNat w (readSpad (readDone s p x w) p x w) (((s.core p).a b).toNat % 2 ^ (8 * w)) ((s.core p).a (b + 1)).toNat r ∧
      Completes i s (toLq (writeSpad (readDone s p x w) true p x r w) p 8 (BitVec.ofNat 64 (readSpad (readDone s p x w) p x w)))

/-- An access of another core's scratchpad, or of a helm core to physical memory, by a load with d = 0, a store or an atomic, is sent as a remote access that
keeps its class and its address, and a read the check that it consumes; a load and an atomic reserve the load-queue entry that the reply will fill. It waits where an earlier
access of its class, or of its bytes, has not performed. A load with another d, half 1 of another core's entry and a part of a word of control space
are illegal operands (04 R126, R127, R129; 09 R287, R290; 13 R365; 15 R408). -/
def Sys2Proof.Claims.RemoteAccessesAreSent : Prop :=
  ∀ (s : State) (p ea w pa : Nat) (g : BitVec 4) (a : BitVec 5) (c : BitVec 4) (v : BitVec 7) (tag : Option (Nat × Nat × Nat)),
    (∀ (i : Instr) (d : BitVec 5), LoadForm i (g, d, a, c, v, w) → CoreRuns s p g i → ea = address ((s.core p).a a) v w → ea % w = 0 →
      (Away s ea w pa tag → d ≠ 0 → Completes i s (takeFault s 0x02 0)) ∧ (Barred s ea w → d = 0 → Completes i s (takeFault s 0x02 7)) ∧
      (Away s ea w pa tag → d = 0 → ((s.core p).heldBack p c.toNat pa (pa + w) true = true → Waits i s p 4) ∧
        ((s.core p).heldBack p c.toNat pa (pa + w) true = false → (s.core p).queues.lq.length < 32 → ∃ (t : State) (r : Remote), Completes i s t ∧
          (t.core p).remotes = (s.core p).remotes ++ [r] ∧ r.oc = c.toNat ∧ r.pa = pa ∧ r.width = w ∧
          r.op = .load ∧ r.tag = tag.map (fun x => (x.1, x.2.1)) ∧ r.entry = some (s.core p).queues.nextId ∧ r.due = (s.core p).run.t + 6 ∧ r.result = none ∧
          (t.core p).queues.lq = (s.core p).queues.lq ++ [{ id := (s.core p).queues.nextId, val := none }] ∧ Kept s t p))) ∧
    (∀ (i : Instr) (d : BitVec 5), StoreForm i (g, d, a, c, v, w) → CoreRuns s p g i → ea = address ((s.core p).a a) v w → ea % w = 0 →
      (Barred s ea w → Completes i s (takeFault s 0x02 7)) ∧
      (Away s ea w pa tag → d = 0 → (∀ e ∈ (s.core p).queues.sq.head?, e.val = none) → Waits i s p 2) ∧
      (∀ (y : Word) (s' : State), Away s ea w pa tag → StoreData p d s y s' → ((s.core p).heldBack p c.toNat pa (pa + w) true = true → Waits i s p 4) ∧
        ((s.core p).heldBack p c.toNat pa (pa + w) true = false → ∃ (t : State) (r : Remote), Completes i s t ∧ (t.core p).remotes = (s.core p).remotes ++ [r] ∧
          r.oc = c.toNat ∧ r.pa = pa ∧ r.width = w ∧ r.op = .store y ∧ r.entry = none ∧ r.result = none ∧ (t.core p).queues = (s'.core p).queues ∧ Kept s t p))) ∧
    (∀ (i : Instr) (o b : BitVec 5), AmoForm i (g, o, a, b, c, w) → CoreRuns s p g i → ea = ((s.core p).a a).toNat → ea % w = 0 →
      (Barred s ea w → Completes i s (takeFault s 0x02 7)) ∧
      (Away s ea w pa tag → ((s.core p).heldBack p c.toNat pa (pa + w) true = true → Waits i s p 4) ∧
        ((s.core p).heldBack p c.toNat pa (pa + w) true = false → (s.core p).queues.lq.length < 32 → ∃ (t : State) (r : Remote), Completes i s t ∧
          (t.core p).remotes = (s.core p).remotes ++ [r] ∧ r.oc = c.toNat ∧ r.pa = pa ∧ r.width = w ∧
          r.op = .amo o.toNat (BitVec.ofNat 64 (((s.core p).a b).toNat % 2 ^ (8 * w))) ((s.core p).a (b + 1)) ∧ r.tag = tag.map (fun x => (x.1, x.2.1)) ∧
          r.entry = some (s.core p).queues.nextId ∧ r.result = none ∧ Kept s t p)))

/-- A misaligned load, store or atomic, and one whose address leads nowhere, raise their faults (04 R125, R129, R130, R140). -/
def Sys2Proof.Claims.BadAddressesFault : Prop :=
  (∀ (s : State) (p : Nat) (i : Instr) (g : BitVec 4) (o a b : BitVec 5) (c : BitVec 4) (w : Nat), AmoForm i (g, o, a, b, c, w) → CoreRuns s p g i →
    (((s.core p).a a).toNat % w ≠ 0 → Completes i s (takeFault s 0x02 7)) ∧
    (((s.core p).a a).toNat % w = 0 → place s ((s.core p).a a).toNat w = .bad → Completes i s (takeFault s 0x07 ((s.core p).a a).toNat))) ∧
  ∀ (s : State) (p : Nat) (i : Instr) (g : BitVec 4) (d a : BitVec 5) (c : BitVec 4) (v : BitVec 7) (w : Nat),
    (LoadForm i (g, d, a, c, v, w) ∨ StoreForm i (g, d, a, c, v, w)) → CoreRuns s p g i →
    (address ((s.core p).a a) v w % w ≠ 0 → Completes i s (takeFault s 0x02 7)) ∧
    (address ((s.core p).a a) v w % w = 0 → place s (address ((s.core p).a a) v w) w = .bad →
      Completes i s (takeFault s 0x07 (address ((s.core p).a a) v w)))

/-- An access elsewhere is sent, and a bad address faults (04 R125 to R127, R129, R130, R140; 09 R287, R290; 13 R365; 15 R408). -/
def Obligations.RemoteAccessesAndBadAddresses : Prop := Claims.RemoteAccessesAreSent ∧ Claims.BadAddressesFault

/-- A skiff's access of its own scratchpad asks for the port in the cycle after its grant, and its context waits for it; a global access that the
window does not hold waits for its translation (05 R170, R171, R173). -/
def Sys2Proof.Claims.SkiffAccessesWait : Prop :=
  ∀ (s : State) (p : Nat) (j : BitVec 3) (g : BitVec 4) (d a b o : BitVec 5) (c : BitVec 4) (v : BitVec 7),
    (∀ w y, ∀ i : Instr, (LoadForm i (g, d, a, c, v, w) → SkiffRuns s p j g i → address ((s.skiff p j).reg a) v w % w = 0 →
        place s (address ((s.skiff p j).reg a) v w) w = .own y → (s.core p).spanAlt y w = false → Completes i s (s.modSkiff p j fun k =>
          { k with wait := .port { kind := .load, addr := y, width := w, dst := d } ((s.core p).run.t + 1) })) ∧
      (StoreForm i (g, d, a, c, v, w) → SkiffRuns s p j g i → address ((s.skiff p j).reg a) v w % w = 0 →
        place s (address ((s.skiff p j).reg a) v w) w = .own y → (s.core p).spanAlt y w = false → Completes i s (s.modSkiff p j fun k =>
          { k with wait := .port { kind := .store, addr := y, width := w, val := (s.skiff p j).reg d } ((s.core p).run.t + 1) })) ∧
      (AmoForm i (g, o, a, b, c, w) → SkiffRuns s p j g i → ((s.skiff p j).reg a).toNat % w = 0 →
        place s ((s.skiff p j).reg a).toNat w = .own y → (s.core p).spanAlt y w = false → Completes i s (s.modSkiff p j fun k =>
          { k with wait := .port { kind := .amo o.toNat, addr := y, width := w,
                                   val := BitVec.ofNat 64 (((s.skiff p j).reg b).toNat % 2 ^ (8 * w)),
                                   val2 := (s.skiff p j).reg (b + 1), dst := b } ((s.core p).run.t + 1) }))) ∧
    (∀ w x, ∀ i ∈ [(Instr.sldB g d a c v, 1), (.sldH g d a c v, 2), (.sldW g d a c v, 4), (.sldD g d a c v, 8)], i.2 = w →
      SkiffRuns s p j g i.1 → address ((s.skiff p j).reg a) v w % w = 0 → place s (address ((s.skiff p j).reg a) v w) w = x →
      (∀ y, x = .own y → (s.core p).spanAlt y w = false → Completes i.1 s (s.modSkiff p j fun k =>
        { k with wait := .port { kind := .load, addr := y, width := w, dst := d } ((s.core p).run.t + 1) })) ∧
      (x = .bad → windowOf (s.core p) (skiffVa (address ((s.skiff p j).reg a) v w)) = none → Completes i.1 s (s.modSkiff p j fun k =>
        { k with wait := .walk .sld (skiffVa (address ((s.skiff p j).reg a) v w)) w 0 0 d }))) ∧
    (∀ w x, ∀ i ∈ [(Instr.sstB g d a c v, 1), (.sstH g d a c v, 2), (.sstW g d a c v, 4), (.sstD g d a c v, 8)], i.2 = w →
      SkiffRuns s p j g i.1 → address ((s.skiff p j).reg a) v w % w = 0 → place s (address ((s.skiff p j).reg a) v w) w = x →
      (∀ y, x = .own y → (s.core p).spanAlt y w = false → Completes i.1 s (s.modSkiff p j fun k =>
        { k with wait := .port { kind := .store, addr := y, width := w, val := (s.skiff p j).reg d } ((s.core p).run.t + 1) })) ∧
      (x = .bad → windowOf (s.core p) (skiffVa (address ((s.skiff p j).reg a) v w)) = none → Completes i.1 s (s.modSkiff p j fun k =>
        { k with wait := .walk .sst (skiffVa (address ((s.skiff p j).reg a) v w)) w ((s.skiff p j).reg d) 0 0 }))) ∧
    (∀ w x, ∀ i ∈ [(Instr.samoW g o a b c, 4), (.samoD g o a b c, 8)], i.2 = w →
      SkiffRuns s p j g i.1 → ((s.skiff p j).reg a).toNat % w = 0 → place s ((s.skiff p j).reg a).toNat w = x →
      (∀ y, x = .own y → (s.core p).spanAlt y w = false → Completes i.1 s (s.modSkiff p j fun k =>
        { k with wait := .port { kind := .amo o.toNat, addr := y, width := w, val := (s.skiff p j).reg b,
                                 val2 := (s.skiff p j).reg (b + 1), dst := b } ((s.core p).run.t + 1) })) ∧
      (x = .bad → windowOf (s.core p) (skiffVa ((s.skiff p j).reg a).toNat) = none → Completes i.1 s (s.modSkiff p j fun k =>
        { k with wait := .walk (.samo o.toNat) (skiffVa ((s.skiff p j).reg a).toNat) w ((s.skiff p j).reg b)
                           ((s.skiff p j).reg (b + 1)) b })))

/-! ## Flags and fences -/

namespace Sys2Proof.Claims

/-- Every earlier access of a core in a class of the mask has performed: those of its engine commands, its stream ports' reads, its remote
accesses (01 R34, R37). A command that has no access left is no matter here, complete or not (04 R141). -/
def HasPerformed (c : Core) (m : BitVec 16) : Prop :=
  (∀ f ∈ c.flight, f.reads ≠ [] ∨ f.writes ≠ [] ∨ f.handle ≠ none → m.getLsbD f.oc = false) ∧
  (∀ q ∈ c.ports, q.bound = true → m.getLsbD q.desc.oc = true → q.total ≤ q.fetched) ∧
  (∀ r ∈ c.remotes, r.result = none → m.getLsbD r.oc = false)

/-- Every earlier access of a core, whatever its class, has performed, and every engine command has completed. -/
def AllPerformed (c : Core) : Prop :=
  c.flight = [] ∧ (∀ q ∈ c.ports, q.bound = true → q.total ≤ q.fetched) ∧ (∀ r ∈ c.remotes, r.result ≠ none)

/-- Every access that comes before the executing bundle of core p has performed, whatever its class: commands, bindings and accesses of the bundle's own slots follow in no
program order and are no matter (01 R34, R37; 03 R97). A command need not have completed. -/
def EarlierDone (s : State) (p : Nat) : Prop :=
  (∀ f ∈ (s.core p).flight, f.oc < 16 → (∀ n k, s.cur.mates = some (n, k) → f.id < n) → f.reads = [] ∧ f.writes = [] ∧ f.handle = none) ∧
  (∀ q ∈ (s.core p).ports, q.bound = true → q.desc.oc < 16 → s.cur.mates = none ∨ q.at_ < (s.core p).run.t → q.total ≤ q.fetched) ∧
  (∀ r ∈ (match s.cur.mates with | some x => (s.core p).remotes.take x.2 | none => (s.core p).remotes), r.result ≠ none)

/-- Context j of core p is owed no result of the special-function unit, and none of its commands to the sequence engine is under way (01 R34, R37; 06 R220). -/
def SkiffOwed (s : State) (p : Nat) (j : BitVec 3) : Prop :=
  (∃ q ∈ (s.core p).sfu, q.ctx = some j) ∨ ∃ q ∈ (s.die (dieOf p)).sq ++ (s.die (dieOf p)).pilot, q.core = p ∧ q.ctx = some j

/-- The value operand of a flag operation: the number 0 to 31, or an a-register (04 R137). -/
def flagOperand (regs : BitVec 5 → Word) (v : BitVec 5) (l : BitVec 1) : Word := if l = 1 then v.zeroExtend 64 else regs v

/-- An invalidation of a write that a release of core p over the classes m orders has not arrived (01 R41). -/
def Owes (s : State) (p : Nat) (m : BitVec 16) : Prop := ∃ d ∈ s.dies, ∃ y ∈ d.2.invals, y.by_.orderedBy p m = true

/-- An address that is no flag word: misaligned, leading nowhere, or, in a helm core, to physical memory (01 R37, 04 R137). -/
def NoFlag (s : State) (ea : Nat) : Prop := ea % 8 ≠ 0 ∨ place s ea 8 = .bad ∨ ∃ pa, place s ea 8 = .phys pa

/-- A flag word of another core, as a remote access sees it. -/
def RemoteFlag (s : State) (ea k q x : Nat) : Prop := ea % 8 = 0 ∧ place s ea 8 = .remote k q x ∧ (s.core q).inAlt x = false

end Sys2Proof.Claims

/-- A fence issues once every earlier access in its classes has performed; fence.oc.all once every earlier access and engine command has, and at
.pkg and .pod once no invalidation is under way towards its die. Until then its bundle waits; a skiff's drains, for its own commands too, and for all of its dirty lines where
it is a full one at .quad or wider (04 R141; 01 R35, R36, R41, R42). -/
def Obligations.FencesWait : Prop :=
  (∀ (s : State) (p : Nat) (g : BitVec 4) (r : BitVec 3) (m : BitVec 16), CoreRuns s p g (.fenceOc g r m) →
    (HasPerformed (s.core p) m → Completes (.fenceOc g r m) s s) ∧ (¬ HasPerformed (s.core p) m → Waits (.fenceOc g r m) s p 4)) ∧
  (∀ (s : State) (p : Nat) (g : BitVec 4) (r : BitVec 3) (m : BitVec 16), CoreRuns s p g (.fenceOcAll g r m) →
    (AllPerformed (s.core p) → (4 ≤ r.toNat → (s.die (dieOf p)).invals = []) → Completes (.fenceOcAll g r m) s s) ∧
    (¬ AllPerformed (s.core p) → Waits (.fenceOcAll g r m) s p 4)) ∧
  (∀ (s : State) (p : Nat) (j : BitVec 3) (g : BitVec 4) (r : BitVec 3) (m : BitVec 16),
    (¬ SkiffOwed s p j → (SkiffRuns s p j g (.fenceOc g r m) → Completes (.fenceOc g r m) s (skiffResult s p j 1 [] [])) ∧
      (SkiffRuns s p j g (.fenceOcAll g r m) → r.toNat < 2 → Completes (.fenceOcAll g r m) s (skiffResult s p j 1 [] []))) ∧
    (∀ q ∈ (s.die (dieOf p)).sq, q.core = p → q.ctx = some j → q.sailing = (s.core p).run.sailing → q.oc < 16 →
      (SkiffRuns s p j g (.fenceOc g r m) → m.getLsbD q.oc = true → Completes (.fenceOc g r m) s (s.modSkiff p j fun k => { k with wait := .drain 0 m none })) ∧
      (SkiffRuns s p j g (.fenceOcAll g r m) → r.toNat < 2 →
        Completes (.fenceOcAll g r m) s (s.modSkiff p j fun k => { k with wait := .drain r.toNat 0xFFFF none }))))

/-- facq.w issues when the word equals the value, and waits with cause "flag" until then; for a remote word one read is kept in flight. facq.t
writes its guard, but at D1 and above it raises the determinism fault for a remote word and for one that another agent wrote last (04 R138,
R139). -/
def Sys2Proof.Claims.FlagAcquires : Prop :=
  (∀ (s : State) (p x : Nat) (g : BitVec 4) (a v : BitVec 5) (n : BitVec 12) (l : BitVec 1) (r : BitVec 3) (m : BitVec 16),
    CoreRuns s p g (.facqW g a v n l r m) → flagWord ((s.core p).a a) n % 8 = 0 → place s (flagWord ((s.core p).a a) n) 8 = .own x →
    Clear s p 16 x 8 false → Unwatched s p x 8 →
    (readSpad s p x 8 = (flagOperand (s.core p).a v l).toNat → Completes (.facqW g a v n l r m) s (readDone s p x 8)) ∧
    (readSpad s p x 8 ≠ (flagOperand (s.core p).a v l).toNat → Waits (.facqW g a v n l r m) s p 5)) ∧
  (∀ (s : State) (p k q x : Nat) (g : BitVec 4) (a v : BitVec 5) (n : BitVec 12) (l : BitVec 1) (r : BitVec 3) (m : BitVec 16),
    PrimaryRuns s p g (.facqW g a v n l r m) → RemoteFlag s (flagWord ((s.core p).a a) n) k q x →
    ((s.core p).run.flag = some (flagOperand (s.core p).a v l, none) → Completes (.facqW g a v n l r m) s
      (s.modCore p fun c => { c with run := { c.run with flag := none } })) ∧
    (∀ (w : Word) (code detail : Nat), (s.core p).run.flag = some (w, some (code, detail)) →
      Completes (.facqW g a v n l r m) s (takeFault s code detail)) ∧
    ((s.core p).run.flag = none → (∀ y ∈ (s.core p).remotes, y.op ≠ .flagRead) →
      ((s.core p).heldBack p 16 (spadBase q + x) (spadBase q + x + 8) false = true → Waits (.facqW g a v n l r m) s p 4) ∧
      ((s.core p).heldBack p 16 (spadBase q + x) (spadBase q + x + 8) false = false → exec (.facqW g a v n l r m) s =
        .next (stallCore s p 5 s.cur.addr (.send
          { oc := 16, pa := spadBase q + x, width := 8, op := .flagRead, entry := none,
            tag := (armed s k q x 8).head?.map fun y => (y.1, y.2.1), due := (s.core p).run.t, seq := (s.core p).nextFlight }))))) ∧
  (∀ (s : State) (p x : Nat) (g h : BitVec 4) (a v : BitVec 5) (n : BitVec 12) (l : BitVec 1) (r : BitVec 3) (m : BitVec 16),
    CoreRuns s p g (.facqT g h a v n l r m) → flagWord ((s.core p).a a) n % 8 = 0 → place s (flagWord ((s.core p).a a) n) 8 = .own x →
    ((s.core p).ctl.detl.extractLsb' 0 2 = 0 ∨ s.foreign.contains ((spadBase p + (s.core p).visible x) / 8) = false →
      Clear s p 16 x 8 false → Unwatched s p x 8 → Completes (.facqT g h a v n l r m) s
        (toG (readDone s p x 8) p h (readSpad s p x 8 == (flagOperand (s.core p).a v l).toNat))) ∧
    ((s.core p).ctl.detl.extractLsb' 0 2 ≠ 0 → s.foreign.contains ((spadBase p + (s.core p).visible x) / 8) = true →
      Completes (.facqT g h a v n l r m) s (takeFault s 0x06 0x61))) ∧
  (∀ (s : State) (p k q x : Nat) (g h : BitVec 4) (a v : BitVec 5) (n : BitVec 12) (l : BitVec 1) (r : BitVec 3) (m : BitVec 16) (w : Word),
    PrimaryRuns s p g (.facqT g h a v n l r m) → RemoteFlag s (flagWord ((s.core p).a a) n) k q x →
    ((s.core p).ctl.detl.extractLsb' 0 2 = 0 → (s.core p).run.flag = some (w, none) → Completes (.facqT g h a v n l r m) s
      (toG (s.modCore p fun c => { c with run := { c.run with flag := none } }) p h (w == flagOperand (s.core p).a v l))) ∧
    ((s.core p).ctl.detl.extractLsb' 0 2 ≠ 0 → Completes (.facqT g h a v n l r m) s (takeFault s 0x06 0x61)))

/-- frel writes its word once every earlier access in its classes has performed, and the invalidations of those writes have arrived: at
the end of its cycle in the own scratchpad, by a remote access elsewhere. Until then its bundle waits with cause "class order" (04 R138,
01 R41). -/
def Sys2Proof.Claims.FlagReleases : Prop :=
  (∀ (s : State) (p x : Nat) (g : BitVec 4) (a v : BitVec 5) (n : BitVec 12) (l : BitVec 1) (r : BitVec 3) (m : BitVec 16),
    CoreRuns s p g (.frel g a v n l r m) → flagWord ((s.core p).a a) n % 8 = 0 → place s (flagWord ((s.core p).a a) n) 8 = .own x →
    (HasPerformed (s.core p) m → ¬ Owes s p m → Clear s p 16 x 8 true → Completes (.frel g a v n l r m) s
      (writeSpad (usePorts s ((s.core p).visible x) 8) true p x (flagOperand (s.core p).a v l).toNat 8)) ∧
    (¬ HasPerformed (s.core p) m ∨ Owes s p m → Waits (.frel g a v n l r m) s p 4)) ∧
  (∀ (s : State) (p k q x : Nat) (g : BitVec 4) (a v : BitVec 5) (n : BitVec 12) (l : BitVec 1) (r : BitVec 3) (m : BitVec 16),
    PrimaryRuns s p g (.frel g a v n l r m) → RemoteFlag s (flagWord ((s.core p).a a) n) k q x →
    ((s.core p).heldBack p 16 (spadBase q + x) (spadBase q + x + 8) true = true → Waits (.frel g a v n l r m) s p 4) ∧
    ((s.core p).heldBack p 16 (spadBase q + x) (spadBase q + x + 8) true = false → HasPerformed (s.core p) m → ¬ Owes s p m → ∃ (t : State) (f : Remote), Completes (.frel g a v n l r m) s t ∧
      (t.core p).remotes = (s.core p).remotes ++ [f] ∧ f.oc = 16 ∧ f.pa = spadBase q + x ∧ f.width = 8 ∧ f.op = .flagWrite (flagOperand (s.core p).a v l) ∧
      f.entry = none ∧ f.result = none ∧ Kept s t p) ∧
    (¬ HasPerformed (s.core p) m ∨ Owes s p m → Waits (.frel g a v n l r m) s p 4))

/-- A flag operation whose word is misaligned or lies neither in the own scratchpad nor in the window, and one that names half 1 of another core's entry, is an
illegal operand; a facq.t of another core's word at D1 and above raises the determinism fault instead (01 R37; 04 R137, R139; 09 R287). -/
def Sys2Proof.Claims.FlagsThatLeadNowhere : Prop :=
  ∀ (s : State) (p : Nat) (g h : BitVec 4) (a v : BitVec 5) (n : BitVec 12) (l : BitVec 1) (r : BitVec 3) (m : BitVec 16) (i : Instr),
    i ∈ [Instr.facqW g a v n l r m, .facqT g h a v n l r m, .frel g a v n l r m] → CoreRuns s p g i →
    (NoFlag s (flagWord ((s.core p).a a) n) → Completes i s (takeFault s 0x02 7)) ∧
    (∀ k q x, flagWord ((s.core p).a a) n % 8 = 0 → place s (flagWord ((s.core p).a a) n) 8 = .remote k q x → (s.core q).inAlt x = true →
      (i = .facqT g h a v n l r m → (s.core p).ctl.detl.extractLsb' 0 2 = 0) → Completes i s (takeFault s 0x02 7))

/-- Flag waits end when their condition holds; releases wait for every earlier access and then write or send their flag; a flag word that is not there faults
(04 R137 to R139; 01 R37, R41). That a release waits, at whatever scope, for the invalidations of its own core's writes in the classes of its mask, and for those of writes that
it has seen, is the model's reading (DEDUCED, log 18). -/
def Obligations.FlagsAcquireAndRelease : Prop := Claims.FlagAcquires ∧ Claims.FlagReleases ∧ Claims.FlagsThatLeadNowhere

/-- A skiff's flag operation on its own scratchpad asks for the port in the cycle after its grant; half 1 faults; on another core's word the skiff
migrates there to execute it again; an address that is no flag word is an illegal operand (05 R170 to R172; 09 R287). -/
def Sys2Proof.Claims.SkiffFlagsWait : Prop :=
  (∀ (s : State) (p : Nat) (j : BitVec 3) (g h : BitVec 4) (a v : BitVec 5) (n : BitVec 12) (l : BitVec 1) (r : BitVec 3) (m : BitVec 16) (i : Instr),
    i ∈ [Instr.facqW g a v n l r m, .facqT g h a v n l r m, .frel g a v n l r m] → SkiffRuns s p j g i →
    (NoFlag s (flagWord ((s.skiff p j).reg a) n) → Completes i s (takeFault s 0x02 7)) ∧
    (flagWord ((s.skiff p j).reg a) n % 8 = 0 → (s.core p).ctl.detl.extractLsb' 0 2 = 0 →
      (∀ x, place s (flagWord ((s.skiff p j).reg a) n) 8 = .own x → (s.core p).spanAlt x 8 = true → Completes i s (takeFault s 0x0B x)) ∧
      (∀ k q x, place s (flagWord ((s.skiff p j).reg a) n) 8 = .remote k q x →
        (i = .frel g a v n l r m → r.toNat < 2 ∧ ¬ SkiffOwed s p j ∧ ¬ Owes s p m) →
        Completes i s (s.modSkiff p j fun c => { c with wait := .migrate k false, pc := s.cur.addr })))) ∧
  ∀ (s : State) (p x : Nat) (j : BitVec 3) (g h : BitVec 4) (a v : BitVec 5) (n : BitVec 12) (l : BitVec 1) (r : BitVec 3) (m : BitVec 16)
    (w : Word), w = flagOperand (s.skiff p j).reg v l → flagWord ((s.skiff p j).reg a) n % 8 = 0 →
    place s (flagWord ((s.skiff p j).reg a) n) 8 = .own x → (s.core p).spanAlt x 8 = false →
    (SkiffRuns s p j g (.facqW g a v n l r m) → Completes (.facqW g a v n l r m) s (s.modSkiff p j fun k =>
      { k with wait := .port { kind := .facqW, addr := x, width := 8, val := w, scope := r.toNat } ((s.core p).run.t + 1) })) ∧
    (SkiffRuns s p j g (.facqT g h a v n l r m) → (s.core p).ctl.detl.extractLsb' 0 2 = 0 →
      Completes (.facqT g h a v n l r m) s (s.modSkiff p j fun k =>
        { k with wait := .port { kind := .facqT, addr := x, width := 8, val := w, dst := h.zeroExtend 5, scope := r.toNat }
                           ((s.core p).run.t + 1) })) ∧
    (SkiffRuns s p j g (.frel g a v n l r m) → r.toNat < 2 → ¬ SkiffOwed s p j → ¬ Owes s p m →
      Completes (.frel g a v n l r m) s (s.modSkiff p j fun k =>
        { k with wait := .port { kind := .frel, addr := x, width := 8, val := w, scope := r.toNat } ((s.core p).run.t + 1) }))

/-- A skiff's accesses ask for their port in the cycle after the grant, or wait for a translation (05 R167, R171 to R173). -/
def Obligations.SkiffsAskForPorts : Prop := Claims.SkiffAccessesWait ∧ Claims.SkiffFlagsWait

/-! ## Control -/

namespace Sys2Proof.Claims

/-- A branch: its guard, its target, and whether it links (03 R111). -/
inductive BranchForm (s : State) : Instr → (BitVec 4 × Nat × Bool) → Prop where
  | br (g : BitVec 4) (o : BitVec 21) : BranchForm s (.br g o) (g, (((s.cur.addr : Int) + 4 * o.toInt) % 2 ^ 48).toNat, false)
  | brl (g : BitVec 4) (o : BitVec 21) : BranchForm s (.brl g o) (g, (((s.cur.addr : Int) + 4 * o.toInt) % 2 ^ 48).toNat, true)
  | brr (g : BitVec 4) (r : BitVec 5) : BranchForm s (.brr g r) (g, (srcC r s).toNat, false)
  | brrL (g : BitVec 4) (r : BitVec 5) : BranchForm s (.brrL g r) (g, (srcC r s).toNat, true)

/-- The bundle that is executing branches to an address: the target is the next bundle of its core. -/
def jumps (s : State) (p target : Nat) : State := s.modCore p fun c => { c with fetch := { c.fetch with taken := some target } }

/-- The address that follows the words of the bundle that is executing. -/
def nextBundleAddr (s : State) : Nat := s.cur.addr + 4 * s.cur.size

/-- The bundle at an address that core p executes is the last of a resident segment that goes on, and n is the first bundle of the one that
follows (03 R84). -/
def LastOfSegment (s : State) (p n : Nat) : Prop := ((s.core p).fetch.segmentAt s.cur.addr).bind (·.follow s.cur.addr) = some n

/-- The bundle that core p executes is not the last of a resident segment that goes on. -/
def InSegment (s : State) (p : Nat) : Prop := ((s.core p).fetch.segmentAt s.cur.addr).bind (·.follow s.cur.addr) = none

/-- A legal target: a multiple of 4 below 2^48 that is not inside a bundle of a resident segment (03 R85, R111). -/
def Legal (s : State) (p target : Nat) : Prop := target % 4 = 0 ∧ target < 2 ^ 48 ∧ (s.core p).fetch.midBundle target = false

/-- The context registers of a core, with TOLLP, FANOM, LCNT and TASKPATH as k has them (03 R115; 07 R260; 10 R308, R309). -/
def contextRegisters (c : Core) (k : Machine.Counts) : List (Nat × Word) :=
  [(0x000, BitVec.ofNat 64 c.run.t), (0x001, BitVec.ofNat 64 c.ctl.lid), (0x002, BitVec.ofNat 64 c.ctl.qcount), (0x003, c.ctl.detl),
   (0x004, c.ctl.seed), (0x005, BitVec.ofNat 64 c.ctl.spwin), (0x006, BitVec.ofNat 64 c.ctl.ptroot), (0x007, c.ctl.ovf),
   (0x008, BitVec.ofNat 64 c.ctl.landb), (0x009, BitVec.ofNat 64 k.purse),
   (0x00A, BitVec.ofNat 64 (c.ctl.resv * 2 ^ 24 + c.ctl.refill)), (0x00B, c.ctl.srctl), (0x00C, c.mseq (c.run.t - 1)), (0x00D, BitVec.ofNat 64 k.fanom),
   (0x00E, k.taskpath), (0x00F, BitVec.ofNat 64 k.lcnt)] ++
  (List.range 8).map fun b => (0x010 + b, c.ctl.bfmt.toList.getD b 0)

/-- The residue counters and the states of the contexts (05 R186, R187). -/
def residueRegisters (k : Machine.Counts) : List (Nat × Word) :=
  ((List.range 3).flatMap fun b => [(0x020 + b, k.openB.toList.getD b 0), (0x023 + b, k.usedB.toList.getD b 0)]) ++
  [(0x026, k.forfeit), (0x027, k.migOut), (0x028, k.migIn), (0x029, k.migWait), (0x070, k.tlbMiss), (0x071, k.cacheMiss), (0x072, k.wbLines)] ++
  (List.range 8).flatMap fun j =>
    let x := k.cnt.toList.getD j {}
    [(0x030 + 8 * j, x.a), (0x031 + 8 * j, x.x), (0x032 + 8 * j, x.c), (0x033 + 8 * j, x.forfeit), (0x034 + 8 * j, x.miss),
     (0x035 + 8 * j, k.states.toList.getD j 0)]

/-- The drift-queue pointers and the monitors (14 R395 to R400). -/
def driftAndMonitorRegisters (o : Observe) : List (Nat × Word) :=
  [(0x080, o.drwr), (0x081, o.drdrn), (0x082, o.drlost), (0x083, o.fland), (0x084, o.holdn), (0x085, o.holdcyc)] ++
  (List.range 4).flatMap fun n =>
    let m := o.monitors.toList.getD n {}
    [(0x0C0 + 16 * n, m.cfg), (0x0C1 + 16 * n, m.count), (0x0C2 + 16 * n, m.min), (0x0C3 + 16 * n, m.max)] ++
      (List.range 8).map fun b => (0x0C4 + 16 * n + b, m.bins.toList.getD (2 * b + 1) 0 ++ m.bins.toList.getD (2 * b) 0)

/-- The context registers of a helm core (13 R366). -/
def helmRegisters (s : State) (p : Nat) : List (Nat × Word) :=
  [(0x100, BitVec.ofNat 64 (s.wallOf (dieOf p))), (0x101, BitVec.ofNat 64 (pkgOf p * 8 + dieOf p % 4 * 2 + (p - helmBase) % 2)),
   (0x102, (s.helm p).ovfnext), (0x103, (s.helm p).fring), (0x104, (s.helm p).fhead),
   (0x105, BitVec.ofNat 64 (s.wallOf (dieOf p) / 12000000 * 12000000))] ++
  (List.range 8).map fun b => (0x110 + b, (s.helm p).carve.toList.getD b 0)

/-- The numbers of monitors (03 R115, 13 R366). -/
def MonitorNumber (n : Nat) : Prop := n ∈ [0x000, 0x009, 0x00A, 0x00D, 0x00F, 0x100, 0x105] ∨ 0x020 ≤ n ∧ n ≤ 0x0FF

end Sys2Proof.Claims

/-- A taken branch makes its target the next bundle, and a linking one, inside its segment, writes the address of the bundle after it into lk;
an illegal target faults at the branch (03 R99, R111; 05 R169 for a skiff, whose link is s15). -/
def Obligations.BranchesGo : Prop :=
  (∀ (s : State) (p target : Nat) (i : Instr) (g : BitVec 4) (l : Bool), BranchForm s i (g, target, l) → CoreRuns s p g i →
    (Legal s p target → (l = true → InSegment s p) → Completes i s (if l then toC (jumps s p target) p 13 1 (BitVec.ofNat 64 (nextBundleAddr s)) else jumps s p target)) ∧
    (¬ Legal s p target → Completes i s (takeFault s 0x01 6))) ∧
  (∀ (s : State) (p target : Nat) (j : BitVec 3) (i : Instr) (g : BitVec 4) (l : Bool), BranchForm s i (g, target, l) →
    SkiffRuns s p j g i → (target % 4 = 0 → target < 2 ^ 48 →
      Completes i s (let t := (skiffResult s p j 1 [] []).modSkiff p j fun k => { k with pc := target }
        if l then skiffResult t p j 1 [(15, BitVec.ofNat 64 (nextBundleAddr s))] [] else t)) ∧
    (target % 4 ≠ 0 ∨ 2 ^ 48 ≤ target → Completes i s (takeFault s 0x01 6)))

/-- lset with a count, inside its segment, starts its level at the end of its cycle, with a count of 0 it branches past the body; lupd sets an update entry, and its
word's fields are those of format UPD; halt stops the core with its bundle (03 R103, R104, R112). -/
def Sys2Proof.Claims.LoopsAndHalt : Prop :=
  (∀ (s : State) (p : Nat) (g : BitVec 4) (l : BitVec 2) (v : BitVec 1) (k : BitVec 6) (e : BitVec 12) (n : Word),
    CoreRuns s p g (.lset g l v k e) → n = (if v = 1 then k.zeroExtend 64 else (s.core p).c (k.truncate 4)) →
    (n ≠ 0 → InSegment s p → Completes (.lset g l v k e) s (later s p (.lset l (n - 1) (nextBundleAddr s)))) ∧
    (n = 0 → Legal s p ((s.cur.addr + 4 * e.toNat) % 2 ^ 48) →
      Completes (.lset g l v k e) s (jumps s p ((s.cur.addr + 4 * e.toNat) % 2 ^ 48))) ∧
    (n = 0 → ¬ Legal s p ((s.cur.addr + 4 * e.toNat) % 2 ^ 48) → Completes (.lset g l v k e) s (takeFault s 0x01 6))) ∧
  (∀ (s : State) (p : Nat) (g : BitVec 4) (l : BitVec 2) (a : BitVec 4) (v : BitVec 1) (d : BitVec 14), CoreRuns s p g (.lupd g l a v d) →
    Completes (.lupd g l a v d) s (later s p (.lupd l a
      (if v = 1 then d.signExtend 32 else ((s.core p).c (d.truncate 4)).truncate 32)))) ∧
  (∀ w e : Code, w.extractLsb' 25 7 = 5 →
    (w.extractLsb' 15 4 ≠ 0 → w.extractLsb' 14 1 = 1 ∨ w.extractLsb' 4 10 = 0 → decodeSlot .c w e =
      .ok (.lupd (w.extractLsb' 21 4) (w.extractLsb' 19 2) (w.extractLsb' 15 4) (w.extractLsb' 14 1) (w.extractLsb' 0 14))) ∧
    (w.extractLsb' 15 4 = 0 → decodeSlot .c w e = .error (.operand 0)) ∧
    (w.extractLsb' 15 4 ≠ 0 → w.extractLsb' 14 1 = 0 → w.extractLsb' 4 10 ≠ 0 → decodeSlot .c w e = .error (.operand 5))) ∧
  (∀ (s : State) (p : Nat) (g : BitVec 4), CoreRuns s p g (.halt g) →
    Completes (.halt g) s (s.modCore p fun c => { c with run := { c.run with halting := true } }))

/-- ltrim reads its 32-byte block; the counts that LMASK selects and the skip bits land at the end of t + 6. A bad address is an illegal
operand (03 R107). -/
def Sys2Proof.Claims.TrimLandsSixLater : Prop :=
  ∀ (s : State) (p : Nat) (g : BitVec 4) (r : BitVec 5) (oc : BitVec 4) (a b : Nat), PrimaryRuns s p g (.ltrim g r oc) →
    a = ((s.core p).c (r.truncate 4)).toNat →
    (a % 32 = 0 → (s.core p).inside a 32 = true → Clear s p oc.toNat a 32 false → Unwatched s p a 32 → b = readSpad s p a 32 →
      ∃ t : State, Completes (.ltrim g r oc) s t ∧
        (t.core p).pipe.pend = (s.core p).pipe.pend ++
          (((List.range 4).filter fun n => (b / 2 ^ 136).testBit n).map fun n =>
            { due := (s.core p).run.t + 6, issue := (s.core p).run.t, slot := 5, dest := .c (BitVec.ofNat 4 (8 + n)),
              val := BitVec.ofNat 64 (b / 2 ^ (32 * n) % 2 ^ 32) }) ++
          [{ due := (s.core p).run.t + 6, issue := (s.core p).run.t, slot := 5, dest := .c 15, val := BitVec.ofNat 64 (b / 2 ^ 128 % 256) }] ∧
        t.mem = s.mem ∧ (t.core p).files = (s.core p).files ∧ (t.core p).ctl = (s.core p).ctl ∧ (t.core p).pipe.eoc = (s.core p).pipe.eoc) ∧
    (a % 32 ≠ 0 ∨ (s.core p).inside a 32 = false → Completes (.ltrim g r oc) s (takeFault s 0x02 7))

/-- The loop instructions, the trim block and halt act at the ends of their cycles (03 R103, R104, R107, R112). -/
def Obligations.LoopsTrimAndHalt : Prop := Claims.LoopsAndHalt ∧ Claims.TrimLandsSixLater

/-- cget copies a control register into a c-register with latency 2; a monitor at D1 and above, a helm register in a primary and a number that
is not listed fault, whatever the guard reads. A skiff reads the context registers and the residue counters, as they stood when the cycle began, at every level
(03 R90, R96, R115; 05 R169, R186, R187; 13 R366; 14 R399, R400). -/
def Sys2Proof.Claims.ControlReads : Prop :=
  (∀ (s : State) (p : Nat) (g : BitVec 4) (d : BitVec 5) (n : BitVec 12) (v : Word), CoreRuns s p g (.cget g d n) →
    (n.toNat, v) ∈ contextRegisters (s.core p) (s.core p).counts ++ residueRegisters (s.core p).counts ++ driftAndMonitorRegisters (s.core p).obs ∨
      isHelm p = true ∧ (n.toNat, v) ∈ helmRegisters s p →
    (¬ MonitorNumber n.toNat ∨ (s.core p).ctl.detl.extractLsb' 0 2 = 0 → Completes (.cget g d n) s (toC s p d 2 v)) ∧
    (MonitorNumber n.toNat → (s.core p).ctl.detl.extractLsb' 0 2 ≠ 0 → Completes (.cget g d n) s (takeFault s 0x06 0x50A))) ∧
  (∀ (s : State) (p : Nat) (j : BitVec 3) (g : BitVec 4) (d : BitVec 5) (n : BitVec 12) (v : Word), SkiffRuns s p j g (.cget g d n) →
    (n.toNat, v) ∈ contextRegisters (s.core p) (s.core p).barrel.before ++ residueRegisters (s.core p).barrel.before →
    Completes (.cget g d n) s (skiffResult s p j 2 [(d, v)] [])) ∧
  (∀ (s : State) (p : Nat) (g : BitVec 4) (d : BitVec 5) (n : BitVec 12), s.cur.agent = .core p → isHelm p = false →
    d.toNat < 16 → d ≠ 14 →
    (0x100 ≤ n.toNat → n.toNat ≤ 0x1FF → Completes (.cget g d n) s (takeFault s 0x03 0x50A)) ∧
    (0x018 ≤ n.toNat → n.toNat ≤ 0x01F → Completes (.cget g d n) s (takeFault s 0x02 5)) ∧
    (0x200 ≤ n.toNat → Completes (.cget g d n) s (takeFault s 0x02 5)))

/-- cset writes the control registers that its core may write, at the end of its cycle; every other number faults, whatever the guard reads
(03 R90, R115). -/
def Sys2Proof.Claims.ControlWrites : Prop :=
  (∀ (s : State) (p : Nat) (g : BitVec 4) (r : BitVec 5) (n : BitVec 12), CoreRuns s p g (.cset g r n) →
    (n = 0x00B → ((s.core p).c (r.truncate 4)).extractLsb' 2 14 = 0 →
      Completes (.cset g r n) s (later s p (.ctl 0x00B ((s.core p).c (r.truncate 4))))) ∧
    (0x010 ≤ n.toNat → n.toNat ≤ 0x017 → ((s.core p).c (r.truncate 4)).toNat < 2 ^ 16 →
      Completes (.cset g r n) s (later s p (.ctl n.toNat ((s.core p).c (r.truncate 4)))))) ∧
  (∀ (s : State) (p : Nat) (g : BitVec 4) (r : BitVec 5) (n : BitVec 12), s.cur.agent = .core p → r.toNat < 16 → r ≠ 14 →
    (n.toNat ≤ 0x003 ∨ n = 0x005 ∨ n = 0x006 ∨ n = 0x007 ∨ (0x009 ≤ n.toNat ∧ n.toNat ≤ 0x00A) ∨ (0x00C ≤ n.toNat ∧ n.toNat ≤ 0x00F) ∨
        (0x018 ≤ n.toNat ∧ n.toNat ≤ 0x0FF) ∨ 0x200 ≤ n.toNat →
      Completes (.cset g r n) s (takeFault s 0x02 5)) ∧
    (isHelm p = false → n = 0x004 ∨ n = 0x008 → Completes (.cset g r n) s (takeFault s 0x02 5)) ∧
    (isHelm p = false → 0x100 ≤ n.toNat → n.toNat ≤ 0x1FF → Completes (.cset g r n) s (takeFault s 0x03 0x50B))) ∧
  (∀ (s : State) (p : Nat) (g : BitVec 4) (r : BitVec 5) (n : BitVec 12), HelmRuns s p g (.cset g r n) →
    n = 0x004 ∨ (n = 0x008 ∧ 1 ≤ ((s.core p).c (r.truncate 4)).toNat ∧ ((s.core p).c (r.truncate 4)).toNat ≤ 2 ^ 20) ∨
      (0x110 ≤ n.toNat ∧ n.toNat ≤ 0x117 ∧ ((s.core p).c (r.truncate 4)).toNat < 256) →
    Completes (.cset g r n) s (later s p (.ctl n.toNat ((s.core p).c (r.truncate 4)))))

/-- cget answers a control register as it stands, in a skiff as the cycle found it; cset writes those that may be written and faults on the others (03 R115; 05 R169,
R186, R187; 13 R366; 14 R399, R400). The operand 5 of a fault of cset or cget (log 15), and that a number which is not listed faults whatever the guard reads (log 60), are the
model's (DEDUCED). -/
def Obligations.ControlRegistersReadAndWrite : Prop := Claims.ControlReads ∧ Claims.ControlWrites

/-- The core that a spawn of child k by core p of sailing n starts its task on: the one that it is placed on, which is idle and which no other spawn waits for; at
REDIR = 1, where that one is busy, the idle core of the lowest logical core id (01 R29; 03 R117, R118). -/
inductive Sys2Proof.Claims.SpawnsOn (s : State) (p n : Nat) (k : BitVec 5) : Nat → Prop where
  | placed (q : Nat) (h : q = (s.sailing n).coreAt (placement (childPath (s.core p).ctl.taskpath k) % (4 * (s.core p).ctl.qcount)))
      (hb : (s.core q).run.busy = false) (hw : ∀ x ∈ s.cores, ∀ y, x.2.run.spawnAt ≠ some (q, y)) : SpawnsOn s p n k q
  | redirected (l : Nat)
      (hb : (s.core ((s.sailing n).coreAt (placement (childPath (s.core p).ctl.taskpath k) % (4 * (s.core p).ctl.qcount)))).run.busy = true)
      (hr : (s.core p).ctl.detl.getLsbD 2 = true) (hl : l < 4 * (s.sailing n).quads.length) (hi : (s.core ((s.sailing n).coreAt l)).run.busy = false)
      (hm : ∀ x < l, (s.core ((s.sailing n).coreAt x)).run.busy = true) : SpawnsOn s p n k ((s.sailing n).coreAt l)

/-- A spawn starts the task on the core that it is placed on or redirected to, with x1 to x8 copied and its other registers zero, and adds the child to the list; a
spawn outside task mode, too deep, or with 16 children outstanding is an illegal operand; a busy core without redirection is a fault at D0, as the spawning core is
at every level, and else a wait; join takes the oldest child's value with latency 2, waits for it, or faults where there is none; trap raises the trap
fault with its immediate (03 R116 to R119). The operand 0 of a fault of spawn or join (log 15), and where a child is placed and how its spawn waits (log 51), are the model's
readings (DEDUCED). -/
def Obligations.TasksAndTraps : Prop :=
  (∀ (s : State) (p q n : Nat) (g : BitVec 4) (k e : BitVec 5), PrimaryRuns s p g (.spawn g k e) →
    (s.core p).run.sailing = some n → (s.sailing n).task = true → (s.core p).ctl.taskpath.extractLsb' 60 4 ≠ 11 →
    (s.core p).run.children.length ≠ 16 → q ≠ p → Claims.SpawnsOn s p n k q →
    ∃ t : State, Completes (.spawn g k e) s t ∧ (t.core p).run.children = (s.core p).run.children ++ [(q, none)] ∧
      (t.core p).files = (s.core p).files ∧ (t.core q).run.live = true ∧ (t.core q).run.busy = true ∧ (t.core q).run.parent = some p ∧
      (t.core q).fetch.pc = ((s.core p).c (e.truncate 4)).toNat ∧
      (t.core q).ctl.taskpath = childPath (s.core p).ctl.taskpath k ∧
      (∀ r : BitVec 5, (t.core q).x r = if 1 ≤ r.toNat ∧ r.toNat ≤ 8 then (s.core p).x r else 0) ∧
      (∀ r : BitVec 5, (t.core q).a r = 0) ∧ (∀ r : BitVec 5, (t.core q).f r = 0) ∧ Kept s t p ∧ ∀ x, x ≠ p → x ≠ q → t.core x = s.core x) ∧
  (∀ (s : State) (p q n : Nat) (g : BitVec 4) (k e : BitVec 5), PrimaryRuns s p g (.spawn g k e) → (s.core p).run.sailing = some n →
    ((s.sailing n).task = false ∨ (s.core p).ctl.taskpath.extractLsb' 60 4 = 11 ∨ (s.core p).run.children.length = 16 →
      Completes (.spawn g k e) s (takeFault s 0x02 0)) ∧
    ((s.sailing n).task = true → (s.core p).ctl.taskpath.extractLsb' 60 4 ≠ 11 → (s.core p).run.children.length ≠ 16 →
      q = (s.sailing n).coreAt (placement (childPath (s.core p).ctl.taskpath k) % (4 * (s.core p).ctl.qcount)) →
      (s.core q).run.busy = true → (s.core p).ctl.detl.getLsbD 2 = false →
      ((s.core p).ctl.detl.extractLsb' 0 2 = 0 ∨ q = p → Completes (.spawn g k e) s (takeFault s 0x0A (s.core q).ctl.lid)) ∧
      ((s.core p).ctl.detl.extractLsb' 0 2 ≠ 0 → q ≠ p → exec (.spawn g k e) s = .next (stallCore s p 21 s.cur.addr (.spawn q))))) ∧
  (∀ (s : State) (p : Nat) (g : BitVec 4) (d : BitVec 5), PrimaryRuns s p g (.join g d) →
    (∀ q v rest, (s.core p).run.children = (q, some v) :: rest → Completes (.join g d) s
      (toC (s.modCore p fun c => { c with run := { c.run with children := rest } }) p d 2 v)) ∧
    (∀ q rest, (s.core p).run.children = (q, none) :: rest → Waits (.join g d) s p 7) ∧
    ((s.core p).run.children = [] → Completes (.join g d) s (takeFault s 0x02 0))) ∧
  (∀ (s : State) (p : Nat) (g : BitVec 4) (v : BitVec 16), CoreRuns s p g (.trap g v) → Completes (.trap g v) s (takeFault s 0x0C v.toNat)) ∧
  (∀ (s : State) (p : Nat) (j : BitVec 3) (g : BitVec 4) (v : BitVec 16), SkiffRuns s p j g (.trap g v) →
    Completes (.trap g v) s (takeFault s 0x0C v.toNat)) ∧
  (∀ w e : Code, w.extractLsb' 25 7 = 15 → decodeSlot .c w e =
    if w.extractLsb' 16 5 = 0 then .ok (.trap (w.extractLsb' 21 4) (w.extractLsb' 0 16)) else .error (.operand 0))

/-! ## Streams, copies and publication -/

namespace Sys2Proof.Claims

/-- The command that core p makes of a copy's record: with what it captures, and with the format registers, as they stand, of the other cores that
it may reach (02 R53; 09 R280). -/
def copyCommand (s : State) (p : Nat) (v : BitVec 1024) : CopyCmd :=
  let c := s.core p
  let x : CopyCmd := { id := c.nextFlight, core := p, sailing := c.run.sailing, rec_ := v, cap := c.capture, ptroot := c.ctl.ptroot,
                       spwin := c.ctl.spwin, baddr := s.cur.addr, word := s.cur.word, tags := [], marks := (s.die (dieOf p)).marks, sent := s.wall,
                       carve := c.ctl.carve, way := { at_ := s.wall } }
  { x with bfs := x.formats s (Layout.of v) }

/-- The record of a copy passes the checks of 09 R278 at issue: those of its fields, and those of its elements in the banks that they lie in, its
handle resolved as it stands. -/
def GoodRecord (s : State) (p : Nat) (v : BitVec 1024) (ch : Bool) : Prop :=
  let x := copyCommand s p v
  let l := Layout.of v
  ({ x with dest := if ch ∨ l.dkind then none else (findHandle s x l).toOption } : CopyCmd).fault s l ch = none

/-- The width of a record's ring elements. -/
def ringWidth (c : Core) (l : Layout) : Nat := wordBits (bankWord c.ctl.bfmt l.dest)

end Sys2Proof.Claims

/-- sbind binds port q to its register with the descriptor that it reads, from element 0; sbind.u frees a bound port at the end of its cycle (04 R132 to R136). -/
def Obligations.StreamPortsBind : Prop :=
  (∀ (s : State) (p a raw : Nat) (g : BitVec 4) (r b : BitVec 5) (f : BitVec 1) (q : BitVec 2), PrimaryRuns s p g (.sbind g r b f q) →
    a = ((s.core p).a b).toNat → raw = readSpad s p a 32 →
    (a % 32 = 0 → (s.core p).inside a 32 = true → Clear s p (raw / 2 ^ 28 % 16) a 32 false → Unwatched s p a 32 →
      descriptorBad raw (s.core p) (Descriptor.of raw) = false → (s.core p).ports[q.toNat].bound = false →
      (s.core p).boundTo (portFile f) r = none → (s.core p).expects = [] →
      (s.core p).hullOk (Descriptor.of raw).hull.1 (Descriptor.of raw).hull.2 = true →
      ∃ t : State, Completes (.sbind g r b f q) s t ∧ Kept s t p ∧
        (∀ k : BitVec 2, k ≠ q → (t.core p).ports[k.toNat] = (s.core p).ports[k.toNat]) ∧
        (let n := (t.core p).ports[q.toNat]
         n.bound = true ∧ n.file = (if f = 1 then .f else .x) ∧ n.reg = r ∧ n.fetched = 0 ∧ n.popped = 0 ∧ n.buf = [] ∧
           n.at_ = (s.core p).run.t ∧ n.bfmt = (s.core p).ctl.bfmt ∧ n.desc.base = raw % 2 ^ 23 ∧ n.desc.width = 2 ^ (raw / 2 ^ 24 % 4) ∧
           n.desc.oc = raw / 2 ^ 28 % 16 ∧ n.desc.strides = [32, 64, 96].map (fun k => sextOf (raw / 2 ^ k) 32) ∧
           n.desc.counts = [128, 144, 160].map (fun k => raw / 2 ^ k % 2 ^ 16) ∧
           n.total = (raw / 2 ^ 128 % 2 ^ 16) * (raw / 2 ^ 144 % 2 ^ 16) * (raw / 2 ^ 160 % 2 ^ 16))) ∧
    (a % 32 ≠ 0 ∨ (s.core p).inside a 32 = false → Completes (.sbind g r b f q) s (takeFault s 0x02 7))) ∧
  (∀ (s : State) (p : Nat) (g : BitVec 4) (r : BitVec 5) (f : BitVec 1) (q : BitVec 2), PrimaryRuns s p g (.sbindU g r f q) →
    ((s.core p).ports[q.toNat].bound = true → (s.core p).ports[q.toNat].file = (if f = 1 then .f else .x) →
      (s.core p).ports[q.toNat].reg = r → Completes (.sbindU g r f q) s (later s p (.unbind q.toNat))) ∧
    ((s.core p).ports[q.toNat].bound = false → Completes (.sbindU g r f q) s (takeFault s 0x02 4)))

/-- lxsend reads its 128-byte record and hands the copy to the Lighter of its quad's parity, unless 8 of the core's copies are under way;
lxsend.ch queues a refill on its watermark channel, which holds two; lxsend.cls closes an idle channel (09 R276 to R278). -/
def Obligations.CopiesAreSent : Prop :=
  (∀ (s : State) (p a : Nat) (g : BitVec 4) (b : BitVec 5) (v : BitVec 1024), PrimaryRuns s p g (.lxsend g b) →
    a = ((s.core p).a b).toNat → v = BitVec.ofNat 1024 (readSpad s p a 128) → a % 128 = 0 → (s.core p).inside a 128 = true →
    Clear s p 0 a 128 false → Unwatched s p a 128 → GoodRecord (readDone s p a 128) p v false →
    (((s.core p).flight.filter fun f => f.engine == .lighter).length < 8 → ∃ (t : State) (x : CopyCmd) (f : Flight), Completes (.lxsend g b) s t ∧
      t.lighters.get [] (lighterOf p) = s.lighters.get [] (lighterOf p) ++ [x] ∧ x.rec_ = v ∧ x.core = p ∧
      x.cap = (s.core p).capture ∧ x.accepted = false ∧ x.started = false ∧ x.done = 0 ∧
      (t.core p).flight = (s.core p).flight ++ [f] ∧ f.engine = .lighter ∧ f.oc = v.toNat / 2 ^ 124 % 16 ∧
      Kept s t p) ∧
    (8 ≤ ((s.core p).flight.filter fun f => f.engine == .lighter).length → Waits (.lxsend g b) s p 12)) ∧
  (∀ (s : State) (p a : Nat) (g : BitVec 4) (n : BitVec 3) (b : BitVec 5) (v : BitVec 1024), PrimaryRuns s p g (.lxsendCh g n b) →
    a = ((s.core p).a b).toNat → v = BitVec.ofNat 1024 (readSpad s p a 128) → a % 128 = 0 → (s.core p).inside a 128 = true →
    Clear s p 0 a 128 false → Unwatched s p a 128 → GoodRecord (readDone s p a 128) p v true →
    ringBad (s.core p) n.toNat (Layout.of v) (ringWidth (s.core p) (Layout.of v)) = false →
    ((s.core p).refills[n.toNat].length < 2 → ∃ (t : State) (x : CopyCmd) (f : Flight), Completes (.lxsendCh g n b) s t ∧
      (t.core p).refills[n.toNat] = (s.core p).refills[n.toNat] ++ [x] ∧ x.rec_ = v ∧ x.core = p ∧ x.started = false ∧ x.done = 0 ∧
      (t.core p).flight = (s.core p).flight ++ [f] ∧ f.engine = .stream ∧ f.oc = v.toNat / 2 ^ 124 % 16 ∧
      Kept s t p) ∧
    (2 ≤ (s.core p).refills[n.toNat].length → Waits (.lxsendCh g n b) s p 12)) ∧
  (∀ (s : State) (p : Nat) (g : BitVec 4) (n : BitVec 3), PrimaryRuns s p g (.lxsendCls g n) →
    ((s.core p).refills[n.toNat] = [] → Completes (.lxsendCls g n) s (later s p (.close n.toNat))) ∧
    ((s.core p).refills[n.toNat] ≠ [] → Waits (.lxsendCls g n) s p 12))

/-- pub.map, pub.unmap, pub, expect and expect.c act at the end of their cycle; an entry or handle that is not good is an illegal operand, and
the publications wait for the engine commands that touch their ranges; pub, a release for its class, waits for the core's other accesses of that
class too (01 R44; 09 R286, R289, R290), and, as log 18 (DEDUCED) reads every release, for the invalidations of its writes. -/
def Obligations.PublicationWrites : Prop :=
  (∀ (s : State) (p : Nat) (g n : BitVec 4) (a : BitVec 5), PrimaryRuns s p g (.pubMap g n a) →
    (mapBad (s.core p) n.toNat ((s.core p).a a) = false →
      ((s.core p).engineTouches p n.toNat (entryRanges p (Pmap.ofWord ((s.core p).a a))) = false →
        Completes (.pubMap g n a) s (later s p (.map n.toNat ((s.core p).a a)))) ∧
      ((s.core p).engineTouches p n.toNat (entryRanges p (Pmap.ofWord ((s.core p).a a))) = true → Waits (.pubMap g n a) s p 4)) ∧
    ((s.core p).pmap[n.toNat].v = true → Completes (.pubMap g n a) s (takeFault s 0x02 1))) ∧
  (∀ (s : State) (p : Nat) (g n : BitVec 4), PrimaryRuns s p g (.pubUnmap g n) →
    ((s.core p).pmap[n.toNat].v = true →
      ((s.core p).engineTouches p n.toNat (entryRanges p (s.core p).pmap[n.toNat]) = false →
        Completes (.pubUnmap g n) s (later s p (.unmap n.toNat))) ∧
      ((s.core p).engineTouches p n.toNat (entryRanges p (s.core p).pmap[n.toNat]) = true → Waits (.pubUnmap g n) s p 4)) ∧
    ((s.core p).pmap[n.toNat].v = false → Completes (.pubUnmap g n) s (takeFault s 0x02 0))) ∧
  (∀ (s : State) (p : Nat) (g oc : BitVec 4) (r : BitVec 3) (h t : BitVec 5) (n : BitVec 4), PrimaryRuns s p g (.pub g r h t oc) →
    ((s.core p).a h).toNat = (s.core p).ctl.lid * 16 + n.toNat → (s.core p).ctl.lid < 2 ^ 16 → (s.core p).pmap[n.toNat].v = true →
    (((s.core p).a t).toNat < 2 ^ 32 → (∀ f ∈ (s.core p).flight, f.oc = oc.toNat → f.writing (spadBase p + 64 * (s.core p).pmap[n.toNat].base)
        (spadBase p + 64 * ((s.core p).pmap[n.toNat].base + (s.core p).pmap[n.toNat].len)) = false) →
      HasPerformed (s.core p) (1#16 <<< oc.toNat) → ¬ Owes s p (1#16 <<< oc.toNat) →
      Completes (.pub g r h t oc) s (later s p (.pub n.toNat ((s.core p).a t).toNat))) ∧
    (((s.core p).a t).toNat < 2 ^ 32 → (¬ HasPerformed (s.core p) (1#16 <<< oc.toNat) ∨ Owes s p (1#16 <<< oc.toNat) ∨
        (∃ f ∈ (s.core p).flight, f.oc = oc.toNat ∧ f.writing (spadBase p + 64 * (s.core p).pmap[n.toNat].base)
          (spadBase p + 64 * ((s.core p).pmap[n.toNat].base + (s.core p).pmap[n.toNat].len)) = true) → Waits (.pub g r h t oc) s p 4)) ∧
    (2 ^ 32 ≤ ((s.core p).a t).toNat → Completes (.pub g r h t oc) s (takeFault s 0x02 2))) ∧
  (∀ (s : State) (p : Nat) (g : BitVec 4) (h t : BitVec 5), PrimaryRuns s p g (.expect g h t) →
    ((s.core p).a h).toNat < 2 ^ 20 → ((s.core p).a h).toNat / 16 < 4 * (s.core p).ctl.qcount →
    (((s.core p).a t).toNat < 2 ^ 32 → (s.core p).expects.length < 8 ∨ (∃ x ∈ (s.core p).expects, x.1 = ((s.core p).a h).toNat) →
      Completes (.expect g h t) s (later s p (.arm ((s.core p).a h).toNat ((s.core p).a t).toNat))) ∧
    (((s.core p).a t).toNat < 2 ^ 32 → 8 ≤ (s.core p).expects.length → (∀ x ∈ (s.core p).expects, x.1 ≠ ((s.core p).a h).toNat) →
      Completes (.expect g h t) s (takeFault s 0x02 1))) ∧
  (∀ (s : State) (p : Nat) (g : BitVec 4) (h : BitVec 5), PrimaryRuns s p g (.expectC g h) →
    (((s.core p).a h).toNat < 2 ^ 20 → ((s.core p).a h).toNat / 16 < 4 * (s.core p).ctl.qcount →
      Completes (.expectC g h) s (later s p (.disarm ((s.core p).a h).toNat))) ∧
    (4 * (s.core p).ctl.qcount ≤ ((s.core p).a h).toNat / 16 → Completes (.expectC g h) s (takeFault s 0x02 1)))

/-! ## The vector sequencer -/

namespace Sys2Proof.Claims

/-- A V operation that enters the sequencer: its guard, and itself as the entry keeps it, without the guard. -/
inductive VectorOp : Instr → (BitVec 4 × Instr) → Prop where
  | vadd (g d a b c : BitVec 4) (k : BitVec 3) : VectorOp (.vadd g d a b c k) (g, .vadd 0 d a b c k)
  | vsub (g d a b c : BitVec 4) (k : BitVec 3) : VectorOp (.vsub g d a b c k) (g, .vsub 0 d a b c k)
  | vmul (g d a b c : BitVec 4) (k : BitVec 3) : VectorOp (.vmul g d a b c k) (g, .vmul 0 d a b c k)
  | vfma (g d a b c : BitVec 4) (k : BitVec 3) : VectorOp (.vfma g d a b c k) (g, .vfma 0 d a b c k)
  | vfms (g d a b c : BitVec 4) (k : BitVec 3) : VectorOp (.vfms g d a b c k) (g, .vfms 0 d a b c k)
  | vfnma (g d a b c : BitVec 4) (k : BitVec 3) : VectorOp (.vfnma g d a b c k) (g, .vfnma 0 d a b c k)
  | vmin (g d a b c : BitVec 4) (k : BitVec 3) : VectorOp (.vmin g d a b c k) (g, .vmin 0 d a b c k)
  | vmax (g d a b c : BitVec 4) (k : BitVec 3) : VectorOp (.vmax g d a b c k) (g, .vmax 0 d a b c k)
  | vabs (g d a c : BitVec 4) (k : BitVec 3) : VectorOp (.vabs g d a c k) (g, .vabs 0 d a c k)
  | vcvt (g d a c : BitVec 4) (m : BitVec 2) : VectorOp (.vcvt g d a c m) (g, .vcvt 0 d a c m)
  | vsf (g d a f c : BitVec 4) (r : BitVec 1) (k : BitVec 3) : VectorOp (.vsf g d a f c r k) (g, .vsf 0 d a f c r k)
  | vred (g d a c : BitVec 4) (o : BitVec 2) (k : BitVec 3) : VectorOp (.vred g d a c o k) (g, .vred 0 d a c o k)
  | vscan (g d a c : BitVec 4) (o : BitVec 2) (k : BitVec 3) : VectorOp (.vscan g d a c o k) (g, .vscan 0 d a c o k)
  | vcmp (g d a b c : BitVec 4) (o : BitVec 2) (k : BitVec 3) : VectorOp (.vcmp g d a b c o k) (g, .vcmp 0 d a b c o k)
  | vsel (g d a b c : BitVec 4) (k : BitVec 3) : VectorOp (.vsel g d a b c k) (g, .vsel 0 d a b c k)
  | vmov (g d a c : BitVec 4) (k : BitVec 3) : VectorOp (.vmov g d a c k) (g, .vmov 0 d a c k)
  | vfill (g d : BitVec 4) (i : BitVec 8) (c : BitVec 4) : VectorOp (.vfill g d i c) (g, .vfill 0 d i c)
  | vdot (g d a b c : BitVec 4) (k : BitVec 3) : VectorOp (.vdot g d a b c k) (g, .vdot 0 d a b c k)
  | tdecv (g d a c : BitVec 4) : VectorOp (.tdecv g d a c) (g, .tdecv 0 d a c)
  | vqacc (g q a b c : BitVec 4) : VectorOp (.vqacc g q a b c) (g, .vqacc 0 q a b c)
  | vqaccS (g q a c : BitVec 4) : VectorOp (.vqaccS g q a c) (g, .vqaccS 0 q a c)
  | vqrd (g d q c : BitVec 4) : VectorOp (.vqrd g d q c) (g, .vqrd 0 d q c)
  | vqrdZ (g d q c : BitVec 4) : VectorOp (.vqrdZ g d q c) (g, .vqrdZ 0 d q c)
  | vqclr (g q : BitVec 4) (w : BitVec 2) : VectorOp (.vqclr g q w) (g, .vqclr 0 q w)
  | chs (g e r c : BitVec 4) : VectorOp (.chs g e r c) (g, .chs 0 e r c)
  | chv (g d e c : BitVec 4) : VectorOp (.chv g d e c) (g, .chv 0 d e c)

end Sys2Proof.Claims

/-- A V operation whose records pass their checks enters the sequencer with its records and the captured state, joins the template record, and
starts in a later cycle; a full sequencer makes the bundle wait, a failed check faults at issue (06 R188, R189, R198, R216; 10 R316). -/
def Sys2Proof.Claims.VectorOperationsQueue : Prop :=
  ∀ (s : State) (p : Nat) (i op : Instr) (g : BitVec 4) (sp : VSpec) (hd h1 h2 : BitVec 256), VectorOp i (g, op) →
    vspec op = some sp → operandRecords op sp (s.core p) = (hd, h1, h2) → PrimaryRuns s p g i →
    (vectorFault s op sp (s.core p).capture (Shape.of hd) (Shape.of h1) (Shape.of h2) 0 0 (s.core p).vec.quireWidth = none →
      ((s.core p).vec.entries < 16 → ∃ (t : State) (r : VRun), Completes i s t ∧ (t.core p).vec.runs = (s.core p).vec.runs ++ [r] ∧ r.op = op ∧ r.hd = hd ∧
        r.h1 = h1 ∧ r.h2 = h2 ∧ r.cap = (s.core p).capture ∧ r.oc = vclass op ∧ r.rep = 0 ∧ r.last = true ∧ r.started = none ∧
        (s.core p).run.t + 1 ≤ r.start ∧ (t.core p).vec.vq = (s.core p).vec.vq ∧
        (t.core p).vec.template = (⟨op, hd, h1, h2, (s.core p).capture⟩ :: (s.core p).vec.template).take 16 ∧
        (t.core p).flight = (s.core p).flight ++ [⟨r.id, .vector, vclass op, named p r.reads, named p r.writes, none, none, named p r.reads, none⟩] ∧ Kept s t p) ∧
      (16 ≤ (s.core p).vec.entries → Waits i s p 8)) ∧
    (∀ f, vectorFault s op sp (s.core p).capture (Shape.of hd) (Shape.of h1) (Shape.of h2) 0 0 (s.core p).vec.quireWidth = some f →
      Completes i s (takeFault s f.1 f.2))

/-- vloop repeats the last n + 1 entries count times, in order, as one entry of the sequencer; vsync waits until the classes that it selects are
empty, vsync.t tests it by the nominal completions. Too few entries and a vloop among them fault before anything else; a count of 0 faults, whatever the guard reads, which is the
model's reading (06 R193, R216; log 60). -/
def Sys2Proof.Claims.LoopsAndSyncsOfTheSequencer : Prop :=
  (∀ (s : State) (p : Nat) (g n : BitVec 4) (k : BitVec 16) (body : List VTemplate), PrimaryRuns s p g (.vloop g n k) →
    body = ((s.core p).vec.template.take (n.toNat + 1)).reverse →
    (k ≠ 0 → n.toNat < (s.core p).vec.template.length → (∀ x ∈ body, vspec x.op ≠ none) → loopFault s body k.toNat = none → (s.core p).vec.entries < 16 →
      ∃ (t : State) (rs : List VRun), Completes (.vloop g n k) s t ∧ (t.core p).vec.runs = (s.core p).vec.runs ++ rs ∧
        rs.map (fun r => (r.op, r.rep)) = (List.range k.toNat).flatMap (fun j => body.map fun x => (x.op, j + 1)) ∧
        (t.core p).vec.entries = (s.core p).vec.entries + 1 ∧ Kept s t p) ∧
    ((s.core p).vec.template.length ≤ n.toNat ∨ (∃ x ∈ body, vspec x.op = none) → Completes (.vloop g n k) s (takeFault s 0x02 5))) ∧
  (∀ (s : State) (p : Nat) (g n : BitVec 4), s.cur.agent = .core p → isHelm p = false →
    Completes (.vloop g n 0) s (takeFault s 0x02 5)) ∧
  (∀ (s : State) (p : Nat) (g : BitVec 4) (m : BitVec 16), PrimaryRuns s p g (.vsync g m) →
    ((∀ r ∈ (s.core p).vec.runs, m ≠ 0 ∧ m.getLsbD r.oc = false) → Completes (.vsync g m) s s) ∧
    ((∃ r ∈ (s.core p).vec.runs, m = 0 ∨ m.getLsbD r.oc = true) → Waits (.vsync g m) s p 9)) ∧
  (∀ (s : State) (p : Nat) (g h : BitVec 4) (m : BitVec 16) (v : Bool), PrimaryRuns s p g (.vsyncT g m h) →
    (v = true ↔ ∀ r ∈ (s.core p).vec.runs, m = 0 ∨ m.getLsbD r.oc = true → r.start + r.busy - 1 + r.depth < (s.core p).run.t) →
    Completes (.vsyncT g m h) s (toG s p h v))

/-- V and vector operations queue in the sequencer; its loops and syncs act at issue (06 R188, R189, R193, R198, R216; 10 R316). -/
def Obligations.TheSequencerQueues : Prop := Claims.VectorOperationsQueue ∧ Claims.LoopsAndSyncsOfTheSequencer

namespace Sys2Proof.Claims

/-- The canonical tree combines a list to a value: one element is itself; a list that is cut after a power of two of its elements, at least half of it, is the combination of
its two parts (06 R208). -/
inductive TreeOf (comb : Val → Val → Val) : List Val → Val → Prop where
  | one (a : Val) : TreeOf comb [a] a
  | cut (n : Nat) (l r : List Val) (a b : Val) (whole : l.length = 2 ^ n) (some_ : r ≠ []) (half : r.length ≤ 2 ^ n) (left : TreeOf comb l a)
      (right : TreeOf comb r b) : TreeOf comb (l ++ r) (comb a b)

/-- The scan result at position i: the tree over the elements up to it where they are a power of two, else the result before the lowest of its maximal aligned subtrees
combined with that subtree (06 R208). -/
inductive ScanOf (comb : Val → Val → Val) (v : List Val) : Nat → Val → Prop where
  | whole (i b : Nat) (a : Val) (size : i + 1 = 2 ^ b) (tree : TreeOf comb (v.take (2 ^ b)) a) : ScanOf comb v i a
  | more (i b m : Nat) (a c : Val) (size : i + 1 = m + 2 ^ b) (before : 0 < m) (aligned : m % 2 ^ (b + 1) = 0) (rest : ScanOf comb v (m - 1) a)
      (tree : TreeOf comb ((v.drop m).take (2 ^ b)) c) : ScanOf comb v i (comb a c)

/-- The first n elements of an operand, in compute format k. -/
def elementsIn (r : VRun) (o k n : Nat) : List Val := (List.range n).map fun i => (toCompute k (r.elt o i).val).1

end Sys2Proof.Claims

/-- The results of vred, vscan and vdot in a compute format that is no quire, and those of a collective reduction in a floating or integer format but a sum in F64, combine their
elements by the canonical tree over logical element index, rounding at each step; a scan's result at a position covers the elements up to it by its maximal aligned subtrees
(06 R208, R209; 10 R323). -/
def Obligations.CanonicalTree : Prop :=
  (∀ (r : VRun) (g : BitVec 4) (d a : BitVec 4) (o : BitVec 2) (k : BitVec 3) (c : BitVec 4) (n : Nat), k ≠ 4 → 0 < (r.shape 1).total →
    (r.op = .vred g d a c o k → Claims.TreeOf (combine o.toNat k.toNat) (Claims.elementsIn r 1 k.toNat (r.shape 1).total) (r.value n).1) ∧
    (r.op = .vscan g d a c o k → Claims.ScanOf (combine o.toNat k.toNat) (Claims.elementsIn r 1 k.toNat (n + 1)) n (r.value n).1)) ∧
  (∀ (r : VRun) (g d a b c : BitVec 4) (k : BitVec 3) (n : Nat), k ≠ 4 → 0 < (r.shape 1).total → r.op = .vdot g d a b c k →
    Claims.TreeOf (combine 0 k.toNat) (((Claims.elementsIn r 1 k.toNat (r.shape 1).total).zip (Claims.elementsIn r 2 k.toNat (r.shape 1).total)).map
      fun x => roundIn k.toNat (x.1.mul x.2)) (r.value n).1) ∧
  (∀ (op comp q : Nat) (es : List Elt), es ≠ [] → comp ≠ 4 → ¬ (op = 0 ∧ comp = 0) →
    Claims.TreeOf (combine op comp) (es.map fun e => (toCompute comp e.val).1) (collResult op comp q es).1)

/-! ## The matrix array -/

namespace Sys2Proof.Claims

/-- An array command that is no macro command, as core p finds it: its guard, itself as the queue keeps it, its first fault at issue, and whether
a metadata register holds it back (07 R232 to R257). -/
inductive ArrayOp (s : State) (p : Nat) : Instr → (BitVec 4 × Instr × Option (Nat × Nat) × Bool) → Prop where
  | mcfg (g d : BitVec 4) (r : BitVec 2) (t : BitVec 3) : ArrayOp s p (.mcfg g d r t) (g, .mcfg 0 d r t, none, false)
  | mcfgLd (g d h c : BitVec 4) (r : BitVec 2) (t : BitVec 3) :
      ArrayOp s p (.mcfgLd g d h c r t) (g, .mcfgLd 0 d h c r t, imageFault (Shape.of ((s.core p).h h)) (s.core p) 2 t.toNat r.toNat, false)
  | mcfgAdd (g d h c : BitVec 4) (r : BitVec 2) (t : BitVec 3) :
      ArrayOp s p (.mcfgAdd g d h c r t) (g, .mcfgAdd 0 d h c r t, (imageFault (Shape.of ((s.core p).h h)) (s.core p) 2 t.toNat r.toNat).orElse
      fun _ => if t = 0 ∧ 2 ≤ ((s.core p).ctl.detl.extractLsb' 0 2).toNat then some (0x06, 0x403) else none, false)
  | mgath (g : BitVec 4) (x : BitVec 1) (i r c : BitVec 4) :
      ArrayOp s p (.mgath g x i r c) (g, .mgath 0 x i r c, gatherFault (s.core p) (s.core p).ctl.bfmt (Shape.of ((s.core p).h i))
      (Shape.of ((s.core p).h r)) 1 2 0, false)
  | mlatb (g : BitVec 4) (y : BitVec 1) (b c : BitVec 4) :
      ArrayOp s p (.mlatb g y b c) (g, .mlatb 0 y b c, (latchFault (Shape.of ((s.core p).h b)) (s.core p) (s.core p).ctl.bfmt 1 0).orElse
      fun _ => sourceFormat (bankWord (s.core p).ctl.bfmt (Shape.of ((s.core p).h b)).base) 1, false)
  | mma (g d m k : BitVec 4) (y x : BitVec 1) :
      ArrayOp s p (.mma g d m k y x) (g, .mma 0 d m k y x, if (s.core p).m k = 0 ∨ 2 ^ 16 ≤ ((s.core p).m k).toNat then some (0x02, 2) else none, false)
  | mmas (g d m k : BitVec 4) (j : BitVec 2) (x : BitVec 1) :
      ArrayOp s p (.mmas g d m k j x) (g, .mmas 0 d m k j x,
      (if (s.core p).m k = 0 ∨ 2 ^ 16 ≤ ((s.core p).m k).toNat then some (0x02, 2) else none).orElse fun _ =>
        if mdPending s p j.toNat then none
        else (mdFault (s.core p).files.md[j.toNat] (Nat.min ((s.core p).m k).toNat 384)).map fun w => (0x09, w), mdPending s p j.toNat)
  | mst (g t h m c : BitVec 4) :
      ArrayOp s p (.mst g t h m c) (g, .mst 0 t h m c, storeFault (Shape.of ((s.core p).h h)) (s.core p) (s.core p).capture 1 0
      ((s.quad (quadOf p)).tileKind t.toNat) false 0x08, false)
  | mstRaw (g t h m c : BitVec 4) :
      ArrayOp s p (.mstRaw g t h m c) (g, .mstRaw 0 t h m c, storeFault (Shape.of ((s.core p).h h)) (s.core p) (s.core p).capture 1 0
      ((s.quad (quadOf p)).tileKind t.toNat) true 0x08, false)
  | mstSt (g t h : BitVec 4) : ArrayOp s p (.mstSt g t h) (g, .mstSt 0 t h, none, false)
  | mcomp (g d r : BitVec 4) (k : BitVec 2) (c : BitVec 4) :
      ArrayOp s p (.mcomp g d r k c) (g, .mcomp 0 d r k c, compressFault (Shape.of ((s.core p).h d)) (Shape.of ((s.core p).h r)) (s.core p)
      (s.core p).ctl.bfmt, mdPending s p k.toNat)

/-- The commands of a quad that have not started. -/
def unstarted (s : State) (q : Nat) : Nat := ((s.quad q).cmds.filter (·.started.isNone)).length

/-- Core p's command op has been queued: it stands last in its quad's queue, is in flight, and counts against the lease. -/
def Queued (s t : State) (p : Nat) (op : Instr) (x : ACmd) : Prop :=
  (t.quad (quadOf p)).cmds = (s.quad (quadOf p)).cmds ++ [x] ∧ x.op = op ∧ x.core = p ∧ x.cap = (s.core p).capture ∧
    x.issued = (s.core p).run.t ∧ (s.core p).run.t + 1 ≤ x.nominal ∧ x.started = none ∧
    (t.quad (quadOf p)).tiles = (s.quad (quadOf p)).tiles ∧
    (t.core p).flight = (s.core p).flight ++ [⟨x.id, .array, x.oc, x.reads ++ x.rows, x.writes, none, none, x.reads ++ x.rows, none⟩] ∧
    (t.core p).run.allow = (s.core p).run.allow - 1 ∧ (2 ≤ (s.core p).run.allow → (t.core p).run.lease = 2) ∧ Kept s t p

/-- The two records that a K-step gathers by, its B record and its store record, and the m-registers of a macro command (07 R258). -/
def macroRecord (s : State) (p : Nat) (x : BitVec 4) (i : Nat) : Shape := Shape.of ((s.core p).h (x + BitVec.ofNat 4 i))

/-- The parameters and records of a macro command are good (07 R258; 08 R266). -/
def GoodMacro (s : State) (p : Nat) (d x m : BitVec 4) (store : Bool) (op : Nat) : Prop :=
  let c := s.core p
  let bf := c.ctl.bfmt
  let steps := ((c.m m).extractLsb' 16 16).toNat
  ((c.m m).extractLsb' 0 16) ≠ 0 ∧ steps ≠ 0 ∧ (c.m m).toNat < 2 ^ 32 ∧
    gatherFault c bf (macroRecord s p x 0) (macroRecord s p x 1) 1 1 0 = none ∧
    (∀ k < steps, ∃ h, (macroRecord s p x 1).shift (k * (macroRecord s p x 1).delta) = some h ∧ h.base < 2 ^ 23 ∧ templateFault h bf 1 = none ∧
      sourceFormat (bankWord bf h.base) 1 = none) ∧
    latchFault (macroRecord s p x 2) c bf 1 (steps - 1) = none ∧ sourceFormat (bankWord bf (macroRecord s p x 2).base) 1 = none ∧
    (store = true → storeFault (macroRecord s p x 3) c c.capture 1 0 ((s.quad (quadOf p)).tileKind d.toNat) false op = none)

/-- The topology table that an mwalk names is good: a multiple of 16, from 1 to 8,192 entries, in the scratchpad (07 R259). -/
def GoodTable (c : Core) (v : Word) : Prop :=
  v.extractLsb' 23 9 = 0 ∧ v.extractLsb' 48 16 = 0 ∧ v.toNat % 16 = 0 ∧ 1 ≤ (v.extractLsb' 32 16).toNat ∧
    (v.extractLsb' 32 16).toNat ≤ 8192 ∧ c.blockFault (v.toNat % 2 ^ 23) (16 * (v.extractLsb' 32 16).toNat) = none

end Sys2Proof.Claims

/-- An array command needs the lease: without it a lease fault names the holder, and before the grant its bundle waits, whatever else it would meet;
with it a good command joins the quad's queue of 32, a bad one faults; it waits for a full queue, and for its metadata register (07 R224, R225, R257;
08 R269). -/
def Obligations.ArrayCommandsQueue : Prop :=
  ∀ (s : State) (p : Nat) (i op : Instr) (g : BitVec 4) (f : Option (Nat × Nat)) (w : Bool), ArrayOp s p i (g, op, f, w) →
    PrimaryRuns s p g i →
    ((s.core p).run.lease = 2 → f = none → w = false → unstarted s (quadOf p) < 32 → ∃ (t : State) (x : ACmd), Completes i s t ∧ Queued s t p op x) ∧
    ((s.core p).run.lease = 0 → Completes i s (takeFault s 0x08 (holderId s (quadOf p)))) ∧
    ((s.core p).run.lease = 1 → (w = true → Waits i s p 4) ∧ (w = false → 32 ≤ unstarted s (quadOf p) → Waits i s p 10) ∧
      (w = false → unstarted s (quadOf p) < 32 → Waits i s p 11)) ∧
    ((s.core p).run.lease = 2 → ∀ e, f = some e → Completes i s (takeFault s e.1 e.2)) ∧
    ((s.core p).run.lease = 2 → f = none → w = true → Waits i s p 4) ∧
    ((s.core p).run.lease = 2 → f = none → w = false → 32 ≤ unstarted s (quadOf p) → Waits i s p 10)

/-- A good macro command joins the queue like any other, or waits for room there, and the core's plan of it gives MSEQ its nominal course; it needs the lease as
the others do; a parameter word without a depth or a step, or with a reserved bit, is an illegal operand (07 R224, R225, R258 to R260; 08 R269). -/
def Obligations.MacroCommandsQueue : Prop :=
  (∀ (s : State) (p : Nat) (g d x m c : BitVec 4) (z r : BitVec 1) (i : Instr), i ∈ [Instr.mtile g d x m c z r, .mwalk g d x m c] → PrimaryRuns s p g i →
    ((s.core p).run.lease = 0 → Completes i s (takeFault s 0x08 (holderId s (quadOf p)))) ∧
    ((s.core p).run.lease = 1 → (32 ≤ unstarted s (quadOf p) → Waits i s p 10) ∧ (unstarted s (quadOf p) < 32 → Waits i s p 11)) ∧
    ((s.core p).run.lease = 2 → ((s.core p).m m).toNat % 2 ^ 16 = 0 ∨ ((s.core p).m m).toNat / 2 ^ 16 % 2 ^ 16 = 0 ∨ 2 ^ 32 ≤ ((s.core p).m m).toNat →
      Completes i s (takeFault s 0x02 2)) ∧
    ((s.core p).run.lease = 2 → 32 ≤ unstarted s (quadOf p) →
      (i = .mtile g d x m c z r → GoodMacro s p d x m (r == 1) 0x0A → Waits i s p 10) ∧
      (i = .mwalk g d x m c → GoodMacro s p d x m true 0x0B → GoodTable (s.core p) ((s.core p).m (m + 2)) → Waits i s p 10))) ∧
  (∀ (s : State) (p : Nat) (g d x m c : BitVec 4) (z r : BitVec 1), PrimaryRuns s p g (.mtile g d x m c z r) → (s.core p).run.lease = 2 →
    GoodMacro s p d x m (r == 1) 0x0A → unstarted s (quadOf p) < 32 →
    ∃ (t : State) (y : ACmd), Completes (.mtile g d x m c z r) s t ∧ Queued s t p (.mtile 0 d x m c z r) y ∧ y.oc = c.toNat ∧
      ∃ e : Plan, (t.core p).plans = (s.core p).plans ++ [e] ∧ e.id = y.id ∧ e.kind = 1 ∧ e.start = y.nominal ∧ e.entries = 1 ∧
        e.steps = ((s.core p).m m).toNat / 2 ^ 16 % 2 ^ 16) ∧
  (∀ (s : State) (p : Nat) (g d x m c : BitVec 4), PrimaryRuns s p g (.mwalk g d x m c) → (s.core p).run.lease = 2 →
    GoodMacro s p d x m true 0x0B → GoodTable (s.core p) ((s.core p).m (m + 2)) → unstarted s (quadOf p) < 32 →
    ∃ (t : State) (y : ACmd), Completes (.mwalk g d x m c) s t ∧ Queued s t p (.mwalk 0 d x m c) y ∧ y.oc = c.toNat ∧
      ∃ e : Plan, (t.core p).plans = (s.core p).plans ++ [e] ∧ e.id = y.id ∧ e.kind = 2 ∧ e.start = y.nominal ∧
        e.entries = ((s.core p).m (m + 2)).toNat / 2 ^ 32 % 2 ^ 16)

/-- mlease asks for the lease with its number of commands, mfree gives it back; mdld and mdst start a move of 3,072 bytes between the own
scratchpad and a metadata register that has no pending write (07 R228, R229, R257). -/
def Obligations.LeasesAndMetadataMoves : Prop :=
  (∀ (s : State) (p : Nat) (g : BitVec 4) (n : BitVec 8), PrimaryRuns s p g (.mlease g n) →
    ((s.core p).run.lease = 0 → Completes (.mlease g n) s
      (s.modCore p fun c => { c with run := { c.run with lease := 1, allow := n.toNat } })) ∧
    ((s.core p).run.lease ≠ 0 → Completes (.mlease g n) s (takeFault s 0x02 5))) ∧
  (∀ (s : State) (p : Nat) (g : BitVec 4), PrimaryRuns s p g (.mfree g) → ∃ t : State, Completes (.mfree g) s t ∧
    ((s.core p).run.lease = 2 → (t.core p).run.lease = 3) ∧ ((s.core p).run.lease ≠ 2 → (t.core p).run.lease = 0) ∧ Kept s t p) ∧
  (∀ w e : Code, w.extractLsb' 25 7 = 2 → (w.extractLsb' 0 21 = 0 → decodeSlot .m w e = .ok (.mfree (w.extractLsb' 21 4))) ∧
    (w.extractLsb' 0 21 ≠ 0 → ∃ n, decodeSlot .m w e = .error (.operand n))) ∧
  (∀ (s : State) (p : Nat) (g a c : BitVec 4) (k : BitVec 2), ((s.core p).m a).toNat % 64 = 0 →
    (s.core p).blockFault ((s.core p).m a).toNat 3072 = none → mdPending s p k.toNat = false →
    (PrimaryRuns s p g (.mdld g k a c) → ∃ (t : State) (x : MdMove), Completes (.mdld g k a c) s t ∧ (t.core p).moves = (s.core p).moves ++ [x] ∧
      x.load = true ∧ x.reg = k.toNat ∧ x.addr = ((s.core p).m a).toNat ∧ x.oc = c.toNat ∧ x.issued = (s.core p).run.t ∧ x.done = 0 ∧
      Kept s t p) ∧
    (PrimaryRuns s p g (.mdst g k a c) → ∃ (t : State) (x : MdMove), Completes (.mdst g k a c) s t ∧ (t.core p).moves = (s.core p).moves ++ [x] ∧
      x.load = false ∧ x.data = (s.core p).files.md[k.toNat] ∧ x.addr = ((s.core p).m a).toNat ∧ x.oc = c.toNat ∧ x.done = 0 ∧
      Kept s t p)) ∧
  (∀ (s : State) (p : Nat) (g a c : BitVec 4) (k : BitVec 2), ((s.core p).m a).toNat % 64 ≠ 0 →
    (PrimaryRuns s p g (.mdld g k a c) → Completes (.mdld g k a c) s (takeFault s 0x02 7)) ∧
    (PrimaryRuns s p g (.mdst g k a c) → Completes (.mdst g k a c) s (takeFault s 0x02 7)))

/-! ## Channels, barriers, collectives, combining -/

namespace Sys2Proof.Claims

/-- A chw or chw.rel: guard, endpoint register, word register, whether it releases. -/
inductive SendForm : Instr → (BitVec 4 × BitVec 5 × BitVec 5 × Bool) → Prop where
  | chw (g : BitVec 4) (e r : BitVec 5) : SendForm (.chw g e r) (g, e, r, false)
  | chwRel (g : BitVec 4) (e r : BitVec 5) : SendForm (.chwRel g e r) (g, e, r, true)

/-- A chr or chr.acq: guard, destination, endpoint register. -/
inductive ReceiveForm : Instr → (BitVec 4 × BitVec 5 × BitVec 5) → Prop where
  | chr (g : BitVec 4) (d e : BitVec 5) : ReceiveForm (.chr g d e) (g, d, e)
  | chrAcq (g : BitVec 4) (d e : BitVec 5) : ReceiveForm (.chrAcq g d e) (g, d, e)

/-- LG and DONE of core p for barrier b at a scope. -/
def barrierOf (s : State) (p : Nat) (r : BitVec 3) (b : BitVec 4) : Nat × Nat := (s.core p).bars.toList.getD (barIndex r.toNat b.toNat) (0, 0)

/-- A cmbx that sends: guard, packet register, group register, whether it is of MERGE64. -/
inductive PacketForm : Instr → (BitVec 4 × BitVec 5 × BitVec 5 × Bool) → Prop where
  | cmbxMax (g : BitVec 4) (p h : BitVec 5) : PacketForm (.cmbxMax g p h) (g, p, h, false)
  | cmbxMerge (g : BitVec 4) (p h : BitVec 5) : PacketForm (.cmbxMerge g p h) (g, p, h, true)

/-- A cmbx that arms: guard, address register, group register, whether for MERGE64. -/
inductive ArmForm : Instr → (BitVec 4 × BitVec 5 × BitVec 5 × Bool) → Prop where
  | cmbxArmmax (g : BitVec 4) (p h : BitVec 5) : ArmForm (.cmbxArmmax g p h) (g, p, h, false)
  | cmbxArmmerge (g : BitVec 4) (p h : BitVec 5) : ArmForm (.cmbxArmmerge g p h) (g, p, h, true)

end Sys2Proof.Claims

/-- chw puts its word into the send buffer of its channel, or waits for room; chw.rel waits first for every earlier access and the invalidations of
its writes. chr takes the head of the receive buffer that arrived before this cycle, with latency 2, or waits for one. An endpoint that the sailing's
Timetable does not give the core is an illegal operand; a helm's endpoints are its host channels, whose words follow its earlier accesses (01 R41, R48;
10 R312 to R314; 13 R368). That chw.rel and a helm's chw wait for the invalidations of the core's writes is the model's reading (DEDUCED, log 18). -/
def Obligations.ChannelsSendAndReceive : Prop :=
  (∀ (s t : State) (p n k : Nat) (i : Instr) (g : BitVec 4) (e r : BitVec 5) (rel : Bool) (x : Word) (c : Chan),
    SendForm i (g, e, r, rel) → PrimaryRuns s p g i → (rel = true → EarlierDone s p ∧ ¬ Owes s p 0xFFFF) → Reads .x p r s x t →
    ((s.core p).c (e.truncate 4)).toNat < 64 → s.endpoint p true false ((s.core p).c (e.truncate 4)).toNat = some (n, k, c) →
    (c.send.length < 8 → Completes i s
      (t.setChan n k { c with send := c.send ++ [((s.core p).run.t, x.zeroExtend 512)] })) ∧
    (8 ≤ c.send.length → Waits i s p 13)) ∧
  (∀ (s t : State) (p n k : Nat) (i : Instr) (g : BitVec 4) (e r : BitVec 5) (x : Word) (c : Chan), SendForm i (g, e, r, true) →
    PrimaryRuns s p g i → Reads .x p r s x t → ((s.core p).c (e.truncate 4)).toNat < 64 →
    s.endpoint p true false ((s.core p).c (e.truncate 4)).toNat = some (n, k, c) → ¬ EarlierDone s p ∨ Owes s p 0xFFFF → Waits i s p 4) ∧
  (∀ (s : State) (p n k a : Nat) (i : Instr) (g : BitVec 4) (d e : BitVec 5) (x : BitVec 512) (c : Chan) (rest : List (Nat × BitVec 512)),
    ReceiveForm i (g, d, e) → PrimaryRuns s p g i → ((s.core p).c (e.truncate 4)).toNat < 64 →
    s.endpoint p false false ((s.core p).c (e.truncate 4)).toNat = some (n, k, c) → c.recv = (a, x) :: rest →
    (a < (s.core p).run.t → Takes s p .x d → Completes i s
      (putX (s.setChan n k { c with recv := rest, back := c.back ++ [(s.core p).run.t + c.route] }) p d 2 (x.truncate 64))) ∧
    ((s.core p).run.t ≤ a → Waits i s p 13)) ∧
  (∀ (s : State) (p : Nat) (i : Instr) (g : BitVec 4) (d e : BitVec 5), ReceiveForm i (g, d, e) → PrimaryRuns s p g i →
    (s.endpoint p false false ((s.core p).c (e.truncate 4)).toNat = none → Completes i s (takeFault s 0x02 1))) ∧
  (∀ (s : State) (p : Nat) (g : BitVec 4) (d e : BitVec 5) (v : Nat) (x : Word) (rest : List Word), HelmRuns s p g (.chr g d e) →
    v = ((s.core p).c (e.truncate 4)).toNat → v < 16 → (s.helm p).inbound.toList.getD v [] = x :: rest → Takes s p .x d →
    Completes (.chr g d e) s (putX (s.modHelm p fun r => { r with inbound := r.inbound.setIfInBounds v rest }) p d 2 x)) ∧
  (∀ (s t : State) (p v : Nat) (i : Instr) (g : BitVec 4) (e r : BitVec 5) (rel : Bool) (x : Word), SendForm i (g, e, r, rel) → HelmRuns s p g i →
    v = ((s.core p).c (e.truncate 4)).toNat → 16 ≤ v → v < 32 → Reads .x p r s x t →
    (EarlierDone s p → ¬ Owes s p 0xFFFF → ((t.helm p).outbound.toList.getD (v - 16) []).length < 64 →
      Completes i s (t.modHelm p fun h => { h with
        outbound := h.outbound.setIfInBounds (v - 16) ((t.helm p).outbound.toList.getD (v - 16) [] ++ [x]) })) ∧
    (¬ EarlierDone s p ∨ Owes s p 0xFFFF → Waits i s p 4))

/-- bar.arr sends its arrival once the barrier's last round is done, every earlier access has performed and the invalidations of its writes have arrived; bar.wait issues once the round is
done; bar.sync sends its arrival while it waits, then waits (10 R318, R319). That arrivals wait for invalidations (log 18), that bar.sync's arrival leaves while its bundle still
waits (log 20), and the operand 4 of a barrier in task mode (log 15) are the model's readings (DEDUCED). -/
def Obligations.BarriersArriveAndWait : Prop :=
  ∀ (s : State) (p n : Nat) (g b : BitVec 4) (r : BitVec 3) (lg done : Nat), (s.core p).run.sailing = some n →
    barrierOf s p r b = (lg, done) →
    (PrimaryRuns s p g (.barArr g b r) → (s.sailing n).task = false →
      (done = lg → EarlierDone s p → ¬ Owes s p 0xFFFF → ∃ (t : State) (m : BarMsg), Completes (.barArr g b r) s t ∧
        barrierOf t p r b = ((lg + 1) % 65536, done) ∧ (t.sailing n).arrivals = (s.sailing n).arrivals ++ [m] ∧ m.scope = r.toNat ∧
        m.b = b.toNat ∧ m.gen = lg ∧ m.core = p ∧ m.inst = instanceOf r.toNat p ∧
        m.due = (s.core p).run.t + (match r.toNat with | 2 => 3 | 3 => 8 | 4 => 24 | _ => s.pod.latr + 8) ∧ Kept s t p) ∧
      (¬ EarlierDone s p ∨ Owes s p 0xFFFF → Waits (.barArr g b r) s p 4) ∧
      (done ≠ lg → EarlierDone s p → ¬ Owes s p 0xFFFF → Waits (.barArr g b r) s p 14)) ∧
    (PrimaryRuns s p g (.barWait g b r) → (s.sailing n).task = false →
      (done = lg → Completes (.barWait g b r) s s) ∧ (done ≠ lg → Waits (.barWait g b r) s p 14)) ∧
    (PrimaryRuns s p g (.barSync g b r) → (s.sailing n).task = false →
      ((s.core p).run.arrived = false → done = lg → EarlierDone s p → ¬ Owes s p 0xFFFF →
        exec (.barSync g b r) s = .next (stallCore s p 14 s.cur.addr (.arrive r.toNat b.toNat))) ∧
      ((s.core p).run.arrived = true → done ≠ lg → Waits (.barSync g b r) s p 14) ∧
      ((s.core p).run.arrived = true → done = lg → Completes (.barSync g b r) s s)) ∧
    ((s.sailing n).task = true → ∀ i ∈ [Instr.barArr g b r, .barWait g b r, .barSync g b r], PrimaryRuns s p g i →
      Completes i s (takeFault s 0x02 4))

/-- A coll whose operands pass their checks joins the collective of its scope's instance with its number in the core's issue order, as an engine
command (10 R322, R324). -/
def Sys2Proof.Claims.CollectivesJoin : Prop :=
  ∀ (s : State) (p n k oc comp count src dst w : Nat) (rs rd : Nat × Nat) (g : BitVec 4) (d r m : BitVec 5) (sc : BitVec 3) (o : BitVec 2),
    PrimaryRuns s p g (.coll g d r m sc o) → (s.core p).run.sailing = some n →
    dst = ((s.core p).c (d.truncate 4)).toNat → src = ((s.core p).c (r.truncate 4)).toNat → dst < 2 ^ 23 → src < 2 ^ 23 →
    ((s.core p).c (m.truncate 4)).toNat = oc * 2 ^ 20 + comp * 2 ^ 16 + count → oc < 16 → comp < 5 → 1 ≤ count → count < 65536 →
    collFault (s.core p) o.toNat comp src dst count ((s.sailing n).participants sc.toNat (instanceOf sc.toNat p)).length = .ok (w, rs, rd) →
    k = (s.core p).colls.toList.getD (sc.toNat - 2) 0 →
    ∃ (t : State) (x : CollPart), Completes (.coll g d r m sc o) s t ∧
      (∃ y ∈ (t.sailing n).colls, y.scope = sc.toNat ∧ y.inst = instanceOf sc.toNat p ∧ y.k = k ∧ x ∈ y.parts) ∧ x.core = p ∧
      x.op = o.toNat ∧ x.n = count ∧ x.comp = comp ∧ x.src = src ∧ x.dst = dst ∧ x.cap = (s.core p).capture ∧
      (t.core p).colls = (s.core p).colls.setIfInBounds (sc.toNat - 2) (k + 1) ∧
      (t.core p).flight = (s.core p).flight ++ [⟨x.id, .collective, oc, named p [rs], named p [rd], none, none, named p [rs], none⟩] ∧ Kept s t p

/-- A cmbx that sends adds one packet of count 1 to the traffic of its sailing; one that arms gives its group the mode, the number of
contributions and the result block; both are complete at issue (10 R325, R326). -/
def Sys2Proof.Claims.CombiningSendsAndArms : Prop :=
  (∀ (s : State) (p n : Nat) (i : Instr) (g : BitVec 4) (a h : BitVec 5) (merge : Bool) (v w : Word), PacketForm i (g, a, h, merge) →
    PrimaryRuns s p g i → (s.core p).run.sailing = some n → v = (s.core p).c (a.truncate 4) → w = (s.core p).c (h.truncate 4) →
    (w.toNat < 2 ^ 40 → w.toNat % 2 ^ 16 < 4 * (s.core p).ctl.qcount → Completes i s (s.modSailing n fun y =>
      { y with packets := y.packets ++ [{ owner := w.toNat % 2 ^ 16, group := w.toNat / 2 ^ 16 % 16, round := w.toNat / 2 ^ 20 % 16,
                                          merge := merge, n := 1, items := [(v.toNat / 2 ^ 32, v.toNat % 2 ^ 32)],
                                          rank := 1, lid := (s.core p).ctl.lid, src := .core p, way := { at_ := s.wall } }] })) ∧
    (4 * (s.core p).ctl.qcount ≤ w.toNat % 2 ^ 16 → Completes i s (takeFault s 0x02 2))) ∧
  (∀ (s : State) (p k e : Nat) (i : Instr) (g : BitVec 4) (a h : BitVec 5) (merge : Bool) (x : Group) (w : Word),
    ArmForm i (g, a, h, merge) → PrimaryRuns s p g i → w = (s.core p).c (h.truncate 4) → w.toNat < 2 ^ 40 →
    k = w.toNat / 2 ^ 16 % 16 → e = w.toNat / 2 ^ 24 % 2 ^ 16 → x = (s.core p).groups.toList.getD k {} →
    w.toNat % 2 ^ 16 = (s.core p).ctl.lid → (s.core p).ctl.lid < 4 * (s.core p).ctl.qcount →
    (e ≠ 0 → x.armed = none → w.toNat / 2 ^ 20 % 16 = x.nr → ((s.core p).c (a.truncate 4)).toNat % 8 = 0 →
      (s.core p).blockFault ((s.core p).c (a.truncate 4)).toNat (if merge then 520 else 16) = none → (∀ q ∈ x.held, q.round ≠ x.nr) →
      Completes i s (s.modCore p fun c =>
        { c with groups := (c.groups.setIfInBounds k { x with armed := some (merge, e, ((s.core p).c (a.truncate 4)).toNat) }) })) ∧
    (e = 0 ∨ x.armed.isSome = true ∨ w.toNat / 2 ^ 20 % 16 ≠ x.nr → Completes i s (takeFault s 0x02 2)))

/-- A collective is joined at issue, a packet is sent and a round is armed, with their checks (10 R322, R324 to R326). -/
def Obligations.CollectivesAndCombining : Prop := Claims.CollectivesJoin ∧ Claims.CombiningSendsAndArms

/-! ## The sequence engine and the Pilot -/

namespace Sys2Proof.Claims

/-- A sequence operation: guard, opcode, variant, block register, class (11 R339). -/
inductive SequenceForm : Instr → (BitVec 4 × Nat × Nat × BitVec 5 × BitVec 4) → Prop where
  | sqOpen (g : BitVec 4) (b : BitVec 5) (c : BitVec 4) : SequenceForm (.sqOpen g b c) (g, 0x15, 0, b, c)
  | sqFeed (g : BitVec 4) (b : BitVec 5) (c : BitVec 4) : SequenceForm (.sqFeed g b c) (g, 0x16, 0, b, c)
  | sqFeedAcc (g : BitVec 4) (b : BitVec 5) (c : BitVec 4) : SequenceForm (.sqFeedAcc g b c) (g, 0x16, 1, b, c)
  | sqMask (g : BitVec 4) (b : BitVec 5) (c : BitVec 4) : SequenceForm (.sqMask g b c) (g, 0x17, 0, b, c)
  | sqFork (g : BitVec 4) (b : BitVec 5) (c : BitVec 4) : SequenceForm (.sqFork g b c) (g, 0x18, 0, b, c)
  | sqRoll (g : BitVec 4) (b : BitVec 5) (c : BitVec 4) : SequenceForm (.sqRoll g b c) (g, 0x19, 0, b, c)
  | sqSampG (g : BitVec 4) (b : BitVec 5) (c : BitVec 4) : SequenceForm (.sqSampG g b c) (g, 0x1A, 0, b, c)
  | sqSampP (g : BitVec 4) (b : BitVec 5) (c : BitVec 4) : SequenceForm (.sqSampP g b c) (g, 0x1A, 1, b, c)
  | sqSampFin (g : BitVec 4) (b : BitVec 5) (c : BitVec 4) : SequenceForm (.sqSampFin g b c) (g, 0x1A, 2, b, c)
  | sqCommit (g : BitVec 4) (b : BitVec 5) (c : BitVec 4) : SequenceForm (.sqCommit g b c) (g, 0x1B, 0, b, c)
  | sqFree (g : BitVec 4) (b : BitVec 5) (c : BitVec 4) : SequenceForm (.sqFree g b c) (g, 0x1C, 0, b, c)
  | sqFreeRec (g : BitVec 4) (b : BitVec 5) (c : BitVec 4) : SequenceForm (.sqFreeRec g b c) (g, 0x1C, 1, b, c)

/-- A Pilot operation: guard, variant, m-register, class (12 R353). -/
inductive PilotForm : Instr → (BitVec 4 × Nat × BitVec 4 × BitVec 4) → Prop where
  | route (g m c : BitVec 4) : PilotForm (.route g m c) (g, 0, m, c)
  | routeTx (g m c : BitVec 4) : PilotForm (.routeTx g m c) (g, 1, m, c)

/-- A command block that is good at issue: aligned, in the scratchpad and the carve-out, clear of every mapped entry. -/
def GoodBlock (c : Core) (a : Nat) : Prop :=
  a % 64 = 0 ∧ a < 0x800000 ∧ c.blockFault a 64 = none ∧
    ∀ e ∈ c.pmap, e.v = true → a + 64 ≤ 64 * e.base ∨ 64 * (e.base + e.len) ≤ a

end Sys2Proof.Claims

/-- A sequence operation queues its command block at the engine of its die, unless the core has 8 commands outstanding; a bad block address is an
illegal operand (11 R339, R342). -/
def Sys2Proof.Claims.SequenceCommandsQueue : Prop :=
  (∀ (s : State) (p a op var : Nat) (i : Instr) (g : BitVec 4) (b : BitVec 5) (oc : BitVec 4), SequenceForm i (g, op, var, b, oc) →
    PrimaryRuns s p g i → a = ((s.core p).c (b.truncate 4)).toNat →
    (GoodBlock (s.core p) a → sqOutstanding s p < 8 → ∃ (t : State) (x : SqCmd), Completes i s t ∧
      (t.die (dieOf p)).sq = (s.die (dieOf p)).sq ++ [x] ∧ x.core = p ∧ x.lid = (s.core p).ctl.lid ∧ x.op = op ∧ x.variant = var ∧ x.addr = a ∧
      x.oc = oc.toNat ∧ x.cap = (s.core p).capture ∧ (t.die (dieOf p)).records = (s.die (dieOf p)).records ∧
      (∃ rd wr, (t.core p).flight = (s.core p).flight ++ [⟨x.id, .sequence, oc.toNat, rd, wr, none, none, rd, none⟩]) ∧ Kept s t p) ∧
    (GoodBlock (s.core p) a → 8 ≤ sqOutstanding s p → Waits i s p 18) ∧
    (a % 64 ≠ 0 ∨ 0x800000 ≤ a → Completes i s (takeFault s 0x02 7))) ∧
  (∀ (s : State) (p a op var : Nat) (j : BitVec 3) (i : Instr) (g : BitVec 4) (b : BitVec 5) (oc : BitVec 4),
    SequenceForm i (g, op, var, b, oc) → SkiffRuns s p j g i → a = ((s.skiff p j).reg b).toNat → GoodBlock (s.core p) a →
    sqOutstanding s p < 8 → ∃ (t : State) (x : SqCmd), Completes i s t ∧ (t.die (dieOf p)).sq = (s.die (dieOf p)).sq ++ [x] ∧ x.op = op ∧ x.variant = var ∧
      x.addr = a ∧ (t.skiff p j).wait = .until ((s.core p).run.t + 1) ∧ Kept s t p ∧
        ∀ k : BitVec 3, k ≠ j → t.skiff p k = s.skiff p k)

/-- route and route.tx queue their command block at the Pilot of their die, unless the core has 4 commands outstanding (12 R353, R355). -/
def Sys2Proof.Claims.PilotCommandsQueue : Prop :=
  ∀ (s : State) (p a var : Nat) (i : Instr) (g m oc : BitVec 4), PilotForm i (g, var, m, oc) → PrimaryRuns s p g i →
    a = ((s.core p).m m).toNat →
    (GoodBlock (s.core p) a → pilotOutstanding s p < 4 → ∃ (t : State) (x : SqCmd), Completes i s t ∧
      (t.die (dieOf p)).pilot = (s.die (dieOf p)).pilot ++ [x] ∧ x.core = p ∧ x.variant = var ∧ x.addr = a ∧ x.oc = oc.toNat ∧
      (∃ rd wr, (t.core p).flight = (s.core p).flight ++ [⟨x.id, .pilot, oc.toNat, rd, wr, none, none, rd, none⟩]) ∧ Kept s t p) ∧
    (GoodBlock (s.core p) a → 4 ≤ pilotOutstanding s p → Waits i s p 19) ∧
    (a % 64 ≠ 0 ∨ 0x800000 ≤ a → Completes i s (takeFault s 0x02 7))

/-- The commands that name a block of 64 bytes queue at the engines of their die (11 R339, R342; 12 R353, R355). -/
def Obligations.CommandBlocksQueue : Prop := Claims.SequenceCommandsQueue ∧ Claims.PilotCommandsQueue

/-! ## Skiffs -/

/-- spawn.s installs a new skiff in the lowest free context, every register zero but s1, and says so in its guard; with no free context or a
waiting image its guard becomes 0 (05 R161). mig, yield, snooze, snooze.w and sexit do to their context what 05 R179 to R182 say. -/
def Obligations.SkiffsBeginMoveAndEnd : Prop :=
  (∀ (s : State) (p : Nat) (g h : BitVec 4) (e a : BitVec 5) (m : BitVec 3) (entry : Word), PrimaryRuns s p g (.spawnS g h e a m) →
    entry = (s.core p).c (e.truncate 4) →
    (entry.toNat < 2 ^ 48 → entry.toNat % 4 = 0 → (s.core p).barrel.inbox = [] → ∀ j : BitVec 3, (s.skiff p j).occupied = false →
      (∀ k : BitVec 3, k < j → (s.skiff p k).occupied = true) → ∃ t : State, Completes (.spawnS g h e a m) s (toG t p h true) ∧
        (t.skiff p j).occupied = true ∧ (t.skiff p j).pc = entry.toNat ∧ (t.skiff p j).home = (s.core p).ctl.lid ∧
        (t.skiff p j).cmask = (if m = 0 then 7 else m) ∧ (t.skiff p j).migs = 0 ∧
        (∀ r : BitVec 5, (t.skiff p j).reg r = if r = 1 then (s.core p).c (a.truncate 4) else 0) ∧
        (∀ k : BitVec 3, k ≠ j → t.skiff p k = s.skiff p k) ∧ Kept s t p) ∧
    (entry.toNat < 2 ^ 48 → entry.toNat % 4 = 0 → (s.core p).barrel.inbox ≠ [] ∨ (∀ j : BitVec 3, (s.skiff p j).occupied = true) →
      Completes (.spawnS g h e a m) s (toG s p h false)) ∧
    (2 ^ 48 ≤ entry.toNat ∨ entry.toNat % 4 ≠ 0 → Completes (.spawnS g h e a m) s (takeFault s 0x02 1))) ∧
  (∀ (s : State) (p : Nat) (j : BitVec 3) (g : BitVec 4) (k : BitVec 5), SkiffRuns s p j g (.mig g k) →
    ((s.skiff p j).reg k).toNat < 4 * (s.core p).ctl.qcount → Completes (.mig g k) s
      (if ((s.skiff p j).reg k).toNat = (s.core p).ctl.lid then skiffResult s p j 1 [] []
       else s.modSkiff p j fun x => { x with wait := .migrate ((s.skiff p j).reg k).toNat false })) ∧
  (∀ (s : State) (p : Nat) (j : BitVec 3) (g : BitVec 4), SkiffRuns s p j g (.yield g) → Completes (.yield g) s
    ((skiffResult s p j 8 [] []).modSkiff p j fun x => { x with owed := false })) ∧
  (∀ (s : State) (p : Nat) (j : BitVec 3) (g : BitVec 4) (r : BitVec 5), SkiffRuns s p j g (.snooze g r) → Completes (.snooze g r) s
    (s.modSkiff p j fun x => { x with wait := .snooze ((s.core p).run.t + max (((s.skiff p j).reg r).toNat % 2 ^ 32) 1) })) ∧
  (∀ (s : State) (p y : Nat) (j : BitVec 3) (g : BitVec 4) (r : BitVec 5), SkiffRuns s p j g (.snoozeW g r) →
    ((s.skiff p j).reg r).toNat % 8 = 0 → place s ((s.skiff p j).reg r).toNat 8 = .own y → Completes (.snoozeW g r) s
      (s.modSkiff p j fun x => { x with
        wait := (if ∃ z ∈ (s.core p).run.wrote, z.1 < (s.core p).visible y + 8 ∧ (s.core p).visible y < z.2 then SkWait.until (s.core p).run.t
                 else SkWait.snoozeWord ((s.core p).visible y) ((s.core p).run.t + 65536)) })) ∧
  (∀ (s : State) (p : Nat) (j : BitVec 3) (g : BitVec 4), SkiffRuns s p j g (.sexit g) → (s.core p).barrel.inbox = [] →
    ∃ t : State, Completes (.sexit g) s t ∧ (t.skiff p j).occupied = false ∧ (∀ k : BitVec 3, k ≠ j → t.skiff p k = s.skiff p k) ∧
      (∀ q ∈ (t.core p).sfu, q.ctx ≠ some j) ∧ (t.core p).sfu.length = (s.core p).sfu.length ∧ Kept s t p)

/-! ## Steps, bundles, faults -/

namespace Sys2Proof.Claims

/-- The cursor on the word of a slot. -/
def atSlot (s : State) (k : SlotClass) (w : Code) : State := { s with cur := { s.cur with slot := slotNo k, word := w } }

/-- Of two waits the one with the lower cause, the earlier of equals (14 R397). -/
def leastWait (st : Option (Nat × StallAct)) (cause : Nat) (act : StallAct) : Nat × StallAct :=
  match st with
  | some (c, a) => if c ≤ cause then (c, a) else (cause, act)
  | none => (cause, act)

/-- Slot words run in order from s to t, over the state so far: each is for its agent, decodes, and takes effect, writing nothing that an earlier slot of its bundle has
written, or waits, with what it reserves and pops in the queues counted (03 R97; 04 R127; lend: the active level that the bundle ends). st, st': the wait of the lowest cause so far,
before and after. -/
inductive SlotsGo (lend : Option Nat) :
    List (SlotClass × Code × Code) → State → Option (Nat × StallAct) → State → Option (Nat × StallAct) → Prop where
  | nil (s : State) (st : Option (Nat × StallAct)) : SlotsGo lend [] s st s st
  | runs (k : SlotClass) (w e : Code) (rest : List (SlotClass × Code × Code)) (i : Instr) (s t u : State) (st st' : Option (Nat × StallAct))
      (agent : agentFault (atSlot s k w) k (w.extractLsb' 25 7).toNat = none) (decoded : decodeSlot k w e = .ok i)
      (effect : slotRes i (atSlot s k w) = .ok t) (single : doubleWrite t.own (slotNo k) lend = false) (more : SlotsGo lend rest t st u st') :
      SlotsGo lend ((k, w, e) :: rest) s st u st'
  | waits (k : SlotClass) (w e : Code) (rest : List (SlotClass × Code × Code)) (i : Instr) (s u : State) (st st' : Option (Nat × StallAct)) (cause : Nat) (act : StallAct)
      (agent : agentFault (atSlot s k w) k (w.extractLsb' 25 7).toNat = none) (decoded : decodeSlot k w e = .ok i)
      (held : slotRes i (atSlot s k w) = .stall cause act)
      (more : SlotsGo lend rest (withQueueUse (atSlot s k w) k i (w.extractLsb' 21 4)) (some (leastWait st cause act)) u st') :
      SlotsGo lend ((k, w, e) :: rest) s st u st'

/-- Slot words run in order from s to t, and none of them waits. -/
def SlotsRun (lend : Option Nat) (ws : List (SlotClass × Code × Code)) (s t : State) : Prop := SlotsGo lend ws s none t none

/-- Bundle b of a half of core p's segment is the next in this cycle, by the event i, which depends on whether the bundle has stalled: the core is not marked, the bundle
is not skipped and its header is good. -/
def IsNext (s : State) (p : Nat) (i : Instr) (side : Bool) (b : Bundle) : Prop :=
  (s.core p).due = true ∧ i = (if (s.core p).run.stall.isNone then .bundleIssue p else .stallEnd p) ∧ (s.core p).nextBundle = .bundle side b ∧ (s.core p).skips b = false ∧
    (s.core p).run.preempt = false ∧ headerCause b = none

/-- Core p is to issue its next bundle, and is not overdue, or stands at a true landing (03 R109). -/
def ToIssue (s : State) (p : Nat) (i : Instr) (side : Bool) (b : Bundle) : Prop :=
  IsNext s p i side b ∧ ((s.core p).overdue p = false ∨ b.land = true ∧ (s.core p).trueLanding = true)

/-- The state in which the first slot of the bundle runs: the bundle's open berths are set (05 R164). -/
def berthed (s : State) (p : Nat) (b : Bundle) : State := s.modCore p (·.setBerths (openBerths b.hdr))

/-- A fault of a slot of the bundle that core p issues: code and DETAIL, with the bundle's address, the slot and its word. -/
def slotFaults (s : State) (p : Nat) (b : Bundle) (k : SlotClass) (w : Code) (code detail : Nat) : State :=
  takeFault { berthed s p b with cur := { agent := .core p, addr := b.addr, size := 1, slot := slotNo k, word := w } } code detail

/-- A fault of the bundle itself that core p is to issue. -/
def bundleFaults (s : State) (p : Nat) (b : Bundle) (code detail : Nat) : State :=
  takeFault { berthed s p b with cur := { agent := .core p, addr := b.addr, size := 1, slot := 6, word := 0 } } code detail

/-- The fields of a fault record (03 R121). -/
def RecordSays (r : BitVec 256) (code slot core : Nat) (word : Code) (addr cycle detail : Nat) : Prop :=
  (r.extractLsb' 0 8).toNat = code % 256 ∧ (r.extractLsb' 8 3).toNat = slot % 8 ∧ (r.extractLsb' 16 16).toNat = core % 2 ^ 16 ∧
    r.extractLsb' 32 32 = word ∧ (r.extractLsb' 64 48).toNat = addr % 2 ^ 48 ∧ r.extractLsb' 112 16 = 0 ∧
    (r.extractLsb' 128 64).toNat = cycle % 2 ^ 64 ∧ (r.extractLsb' 192 64).toNat = detail % 2 ^ 64

/-- The bytes of the next slot of a helm core's fault ring (13 R366). -/
def ringSlot (s : State) (h a : Nat) : Prop :=
  let r := s.helm h
  let n := (r.fring.extractLsb' 32 16).toNat
  let at_ := spadBase h + (r.fring.extractLsb' 0 21).toNat + 32 * (r.fhead.toNat % n)
  n ≠ 0 ∧ at_ ≤ a ∧ a < at_ + 32

end Sys2Proof.Claims

/-- A step of a machine with power takes the next event of the cycle, or begins the next cycle where none is left; an instruction by itself has the
effect of its operation in a bundle. How events follow one another in a cycle (log 5), and that a machine whose one package has removed its power has no further step
(DESIGN CHOICE, log 55), are the model's. -/
def Obligations.StepRunsTheNextEvent : Prop :=
  (∀ (s : State) (i : Instr) (rest : List Instr), s.dead = false → s.moves = i :: rest → step s = exec i { s with moves := rest }) ∧
  (∀ s : State, s.dead = false → s.moves = [] → step s = .next (newCycle s)) ∧
  (∀ s : State, s.dead = true → step s = .fault .powerOff) ∧
  (∀ (i : Instr) (s : State), i.slotClass.isSome = true ∨ (∃ g d r q f, i = .cp g d r q f) → exec i s = finish s (queueLimit (slotRes i s)))

/-- A bundle that issues runs the instructions that its words decode to, in slot order over the state so far, and its core goes on to the bundle
behind it, to a branch's target, or halts; its toll is taken from the purse. The first slot that faults decides, and nothing of the bundle takes
effect, though slots before it wait; a word that does not decode is illegal; slots that wait make the whole bundle wait, with the lowest cause, where the bundle would also leave
a queue over-full or costs more than its purse too, and a bundle that has stalled tries again; one that waits while it is overdue faults, unless the toll alone holds it
(03 R86, R97, R99, R109, R120; 04 R127; 10 R310, R311; 14 R397). -/
def Obligations.BundlesRunTheirSlots : Prop :=
  (∀ (s t : State) (p : Nat) (ev : Instr) (side : Bool) (b : Bundle), ToIssue s p ev side b → isHelm p = true ∨ b.cost ≤ (s.core p).ctl.purse →
    SlotsRun (activeLend (s.core p) b) b.slots ((berthed s p b).atBundle p b.addr b.size) t →
    t.own.queues.lq.length ≤ 32 → t.own.queues.sq.length ≤ 32 → ∃ u : State, exec ev s = .next u ∧ u.mem = t.mem ∧
      (u.core p).files = (t.core p).files ∧ (u.core p).pipe.pend = (t.core p).pipe.pend ∧ (u.core p).pipe.eoc = (t.core p).pipe.eoc ∧
      (u.core p).ctl.purse = (if isHelm p then (t.core p).ctl.purse else (t.core p).ctl.purse - b.cost) ∧
      (u.core p).fetch.pc = (match (t.core p).fetch.taken with | some a => a | none => b.addr + 4 * b.size) ∧
      (u.core p).fetch.taken = none ∧ (u.core p).run.moved = true ∧ (u.core p).run.stall = none ∧
      (u.core p).run.halted = ((t.core p).run.halted || (t.core p).run.halting) ∧ (∀ q : Nat, q ≠ p → u.core q = t.core q)) ∧
  (∀ (s t : State) (p code detail : Nat) (ev : Instr) (side : Bool) (b : Bundle) (k : SlotClass) (w e : Code) (i : Instr)
    (before after : List (SlotClass × Code × Code)), ToIssue s p ev side b → b.slots = before ++ (k, w, e) :: after →
    (∃ st, SlotsGo (activeLend (s.core p) b) before ((berthed s p b).atBundle p b.addr b.size) none t st) →
    agentFault (atSlot t k w) k (w.extractLsb' 25 7).toNat = none →
    (decodeSlot k w e = .ok i → slotRes i (atSlot t k w) = .fault code detail →
      exec ev s = .next (slotFaults s p b k w code detail)) ∧
    (decodeSlot k w e = .error .illegalOpcode → exec ev s = .next (slotFaults s p b k w 0x01 4)) ∧
    (∀ n : Nat, k ≠ .m → decodeSlot k w e = .error (.operand n) → exec ev s = .next (slotFaults s p b k w 0x02 n))) ∧
  (∀ (s t : State) (p cause : Nat) (ev : Instr) (act : StallAct) (side : Bool) (b : Bundle), IsNext s p ev side b →
    SlotsGo (activeLend (s.core p) b) b.slots ((berthed s p b).atBundle p b.addr b.size) none t (some (cause, act)) →
    ((s.core p).overdue p = false → exec ev s = .next
      (if 2 < cause ∧ t.own.queueFull = true then stallCore (berthed s p b) p 2 b.addr .none
       else if 16 < cause ∧ isHelm p = false ∧ (s.core p).ctl.purse < b.cost then stallCore (berthed s p b) p 16 b.addr .none
       else stallCore (berthed s p b) p cause b.addr act)) ∧
    ((s.core p).overdue p = true → b.land = true → (s.core p).trueLanding = true → exec ev s = .next (bundleFaults s p b 0x05 (s.core p).run.lcnt))) ∧
  (∀ (s t : State) (p : Nat) (ev : Instr) (side : Bool) (b : Bundle), ToIssue s p ev side b → isHelm p = false → (s.core p).ctl.purse < b.cost →
    SlotsRun (activeLend (s.core p) b) b.slots ((berthed s p b).atBundle p b.addr b.size) t → t.own.queues.lq.length ≤ 32 → t.own.queues.sq.length ≤ 32 →
    exec ev s = .next (stallCore (berthed s p b) p 16 b.addr .none)) ∧
  (∀ (s t : State) (p : Nat) (ev : Instr) (side : Bool) (b : Bundle), IsNext s p ev side b →
    SlotsRun (activeLend (s.core p) b) b.slots ((berthed s p b).atBundle p b.addr b.size) t → 32 < t.own.queues.lq.length ∨ 32 < t.own.queues.sq.length →
    ((s.core p).overdue p = false → exec ev s = .next (stallCore (berthed s p b) p 2 b.addr .none)) ∧
    ((s.core p).overdue p = true → b.land = true → (s.core p).trueLanding = true → exec ev s = .next (bundleFaults s p b 0x05 (s.core p).run.lcnt)))

/-- An operation whose guard reads false has no effect but that a skiff goes on (03 R91); an operation for another agent faults: a skiff's
operation in a core, a helm's operation in a primary or a skiff, an operation that the helms or the skiffs do not have (03 R101; 05 R168; 13 R364). -/
def Obligations.GuardsAndAgents : Prop :=
  (∀ (s : State) (p : Nat) (i : Instr) (g : BitVec 4), (8, g) ∈ i.guardUse → s.cur.agent = .core p → encodingFault s i = none →
    (s.core p).g g = false → (s.core p).queues.lq.length ≤ 32 → (s.core p).queues.sq.length ≤ 32 → exec i s = .next s) ∧
  (∀ (s : State) (p : Nat) (j : BitVec 3) (i : Instr) (g : BitVec 4), (8, g) ∈ i.guardUse → s.cur.agent = .skiff p j →
    encodingFault s i = none → (s.skiff p j).guard g = false → slotRes i s = .ok (skiffResult s p j 0 [] [])) ∧
  (∀ (s : State) (p n : Nat) (i : Instr) (k : SlotClass), i.slotClass = some k → s.cur.agent = .core p → n = i.opcode →
    ((k = .a ∧ 0x40 ≤ n ∧ n ≤ 0x49) ∨ (k = .c ∧ 0x20 ≤ n ∧ n ≤ 0x23) → exec i s = .next (takeFault s 0x01 9)) ∧
    (isHelm p = false → k = .c → 0x30 ≤ n → n ≤ 0x39 → exec i s = .next (takeFault s 0x03 (0x500 + n))) ∧
    (isHelm p = true → k = .v ∨ k = .m ∨ (k = .a ∧ 0x15 ≤ n ∧ n ≤ 0x18) ∨ (k = .c ∧ (n = 6 ∨ (0x0C ≤ n ∧ n ≤ 0x0E) ∨ (0x12 ≤ n ∧ n ≤ 0x1C))) →
      exec i s = .next (takeFault s 0x01 9))) ∧
  (∀ (s : State) (p n : Nat) (j : BitVec 3) (i : Instr) (k : SlotClass), i.slotClass = some k → s.cur.agent = .skiff p j → n = i.opcode →
    (k = .c → 0x30 ≤ n → n ≤ 0x39 → slotRes i s = .fault 0x03 (0x500 + n)) ∧
    (k = .f ∨ k = .v ∨ k = .m ∨ (k = .a ∧ 0x15 ≤ n ∧ n ≤ 0x18) ∨
        (k = .c ∧ ((4 ≤ n ∧ n ≤ 7) ∨ (0x0B ≤ n ∧ n ≤ 0x0E) ∨ (0x10 ≤ n ∧ n ≤ 0x13))) → slotRes i s = .fault 0x01 9))

/-- A fault of a core halts it where it stands: its registers, control registers and results on their way stay, a lease ends with the core, its record
goes to the host's buffer and to both helms of its die, or waits for the core's remote accesses to perform, and its sailing counts it and, for a
primary, goes to STATE 6; no byte of memory changes but those of the rings and of the status block. A skiff's fault frees its context and leaves the core and STATE as they are
(03 R120, R121; 05 R184; 13 R366, R367, R374; 15 R409). -/
def Obligations.TakingAFault : Prop :=
  (∀ (s t : State) (p n d code detail : Nat), s.cur.agent = .core p → isHelm p = false → (s.core p).run.sailing = some n →
    d = dieOf (s.sailing n).helm → t = takeFault s code detail →
    (t.core p).run.live = false ∧ (t.core p).run.halted = true ∧ (t.core p).run.faulted = true ∧
    (t.core p).run.lease = (if (s.core p).run.lease = 2 then 3 else (s.core p).run.lease) ∧ (t.core p).files = (s.core p).files ∧
    (t.core p).ctl = (s.core p).ctl ∧ (t.core p).pipe = (s.core p).pipe ∧ (t.core p).queues = (s.core p).queues ∧
    (t.core p).fetch = (s.core p).fetch ∧ (t.core p).flight = (s.core p).flight ∧
    (t.sailing n).faults = (s.sailing n).faults + 1 ∧ (t.sailing n).state = 6 ∧
    (∃ r, RecordSays r code s.cur.slot (s.core p).ctl.lid s.cur.word s.cur.addr (s.core p).run.t detail ∧ r.extractLsb' 11 5 = 0 ∧
      ((∀ y ∈ (s.core p).remotes, y.result ≠ none) → (t.core p).posts = (s.core p).posts ∧
        ((s.die d).faultBuf.length < 64 → (t.die d).faultBuf = (s.die d).faultBuf ++ [r] ∧ (t.die d).faultLost = (s.die d).faultLost) ∧
        (64 ≤ (s.die d).faultBuf.length → (t.die d).faultBuf = (s.die d).faultBuf ∧ (t.die d).faultLost = (s.die d).faultLost + 1) ∧
        (∀ h ∈ [helmBase + 2 * d, helmBase + 2 * d + 1], (t.helm h).fhead = (s.helm h).fhead + 1)) ∧
      ((∃ y ∈ (s.core p).remotes, y.result = none) → (t.core p).posts = (s.core p).posts ++ [(d, r)] ∧
        (t.die d).faultBuf = (s.die d).faultBuf ∧ (∀ h : Nat, (t.helm h).fhead = (s.helm h).fhead))) ∧
    (MemoryCanonical s → ∀ a : Nat, ¬ ringSlot s (helmBase + 2 * d) a → ¬ ringSlot s (helmBase + 2 * d + 1) a →
      a < (s.sailing n).block ∨ (s.sailing n).block + 64 ≤ a → t.mem.get a = s.mem.get a)) ∧
  (∀ (s t : State) (p n d code detail : Nat) (j : BitVec 3), s.cur.agent = .skiff p j → isHelm p = false →
    (s.core p).run.sailing = some n → d = dieOf (s.sailing n).helm → (s.core p).barrel.inbox = [] → t = takeFault s code detail →
    (t.skiff p j).occupied = false ∧ (t.skiff p j).lastf = code ∧ (∀ k : BitVec 3, (t.skiff p k).occupied = true → (s.skiff p k).occupied = true) ∧
    (∃ w, (t.core p).run = { (s.core p).run with wrote := w }) ∧ (t.core p).files = (s.core p).files ∧ (t.core p).pipe = (s.core p).pipe ∧
    (t.sailing n).faults = (s.sailing n).faults + 1 ∧ (t.sailing n).state = (s.sailing n).state ∧
    ((s.die d).faultBuf.length < 64 → ∃ r, (t.die d).faultBuf = (s.die d).faultBuf ++ [r] ∧
      RecordSays r code s.cur.slot (s.core p).ctl.lid s.cur.word (s.skiff p j).pc (s.core p).run.t detail ∧ r.getLsbD 11 = true ∧
      r.extractLsb' 12 3 = j ∧ r.getLsbD 15 = false))

/-! ## Memory -/

/-- The memory of the reset state has its canonical form: addresses rising, no byte listed that reads as an unlisted one does (log 4). -/
def Obligations.ResetMemoryCanonical : Prop := MemoryCanonical State.reset

/-- Every step keeps the canonical form of memory (log 4). -/
def Obligations.StepsKeepMemoryCanonical : Prop := ∀ s t : State, MemoryCanonical s → step s = .next t → MemoryCanonical t

/-! ## Helm operations -/

namespace Sys2Proof.Claims

/-- Word i of a block at address a of helm core p's scratchpad. -/
def recordWord (s : State) (p a i : Nat) : Nat := readSpad s p (a + 8 * i) 8

/-- A block of n bytes with an alignment lies in a helm core's scratchpad (13 R365). -/
def InHelm (a align n : Nat) : Prop := a % align = 0 ∧ a + n ≤ 0x200000

/-- Bits lo up to hi of a word of a record. -/
def bitField (v lo hi : Nat) : Nat := v / 2 ^ lo % 2 ^ (hi + 1 - lo)

/-- The words of memory at address a are those of a list. -/
def WordsAt (s : State) (a : Nat) (ws : List Nat) : Prop := ∀ i, i < ws.length → s.mem.read (a + 8 * i) 8 = ws.getD i 0 % 2 ^ 64

/-- Every remote access that a core of sailing n has sent has performed (13 R372). -/
def Settled (s : State) (n : Nat) : Prop := ∀ x ∈ s.cores, x.2.run.sailing = some n → ∀ r ∈ x.2.remotes, r.result ≠ none

/-- The block of a sailing is written whole, where memory is canonical and no remote access of its cores, nor an older block, is still under way. -/
def BlockWritten (s t : State) (n : Nat) : Prop :=
  MemoryCanonical s → (s.sailing n).blocks = [] → Settled s n → WordsAt t (t.sailing n).block (t.sailing n).words ∧ (t.sailing n).blocks = []

/-- Queue k of a die. -/
def queueOf (r : Die) (k : Nat) : Queue := r.queues.toList.getD k {}

/-- The deadline of the oldest request of a queue. -/
def headDue (r : Die) (k : Nat) : Nat := match (queueOf r k).fifo with | x :: _ => x.2.2 | [] => 0

/-- Queue k comes before queue j by their deadlines and by their numbers after LASTQ (13 R382). -/
def DueFirst (r : Die) (k j : Nat) : Prop :=
  headDue r k < headDue r j ∨ (headDue r k = headDue r j ∧ (k + 63 - r.lastq % 64) % 64 < (j + 63 - r.lastq % 64) % 64)

/-- Queue k comes before queue j by the policy: urgent ones first, else the higher tier, then by their deadlines (13 R382). -/
def Ahead (r : Die) (wall k j : Nat) : Prop :=
  let u (i : Nat) : Prop := (queueOf r i).used < (queueOf r i).attr.budget ∧
    pstart wall + 12000000 - wall ≤ (queueOf r i).attr.budget - (queueOf r i).used
  (u k ∧ (¬ u j ∨ DueFirst r k j)) ∨
    (¬ u k ∧ ¬ u j ∧ ((queueOf r j).attr.tier < (queueOf r k).attr.tier ∨
      ((queueOf r j).attr.tier = (queueOf r k).attr.tier ∧ DueFirst r k j)))

/-- What a helm's operation leaves of its own core: the register files, the control registers, the pipeline, the queues, the run, but for its note
of what has been written in the cycle. -/
def CoreKept (s t : State) (p : Nat) : Prop :=
  (t.core p).files = (s.core p).files ∧ (t.core p).ctl = (s.core p).ctl ∧ (t.core p).pipe = (s.core p).pipe ∧
    (t.core p).queues = (s.core p).queues ∧ ∃ w, (t.core p).run = { (s.core p).run with wrote := w }

/-- A helm core's own earlier accesses have performed, and the invalidations of its writes have arrived (01 R37, R41, R47). -/
def HelmPerformed (s : State) (p : Nat) : Prop := EarlierDone s p ∧ ¬ Owes s p 0xFFFF

/-- The queues of a die and LASTQ stay. -/
def QueuesKept (s t : State) (d : Nat) : Prop := (t.die d).queues = (s.die d).queues ∧ (t.die d).lastq = (s.die d).lastq

/-- Whether a queue is urgent. -/
def Urgent (r : Die) (wall k : Nat) : Prop :=
  (queueOf r k).used < (queueOf r k).attr.budget ∧ pstart wall + 12000000 - wall ≤ (queueOf r k).attr.budget - (queueOf r k).used

end Sys2Proof.Claims

/-- sail with a good launch record makes a new sailing with STATE 0 and the next SNO, which holds what the record says and what the launch captures,
and writes the status block; a bad record or block is an illegal operand. swait waits until the STATE of its block is one of 5 to 8. preempt
sets STATE 2 in a running sailing and has no effect on another (13 R369 to R372, R375, R383). The stall cause 22 of a helm's wait is of no table (log 14), and a block that no
launch has named is judged by the STATE byte that memory holds there (log 25): both are the model's (DEDUCED). -/
def Obligations.LaunchesAndPreemptions : Prop :=
  (∀ (s : State) (p a k : Nat) (g : BitVec 4) (l b : BitVec 5) (w : Nat → Nat), HelmRuns s p g (.sail g l b) →
    a = ((s.core p).c (l.truncate 4)).toNat → k = ((s.core p).c (b.truncate 4)).toNat → w = recordWord s p a →
    (InHelm a 64 128 → InHelm k 64 64 → recordBad w = false → ∃ (t : State) (x : Sailing), Completes (.sail g l b) s t ∧
      t.nextSailing = s.nextSailing + 1 ∧ t.sailing s.nextSailing = x ∧ (t.die (dieOf p)).sno = ((s.die (dieOf p)).sno + 1) % 65536 ∧
      x.helm = p ∧ x.block = spadBase p + k ∧ x.sno = (s.die (dieOf p)).sno ∧ x.state = 0 ∧ x.entry = w 0 ∧ x.ptroot = w 1 ∧ x.spwin = w 2 ∧
      x.image = w 3 ∧ x.ttbl = w 4 ∧ x.qlist = w 5 ∧ x.nquads = bitField (w 6) 0 15 ∧ x.queue = bitField (w 6) 16 21 ∧
      (x.task = true ↔ bitField (w 6) 24 24 = 1) ∧ x.landb = (if w 7 = 0 then (s.core p).ctl.landb else w 7) ∧ x.tollr = w 8 ∧
      x.rootarg = w 9 ∧ x.deadline = w 10 ∧ x.seed = (s.core p).ctl.seed ∧ x.ovf = (s.helm p).ovfnext ∧ x.running = false ∧ x.loaded = false ∧
      CoreKept s t p ∧ (∀ n : Nat, n ≠ s.nextSailing → t.sailing n = s.sailing n) ∧
      (MemoryCanonical s → Settled s s.nextSailing → WordsAt t (spadBase p + k) x.words ∧ x.blocks = [])) ∧
    (¬ InHelm a 64 128 ∨ ¬ InHelm k 64 64 ∨ recordBad w = true → Completes (.sail g l b) s (takeFault s 0x02 7))) ∧
  (∀ (s : State) (p a : Nat) (g : BitVec 4) (r : BitVec 5), HelmRuns s p g (.swait g r) → a = ((s.core p).c (r.truncate 4)).toNat →
    (InHelm a 64 64 → recordWord s p a 0 % 256 ≤ 4 → Waits (.swait g r) s p 22) ∧
    (InHelm a 64 64 → 5 ≤ recordWord s p a 0 % 256 → recordWord s p a 0 % 256 ≤ 8 → Completes (.swait g r) s s) ∧
    (¬ InHelm a 64 64 → Completes (.swait g r) s (takeFault s 0x02 7))) ∧
  (∀ (s : State) (p a n : Nat) (g : BitVec 4) (r : BitVec 5), HelmRuns s p g (.preempt g r) → a = ((s.core p).c (r.truncate 4)).toNat →
    InHelm a 64 64 → s.findBlock a = some n →
    ((s.sailing n).state = 1 → (s.sailing n).killed = false → ∃ t : State, Completes (.preempt g r) s t ∧ (t.sailing n).state = 2 ∧
      (∀ q : Nat, CoreKept s t q) ∧ BlockWritten s t n) ∧
    ((s.sailing n).state ≠ 1 → Completes (.preempt g r) s s))

/-- ctxsv of a stopped sailing saves every core of its partition in a free shadow slot, 150 cycles after the stop at the latest, and leaves the
quads empty; ctxld of a saved sailing whose quads and lanes are free puts the cores back and lets the clock go on, each core from the landing
it halted before; preempt.kill stops the partition and discards its vector, array and stream commands. The other STATEs have the outcomes of
13 R386 to R388. The stall causes 22 and 23 are of no table (log 14), a move ends at a free time within its bound of 150 cycles (log 27), and what a stop and a save take
along is the model's reading (log 28). -/
def Obligations.SavesRestoresAndKills : Prop :=
  (∀ (s : State) (p a n : Nat) (g : BitVec 4) (r : BitVec 5) (k : BitVec 1), HelmRuns s p g (.ctxsv g r k) →
    a = ((s.core p).c (r.truncate 4)).toNat → InHelm a 64 64 → s.findBlock a = some n →
    ((s.sailing n).state = 3 → (s.sailing n).killed = false → slotUsed s (s.sailing n) k.toNat = false → (s.sailing n).stopW + 150 ≤ s.wall →
      (s.sailing n).blocks = [] → ∃ t : State, Completes (.ctxsv g r k) s t ∧ (t.sailing n).state = 4 ∧ (t.sailing n).slot = some k.toNat ∧
        (∀ x ∈ (t.sailing n).saved, x.2.files = (s.core x.1).files ∧ x.2.ctl = (s.core x.1).ctl ∧ x.2.pipe = (s.core x.1).pipe ∧
          x.2.queues = (s.core x.1).queues ∧ x.2.fetch = (s.core x.1).fetch ∧ x.2.barrel = (s.core x.1).barrel) ∧
        (∀ i, i < 4 * (s.sailing n).quads.length → (s.sailing n).coreAt i ∈ (t.sailing n).saved.map Prod.fst) ∧
        (∀ q ∈ (s.sailing n).quads, t.quad q = {}) ∧ (∀ x ∈ t.cores, x.2.run.sailing ≠ some n) ∧ BlockWritten s t n) ∧
    ((s.sailing n).state = 3 → slotUsed s (s.sailing n) k.toNat = false → (s.sailing n).blocks ≠ [] → Waits (.ctxsv g r k) s p 22) ∧
    (5 ≤ (s.sailing n).state → (s.sailing n).state ≤ 8 → Completes (.ctxsv g r k) s s) ∧
    ((s.sailing n).state ≤ 1 → Completes (.ctxsv g r k) s (takeFault s 0x02 7)) ∧
    (2 ≤ (s.sailing n).state → (s.sailing n).state ≤ 4 → slotUsed s (s.sailing n) k.toNat = true →
      Completes (.ctxsv g r k) s (takeFault s 0x02 4)) ∧
    ((s.sailing n).state = 2 → slotUsed s (s.sailing n) k.toNat = false → Waits (.ctxsv g r k) s p 22)) ∧
  (∀ (s : State) (p a n : Nat) (g : BitVec 4) (r : BitVec 5) (k : BitVec 1), HelmRuns s p g (.ctxld g r k) →
    a = ((s.core p).c (r.truncate 4)).toNat → InHelm a 64 64 → s.findBlock a = some n →
    ((s.sailing n).state = 4 → (s.sailing n).slot = some k.toNat → (s.sailing n).killed = false →
      quadsTaken s n (s.sailing n).quads = false → lanesTaken s n (s.sailing n).lanes = false →
      (∃ x, (s.core p).run.stall = some x ∧ x.cause = 23 ∧ x.bundle = s.cur.addr ∧ 150 ≤ x.cycles) →
      ((s.sailing n).saved.map Prod.fst).Nodup → ∃ t : State, Completes (.ctxld g r k) s t ∧ (t.sailing n).state = 1 ∧
        (t.sailing n).slot = none ∧ (t.sailing n).loaded = true ∧ (t.sailing n).t = (s.sailing n).t ∧
        (∀ x ∈ (s.sailing n).saved, (t.core x.1).files = x.2.files ∧ (t.core x.1).ctl = x.2.ctl ∧ (t.core x.1).pipe = x.2.pipe ∧
          (t.core x.1).queues = x.2.queues ∧ (t.core x.1).fetch = x.2.fetch ∧ (t.core x.1).run.lcnt = 0 ∧ (t.core x.1).run.stopped = 0 ∧
          (t.core x.1).run.preempt = false)) ∧
    (5 ≤ (s.sailing n).state → (s.sailing n).state ≤ 8 → Completes (.ctxld g r k) s s) ∧
    ((s.sailing n).state ≤ 3 → Completes (.ctxld g r k) s (takeFault s 0x02 7)) ∧
    ((s.sailing n).state = 4 → (s.sailing n).slot ≠ some k.toNat → Completes (.ctxld g r k) s (takeFault s 0x02 4)) ∧
    ((s.sailing n).state = 4 → (s.sailing n).slot = some k.toNat → quadsTaken s n (s.sailing n).quads = true → Waits (.ctxld g r k) s p 22)) ∧
  (∀ (s : State) (p a n : Nat) (g : BitVec 4) (r : BitVec 5), HelmRuns s p g (.preemptKill g r) →
    a = ((s.core p).c (r.truncate 4)).toNat → InHelm a 64 64 → s.findBlock a = some n →
    ((s.sailing n).killed = false → (s.sailing n).state ≠ 5 → (s.sailing n).state ≠ 7 → (s.sailing n).state ≠ 8 →
      ∃ t : State, Completes (.preemptKill g r) s t ∧ (t.sailing n).killed = true ∧ (t.sailing n).running = false ∧
        (∀ x ∈ t.cores, x.2.run.sailing = some n → x.2.run.live = false ∧ x.2.vec.runs = [] ∧ x.2.moves = [] ∧
          x.2.ports = Vector.replicate 4 {} ∧ x.2.refills = Vector.replicate 8 [] ∧
          (∀ f ∈ x.2.flight, f.engine = .lighter ∨ f.engine = .sequence ∨ f.engine = .pilot)) ∧
        (∀ q : Nat, (s.core q).run.sailing ≠ some n → t.core q = s.core q) ∧ t.mem = s.mem) ∧
    ((s.sailing n).state = 5 ∨ (s.sailing n).state = 7 ∨ (s.sailing n).state = 8 → Completes (.preemptKill g r) s s))

/-- qpush.cfg sets a queue's attributes, qpush appends a request with its deadline or says that it could not, qpop removes the request that the
policy picks and writes it out, or four zero words where no queue has one (13 R379, R380, R382). -/
def Obligations.QueuesFollowThePolicy : Prop :=
  (∀ (s : State) (p k a : Nat) (g : BitVec 4) (q b : BitVec 5) (w : Nat → Nat), HelmRuns s p g (.qpushCfg g q b) →
    k = ((s.core p).c (q.truncate 4)).toNat → a = ((s.core p).c (b.truncate 4)).toNat → w = recordWord s p a →
    (k < 64 → InHelm a 32 32 → w 0 < 2 ^ 7 → bitField (w 0) 3 3 = 0 → 1 ≤ w 1 → w 1 < 2 ^ 48 → w 3 = 0 →
      (((List.range 64).filter (· ≠ k)).map fun i => (queueOf (s.die (dieOf p)) i).attr.budget).sum + w 2 ≤ 12000000 →
      ∃ (t : State) (x : Queue), Completes (.qpushCfg g q b) s t ∧ queueOf (t.die (dieOf p)) k = x ∧ x.attr.conf = true ∧
        x.attr.tier = bitField (w 0) 0 2 ∧ x.attr.level = bitField (w 0) 4 5 ∧ (x.attr.redir = true ↔ bitField (w 0) 6 6 = 1) ∧
        x.attr.deadline = w 1 ∧ x.attr.budget = w 2 ∧ x.fifo = (queueOf (s.die (dieOf p)) k).fifo ∧
        x.used = (queueOf (s.die (dieOf p)) k).used ∧ (t.die (dieOf p)).lastq = (s.die (dieOf p)).lastq ∧
        (∀ j, j < 64 → j ≠ k → queueOf (t.die (dieOf p)) j = queueOf (s.die (dieOf p)) j) ∧ t.mem = s.mem ∧ CoreKept s t p) ∧
    (64 ≤ k → Completes (.qpushCfg g q b) s (takeFault s 0x02 1)) ∧
    (k < 64 → ¬ InHelm a 32 32 ∨ 2 ^ 7 ≤ w 0 ∨ w 1 = 0 ∨ 2 ^ 48 ≤ w 1 ∨ 12000000 < w 2 ∨ w 3 ≠ 0 →
      Completes (.qpushCfg g q b) s (takeFault s 0x02 7))) ∧
  (∀ (s : State) (p k a : Nat) (g : BitVec 4) (q b : BitVec 5) (x : Queue), HelmRuns s p g (.qpush g q b) →
    k = ((s.core p).c (q.truncate 4)).toNat → a = ((s.core p).c (b.truncate 4)).toNat → x = queueOf (s.die (dieOf p)) k → k < 64 →
    InHelm a 32 32 → MemoryCanonical s →
    (x.attr.conf = true → x.fifo.length < 32 → ∃ t : State, Completes (.qpush g q b) s t ∧ t.mem.read (spadBase p + a + 16) 8 = 1 ∧
      (queueOf (t.die (dieOf p)) k).fifo = x.fifo ++ [(BitVec.ofNat 64 (recordWord s p a 0), BitVec.ofNat 64 (recordWord s p a 1),
        s.wallOf (dieOf p) + x.attr.deadline)] ∧ (t.die (dieOf p)).lastq = (s.die (dieOf p)).lastq ∧ CoreKept s t p) ∧
    (x.attr.conf = true → 32 ≤ x.fifo.length → ∃ t : State, Completes (.qpush g q b) s t ∧ t.mem.read (spadBase p + a + 16) 8 = 0 ∧
      QueuesKept s t (dieOf p)) ∧
    (x.attr.conf = false → ∃ t : State, Completes (.qpush g q b) s t ∧ t.mem.read (spadBase p + a + 16) 8 = 2 ∧ QueuesKept s t (dieOf p))) ∧
  (∀ (s : State) (p a wall : Nat) (g : BitVec 4) (b : BitVec 5) (r : Die), HelmRuns s p g (.qpop g b) →
    a = ((s.core p).c (b.truncate 4)).toNat → r = s.die (dieOf p) → wall = s.wallOf (dieOf p) → InHelm a 32 32 → MemoryCanonical s →
    ((∀ k, k < 64 → (queueOf r k).fifo = []) → ∃ t : State, Completes (.qpop g b) s t ∧ WordsAt t (spadBase p + a) [0, 0, 0, 0] ∧
      QueuesKept s t (dieOf p)) ∧
    (∀ (k due : Nat) (rec_ block : Word) (rest : List (Word × Word × Nat)) (u l : Nat), k < 64 →
      (queueOf r k).fifo = (rec_, block, due) :: rest → (∀ j, j < 64 → j ≠ k → (queueOf r j).fifo ≠ [] → Ahead r wall k j) →
      (u = 1 ↔ Urgent r wall k) → (l = 1 ↔ due < wall) → u < 2 → l < 2 → ∃ t : State, Completes (.qpop g b) s t ∧
        WordsAt t (spadBase p + a) [rec_.toNat, block.toNat, due, k + u * 2 ^ 8 + l * 2 ^ 9 + 2 ^ 15] ∧
        (queueOf (t.die (dieOf p)) k).fifo = rest ∧ (t.die (dieOf p)).lastq = k ∧
        (∀ j, j < 64 → j ≠ k → queueOf (t.die (dieOf p)) j = queueOf r j) ∧ CoreKept s t p))

/-- pgen.cap copies the header and the current slot to its record, pgen.pub the staging slot over the current slot and GEN gains 1, both once the
bundle has stalled for the cycles of the copy, pgen.pub once the helm's own accesses have performed; tlbm, which waits for them too, drops the entries
that it covers from every core of a running sailing, waits while four shootdowns are outstanding, and acts at once on a saved one, whose cores resume
with empty TLBs; ovfld and ovfld.self set their table at the end of their cycle (13 R389, R391, R393). The stall cause 22 is of no table (log 14), and that pgen.pub and
tlbm wait for the invalidations of the helm's own writes is the model's reading (log 18): both DEDUCED. -/
def Obligations.GenerationsShootdownsTables : Prop :=
  (∀ (s : State) (p a b n : Nat) (g : BitVec 4) (r d : BitVec 5), HelmRuns s p g (.pgenCap g r d) →
    a = ((s.core p).c (r.truncate 4)).toNat → b = ((s.core p).c (d.truncate 4)).toNat → paramLen s a = some n → InHelm b 64 (64 + n) →
    ((∃ x, (s.core p).run.stall = some x ∧ x.bundle = s.cur.addr ∧ n / 64 ≤ x.cycles) → MemoryCanonical s →
      ∃ t : State, Completes (.pgenCap g r d) s t ∧ t.mem.read (spadBase p + b) (64 + n) = readSpad s p a (64 + n) ∧
        (∀ y : Nat, y < spadBase p + b ∨ spadBase p + b + 64 + n ≤ y → t.mem.get y = s.mem.get y) ∧ CoreKept s t p) ∧
    ((s.core p).run.stall = none → Waits (.pgenCap g r d) s p 22)) ∧
  (∀ (s : State) (p a n : Nat) (g : BitVec 4) (r : BitVec 5), HelmRuns s p g (.pgenPub g r) → a = ((s.core p).c (r.truncate 4)).toNat →
    paramLen s a = some n →
    ((∃ x, (s.core p).run.stall = some x ∧ x.bundle = s.cur.addr ∧ n / 64 ≤ x.cycles) → HelmPerformed s p → MemoryCanonical s →
      ∃ t : State, Completes (.pgenPub g r) s t ∧ t.mem.read (spadBase p + a + 64) n = readSpad s p (a + 64 + n) n ∧
        t.mem.read (spadBase p + a) 8 = (recordWord s p a 0 + 1) % 2 ^ 32 ∧
        (∀ y : Nat, y < spadBase p + a ∨ spadBase p + a + 64 + n ≤ y → t.mem.get y = s.mem.get y) ∧ CoreKept s t p) ∧
    ((s.core p).run.stall = none ∨ ¬ HelmPerformed s p → Waits (.pgenPub g r) s p 22)) ∧
  (∀ (s : State) (p a n : Nat) (g : BitVec 4) (r b : BitVec 5) (v : Word), HelmRuns s p g (.tlbm g r b) →
    a = ((s.core p).c (r.truncate 4)).toNat → v = (s.core p).c (b.truncate 4) →
    (v.extractLsb' 56 7 = 0 → InHelm a 64 64 → s.findBlock a = some n → (s.sailing n).killed = false →
      (1 ≤ (s.sailing n).state → (s.sailing n).state ≤ 4 → ¬ HelmPerformed s p → Waits (.tlbm g r b) s p 22) ∧
      (1 ≤ (s.sailing n).state → (s.sailing n).state ≤ 3 → HelmPerformed s p → (s.sailing n).shoots.length < 4 → ∃ t : State, Completes (.tlbm g r b) s t ∧
        (t.sailing n).shoots.length = (s.sailing n).shoots.length + 1 ∧ (t.sailing n).tlbc = (s.sailing n).tlbc ∧
        (∀ x ∈ t.cores, x.2.run.sailing = some n → ∀ e ∈ x.2.stlb ++ x.2.barrel.tlb, v.getLsbD 63 = false ∧
          (v.extractLsb' 0 56).toNat * 65536 / 2 ^ e.bits * 2 ^ e.bits ≠ e.va) ∧ t.mem = s.mem) ∧
      (1 ≤ (s.sailing n).state → (s.sailing n).state ≤ 3 → HelmPerformed s p → 4 ≤ (s.sailing n).shoots.length → Waits (.tlbm g r b) s p 22) ∧
      ((s.sailing n).state = 4 → HelmPerformed s p → ∃ t : State, Completes (.tlbm g r b) s t ∧ (t.sailing n).tlbc = (s.sailing n).tlbc + 1 ∧
        (∀ x ∈ (t.sailing n).saved, x.2.stlb = [] ∧ x.2.barrel.tlb = [])) ∧
      ((s.sailing n).state = 0 ∨ 5 ≤ (s.sailing n).state → Completes (.tlbm g r b) s s)) ∧
    (v.extractLsb' 56 7 ≠ 0 → Completes (.tlbm g r b) s (takeFault s 0x02 2))) ∧
  (∀ (s : State) (p : Nat) (g : BitVec 4) (r : BitVec 5), HelmRuns s p g (.ovfld g r) → ovfGood ((s.core p).c (r.truncate 4)) = true →
    Completes (.ovfld g r) s (later s p (.ctl 0x102 ((s.core p).c (r.truncate 4))))) ∧
  (∀ (s : State) (p : Nat) (g : BitVec 4) (r : BitVec 5), HelmRuns s p g (.ovfldSelf g r) → ovfGood ((s.core p).c (r.truncate 4)) = true →
    Completes (.ovfldSelf g r) s (later s p (.ctl 7 ((s.core p).c (r.truncate 4))))) ∧
  (∀ (s : State) (p : Nat) (g : BitVec 4) (r : BitVec 5), ovfGood ((s.core p).c (r.truncate 4)) = false → ∀ i ∈ [Instr.ovfld g r, .ovfldSelf g r],
    HelmRuns s p g i → Completes i s (takeFault s 0x02 1))

/-! ## A core's cycle -/

namespace Sys2Proof.Claims

/-- The event of a machine happens in state s, and t is the state after it. -/
def Happens (e : Instr) (s t : State) : Prop := exec e s = .next t

/-- The value that lands in a destination at the end of core c's cycle: that of the last one issued of the results that are due (03 R97). -/
def landing (c : Core) (d : Dest) : Option Word := ((c.pipe.pend.filter fun r => decide (r.due ≤ c.run.t) && r.dest == d).getLast?).map (·.val)

/-- The end of core p's cycle does nothing but what a statement names: a loop-back back, deferred writes acts, and landings where pend holds any; no
task ends. -/
def EndsWith (s : State) (p : Nat) (back : Option (BitVec 2)) (acts : List EndAct) : Prop :=
  (s.core p).pipe.back = back ∧ (s.core p).pipe.eoc = acts ∧ ((s.core p).run.halted = false ∨ (s.core p).run.busy = false)

/-- A rotation of the rotating files and of the stage guards, with the value of g8 (03 R105). -/
def Rotated (c d : Core) (first : Bool) : Prop :=
  d.pipe.xb = (c.pipe.xb + 1) % 14 ∧ d.pipe.fb = (c.pipe.fb + 1) % 14 ∧ d.pipe.ab = (c.pipe.ab + 1) % 16 ∧ d.files.g[8] = first ∧
    ∀ k : Nat, (h : k < 7) → d.files.g[9 + k] = c.files.g[8 + k]

/-- a1 to a15 gain the update table of a loop level (03 R105). -/
def Updated (c d : Core) (n : BitVec 2) : Prop :=
  ∀ k : Nat, (h : 1 ≤ k ∧ k ≤ 15) → d.files.a[k] = c.files.a[k] + (c.pipe.loops[n.toNat].upd[k]).signExtend 64

/-- The core's half of its loop buffer that is not issuing, or is. -/
def halfOf (c : Core) (side : Bool) : Option Segment := if side then c.fetch.half1 else c.fetch.half0

end Sys2Proof.Claims

/-- RESULT_LANDING: every result that is due lands in its register, the later issue over the earlier; the skip bits move on by a cycle. LQ_FILL
fills the entries whose data is due. A taken loop-back counts its level down, applies the update table, and for level 0 rotates the files; the
drain counts with c12 and shifts g8 out; at its end the level closes (03 R96 to R98, R105, R106; 04 R127). -/
def Obligations.ResultsLandAndLoopsTurn : Prop :=
  (∀ (s : State) (p : Nat) (c : Core), c = s.core p → EndsWith s p none [] → ∃ t : State, Happens (.resultLanding p) s t ∧
    (∀ r : BitVec 5, (t.core p).files.x[r.toNat] = (landing c (.x r)).getD c.files.x[r.toNat] ∧
      (t.core p).files.a[r.toNat] = (landing c (.a r)).getD c.files.a[r.toNat] ∧
      (t.core p).files.f[r.toNat] = (landing c (.f r)).getD c.files.f[r.toNat]) ∧
    (∀ r : BitVec 4, (t.core p).files.m[r.toNat] = (landing c (.m r)).getD c.files.m[r.toNat] ∧
      (t.core p).files.g[r.toNat] = ((landing c (.g r)).map (·.getLsbD 0)).getD c.files.g[r.toNat] ∧
      (r ≠ 14 → r ≠ 15 → (t.core p).files.c[r.toNat] = (landing c (.c r)).getD c.files.c[r.toNat])) ∧
    (t.core p).files.c[15] = ((landing c (.c 15)).map (· &&& 0xFE)).getD c.files.c[15] ∧
    (t.core p).pipe.pend = c.pipe.pend.filter (fun r => decide (c.run.t < r.due) || r.dest.isLq) ∧
    (t.core p).pipe.sk2 = c.pipe.sk1 ∧ (t.core p).pipe.sk1 = (t.core p).files.c[15].truncate 8 ∧ (t.core p).queues.lq = c.queues.lq) ∧
  (∀ (s : State) (p : Nat) (c : Core), c = s.core p → ∃ t : State, Happens (.lqFill p) s t ∧
    (t.core p).queues.lq = c.queues.lq.map (fun e => match landing c (.lq e.id) with | some v => { e with val := some v } | none => e) ∧
    (t.core p).pipe.pend = c.pipe.pend.filter (fun r => decide (c.run.t < r.due) || !r.dest.isLq) ∧ (t.core p).files = c.files ∧
    t.mem = s.mem) ∧
  (∀ (s : State) (p : Nat) (c : Core) (n : BitVec 2) (lc ec : Word), c = s.core p → EndsWith s p (some n) [] → c.pipe.pend = [] →
    lc = c.files.c[8 + n.toNat] → ec = c.files.c[12] → ∃ t : State, Happens (.resultLanding p) s t ∧
    (lc ≠ 0 → (t.core p).files.c[8 + n.toNat] = lc - 1 ∧ (t.core p).fetch.pc = c.pipe.loops[n.toNat].start ∧ Updated c (t.core p) n ∧
      (n = 0 → Rotated c (t.core p) true) ∧ (n ≠ 0 → (t.core p).files.g = c.files.g ∧ (t.core p).pipe.xb = c.pipe.xb)) ∧
    (lc = 0 → n = 0 → 1 < ec.toNat → (t.core p).files.c[12] = ec - 1 ∧ (t.core p).fetch.pc = c.pipe.loops[0].start ∧
      Updated c (t.core p) n ∧ Rotated c (t.core p) false ∧ (t.core p).pipe.loops[0].active = c.pipe.loops[0].active) ∧
    (lc = 0 → n = 0 → ec = 1 → (t.core p).files.c[12] = 0 ∧ (t.core p).fetch.pc = c.fetch.pc ∧ Updated c (t.core p) n ∧
      Rotated c (t.core p) false ∧ (t.core p).pipe.loops[0].active = false) ∧
    (lc = 0 → n ≠ 0 ∨ ec = 0 → (t.core p).files = c.files ∧ (t.core p).fetch.pc = c.fetch.pc ∧
      (t.core p).pipe.loops[n.toNat].active = false))

/-- What an instruction leaves for the end of its cycle happens there: loop starts, update entries, control registers, the publication map, the
expected tags, a closed channel, a freed stream port. A task that has halted and gone quiet gives its x1 to its parent, or to its sailing's RETVAL, and its core is
idle (03 R98, R103, R104, R112, R115, R119; 04 R136; 09 R276, R286 to R290; 13 R366, R391). -/
def Obligations.DeferredWritesAndTaskEnds : Prop :=
  (∀ (s : State) (p : Nat) (e : EndAct) (c : Core), c = s.core p → EndsWith s p none [e] → c.pipe.pend = [] →
    ∃ t : State, Happens (.resultLanding p) s t ∧ (t.core p).pipe.eoc = [] ∧
    (∀ (l : BitVec 2) (n : Word) (a : Nat), e = .lset l n a → (t.core p).files.c[8 + l.toNat] = n ∧
      (t.core p).pipe.loops[l.toNat].start = a ∧ (t.core p).pipe.loops[l.toNat].active = true ∧
      (t.core p).pipe.loops[l.toNat].upd = c.pipe.loops[l.toNat].upd ∧
      (l = 0 → ∀ k : Nat, (h : k < 8) → (t.core p).files.g[8 + k] = decide (k = 0)) ∧ (l ≠ 0 → (t.core p).files.g = c.files.g)) ∧
    (∀ (l : BitVec 2) (a : BitVec 4) (d : BitVec 32), e = .lupd l a d → (t.core p).pipe.loops[l.toNat].upd[a.toNat] = d ∧
      (t.core p).files = c.files) ∧
    (∀ (n : Nat) (v : Word), e = .ctl n v → (n = 0x004 → (t.core p).ctl.seed = v) ∧ (n = 0x007 → (t.core p).ctl.ovf = v) ∧
      (n = 0x008 → (t.core p).ctl.landb = v.toNat) ∧ (n = 0x00B → (t.core p).ctl.srctl = v) ∧
      (∀ k : Nat, (h : k < 8) → n = 0x010 + k → (t.core p).ctl.bfmt[k] = v) ∧ (n = 0x102 → (t.helm p).ovfnext = v) ∧
      (n = 0x103 → (t.helm p).fring = v) ∧ (∀ k : Nat, (h : k < 8) → n = 0x110 + k → (t.helm p).carve[k] = v)) ∧
    (∀ h tag : Nat, e = .arm h tag → (t.core p).expects = (c.expects.filter fun x => decide (x.1 ≠ h)) ++ [(h, tag)]) ∧
    (∀ h : Nat, e = .disarm h → (t.core p).expects = c.expects.filter fun x => decide (x.1 ≠ h)) ∧
    (∀ (n : BitVec 4) (v : Word), e = .map n.toNat v → ∃ m, (t.core p).pmap[n.toNat] = m ∧ m.v = true ∧ m.base = v.toNat % 2 ^ 17 ∧
      m.alt = v.toNat / 2 ^ 17 % 2 ^ 17 ∧ m.len = v.toNat / 2 ^ 34 % 2 ^ 17 ∧ m.vis = false) ∧
    (∀ n : BitVec 4, e = .unmap n.toNat → (t.core p).pmap[n.toNat].v = false) ∧
    (∀ (n : BitVec 4) (tag : Nat), e = .pub n.toNat tag → (t.core p).pmap[n.toNat].vis = (!c.pmap[n.toNat].vis) ∧
      (t.core p).pmap[n.toNat].tag = tag ∧ (t.core p).pmap[n.toNat].base = c.pmap[n.toNat].base) ∧
    (∀ n : BitVec 3, e = .close n.toNat → (t.core p).wmc[n.toNat].act = false) ∧
    (∀ q : BitVec 2, e = .unbind q.toNat → (t.core p).ports[q.toNat] = {})) ∧
  (∀ (s : State) (p : Nat) (c : Core), c = s.core p → c.pipe.back = none → c.pipe.eoc = [] → c.run.halted = true → c.run.faulted = false →
    c.run.busy = true → c.pipe.pend = [] → c.flight = [] → c.remotes = [] → ∃ t : State, Happens (.resultLanding p) s t ∧
    (t.core p).run.busy = false ∧ (t.core p).run.halted = false ∧
    (∀ q : Nat, c.run.parent = some q → q ≠ p → (t.core q).run.children =
      (s.core q).run.children.map fun x => if x.1 = p ∧ x.2 = none then (p, some (c.x 1)) else x) ∧
    (∀ n : Nat, c.run.parent = none → c.run.sailing = some n → (t.sailing n).retval = c.x 1))

/-- A bundle whose skip bit is 1 passes without effect but for its landing and its loop end, at no toll; an overdue landing faults with LCNT; the next
segment is read into the half that is not issuing, which the target of a branch there keeps; so is the segment of a miss that issue has stalled on; at the end of each cycle 1,024n − 1 the purses
are refilled. A linking branch, or a loop, in the last bundle of a segment that goes on takes the first bundle of the segment that follows for its
next bundle, the model's reading (DEDUCED, log 56), and so is that a package's cap bounds REFILL and RESV of each of its cores (DEDUCED, log 42) (03 R84, R85, R103, R106, R109, R111; 05 R164; 10 R308 to R310). -/
def Obligations.BundlesSkipAndSegmentsLoad : Prop :=
  (∀ (s : State) (p n target : Nat) (i : Instr) (g : BitVec 4), BranchForm s i (g, target, true) → CoreRuns s p g i → Legal s p target →
    LastOfSegment s p n → Completes i s (toC (jumps s p target) p 13 1 (BitVec.ofNat 64 n))) ∧
  (∀ (s : State) (p a : Nat) (g : BitVec 4) (l : BitVec 2) (v : BitVec 1) (k : BitVec 6) (e : BitVec 12) (n : Word),
    CoreRuns s p g (.lset g l v k e) → n = (if v = 1 then k.zeroExtend 64 else (s.core p).c (k.truncate 4)) → n ≠ 0 →
    LastOfSegment s p a → Completes (.lset g l v k e) s (later s p (.lset l (n - 1) a))) ∧
  (∀ (s : State) (p : Nat) (side : Bool) (b : Bundle), (s.core p).due = true → (s.core p).nextBundle = .bundle side b →
    (s.core p).skips b = true → (s.core p).run.preempt = false → headerCause b = none → ∃ t : State, Happens (.bundleSkip p) s t ∧
    t.mem = s.mem ∧ (t.core p).files = (s.core p).files ∧ (t.core p).ctl = (s.core p).ctl ∧ (t.core p).pipe.pend = (s.core p).pipe.pend ∧
    (t.core p).fetch.pc = b.addr + 4 * b.size ∧ (t.core p).run.moved = true ∧ (t.core p).barrel.berths = 7) ∧
  (∀ (s : State) (p : Nat) (side : Bool) (b : Bundle), (s.core p).due = true → (s.core p).overdue p = true →
    (s.core p).nextBundle = .bundle side b → headerCause b = none → b.land = false ∨ (s.core p).trueLanding = false →
    Happens (.landingOverdue p) s
      (takeFault { s with cur := { agent := .core p, addr := b.addr, size := 1, slot := 6, word := 0 } } 0x05 (s.core p).run.lcnt)) ∧
  (∀ (s : State) (p : Nat) (f : Fetch) (g : Segment), f = (s.core p).fetch → halfOf (s.core p) f.side = some g → g.stop = false →
    g.next % 4 = 0 → (∀ o, halfOf (s.core p) (!f.side) = some o → o.addr ≠ g.next ∧ (o.pin = false ∨ (s.core p).loopIn o = false) ∧
      (f.fell = true ∨ g.starts f.pc = true ∨ o.starts f.pc = false)) →
    ∃ t : State, Happens (.segmentPrefetch p) s t ∧ halfOf (t.core p) (!f.side) = some (readSegment s p g.next) ∧
      halfOf (t.core p) f.side = some g ∧ (t.core p).fetch.pc = f.pc ∧ (t.core p).files = (s.core p).files ∧ t.mem = s.mem) ∧
  (∀ (s : State) (p a : Nat) (side : Bool), (s.core p).nextBundle = .miss → (s.core p).fetch.next = .ok a →
    (halfOf (s.core p) (s.core p).fetch.side = none ∨ ∃ n : Nat, (s.core p).run.stall = some ⟨1, a, n⟩) →
    side = (if halfOf (s.core p) (s.core p).fetch.side = none then (s.core p).fetch.side else !(s.core p).fetch.side) →
    ∃ t : State, Happens (.segmentMiss p) s t ∧ halfOf (t.core p) side = some (readSegment s p (a - 16)) ∧
      halfOf (t.core p) (!side) = halfOf (s.core p) (!side) ∧ (t.core p).files = (s.core p).files ∧ t.mem = s.mem) ∧
  (∀ (s : State) (p n v refill resv pr : Nat), (s.core p).run.sailing = some n → (s.sailing n).running = true →
    ((s.core p).run.t + 1) % 1024 = 0 → v = (if (s.sailing n).tollr = 0 then 0x018000 * 2 ^ 24 + 0x020000 else (s.sailing n).tollr) →
    refill = (match (s.pkgs.get {} (pkgOf p)).cap with | some x => min (v % 2 ^ 24) x.1 | none => v % 2 ^ 24) →
    resv = (match (s.pkgs.get {} (pkgOf p)).cap with | some x => min (v / 2 ^ 24) x.2 | none => v / 2 ^ 24) →
    pr = max (min resv refill) 96 → ∃ t : State, Happens (.tollPeriodBoundary p) s t ∧
      (t.core p).ctl.purse = min ((s.core p).ctl.purse + pr) 0xFFFFFF ∧ (t.core p).ctl.tolls = refill - pr ∧
      (t.core p).ctl.refill = refill ∧ (t.core p).ctl.resv = resv ∧ (t.core p).files = (s.core p).files ∧ t.mem = s.mem)

/-! ## The barrel -/

namespace Sys2Proof.Claims

/-- Context j of core p is ready with bundle b, whose header is good for a skiff and whose one operation is of class k, with its words (05 R162, R163). -/
def ReadySkiff (s : State) (p : Nat) (j : BitVec 3) (b : Bundle) (k : SlotClass) (w e : Code) : Prop :=
  (s.skiff p j).occupied = true ∧ (s.skiff p j).wait = .none ∧ (s.skiff p j).buf = some b ∧ skiffHeaderCause b = none ∧
    skiffClass b.hdr = some k ∧ b.words.headD 0 = w ∧ (b.words.drop 1).headD 0 = e ∧ (s.skiff p j).cmask.getLsbD (berthNo k) = true

/-- Core p's primary has issued or stalled in this cycle, and the bundle left the berth of class k open (05 R164). -/
def BerthOpen (s : State) (p : Nat) (k : SlotClass) : Prop :=
  (s.core p).run.faulted = false ∧ (s.core p).run.stopped = 0 ∧ (s.core p).run.moved = true ∧
    (s.core p).barrel.berths.getLsbD (berthNo k) = true

/-- The value that a completed operation leaves in a skiff's register. -/
def skiffLanding (k : Skiff) (r : BitVec 5) : Option Word := ((k.landS.filter fun x => x.1 == r).getLast?).map (·.2)

/-- Context j goes before context i for a berth of cycle t (05 R165): an OWED one before one that is not, of two OWED ones the longer owed, else the next in rotation
from RPTR, which is t mod 8. -/
def GoesFirst (s : State) (p : Nat) (j i : BitVec 3) : Prop :=
  let k := s.skiff p j
  let l := s.skiff p i
  let turn (x : BitVec 3) : Nat := (x.toNat + 8 - (s.core p).run.t % 8) % 8
  (k.owed = true ∧ l.owed = false) ∨
    (k.owed = l.owed ∧ ((k.owed = true ∧ k.owedAt < l.owedAt) ∨ ((k.owed = true → k.owedAt = l.owedAt) ∧ turn j < turn i)))

/-- Byte a of memory has value b in a dirty byte of core p's skiff cache. -/
def DirtyByte (s : State) (p a : Nat) (b : Byte) : Prop :=
  ∃ l ∈ (s.core p).barrel.cache, ∃ i < 64, l.dirty.getLsbD i = true ∧ a = 64 * l.line + i ∧ b = l.data.extractLsb' (8 * i) 8

/-- The dirty bytes of core p's skiff cache in s, and no others, have been written to memory in t, and no line of the cache is dirty (01 R42, R43). -/
def WrittenBack (s t : State) (p : Nat) : Prop :=
  (∀ l ∈ (t.core p).barrel.cache, l.dirty = 0) ∧ (∀ a b, DirtyByte s p a b → t.mem.get a = b) ∧
    ∀ a, (∀ b, ¬ DirtyByte s p a b) → t.mem.get a = s.mem.get a

/-- A port request of core p can be served at once: no publication half or ring stops it, and its ports are free. -/
def PortFree (s : State) (p : Nat) (a : SkAccess) : Prop :=
  (s.core p).halfFault a.span.1 a.span.2 = none ∧ (s.core p).watermark a.span.1 a.span.2 = none ∧
    (portsOf ((s.core p).visible a.span.1) a.span.2).any (s.core p).run.used.contains = false

end Sys2Proof.Claims

/-- Of the ready contexts whose class finds its berth open and TOLLS rich enough, the one that goes first by OWED and rotation is granted: its operation runs with its PC at the
next bundle, its buffer empty and its toll paid, and the others are OWED. An operation completes at its cycle, when its results land, s0 excepted. A port request, of whatever
kind, is served, or is lost and the skiff tries again (05 R163 to R167, R170 to R172; 10 R310). That the CMASK of a context is tested with its header is log 3, and that the
compare of facq.w, facq.t and their writer-bit test fall where they do is log 75. -/
def Obligations.SkiffsAreGrantedAndComplete : Prop :=
  (∀ (s : State) (p : Nat) (j : BitVec 3) (b : Bundle) (k : SlotClass) (w e : Code), ReadySkiff s p j b k w e → BerthOpen s p k →
    b.cost ≤ (s.core p).ctl.tolls → (∀ i : BitVec 3, i ≠ j → (s.skiff p i).ready = none ∨ (GoesFirst s p j i ∧ ∃ (b' : Bundle) (w' e' : Code),
      ReadySkiff s p i b' k w' e' ∧ b'.cost ≤ (s.core p).ctl.tolls)) → ∃ v : State,
      (∀ i : BitVec 3, i ≠ j → (s.skiff p i).ready.isSome = true → (v.skiff p i).owed = true ∧ (v.skiff p i).buf = (s.skiff p i).buf) ∧
      v.mem = s.mem ∧ v.cur.agent = .skiff p j ∧ v.cur.addr = b.addr ∧ v.cur.size = b.size ∧ (v.skiff p j).pc = b.addr + 4 * b.size ∧
      (v.skiff p j).buf = none ∧ (v.skiff p j).s = (s.skiff p j).s ∧ (v.skiff p j).g = (s.skiff p j).g ∧
      (v.skiff p j).granted = (s.core p).run.t ∧ (v.skiff p j).owed = false ∧ (v.core p).ctl.tolls = (s.core p).ctl.tolls - b.cost ∧
      (v.core p).files = (s.core p).files ∧ (v.core p).pipe = (s.core p).pipe ∧
      ∀ t : State, SlotsRun none [(k, w, e)] v t → (∀ op va n x y d, (t.skiff p j).wait ≠ .walk op va n x y d) →
        Happens (.skiffBarrelGrant p) s t) ∧
  (∀ (s : State) (p u : Nat) (j : BitVec 3), (s.skiff p j).wait = .until u → u ≤ (s.core p).run.t → ∃ t : State,
    Happens (.skiffOpComplete p j.toNat) s t ∧ (t.skiff p j).wait = .none ∧ (t.skiff p j).landS = [] ∧ (t.skiff p j).landG = [] ∧
    (∀ r : BitVec 4, r ≠ 0 → (t.skiff p j).s[r.toNat] = (skiffLanding (s.skiff p j) (r.zeroExtend 5)).getD (s.skiff p j).s[r.toNat]) ∧
    (t.skiff p j).s[0] = (s.skiff p j).s[0] ∧ (t.skiff p j).pc = (s.skiff p j).pc ∧ t.mem = s.mem ∧
    (∀ i : BitVec 3, i ≠ j → t.skiff p i = s.skiff p i)) ∧
  (∀ (s : State) (p d : Nat) (j : BitVec 3) (a : SkAccess), (s.skiff p j).wait = .port a d → d ≤ (s.core p).run.t →
    (PortFree s p a → a.kind = .load → ∃ t : State, Happens (.skiffPortRequest p j.toNat) s t ∧
      (t.skiff p j).wait = .until ((s.core p).run.t + 5) ∧
      (t.skiff p j).landS = (s.skiff p j).landS ++ [(a.dst, BitVec.ofNat 64 (readSpad s p a.addr a.width))] ∧ t.mem = s.mem) ∧
    (PortFree s p a → a.kind = .store → ∃ t : State, Happens (.skiffPortRequest p j.toNat) s t ∧
      (t.skiff p j).wait = .until (s.core p).run.t ∧ (t.skiff p j).landS = (s.skiff p j).landS ∧
      t.mem = s.mem.write (spadBase p + (s.core p).visible a.addr) a.val.toNat a.width) ∧
    (∀ op : Nat, PortFree s p a → a.kind = .amo op → ∃ t : State, Happens (.skiffPortRequest p j.toNat) s t ∧
      (t.skiff p j).wait = .until ((s.core p).run.t + 7) ∧
      (t.skiff p j).landS = (s.skiff p j).landS ++ [(a.dst, BitVec.ofNat 64 (readSpad s p a.addr a.width))] ∧
      t.mem = s.mem.write (spadBase p + (s.core p).visible a.addr)
        (amoNew op a.width (readSpad s p a.addr a.width) (a.val.toNat % 2 ^ (8 * a.width)) a.val2.toNat) a.width) ∧
    (∀ sx : Bool, PortFree s p a → a.kind = .ldb sx → ∃ t : State, Happens (.skiffPortRequest p j.toNat) s t ∧
      (t.skiff p j).wait = .until ((s.core p).run.t + if straddles a.addr a.width then 6 else 5) ∧
      (t.skiff p j).landS = (s.skiff p j).landS ++ [(a.dst, extendBits sx (readBits s p a.addr a.width) a.width)] ∧ t.mem = s.mem) ∧
    (PortFree s p a → a.kind = .stb → ∃ t : State, Happens (.skiffPortRequest p j.toNat) s t ∧
      (t.skiff p j).wait = .until (s.core p).run.t ∧ (t.skiff p j).landS = (s.skiff p j).landS ∧
      t.mem = (writeBits s false p a.addr a.width a.val.toNat).mem) ∧
    (PortFree s p a → a.kind = .frel → ∃ t : State, Happens (.skiffPortRequest p j.toNat) s t ∧
      (t.skiff p j).wait = .until (s.core p).run.t ∧ t.mem = s.mem.write (spadBase p + (s.core p).visible a.addr) a.val.toNat 8) ∧
    (PortFree s p a → a.kind = .facqT → ∃ t : State, Happens (.skiffPortRequest p j.toNat) s t ∧
      (t.skiff p j).wait = .until ((s.core p).run.t + 1) ∧ t.mem = s.mem ∧
      (t.skiff p j).landG = (s.skiff p j).landG ++ [(a.dst.truncate 4, readSpad s p a.addr a.width == a.val.toNat)] ∧
      (2 ≤ a.scope → readSpad s p a.addr a.width = a.val.toNat → ∀ l ∈ (t.core p).barrel.cache, l.valid = l.dirty)) ∧
    (PortFree s p a → a.kind = .facqW → readSpad s p a.addr a.width = a.val.toNat → ∃ t : State, Happens (.skiffPortRequest p j.toNat) s t ∧
      (t.skiff p j).wait = .until (s.core p).run.t ∧ t.mem = s.mem ∧ (2 ≤ a.scope → ∀ l ∈ (t.core p).barrel.cache, l.valid = l.dirty)) ∧
    (∀ b : Bundle, PortFree s p a → a.kind = .facqW → readSpad s p a.addr a.width ≠ a.val.toNat → (s.skiff p j).last = some b → ∃ t : State,
      Happens (.skiffPortRequest p j.toNat) s t ∧ (t.skiff p j).wait = .until (s.core p).run.t ∧ (t.skiff p j).buf = some b ∧
      (t.skiff p j).pc = b.addr ∧ (t.core p).barrel.forfeit = (s.core p).barrel.forfeit ∧ t.mem = s.mem) ∧
    (∀ b : Bundle, (s.skiff p j).last = some b → (s.core p).halfFault a.span.1 a.span.2 = none →
      (s.core p).watermark a.span.1 a.span.2 = none →
      (s.core p).run.sailing.isSome = true → (portsOf ((s.core p).visible a.span.1) a.span.2).any (s.core p).run.used.contains = true → ∃ t : State,
      Happens (.skiffPortRequest p j.toNat) s t ∧ (t.skiff p j).wait = .until (s.core p).run.t ∧ (t.skiff p j).buf = some b ∧
      (t.skiff p j).pc = b.addr ∧ (t.core p).barrel.forfeit = (s.core p).barrel.forfeit + 1 ∧ t.mem = s.mem))

/-- An empty fetch buffer takes the bundle that stands at the PC, or its skiff faults; a line that arrives enters the cache; a walk that arrives
enters the TLB and lets the fetch go on; a migration writes the dirty bytes of the cache to memory, and the packed skiff leaves its context for an outbound slot, waiting
before that for a slot, for the invalidations of its core's writes and for its own commands (log 18, DEDUCED); an image that arrives takes a free
context or the inbox or is refused, and is sent again 64 cycles later; at the end of a core's part the dirty bytes are in memory and its cache is clean
(01 R33, R42, R43; 05 R163, R174 to R180, R183). That a message's flits cross links one by one, and where, is log 54. -/
def Obligations.SkiffsFetchMoveAndEnd : Prop :=
  (∀ (s : State) (p : Nat) (j : BitVec 3), (s.skiff p j).occupied = true → (s.skiff p j).buf = none →
    (s.skiff p j).wait.leaving = false → (s.skiff p j).fetchAt ≤ (s.core p).run.t →
    (∀ b, skiffBundle s p (s.skiff p j).pc = .ok b → ∃ t : State, Happens (.skiffFetch p j.toNat) s t ∧ (t.skiff p j).buf = some b ∧
      (t.skiff p j).pc = (s.skiff p j).pc ∧ (t.skiff p j).s = (s.skiff p j).s ∧ t.mem = s.mem) ∧
    (∀ va, skiffBundle s p (s.skiff p j).pc = .error (.bad va) →
      Happens (.skiffFetch p j.toNat) s (skiffFault s p j (s.core p).run.t (s.skiff p j).pc 6 0 0x0B va))) ∧
  (∀ (s : State) (p line : Nat), (s.core p).barrel.fills = [line] → (∀ (j : BitVec 3) va pa w d, (s.skiff p j).wait ≠ .fill va pa w d) →
    ∃ t : State, Happens (.skiffCacheFill p) s t ∧ (t.core p).barrel.fills = [] ∧ ∃ l ∈ (t.core p).barrel.cache, l.line = line ∧
      l.valid = BitVec.allOnes 64 ∧ ((s.core p).barrel.line (64 * line) = none → l.dirty = 0 ∧
        l.data = BitVec.ofNat 512 (s.readVia (dieOf p) (64 * line) 64))) ∧
  (∀ (s : State) (p va : Nat) (j : BitVec 3) (e : TlbEntry), (s.skiff p j).occupied = true → (s.skiff p j).wait = .none →
    (s.skiff p j).fetchWait = some (true, va) → (s.skiff p j).fetchWay.there = true → s.walk (s.core p).ctl.ptroot va = some e → ∃ t : State,
    Happens (.skiffTlbWalkResult p j.toNat) s t ∧ (t.core p).barrel.tlb.head? = some e ∧ (t.core p).barrel.tlb.length ≤ 256 ∧
    (t.skiff p j).fetchWait = none ∧ (t.skiff p j).fetchAt = (s.core p).run.t ∧ t.mem = s.mem) ∧
  (∀ (s : State) (p q : Nat) (j : BitVec 3) (old : Bool), (s.skiff p j).wait = .migrate q old → (∀ x ∈ (s.core p).sfu, x.ctx ≠ some j) →
    (old = true → (s.core p).barrel.out.length < 8 → s.owes p 0 = false → s.sqBusy p j 0xFFFF = false → (s.core p).barrel.inbox = [] →
      ∃ (t : State) (m : Message), Happens (.migrationPack p j.toNat) s t ∧ t.mem = s.mem ∧
      (t.skiff p j).occupied = false ∧ (t.core p).barrel.out = (s.core p).barrel.out ++ [m] ∧
      m.ways = List.replicate 3 { at_ := s.wall } ∧ m.refusedAt = none ∧
      m.bits.extractLsb' 0 16 = BitVec.ofNat 16 q ∧ m.bits.extractLsb' 16 16 = BitVec.ofNat 16 (s.core p).ctl.lid ∧
      m.bits.extractLsb' 32 8 = 1#8 ∧ m.bits.extractLsb' 40 88 = 0#88 ∧ m.bits.extractLsb' 1280 256 = 0#256 ∧
      m.image = { s.skiff p j with migs := min 255 ((s.skiff p j).migs + 1) }.image ∧
      (t.core p).barrel.migOut = (s.core p).barrel.migOut + 1) ∧
    (old = true → 8 ≤ (s.core p).barrel.out.length ∨ s.owes p 0 = true ∨ s.sqBusy p j 0xFFFF = true → ∃ t : State,
      Happens (.migrationPack p j.toNat) s t ∧ (t.skiff p j).occupied = (s.skiff p j).occupied ∧ (t.skiff p j).wait = .migrate q true ∧
      (t.core p).barrel.out = (s.core p).barrel.out ∧ t.mem = s.mem) ∧
    (old = false → 8 ≤ (s.core p).barrel.out.length → MemoryCanonical s → ((s.core p).barrel.cache.map (·.line)).Nodup → ∃ t : State,
      Happens (.migrationPack p j.toNat) s t ∧ (t.skiff p j).occupied = (s.skiff p j).occupied ∧ (t.skiff p j).wait = .migrate q true ∧
      (t.core p).barrel.out = (s.core p).barrel.out ∧ WrittenBack s t p) ∧
    (old = false → MemoryCanonical s → ((s.core p).barrel.cache.map (·.line)).Nodup → ∃ t : State,
      Happens (.migrationPack p j.toNat) s t ∧ WrittenBack s t p)) ∧
  (∀ k : Skiff, k.home < 2 ^ 16 → k.migs < 2 ^ 8 → k.pc < 2 ^ 48 → (Skiff.ofImage k.image).home = k.home ∧
    (Skiff.ofImage k.image).migs = k.migs ∧ (Skiff.ofImage k.image).cmask = k.cmask ∧ (Skiff.ofImage k.image).pc = k.pc ∧
    (Skiff.ofImage k.image).occupied = true ∧ (∀ r : BitVec 4, r ≠ 0 → (Skiff.ofImage k.image).s[r.toNat] = k.s[r.toNat]) ∧
    (∀ r : BitVec 2, r ≠ 0 → (Skiff.ofImage k.image).g[r.toNat] = k.g[r.toNat])) ∧
  (∀ (s : State) (p q : Nat) (m : Message), (s.core p).barrel.out = [m] → m.refusedAt = none → m.ways.all (·.there) = true → q = s.coreAt p m.target → q ≠ p →
    (∀ j : BitVec 3, (s.core q).barrel.freeSlot = some j → (s.core q).barrel.inbox = [] → ∃ t : State,
      Happens (.migrationMessage p) s t ∧ (t.skiff q j).occupied = true ∧ (t.skiff q j).s = (Skiff.ofImage m.image).s ∧
      (t.skiff q j).g = (Skiff.ofImage m.image).g ∧ (t.skiff q j).pc = (Skiff.ofImage m.image).pc ∧
      (t.skiff q j).home = (Skiff.ofImage m.image).home ∧ (t.skiff q j).migs = (Skiff.ofImage m.image).migs ∧
      (t.core p).barrel.out = [] ∧ (t.core q).barrel.migIn = (s.core q).barrel.migIn + 1 ∧ t.mem = s.mem) ∧
    ((s.core q).barrel.freeSlot = none → (s.core q).barrel.inbox.length < 4 → ∃ t : State, Happens (.migrationMessage p) s t ∧
      (t.core q).barrel.inbox = (s.core q).barrel.inbox ++ [m.image] ∧ (t.core p).barrel.out = []) ∧
    ((s.core q).barrel.freeSlot = none → 4 ≤ (s.core q).barrel.inbox.length → ∃ t : State, Happens (.migrationMessage p) s t ∧
      (t.core p).barrel.out = [{ m with refusedAt := some (s.core p).run.t }] ∧ t.core q = s.core q)) ∧
  (∀ (s : State) (p : Nat), ∃ t : State, Happens (.migrationResend p) s t ∧
    (t.core p).barrel.out = (s.core p).barrel.out.map (fun m => match m.refusedAt with
      | some u => if u + 64 ≤ (s.core p).run.t then { m with refusedAt := none, ways := List.replicate 3 { at_ := s.wall } } else m
      | none => m) ∧ (∀ q : Nat, q ≠ p → t.core q = s.core q) ∧ t.mem = s.mem) ∧
  (∀ (s : State) (p n : Nat), (s.core p).run.sailing = some n → (s.core p).finished (s.sailing n).task = true →
    (s.core p).barrel.empty = true → (s.core p).run.ended = false → MemoryCanonical s → ((s.core p).barrel.cache.map (·.line)).Nodup →
    ∃ t : State, Happens (.corePartEnd p) s t ∧ (t.core p).run.ended = true ∧ WrittenBack s t p ∧ (t.core p).files = (s.core p).files)

/-! ## Engines -/

namespace Sys2Proof.Claims

/-- A command's sender is a core of its sailing that no save has taken away. -/
def Live (s : State) (sn : Option Nat) (p : Nat) : Prop := (s.core p).run.sailing = sn ∧ ∀ n, sn = some n → (s.sailing n).saved = []

/-- Core p has no command number id in flight. -/
def Gone (t : State) (p id : Nat) : Prop := ∀ f ∈ (t.core p).flight, f.id ≠ id

/-- The time of core p's sailing. -/
def now (s : State) (p : Nat) : Nat := (s.core p).run.t

/-- A bulk exchange of flits with a channel (10 R317). -/
def isExchange (i : Instr) : Bool := match i with | .chs _ _ _ _ | .chv _ _ _ _ => true | _ => false

/-- An execution of a sequencer takes part in this cycle: it has started, alone of what the sequencer holds, or it is the first and its start conditions hold. -/
def Steps (s : State) (p : Nat) (r : VRun) (rest : List VRun) : Prop :=
  (s.core p).vec.runs = r :: rest ∧ (∀ x ∈ rest, x.started = none ∧ x.id ≠ r.id) ∧
    (r.started = none ∧ mayStart (s.core p) p [] r = true ∨ r.started.isSome = true ∧ rest = [])

/-- Core p has no publication entry. -/
def NoEntries (s : State) (p : Nat) : Prop := ∀ e ∈ (s.core p).pmap, e.v = false

/-- No port of any scratchpad has been taken in this cycle (04 R123). -/
def AllPortsFree (s : State) : Prop := ∀ q : Nat, (s.core q).run.used = []

/-- Words of sub-banks find their ports together: no port that one of them needs is taken, and no two of them need one port (04 R122, R123). -/
def PortsFor (s : State) (ws : Held) : Prop :=
  (∀ a ∈ ws, portNo a.2.1 ∉ (s.core a.1).run.used) ∧ ∀ a ∈ ws, ∀ b ∈ ws, a.1 = b.1 → portNo a.2.1 = portNo b.2.1 → a = b

/-- Every word of some ranges, of which a unit has accessed k, has its port in this cycle, and u is the state in which they are taken (04 R123). -/
def Served (s : State) (ws : List (Bool × Nat × Nat)) (k : Nat) (u : State) : Prop := ∃ n, s.serveWords ws k 64 = (u, n) ∧ wordIn ws n = none

end Sys2Proof.Claims

/-- An execution of the sequencer starts once its conditions hold and then goes on cycle by cycle: in each it reads the elements of that cycle and
writes those of that cycle, and it goes on to the next where every one has performed; a read that faults stops it and what follows it, behind the elements below it. Once its last
write has performed its quire register changes and its command has completed. A chs without room in its send buffer and a chv without a flit are delayed by the cycle. The oldest
special-function request is served in a cycle in which no vsf needs the unit and the port of its result is free (06 R188 to R192, R219, R220, R222; 10 R317; 02 R82; that its port may be
taken is the model's reading, log 10). -/
def Obligations.TheSequencerRunsItsEntries : Prop :=
  (∀ (s : State) (p : Nat) (rest : List VRun) (r : VRun), Steps s p r rest → isExchange r.op = false → r.pace < r.busy + r.depth →
    (r.faultAt s p = none → ∃ (t : State) (r' : VRun) (rest' : List VRun), Happens (.vectorEntryStart p) s t ∧
      (t.core p).vec.runs = r' :: rest' ∧ rest'.map (·.id) = rest.map (·.id) ∧ r'.started = some (r.started.getD (now s p)) ∧ r'.id = r.id ∧
      r'.op = r.op ∧ r'.hd = r.hd ∧ (∀ x ∈ r.got, x ∈ r'.got) ∧
      (∀ x ∈ r'.got, x ∉ r.got → (x.opn, x.n) ∈ r.readsAt r.pace ∧ (NoEntries s p → x.raw =
        readField s p ((r.shape x.opn).field r.cap.bfmt r.rep x.n).1 ((r.shape x.opn).field r.cap.bfmt r.rep x.n).2)) ∧
      (r'.pace = r.pace ∨ r'.pace = r.pace + 1 ∧ r'.put = [] ∧ ∀ e ∈ r.readsAt r.pace, ∃ x ∈ r'.got, (x.opn, x.n) = e) ∧
      (r.writesAt r.pace = [] → t.mem = s.mem) ∧ (t.core p).files = (s.core p).files) ∧
    (∀ m code detail, r.faultAt s p = some (m, code, detail) → (∀ e ∈ r.todo, m ≤ e.2) → ∃ t : State, Happens (.vectorEntryStart p) s t ∧
      (t.core p).vec.runs = [] ∧ (t.core p).run.faulted = true ∧ (t.core p).run.live = false ∧ Gone t p r.id ∧
      (t.core p).files = (s.core p).files)) ∧
  (∀ (s : State) (p n k : Nat) (r : VRun) (hs : Halves) (b w : Nat), Steps s p r [] → r.started.isSome = true → isExchange r.op = false →
    r.pace < r.busy + r.depth → r.readsAt r.pace = [] → r.writesAt r.pace = [n] → r.put = [] → (s.core p).run.used = [] →
    (b, w) = (r.shape 0).field r.cap.bfmt r.rep n → k = min r.grain ((r.shape 0).total - n) →
    hs = r.halves.fix s (named p [(b / 8, (b + w + 7) / 8)]) → ∃ (t : State) (r' : VRun), Happens (.vectorEntryStart p) s t ∧
      t.mem = (s.perform false (r.encoded ((s.seen hs).core p) p n k).1).mem ∧
      (t.core p).ctl.fanom = min 0xFFFFFFFF ((s.core p).ctl.fanom + (r.encoded ((s.seen hs).core p) p n k).2) ∧
      (t.core p).vec.runs = [r'] ∧ r'.pace = r.pace + 1 ∧ r'.got = r.got ∧ r'.halves = hs) ∧
  (∀ (s : State) (p : Nat) (r : VRun), (s.core p).vec.runs = [r] → r.started.isSome = true → isExchange r.op = false →
    r.busy + r.depth ≤ r.pace → ∃ t : State, Happens (.vectorEntryComplete p) s t ∧ (t.core p).vec.runs = [] ∧ Gone t p r.id ∧
    (∀ (k : BitVec 2) (q : VQuire), r.leaves = some (k.toNat, q) → (t.core p).vec.vq[k.toNat] = q) ∧
    (r.leaves = none → (t.core p).vec.vq = (s.core p).vec.vq) ∧ (t.core p).files = (s.core p).files ∧ t.mem = s.mem) ∧
  (∀ (s : State) (p n i : Nat) (r : VRun) (ch : Chan), (s.core p).vec.runs = [r] → r.started.isSome = true → r.faultAt s p = none →
    r.pace < r.busy → runChannel s p r = some (n, i, ch) →
    (∀ g d e c, r.op = .chs g d e c ∧ ch.hasRoom = false ∨ r.op = .chv g d e c ∧ ch.head (now s p) = none ∧ r.flits.length ≤ r.pace → ∃ t : State,
      Happens (.vectorEntryStart p) s t ∧ (t.core p).vec.runs = [{ r with slip := r.slip + 1 }] ∧ t.mem = s.mem ∧ t.sailings = s.sailings)) ∧
  (∀ (s : State) (p : Nat) (q : SfuReq) (rest : List SfuReq), (s.core p).sfu = q :: rest →
    ((s.core p).sfuTaken = false → (s.core p).run.used = [] → MemoryCanonical s → ∃ t : State, Happens (.sfuRequestServe p) s t ∧ (t.core p).sfu = rest ∧
      t.mem.read (spadBase p + (s.core p).visible q.raddr) 8 = (2 ^ 63 + sfResult q.fn q.cr f32 (decodeFloat f32 q.arg)) % 2 ^ 64 ∧
      (t.core p).files = (s.core p).files) ∧
    ((s.core p).sfuTaken = true ∨ (s.core p).run.sailing.isSome = true ∧ (∃ n ∈ portsOf ((s.core p).visible q.raddr) 8, n ∈ (s.core p).run.used) →
      Happens (.sfuRequestServe p) s s))

/-- A lease that has ended goes, and one that nobody holds goes to the first core that asks for it after the last holder, in the same cycle. The quad's next command starts
once its conditions hold and its first accesses have their ports, or faults; writes that are due perform where their ports are free, or delay the command by the cycle; one whose last
cycle has come completes. A macro command takes a step, or a store, for 16 tolls, once for each, or waits for them; a step waits for its core where that has halted for pre-emption.
mdld and mdst move 64 bytes a cycle in which their port is free (04 R123; 07 R226, R227, R235, R236, R257 to R263; 08 R268; 10 R310). A lease that ends with the cycle has a code of
its own (log 52), a command's halves are fixed with its first access (log 57), and a delay holds up the command and those behind it (log 10): these are the model's readings. -/
def Obligations.TheArrayRunsItsCommands : Prop :=
  (∀ (s : State) (q : Nat) (lease : Nat → Nat), (∀ i, lease i = (s.core (4 * q + i % 4)).run.lease) →
    (∀ k, k < 4 → lease ((s.quad q).last + 1 + k) = 1 → (∀ i, lease i ≠ 2) → (∀ j, j < k → lease ((s.quad q).last + 1 + j) ≠ 1) →
      ∃ t : State, Happens (.leaseGrant q) s t ∧ (t.core (4 * q + ((s.quad q).last + 1 + k) % 4)).run.lease = 2 ∧
        (t.quad q).last = ((s.quad q).last + 1 + k) % 4 ∧ (t.quad q).tiles = (s.quad q).tiles ∧ t.mem = s.mem ∧
        (∀ i : Nat, lease i = 3 → (t.core (4 * q + i % 4)).run.lease = 0) ∧
        (∀ p : Nat, p ≠ 4 * q + ((s.quad q).last + 1 + k) % 4 → (∀ i, lease i = 3 → p ≠ 4 * q + i % 4) → t.core p = s.core p)) ∧
    ((∃ i, lease i = 2) → (∀ i, lease i ≠ 3) → Happens (.leaseGrant q) s s)) ∧
  (∀ (s : State) (q i : Nat), i < 4 → (s.core (4 * q + i)).run.lease = 3 → ∃ t : State, Happens (.leaseGrant q) s t ∧
    (t.core (4 * q + i)).run.lease = 0 ∧ t.mem = s.mem) ∧
  (∀ (s : State) (q : Nat) (es rest : List ACmd) (x : ACmd), (s.quad q).cmds = es ++ x :: rest →
    (∀ e ∈ es, e.started.isSome = true ∧ e.staging = false ∧ ∀ y ∈ e.puts, now s e.core < y.due) →
    x.started = none → mayBegin s (s.quad q) es x (now s x.core) = true →
    (∀ (u : State) (y : ACmd), seeing s x (fun v => beginCmd v q x) = .ok u y → ∃ t : State, Happens (.arrayCommandStart q) s t ∧ t.mem = u.mem ∧
      (t.quad q).tiles = (u.quad q).tiles ∧ (t.quad q).a = (u.quad q).a ∧ (t.quad q).b = (u.quad q).b ∧
      (t.quad q).freeAt = now s x.core + (if isMacro x.op then 1 else y.busy) ∧
      (t.quad q).cmds = (u.quad q).cmds.map (fun c => if c.core = y.core ∧ c.id = y.id then
        { y with part := {}, started := some (now s x.core), at_ := if isMacro x.op then now s x.core else now s x.core + 1,
                 done := if isMacro x.op then none else some (now s x.core + y.busy - 1 + y.depth) } else c)) ∧
    (∀ (u : State) (y : ACmd), seeing s x (fun v => beginCmd v q x) = .later u y → ∃ t : State, Happens (.arrayCommandStart q) s t ∧ t.mem = u.mem ∧
      (t.quad q).cmds = (u.quad q).cmds.map (fun c => if c.core = y.core ∧ c.id = y.id then y else c)) ∧
    (seeing s x (fun v => beginCmd v q x) = .wait → Happens (.arrayCommandStart q) s s) ∧
    (∀ code detail, seeing s x (fun v => beginCmd v q x) = .fault code detail → Happens (.arrayCommandStart q) s (arrayFault s q x code detail))) ∧
  (∀ (s : State) (q : Nat) (x : ACmd) (hs : Halves), (s.quad q).cmds = [x] → x.started.isSome = true → x.staging = false → x.puts ≠ [] →
    (∀ y ∈ x.puts, y.due ≤ now s x.core) → PortsFor s (x.puts.flatMap fun y => y.need ((s.seen x.halves).core x.core) x.core) →
    hs = x.halves.fix s (x.puts.flatMap fun y => named x.core [(y.bit / 8, (y.bit + y.w + 7) / 8)]) →
    ∃ t : State, Happens (.arrayCommandStart q) s t ∧ (t.quad q).cmds = [{ x with puts := [], halves := hs }] ∧
    t.mem = (s.perform false (x.puts.flatMap fun y => fieldWrs ((s.seen hs).core x.core) x.core y.bit y.w y.val y.poison)).mem ∧
    (t.core x.core).ctl.fanom = min 0xFFFFFFFF ((s.core x.core).ctl.fanom + (x.puts.map (·.anom)).sum) ∧
    (t.quad q).tiles = (s.quad q).tiles ∧ (t.quad q).freeAt = (s.quad q).freeAt) ∧
  (∀ (s : State) (q e w : Nat) (x : ACmd) (y : Put), (s.quad q).cmds = [x] → x.started.isSome = true → x.staging = false → x.puts = [y] → x.done = some e →
    now s x.core ≤ e → y.due ≤ now s x.core → (x.core, w, true) ∈ y.need ((s.seen x.halves).core x.core) x.core → (s.core x.core).run.sailing.isSome = true →
    portNo w ∈ (s.core x.core).run.used → ∃ (t : State) (z : ACmd), Happens (.arrayCommandStart q) s t ∧ (t.quad q).cmds = [z] ∧ z.puts = [y] ∧
    z.done = some (e + 1) ∧ z.started = x.started ∧ t.mem = s.mem ∧
    (t.quad q).freeAt = (if now s x.core < (s.quad q).freeAt then (s.quad q).freeAt + 1 else (s.quad q).freeAt)) ∧
  (∀ (s : State) (q u e : Nat) (x : ACmd), (s.quad q).cmds = [x] → x.started = some u → x.done = some e → e ≤ now s x.core →
    ∃ t : State, Happens (.arrayCommandComplete q) s t ∧ (t.quad q).cmds = [] ∧ t.mem = s.mem ∧ Gone t x.core x.id ∧
    (∀ (k : BitVec 2) (v : BitVec 24576), x.mdw = some (k.toNat, v) → (t.core x.core).files.md[k.toNat] = v) ∧
    (t.quad q).tiles = (s.quad q).tiles) ∧
  (∀ (s : State) (q : Nat) (x : ACmd) (first : Bool), (s.quad q).cmds.find? (·.running) = some x →
    first = decide (x.step < x.steps ∧ x.step = 0 ∧ x.entry = 0) →
    (now s x.core < x.at_ → Happens (.macroKStep q) s s) ∧
    ((s.core x.core).run.stopped = 1 → x.step < x.steps → Happens (.macroKStep q) s s) ∧
    (first = false → x.part.paid = false → (s.core x.core).ctl.purse < 16 → Happens (.macroKStep q) s s) ∧
    (x.at_ ≤ now s x.core → (s.core x.core).run.stopped ≠ 1 ∨ x.steps ≤ x.step → first = true ∨ x.part.paid = true ∨ 16 ≤ (s.core x.core).ctl.purse →
      ∀ o : Began, o = seeing s x (fun v =>
        let u := if x.part.paid || first then v else v.modCore x.core fun c => { c with ctl := { c.ctl with purse := c.ctl.purse - 16 } }
        if x.steps ≤ x.step then macroStore u q x else macroStep u q x) →
      (o = .wait → Happens (.macroKStep q) s s) ∧
      (∀ (v : State) (y : ACmd), o = .later v y → ∃ t : State, Happens (.macroKStep q) s t ∧ t.mem = v.mem ∧ (t.quad q).tiles = (v.quad q).tiles ∧
        (t.core x.core).ctl = (v.core x.core).ctl ∧
        (t.quad q).cmds = (v.quad q).cmds.map fun c => if c.core = y.core ∧ c.id = y.id then { y with part := { y.part with paid := true } } else c) ∧
      (∀ code detail, o = .fault code detail → Happens (.macroKStep q) s (arrayFault s q x code detail)) ∧
      (∀ (v : State) (y : ACmd), o = .ok v y → ∃ t : State, Happens (.macroKStep q) s t ∧ t.mem = v.mem ∧ (t.quad q).tiles = (v.quad q).tiles ∧
        (t.quad q).a = (v.quad q).a ∧ (t.quad q).b = (v.quad q).b ∧ (t.core x.core).files = (v.core x.core).files ∧
        (t.core x.core).ctl = (v.core x.core).ctl))) ∧
  (∀ (s : State) (p : Nat) (x : MdMove) (k : BitVec 2) (v : BitVec 24576) (hs : Halves),
    hs = x.halves.fix s (named p [(x.addr + 64 * x.done, x.addr + 64 * x.done + 64)]) →
    v = x.data ||| BitVec.ofNat 24576 (moveChunk (s.seen x.halves) p (x.addr + 64 * x.done) * 2 ^ (512 * x.done)) → (s.core p).moves = [x] → x.reg = k.toNat → x.issued + 1 + x.done ≤ now s p →
    x.addr % 64 = 0 → x.addr + 3072 ≤ 2 ^ 23 → AllPortsFree s →
    (x.load = true → (s.core p).blocked p x.id x.oc .metadata [(spadBase p + x.addr, spadBase p + x.addr + 3072)] [] = false →
      tagGate s p x.tags = .go → readGate ((s.seen x.halves).core p) (x.addr + 64 * x.done) 64 = .go → ∃ t : State, Happens (.mdldWrite p) s t ∧ t.mem = s.mem ∧
      (x.done < 47 → (t.core p).moves = [{ x with done := x.done + 1, data := v, halves := hs, tags := [] }] ∧ (t.core p).files = (s.core p).files) ∧
      (x.done = 47 → (t.core p).moves = [] ∧ Gone t p x.id ∧ (t.core p).files.md[k.toNat] = v)) ∧
    (x.load = false → (s.core p).blocked p x.id x.oc .metadata [] [(spadBase p + x.addr, spadBase p + x.addr + 3072)] = false →
      MemoryCanonical s → ∃ t : State, Happens (.mdstComplete p) s t ∧
      t.mem.read (spadBase p + ((s.seen x.halves).core p).shadow (x.addr + 64 * x.done)) 64 = x.data.toNat / 2 ^ (512 * x.done) % 2 ^ 512 ∧
      (x.done < 47 → (t.core p).moves = [{ x with done := x.done + 1, halves := hs }]) ∧ (x.done = 47 → (t.core p).moves = [] ∧ Gone t p x.id))) ∧
  (∀ (s : State) (p : Nat) (x : MdMove), (s.core p).moves = [x] → x.addr % 64 = 0 → (s.core p).run.sailing.isSome = true →
    (x.load = true → tagGate s p x.tags = .go → readGate ((s.seen x.halves).core p) (x.addr + 64 * x.done) 64 = .go →
      portNo (((s.seen x.halves).core p).visible (x.addr + 64 * x.done) / 64) ∈ (s.core p).run.used → Happens (.mdldWrite p) s s) ∧
    (x.load = false → x.addr + 3072 ≤ 2 ^ 23 → p < helmBase → portNo (((s.seen x.halves).core p).shadow (x.addr + 64 * x.done) / 64) ∈ (s.core p).run.used → Happens (.mdstComplete p) s s))

/-- A bound port reads its next element; a refill sets its ring up, writes elements whose ports are free and advances FILLED, or marks its channel when a read fails; a
copy is accepted, started and run by its Lighter until it has landed, and publishes at the end of that cycle (04 R122, R123, R134, R135; 09 R271 to R274, R279 to R283, R288). That a
port reads one element a cycle (log 62, DESIGN CHOICE), that a Lighter fixes its handle's halves at its start (log 57, DEDUCED) and how many elements go on together
(log 5, DESIGN CHOICE) are the model's. -/
def Obligations.StreamsMoveTheirElements : Prop :=
  (∀ (s : State) (p a w : Nat) (i : BitVec 2) (q : Port), q = (s.core p).ports[i.toNat] →
    (∀ k : BitVec 2, k ≠ i → (s.core p).ports[k.toNat].bound = false) → q.bound = true → q.fetched < q.total → q.buf.length < 8 →
    q.fault = none → q.at_ < now s p → q.desc.conv = false → a = q.desc.at_ q.fetched → w = q.desc.width →
    (s.core p).blocked p q.seq q.desc.oc .stream [(spadBase p + a, spadBase p + a + w)] [] = false → tagGate s p q.expects = .go →
    readGate ((s.seen q.halves).core p) a w = .go → (s.core p).run.used = [] → ∃ t : State, Happens (.streamPortRefill p) s t ∧
      (t.core p).ports[i.toNat] = { q with expects := [], fetched := q.fetched + 1,
                                           buf := q.buf ++ [extendBits q.desc.sx (readSpad (s.seen q.halves) p a w) (8 * w)],
                                           halves := q.halves.fix s [(spadBase p + a, spadBase p + a + w)] } ∧
      t.mem = s.mem ∧ (t.core p).files = (s.core p).files) ∧
  (∀ (s : State) (p : Nat) (n : BitVec 3) (x : CopyCmd) (rest : List CopyCmd), (s.core p).refills[n.toNat] = x :: rest → x.started = false →
    { x with started := true, bfs := x.formats s (Layout.of x.rec_) }.fault s (Layout.of x.rec_) true = none →
    ∃ (t : State) (y : CopyCmd), Happens (.refillStart p n.toNat) s t ∧ (t.core p).refills[n.toNat] = y :: rest ∧ y.started = true ∧
      y.id = x.id ∧ y.rec_ = x.rec_ ∧ y.done = x.done ∧ (t.core p).wmc[n.toNat].act = true ∧ (t.core p).wmc[n.toNat].filled = 0 ∧
      (t.core p).wmc[n.toNat].rbase = (Layout.of x.rec_).dest ∧
      (t.core p).wmc[n.toNat].rlen = ringLen (Layout.of x.rec_).total (wordBits (bankWord x.cap.bfmt (Layout.of x.rec_).dest)) ∧
      t.mem = s.mem) ∧
  (∀ (s u : State) (p w : Nat) (n : BitVec 3) (x : CopyCmd) (rest : List CopyCmd) (l : Layout) (r : List Elt × List Wr × Nat) (rd : Held),
    (s.core p).refills[n.toNat] = x :: rest → l = Layout.of x.rec_ → w = wordBits (bankWord x.cap.bfmt l.dest) → x.started = true →
    u = { s with freeIx := s.freeIx + 1 } → x.carried s true = true → (s.core p).cycleElements w ≠ 0 →
    (s.core p).blocked p x.id l.oc .stream [] [] = false → tagGate s p x.tags = .go → x.done < l.total → Live s x.sailing p → x.core = p →
    elementHeld u x l true x.done = false → copyElement u x l true x.done = .ok r →
    rd = (if x.half then [] else sourceNeed (u.seen x.halves) x l true x.done) →
    (samePort rd (writeNeed r.2.1) = false → PortsFor s (rd ++ writeNeed r.2.1) → ∃ (t : State) (m j : Nat), Happens (.watermarkAdvance p n.toNat) s t ∧
      x.done < m ∧ m ≤ l.total ∧ (t.core p).wmc[n.toNat].filled = (m - j) * w / 8 ∧
      (l.conv = false ∨ fmtCode (bankWord x.cap.bfmt l.dest) ≠ 0x09 → j = 0) ∧ (x.got.length < 4 → j < 4) ∧
      (x.done + 1 = l.total → t.mem = (s.performBy (.core p l.oc) false r.2.1).mem) ∧
      (m = l.total → (t.core p).refills[n.toNat] = rest.map (fun y => { y with follows := true }) ∧ Gone t p x.id)) ∧
    (samePort rd (writeNeed r.2.1) = true → PortsFor s rd → ∃ t : State, Happens (.watermarkAdvance p n.toNat) s t ∧
      (t.core p).refills[n.toNat] = { x with half := true } :: rest ∧ t.mem = s.mem)) ∧
  (∀ (s : State) (p va : Nat) (n : BitVec 3) (x : CopyCmd) (rest : List CopyCmd), (s.core p).refills[n.toNat] = x :: rest →
    x.started = true → Live s x.sailing p → (s.core p).blocked p x.id (Layout.of x.rec_).oc .stream [] [] = false →
    elementHeld s x (Layout.of x.rec_) true x.done = false → tagGate s p x.tags = .go → x.got = [] →
    copyElement s x (Layout.of x.rec_) true x.done = .error (.badSrc va) ∨ copyElement s x (Layout.of x.rec_) true x.done = .error (.poison va) → ∃ t : State, Happens (.refillFault p n.toNat) s t ∧
      (t.core p).wmc[n.toNat].flt = true ∧ (t.core p).wmc[n.toNat].faddr = va ∧
      (t.core p).refills[n.toNat] = rest.map (fun y => { y with follows := true }) ∧ Gone t p x.id ∧
      (t.core p).run = (s.core p).run ∧ t.mem = s.mem) ∧
  (∀ (s : State) (k : Nat) (x : CopyCmd), (s.lighters.get [] k).filter (!·.accepted) = [x] → ∃ t : State, Happens (.lighterAccept k) s t ∧
    t.lighters.get [] k = (s.lighters.get [] k).filter (·.accepted) ++ [{ x with accepted := true }] ∧ t.mem = s.mem ∧ t.cores = s.cores) ∧
  (∀ (s : State) (k : Nat) (before after : List CopyCmd) (x y : CopyCmd) (l : Layout), s.lighters.get [] k = before ++ x :: after →
    (∀ z ∈ before, z.accepted = false ∨ z.started = true) → (∀ z ∈ before ++ after, z.id ≠ x.id ∨ z.core ≠ x.core ∨ z.sailing ≠ x.sailing) →
    ((before ++ x :: after).filter (·.started)).length < 4 → x.accepted = true → x.started = false → l = Layout.of x.rec_ →
    y = { x with started := true, bfs := x.formats s l } →
    (l.dkind = true → x.dest = none → y.fault s l false = none → ∃ t : State, Happens (.lighterStart k) s t ∧
      t.lighters.get [] k = before ++ y :: after ∧ t.mem = s.mem ∧ t.cores = s.cores) ∧
    (l.dkind = true → ∀ code detail, y.fault s l false = some (code, detail) → Happens (.lighterStart k) s (lighterFault s k y code detail)) ∧
    (l.dkind = false → ∀ h, resolveHandle s y l = .ok h → { y with dest := some h, halves := [(h.core, h.entry, !h.one)] }.fault s l false = none →
      ∃ t : State, Happens (.lighterStart k) s t ∧
      t.lighters.get [] k = before ++ { y with dest := some h, halves := [(h.core, h.entry, !h.one)] } :: after ∧ t.mem = s.mem) ∧
    (l.dkind = false → ∀ code detail, resolveHandle s y l = .error (code, detail) →
      Happens (.lighterStart k) s (lighterFault s k y code detail))) ∧
  (∀ (s u : State) (k : Nat) (x : CopyCmd) (f : Flight) (l : Layout), s.lighters.get [] k = [x] → x.started = true → l = Layout.of x.rec_ →
    u = { s with freeIx := s.freeIx + 2 } → x.carried s false = true → Live s x.sailing x.core →
    (s.core x.core).flight.find? (·.id = x.id) = some f → (s.core x.core).blocked x.core x.id l.oc .lighter f.reads f.writes = false →
    tagGate s x.core x.tags = .go →
    (x.done = l.total → ∃ t : State, Happens (.lighterComplete k) s t ∧ t.lighters.get [] k = [] ∧ Gone t x.core x.id ∧ t.mem = s.mem ∧
      (t.core x.core).files = (s.core x.core).files ∧
      (∀ h, l.apub = true → x.dest = some h → (s.core h.core).run.sailing = x.sailing →
        (t.core h.core).swaps = (s.core h.core).swaps ++ [(h.entry, l.tag)] ∧ (t.core h.core).pmap = (s.core h.core).pmap) ∧
      (l.apub = false → ∀ q : Nat, (t.core q).swaps = (s.core q).swaps)) ∧
    (∀ r : List Elt × List Wr × Nat, x.done + 1 = l.total → l.apub = false → copyElement u x l false x.done = .ok r → x.half = false →
      samePort (sourceNeed (u.seen x.halves) x l false x.done) (writeNeed r.2.1) = false →
      PortsFor s (sourceNeed (u.seen x.halves) x l false x.done ++ writeNeed r.2.1) → ∃ t : State, Happens (.lighterComplete k) s t ∧
        (t.mem = s.mem ∧ t.lighters.get [] k = [x] ∨
          t.mem = (s.performBy (.core x.core l.oc) false r.2.1).mem ∧ t.lighters.get [] k = [] ∧ Gone t x.core x.id)))

namespace Sys2Proof.Claims

/-- Die d keeps none of the lines that it retained for commands ahead of marker m, and all others that it retained (09 R295). -/
def Dropped (s t : State) (d m : Nat) : Prop :=
  (∀ k ∈ t.kept, d ∈ k.gone ∨ m < k.count d) ∧ ∀ k ∈ s.kept, m < k.count d → k.gone.length < 256 → k ∈ t.kept

/-- Two ranges of bytes, each a first address and a length, share none. -/
def Apart (a n b k : Nat) : Prop := a + n ≤ b ∨ b + k ≤ a

/-- Memory after a command of a block on core p at address a: DONE holds the ticket, RESULT its value, the command's writes (address, bytes, value), where they overlap neither each
other nor these, have performed, and everything else is as in m. -/
def BlockDone (s t : State) (m : Memory) (p a result : Nat) (ws : List (Nat × Nat × Nat)) : Prop :=
  t.mem.read (spadBase p + a) 8 = readSpad s p (a + 16) 8 ∧ t.mem.read (spadBase p + a + 8) 8 = result % 2 ^ 64 ∧
  ((∀ w ∈ ws, Apart w.1 w.2.1 a 16) → ws.Pairwise (fun w y => Apart w.1 w.2.1 y.1 y.2.1) →
    ∀ w ∈ ws, ∀ i, i < w.2.1 → (t.mem.get (spadBase p + w.1 + i)).toNat = w.2.2 / 2 ^ (8 * i) % 256) ∧
  (∀ y : Nat, (y < spadBase p + a ∨ spadBase p + a + 16 ≤ y) → (∀ w ∈ ws, y < spadBase p + w.1 ∨ spadBase p + w.1 + w.2.1 ≤ y) →
    t.mem.get y = m.get y)

/-- The RESULT bit FIN. -/
def finBit (r : SeqRec) : Nat := if r.fin then 2 ^ 54 else 0

/-- The RESULT bits of a node that a command created or accepted (11 R340). -/
def nodeBits (r : SeqRec) (x : SeqNode) (n : Nat) : Nat :=
  finBit r + (if x.eos then 2 ^ 53 else 0) + (if x.stop then 2 ^ 52 else 0) + 2 ^ 8 * n

/-- A command is refused: STATUS n, with FIN of its record, and nothing changes (11 R339, R340). -/
def SqRefused (v : SqView) (target k n : Nat) : Prop :=
  v.outcome target k = { status := n, result := ((v.record k).map finBit).getD 0, rec_ := none, ws := [] }

/-- TARGET names a record and a node, and no other bit of it is set. -/
def PlainTarget (target : Nat) : Prop := bitField target 13 15 = 0 ∧ bitField target 22 63 = 0

/-- A command's record is open and its agent's own. -/
def Owned (v : SqView) (target k : Nat) (r : SeqRec) : Prop :=
  PlainTarget target ∧ k < 8192 ∧ v.cmd.op ≠ 0x15 ∧ v.record k = some r ∧ r.sailing = v.cmd.sailing ∧ r.lid = v.cmd.lid

/-- The checks that come before a command's own rule, in their order (11 R340, R343, R344, R346, R347). -/
def SequenceChecks : Prop :=
  ∀ (v : SqView) (target k : Nat), k < 8192 →
    (¬ PlainTarget target → SqRefused v target k 10) ∧
    (PlainTarget target → (v.cmd.op = 0x15 ∧ v.record k ≠ none ∨ v.cmd.op ≠ 0x15 ∧ v.record k = none) → SqRefused v target k 1) ∧
    (∀ r, PlainTarget target → v.cmd.op ≠ 0x15 → v.record k = some r → r.sailing ≠ v.cmd.sailing ∨ r.lid ≠ v.cmd.lid → SqRefused v target k 2) ∧
    (∀ r, Owned v target k r → v.cmd.op ∈ [0x19, 0x1C] ∨ v.cmd.op = 0x16 ∧ v.cmd.variant = 1 →
      ((∃ i, i < 4 ∧ v.arg i ≠ 0) → SqRefused v target k 10) ∧
      ((∀ i, i < 4 → v.arg i = 0) →
        (v.cmd.op = 0x19 → (r.node v.n).st ≠ 2 → SqRefused v target k 3) ∧
        (v.cmd.op = 0x1C → v.cmd.variant = 0 → (r.node v.n).st ≠ 1 → SqRefused v target k 3) ∧
        (v.cmd.op = 0x1C → v.cmd.variant = 1 → v.n ≠ 0 → SqRefused v target k 3) ∧
        (v.cmd.op = 0x16 → (r.node v.n).st ≠ 1 ∨ r.below v.n r.tip = false → SqRefused v target k 3))) ∧
    (∀ r, Owned v target k r → v.cmd.op = 0x18 ∨ v.cmd.op = 0x16 ∧ v.cmd.variant = 0 →
      (2 ^ 20 ≤ v.arg 0 % 2 ^ 64 → SqRefused v target k 10) ∧
      (v.arg 0 < 2 ^ 20 → v.arg 1 = 0 → v.arg 2 = 0 → v.arg 3 = 0 →
        (v.cmd.op = 0x18 → (r.node v.n).st = 0 → SqRefused v target k 3) ∧ (v.cmd.op = 0x16 → v.n ≠ r.tip → SqRefused v target k 3)))

/-- Opening, growing and cutting the tree of a record (11 R343, R344, R346, R347). -/
def SequenceTrees : Prop :=
  (∀ (v : SqView) (target k : Nat) (r : SeqRec), v.checks target k = 0 → v.cmd.op ≠ 0x15 → v.record k = some r →
    (v.cmd.op = 0x19 → ∃ r' : SeqRec, v.outcome target k = { status := 0, result := finBit r, rec_ := some (some r'), ws := [] } ∧
      r' = { r with nodes := r'.nodes, pool := r'.pool, tip := v.n } ∧
      ∀ i, i < 64 → (r.below i v.n = true → (r'.node i).st = 0) ∧ (r.below i v.n = false → r'.node i = r.node i)) ∧
    (v.cmd.op = 0x1C → v.cmd.variant = 0 → ∃ r' : SeqRec, v.outcome target k = { status := 0, result := finBit r, rec_ := some (some r'), ws := [] } ∧
      r' = { r with nodes := r'.nodes, pool := r'.pool } ∧
      ∀ i, i < 64 → (i = v.n ∨ r.below i v.n = true → (r'.node i).st = 0) ∧ (i ≠ v.n → r.below i v.n = false → r'.node i = r.node i)) ∧
    (v.cmd.op = 0x1C → v.cmd.variant = 1 → v.outcome target k = { status := 0, result := finBit r, rec_ := some none, ws := [] }) ∧
    (v.cmd.op = 0x16 → v.cmd.variant = 1 → ∃ r' : SeqRec,
      v.outcome target k = { status := 0, result := nodeBits r (r.node v.n) v.n, rec_ := some (some r'), ws := [] } ∧
      r' = { r with nodes := r'.nodes, tip := v.n } ∧
      ∀ i, i < 64 → r'.node i = if i ∈ r.pathTo v.n then { r.node i with st := 2 } else r.node i)) ∧
  (∀ (v : SqView) (target k c : Nat) (r : SeqRec), v.checks target k = 0 → v.record k = some r → v.cmd.op = 0x18 ∨ v.cmd.op = 0x16 ∧ v.cmd.variant = 0 →
    (r.fin = true ∨ (r.node v.n).stop = true ∨ (r.node v.n).eos = true → SqRefused v target k 6) ∧
    (r.fin = false → (r.node v.n).stop = false → (r.node v.n).eos = false →
      ((grammarFields v.s v.d r.gofs).ntok ≤ v.arg 0 → SqRefused v target k 5) ∧
      ((grammarFields v.s v.d r.gofs).badToken v.s v.d (v.arg 0) = false →
        ((∀ i, i < 64 → (r.node i).st ≠ 0) → SqRefused v target k 7) ∧
        (c < 64 → (r.node c).st = 0 → (∀ i, i < c → (r.node i).st ≠ 0) →
          (v.images r = none → SqRefused v target k 9) ∧
          (∀ g stops x, v.images r = some (g, stops) → g.token v.s v.d (v.arg 0) = some x →
            ∀ y, y = walkToken v.s v.d g stops (v.arg 0) x (dstateAt v.s v.d g r v.n) (r.walkAt v.n) →
            (y = .image → SqRefused v target k 9) ∧ (y = .refused → SqRefused v target k 4) ∧
            (∀ w, y = .ok w → SqRefused v target k 8 ∨ ∃ (r' : SeqRec) (z : SeqNode),
              v.outcome target k = { status := 0, result := nodeBits r z c, rec_ := some (some r'), ws := [] } ∧ r'.pool.length ≤ r.quota ∧
              r' = { r with nodes := r'.nodes, pool := r'.pool, fresh := r'.fresh, tip := if v.cmd.op = 0x16 then c else r.tip } ∧
              r'.node c = z ∧ (∀ i, i < 64 → i ≠ c → r'.node i = r.node i) ∧
              z.st = (if v.cmd.op = 0x16 then 2 else 1) ∧ z.parent = v.n ∧ z.token = v.arg 0 ∧ z.depth = (r.node v.n).depth + 1 ∧
              z.q = w.q ∧ z.sp = w.sp ∧ z.scan = w.scan ∧ z.held = w.held ∧ (z.stop = true ↔ w.stop ≠ none) ∧ (z.eos = true ↔ v.arg 0 = g.eos))))))) ∧
  (∀ (v : SqView) (target k : Nat) (r : SeqRec), v.checks target k = 0 → v.cmd.op = 0x15 →
    r.gofs = bitField (v.arg 0) 0 24 → r.sofs = (if bitField (v.arg 0) 32 63 = 0xFFFFFFFF then none else some (bitField (v.arg 0) 32 56)) →
    (v.images r = none → SqRefused v target k 9) ∧
    (∀ g stops, v.images r = some (g, stops) → g.start < g.nstate → g.eos < g.ntok ∨ g.eos = 0xFFFFFFFF →
      (4194303 < (v.s.die v.d).reserved + bitField (v.arg 2) 32 53 → SqRefused v target k 8) ∧
      ((v.s.die v.d).reserved + bitField (v.arg 2) 32 53 ≤ 4194303 → ∃ r' : SeqRec,
        v.outcome target k = { status := 0, result := 0, rec_ := some (some r'), ws := [] } ∧ r'.sailing = v.cmd.sailing ∧ r'.lid = v.cmd.lid ∧
        r'.gofs = r.gofs ∧ r'.sofs = r.sofs ∧ r'.seqid = bitField (v.arg 1) 0 31 ∧ r'.cgpos = bitField (v.arg 1) 32 63 ∧
        r'.step = bitField (v.arg 2) 0 31 ∧ r'.quota = bitField (v.arg 2) 32 53 ∧ r'.hbuf = [] ∧ r'.dstate = true ∧ r'.fin = false ∧ r'.tip = 0 ∧
        r'.node 0 = { st := 2, q := g.start } ∧ ∀ i, i ≠ 0 → r'.node i = {})))

/-- Masks, commits and sampling (11 R345, R348, R349, R351, R352). -/
def SequenceOutputs : Prop :=
  (∀ (v : SqView) (target k : Nat) (r : SeqRec) (g : Grammar) (stops : Option (Nat × Nat)), v.checks target k = 0 → v.cmd.op = 0x17 → v.record k = some r →
    v.images r = some (g, stops) → ∀ n o, n = (g.ntok + 7) / 8 → o = v.outcome target k →
    (r.fin = true ∨ (r.node v.n).stop = true ∨ (r.node v.n).eos = true →
      o = { status := 0, result := finBit r + 2 ^ 16 * min n 0xFFFF, rec_ := none, ws := [(v.arg 0, n, 0)] }) ∧
    (r.fin = false → (r.node v.n).stop = false → (r.node v.n).eos = false → ∀ e m ts, g.state v.s v.d (r.node v.n).q = some e → g.stateMask v.s v.d e = some m →
      ts = (if bitField e 96 127 = 0xFFFFFFFF then some [] else depList v.s v.d g (g.ndep + 1) (bitField e 96 127)) →
      (ts = some [] → o = { status := 0, result := finBit r + 2 ^ 16 * min n 0xFFFF, rec_ := none, ws := [(v.arg 0, n, m % 2 ^ g.ntok)] }) ∧
      (∀ l z, ts = some l → o.ws = [(v.arg 0, n, z)] → ∀ t, t < g.ntok → (z / 2 ^ t % 2 = 1 ↔ m / 2 ^ t % 2 = 1 ∨ t ∈ l ∧
        ∃ x w, g.token v.s v.d t = some x ∧ walkToken v.s v.d g stops t x (dstateAt v.s v.d g r v.n) (r.walkAt v.n) = .ok w)))) ∧
  (∀ (v : SqView) (target k : Nat) (r : SeqRec) (g : Grammar) (path texts all rel keep : List Nat) (tip : SeqNode) (ds stop : Bool),
    v.checks target k = 0 → v.cmd.op = 0x1B → v.record k = some r → grammarAt v.s v.d r.gofs = some g → path = r.pathTo r.tip → tip = r.node r.tip →
    pathTexts v.s v.d g r path r.dstate = some (texts, ds) → all = r.hbuf ++ texts → stop = path.any (fun i => (r.node i).stop) →
    rel = (if path = [] then [] else if stop then all.take (all.length - tip.mlen) else if tip.eos then all else all.take (all.length - tip.held)) →
    keep = (if path = [] then r.hbuf else if stop ∨ tip.eos then [] else all.drop (all.length - tip.held)) → keep.length < 2 ^ 32 → r.step < 2 ^ 32 →
    (bitField (v.arg 0) 32 47 < rel.length → SqRefused v target k 12) ∧
    (rel.length ≤ bitField (v.arg 0) 32 47 → ∃ (r' : SeqRec) (b : Nat), v.outcome target k =
        { status := 0, result := 2 ^ 56 * path.length + finBit r' + (if path.any fun i => (r.node i).eos then 2 ^ 53 else 0) + (if stop then 2 ^ 52 else 0)
                                   + 2 ^ 16 * rel.length, rec_ := some (some r'),
          ws := [(bitField (v.arg 0) 0 22, rel.length, bytesNat rel), (bitField (v.arg 1) 0 22, 32, b)] } ∧
      bitField b 0 31 = path.length ∧ bitField b 32 63 = rel.length ∧ bitField b 64 95 = r'.step ∧ bitField b 96 127 = keep.length ∧
      bitField b 128 128 = 0 ∧ bitField b 129 129 = r'.fin.toNat ∧ bitField b 130 130 = (path.any fun i => (r.node i).eos).toNat ∧
      bitField b 131 131 = stop.toNat ∧ bitField b 132 132 = (decide (path = [])).toNat ∧ bitField b 133 133 = (decide (keep ≠ [])).toNat ∧
      bitField b 134 135 = bitField (v.arg 1) 38 39 ∧ bitField b 136 139 = bitField (v.arg 1) 32 35 ∧ b < 2 ^ 140 ∧
      (path = [] → r' = r) ∧
      (path ≠ [] → r' = { r with nodes := r'.nodes, pool := r'.pool, hbuf := keep, dstate := ds, fin := r.fin || stop || tip.eos, tip := 0,
                                 step := (r.step + path.length) % 2 ^ 32 } ∧
        r'.node 0 = { st := 2, q := tip.q, sp := tip.sp, scan := tip.scan, held := keep.length } ∧ ∀ i, i ≠ 0 → r'.node i = {}))) ∧
  (∀ (v : SqView) (target k : Nat) (r : SeqRec), v.checks target k = 0 → v.cmd.op = 0x1A → v.record k = some r →
    (v.cmd.variant ≠ 2 → (v.images r = none → SqRefused v target k 9) ∧
      (v.images r ≠ none → v.outcome target k = { status := 0, result := finBit r, rec_ := none, ws := [] })) ∧
    (v.cmd.variant = 2 → (∀ j, j < 64 → readSpad v.s v.cmd.core (v.arg 0 + 8 * j) 8 % 2 ^ 32 = 0xFFFFFFFF) → SqRefused v target k 11))

/-- The assignments of a selection in the order in which capacity takes them, slot by slot, then token by token: slot, token, expert (12 R358). -/
def assignments (k nt : Nat) (pick : Nat → List (Nat × Nat)) : List (Nat × Nat × Nat) :=
  (List.range k).flatMap fun j => (List.range nt).filterMap fun t => (pick t)[j]?.map fun x => (j, t, x.2)

/-- An assignment is kept: fewer than CAP of those before it are to its expert (12 R358). -/
def keptOf (cap : Nat) (l : List (Nat × Nat × Nat)) (a : Nat × Nat × Nat) : Bool :=
  decide (a ∈ l) && (cap == 0 || decide (((l.takeWhile (· ≠ a)).filter fun x => x.2.2 = a.2.2).length < cap))

/-- The blocks of a dispatch: of each expert's tokens in ascending order, the slices of 32, as expert, position and tokens (12 R358). -/
def blocksOf (ne : Nat) (mine : Nat → List Nat) : List (Nat × Nat × List Nat) :=
  (List.range ne).flatMap fun e => (List.range (((mine e).length + 31) / 32)).map fun i => (e, 32 * i, ((mine e).drop (32 * i)).take 32)

/-- What a selection writes: indices, weights, the histogram, the topology table and the dispatch array, and its RESULT (12 R357 to R359). -/
def SelectionsWrite : Prop :=
  (∀ (es : List Elt) (k : Nat) (x : Nat × Nat),
    (x ∈ selected es k → ∃ e, es[x.2]? = some e ∧ e.poison = false ∧ x.1 = encodeCompute f32 e.val) ∧
    (selected es k).length ≤ k ∧ (selected es k).Pairwise (fun a b => keyOf b.1 < keyOf a.1 ∨ keyOf b.1 = keyOf a.1 ∧ a.2 < b.2) ∧
    (∀ e, es[x.2]? = some e → e.poison = false → x.1 = encodeCompute f32 e.val → decodeFloat f32 x.1 ≠ .nan → decodeFloat f32 x.1 ≠ .inf true →
      x ∉ selected es k → (selected es k).length = k ∧ ∀ y ∈ selected es k, keyOf x.1 < keyOf y.1 ∨ keyOf x.1 = keyOf y.1 ∧ y.2 < x.2)) ∧
  (∀ (s : State) (c : Core) (p : Nat) (cap : Capture) (b : Select) (pick : Nat → List (Nat × Nat)) (all : List (Nat × Nat × Nat)) (mine : Nat → List Nat)
    (bs : List (Nat × Nat × List Nat)) (r : List (Nat × Nat × Nat) × List Wr × Nat × Nat),
    pick = (fun t => selected ((List.range b.ne).map fun e => readElt s p cap.bfmt (denseShape b.saddr (b.nt * b.ne)) 0 (t * b.ne + e)) b.k) →
    all = assignments b.k b.nt pick → mine = (fun e => (List.range b.nt).filter fun t => (List.range b.k).any fun j => keptOf b.cap all (j, t, e)) →
    bs = blocksOf b.ne mine → r = selectRun s c p cap b →
    (∀ t j, t < b.nt → j < b.k → (b.iaddr + 2 * (t * b.k + j), 2, match (pick t)[j]? with
      | none => 0xFFFF
      | some x => if keptOf b.cap all (j, t, x.2) then x.2 else 0x8000 + x.2) ∈ r.1) ∧
    (∀ e, e < b.ne → (b.haddr + 4 * e, 4, (mine e).length) ∈ r.1) ∧
    (∀ (i : Nat) (x : Nat × Nat × List Nat), bs[i]? = some x →
      (b.taddr + 16 * i, 16, i + 2 ^ 16 * x.1 + 2 ^ 32 * x.2.2.length + 2 ^ 64 * x.2.1) ∈ r.1 ∧
      ∀ n, n < 32 → (b.xaddr + 128 * i + 4 * n, 4, match x.2.2[n]? with | some t => 2 ^ 23 * b.tcore + t * b.tstride | none => 0xFFFFFFFF) ∈ r.1) ∧
    r.1.length = b.nt * b.k + b.ne + 33 * bs.length ∧
    (r.2.1, r.2.2.1) = encodeArray c p cap (denseShape b.waddr (b.nt * b.k)) 0 0 none ((List.range b.nt).flatMap fun t => (List.range b.k).map fun j =>
      (match (pick t)[j]? with
        | some x => if keptOf b.cap all (j, t, x.2) then (selectedWeights b.norm (pick t)).getD j (.zero false) else .zero false
        | none => .zero false, false)) ∧
    r.2.2.2 = 2 ^ 44 * (b.nt * b.k - all.length) + 2 ^ 24 * (all.filter fun a => !keptOf b.cap all a).length + 2 ^ 8 * bs.length)

end Sys2Proof.Claims

/-- A walker finds the translation that a copy waits for; a marker passes when nothing ahead of it holds it back, and a shootdown whose markers have
all passed is counted and releases what the dies retained; a die at its limit on which none is pending places a marker of its own. A command of the sequence engine or
the Pilot, all of whose words have had their ports, executes and answers with its outputs, RESULT and its ticket: the checks in their order, the tree of a record and
its outputs, a selection's indices, histogram, table and dispatch array, a row sent. A grammar store word is written; a token row that arrives is counted, or refused for a bad
header (01 R21; 04 R123; 09 R275, R293 to R295; 11 R331, R339 to R351; 12 R354, R356 to R363; 13 R389). -/
def Obligations.WalkersMarkersAndBlocks : Prop :=
  (∀ (s : State) (d va : Nat) (k : AccessKind) (x : CopyCmd) (e : TlbEntry), s.lighters.get [] (2 * d) = [x] → x.need s false = some (k, va) →
    x.carried s false = true → walkFrom (s.pteFor (dieOf x.core) x.marks x.sent) va 4 x.ptroot = some e → ∃ t : State, Happens (.pageWalk d) s t ∧
      t.lighters.get [] (2 * d) = [{ x with way := { at_ := s.wall }, trs := e :: x.trs }] ∧ t.mem = s.mem ∧ t.cores = s.cores) ∧
  (∀ (s : State) (d m : Nat), (∀ g ∈ s.sailings, g.2.shoots = []) → (s.die d).shoot = some m → aheadOf s d m = false →
    ∃ t : State, Happens (.markerPass d) s t ∧ (t.die d).shoot = none ∧ (t.die d).marks = (s.die d).marks ∧ Dropped s t d m ∧
      t.mem = s.mem) ∧
  (∀ (s : State) (d n m : Nat) (g : Sailing) (x : Shoot), s.sailings = [(n, g)] → g.shoots = [x] → x.left = [d] → x.marks = [(d, m)] →
    aheadOf s d m = false → (s.die d).shoot = none → ∃ t : State, Happens (.markerPass d) s t ∧ (t.sailing n).shoots = [] ∧
      (t.sailing n).tlbc = g.tlbc + 1 ∧ Dropped s t d m) ∧
  (∀ (s : State) (d : Nat), ((s.die d).shoot ≠ none ∨ ∃ g ∈ s.sailings, ∃ x ∈ g.2.shoots, ∃ y ∈ x.marks, y.1 = d) → Happens (.dieShootdown d) s s) ∧
  (∀ (s : State) (d : Nat), 4096 ≤ s.retainedLines d → (s.die d).shoot = none → (∀ g ∈ s.sailings, ∀ x ∈ g.2.shoots, ∀ y ∈ x.marks, y.1 ≠ d) →
    ∃ t : State, Happens (.dieShootdown d) s t ∧ (t.die d).shoot = some (s.die d).marks ∧ (t.die d).marks = (s.die d).marks + 1 ∧
      (t.die d).ownMarks = (s.die d).ownMarks ++ [(s.die d).marks + 1] ∧ t.kept = s.kept ∧
      t.mem = s.mem ∧ t.cores = s.cores) ∧
  (∀ (s s' u : State) (d k : Nat) (x : SqCmd) (refused : Bool) (o : SqOut), s' = { s with freeIx := s.freeIx + 1 } → (s.die d).sq = [x] → Live s x.sailing x.core →
    refused = ((sqView s' d x).checks (sqTarget s' x) (bitField (sqTarget s' x) 0 12) != 0) → sqGate s' x refused = .go →
    (Served s' (x.words s' refused) (x.served.getD 0) u → MemoryCanonical s → NoEntries s x.core → k = bitField (sqTarget u x) 0 12 →
      o = (sqView u d x).outcome (sqTarget u x) k → ∃ t : State, Happens (.sqCommandComplete d) s t ∧ (t.die d).sq = [] ∧ Gone t x.core x.id ∧
      BlockDone s t s.mem x.core x.addr (o.result + o.status) o.ws ∧
      (o.rec_ = none → (t.die d).records = (s.die d).records) ∧ (∀ r, o.rec_ = some (some r) → (t.die d).records = (s.die d).records.set k r) ∧
      (o.rec_ = some none → (t.die d).records = (s.die d).records.filter (·.1 ≠ k)) ∧
      (x.op ≠ 0x1A ∨ x.variant = 2 ∨ o.status = 10 → t.sailings = s.sailings) ∧
      (∀ n, x.op = 0x1A → x.variant ≠ 2 → o.status ≠ 10 → x.sailing = some n → ∃ pk : Packet, (t.sailing n).packets = (s.sailing n).packets ++ [pk] ∧
        pk.n = 1 ∧ pk.merge = (x.variant == 1) ∧ pk.rank = 2 ∧ pk.lid = x.cap.lid ∧ pk.src = .die d ∧ pk.way.at_ = s.wall ∧
        (o.status ≠ 0 → pk.items = if x.variant = 1 then [] else [(0, 0xFFFFFFFF)]))) ∧
    (∀ n j, s'.serveWords (x.words s' refused) (x.served.getD 0) 64 = (u, n) → wordIn (x.words s' refused) n = some j → ∃ t : State,
      Happens (.sqCommandComplete d) s t ∧ (t.die d).sq = [{ x with served := some n }] ∧ t.mem = s.mem ∧ (t.die d).records = (s.die d).records)) ∧
  (∀ (s s' u : State) (d : Nat) (x : SqCmd) (w : Nat → Nat), s' = { s with freeIx := s.freeIx + 1 } → (s.die d).pilot = [x] → Live s x.sailing x.core →
    sqGate s' x (pilotStatus s' x != 0) = .go → w = pilotWord s x →
    (Served s' (x.words s' (pilotStatus s' x != 0)) (x.served.getD 0) u → MemoryCanonical s → NoEntries s x.core →
      ∃ t : State, Happens (.routeComplete d) s t ∧ (t.die d).pilot = [] ∧ Gone t x.core x.id ∧
      (pilotStatus u x ≠ 0 → BlockDone s t s.mem x.core x.addr (pilotStatus u x) [] ∧ ∀ e : Nat, (t.die e).rows = (s.die e).rows) ∧
      (∀ r, pilotStatus u x = 0 → x.variant = 0 → r = selectRun u (u.core x.core) x.core x.cap (Select.of w) →
        BlockDone s t (u.perform false r.2.1).mem x.core x.addr r.2.2.2 r.1 ∧ (t.core x.core).ctl.fanom = min 0xFFFFFFFF ((s.core x.core).ctl.fanom + r.2.2.1)) ∧
      (∀ q, pilotStatus u x = 0 → x.variant ≠ 0 → q = s.coreIn x.sailing x.core (bitField (w 4) 0 15) → BlockDone s t s.mem x.core x.addr 0 [] ∧
        ∃ y : TokenRow, (t.die (dieOf q)).rows = (s.die (dieOf q)).rows ++ [y] ∧ y.sailing = x.sailing ∧ y.core = q ∧ y.addr = bitField (w 4) 32 54 ∧
          y.block = bitField (w 5) 0 22 ∧ y.src = d ∧ y.lid = x.lid ∧ y.served = none ∧ y.bytes.length = 8 + bitField (w 3) 32 47 ∧
          y.ways = List.replicate (1 + (8 + bitField (w 3) 32 47 + 63) / 64) { at_ := s.wall } ∧
          (s.poison = [] → ∀ i, i < y.bytes.length → y.bytes.getD i 0 = readByte s x.core (bitField (w 3) 0 22 + i)))) ∧
    (∀ n j, s'.serveWords (x.words s' (pilotStatus s' x != 0)) (x.served.getD 0) 64 = (u, n) → wordIn (x.words s' (pilotStatus s' x != 0)) n = some j →
      ∃ t : State, Happens (.routeComplete d) s t ∧ (t.die d).pilot = [{ x with served := some n }] ∧ t.mem = s.mem)) ∧
  SequenceChecks ∧ SequenceTrees ∧ SequenceOutputs ∧ SelectionsWrite ∧
  (∀ (s : State) (d a v : Nat), MemoryCanonical s →
    (a % 8 = 0 → a < storeSize → ∃ t : State, Happens (.grammarStoreWrite d a v) s t ∧ t.mem.read (dieBase d + a) 8 = v % 2 ^ 64 ∧
      (∀ y : Nat, y < dieBase d + a ∨ dieBase d + a + 8 ≤ y → t.mem.get y = s.mem.get y)) ∧
    (a % 8 ≠ 0 ∨ storeSize ≤ a → Happens (.grammarStoreWrite d a v) s s)) ∧
  (∀ (s u : State) (d h b : Nat) (x : TokenRow), (s.die d).rows = [x] → x.ways.all (·.there) = true → Live s x.sailing x.core → MemoryCanonical s →
    NoEntries s x.core → h = bytesNat ((x.bytes.take 8).map (·.toNat)) → b = spadBase x.core + x.block →
    Served { s with freeIx := s.freeIx + 1 } (x.words { s with freeIx := s.freeIx + 1 }) (x.served.getD 0) u →
    (h % 256 ≠ crcBits (h / 2 ^ 8) 56 0 ∨ bitField h 8 8 ≠ 0 → ∃ t : State, Happens (.tokenRowArrival d) s t ∧ (t.die d).rows = [] ∧
      t.mem.read b 8 = s.mem.read b 8 / 2 ^ 32 * 2 ^ 32 + (s.mem.read b 8 + 1) % 2 ^ 32 ∧
      t.mem.read (b + 8) 8 = s.mem.read (b + 8) 8 / 2 ^ 32 * 2 ^ 32 + (s.mem.read (b + 8) 8 + 1) % 2 ^ 32 ∧
      (∀ y : Nat, y < b ∨ b + 16 ≤ y → t.mem.get y = s.mem.get y)) ∧
    (h % 256 = crcBits (h / 2 ^ 8) 56 0 → bitField h 8 8 = 0 → bitField h 25 32 = bitField (s.mem.read b 8) 56 63 →
      x.addr + x.bytes.length ≤ x.block ∨ x.block + 8 ≤ x.addr → ∃ t : State, Happens (.tokenRowArrival d) s t ∧ (t.die d).rows = [] ∧
      t.mem.read b 8 = s.mem.read b 8 / 2 ^ 32 * 2 ^ 32 + (s.mem.read b 8 + 1) % 2 ^ 32 ∧
      (∀ i, i < x.bytes.length → t.mem.get (spadBase x.core + x.addr + i) = x.bytes.getD i 0)) ∧
    (h % 256 = crcBits (h / 2 ^ 8) 56 0 → bitField h 8 8 = 0 → bitField h 25 32 ≠ bitField (s.mem.read b 8) 56 63 → ∃ t : State,
      Happens (.tokenRowArrival d) s t ∧ (t.die d).rows = [] ∧ t.mem.read b 8 = s.mem.read b 8 ∧
      t.mem.read (b + 8) 8 = ((s.mem.read (b + 8) 8 / 2 ^ 32 + 1) % 2 ^ 32) * 2 ^ 32 + s.mem.read (b + 8) 8 % 2 ^ 32))

/-! ## The fabric -/

namespace Sys2Proof.Claims

/-- Channel c of sailing n, which runs, is ch. -/
def ChannelIs (s : State) (n c : Nat) (ch : Chan) : Prop := (s.sailing n).chans[c]? = some ch ∧ (s.sailing n).running = true

/-- A word of channel c of sailing g under way whose route has ended by its cycle, and that no retry is awaited for (10 R303, R304). -/
def there (g : Sailing) (c : Nat) (x : Nat × BitVec 512) : Bool := decide (x.1 ≤ g.t) && !g.retries.any fun r => r.chan == c && r.due == x.1

/-- No word of core p's scratchpad is mapped for publication. -/
def Unmapped (s : State) (p : Nat) : Prop := ∀ e ∈ (s.core p).pmap, e.v = false

/-- DONE of core p for the barrier of a message. -/
def doneOf (s : State) (p : Nat) (m : BarMsg) : Nat := ((s.core p).bars.toList.getD (barIndex m.scope m.b) (0, 0)).2

/-- One waiting flit goes before another in the order of residue: rank, then age, then logical core id (10 R307). -/
def GoesBefore (a b : Waiting) : Prop :=
  a.rank < b.rank ∨ a.rank = b.rank ∧ (a.way.at_ < b.way.at_ ∨ a.way.at_ = b.way.at_ ∧ a.lid < b.lid)

/-- How far a flit has come, as its record stands. -/
def wayOf (s : State) : Flit → Option Transit
  | .remote p i => (s.core p).remotes[i]?.map (·.way)
  | .message p i j => (s.core p).barrel.out[i]?.bind fun m => m.ways[j]?
  | .packet n i => (s.sailing n).packets[i]?.map (·.way)
  | .coll n i j k => (s.sailing n).colls[i]?.bind fun x => x.parts[j]?.bind fun y => y.ways[k]?
  | .row d i j => (s.die d).rows[i]?.bind fun x => x.ways[j]?
  | .copy k i => (s.lighters.get [] k)[i]?.map (·.way)
  | .refill p n => ((s.core p).refills.toList.getD n []).head?.map (·.way)
  | .access p j => some ((s.core p).barrel.ctx[j.toNat]).way
  | .fetch p j => some ((s.core p).barrel.ctx[j.toNat]).fetchWay
  | .drift p => some (s.core p).obs.way
  | .host => some s.hostWay

/-- A flit has passed a lane: its copy is good, and it waits at its next link or is over its way, or it is garbled and waits for that lane again; no other flit has moved
(10 R304, R307). -/
def Passed (s t : State) (w : Waiting) (lane : Nat) (bad : Bool) : Prop :=
  wayOf t w.flit = some (if bad then { w.way with lost := some lane, last := s.wall }
    else { w.way with lost := none, hop := w.way.hop + 1, there := decide (w.links.length ≤ w.way.hop + 1), last := s.wall }) ∧
  ∀ f, f ≠ w.flit → wayOf t f = wayOf s f

/-- Of a link's lanes only one has a slot in this cycle. -/
def OneLane (s : State) (key lane : Nat) : Prop :=
  lane < linkLanes (linkKind key) ∧ ∀ l, l < linkLanes (linkKind key) → l ≠ lane → laneSlot s key l = .closed

end Sys2Proof.Claims

/-- At its one slot of a cycle a channel sends the words that were there before, at most 8 (one flit of a bulk channel) and no more than its credits;
words arrive at the end of their route, but for a flit that is still to be resent, and credits come back; scheduled flits of every channel arrive by their
stated cycle (10 R303, R304, R312, R313). -/
def Sys2Proof.Claims.ChannelsKeepTheirSlots : Prop :=
  (∀ (s : State) (n c k : Nat) (ch : Chan), ChannelIs s n c ch → ch.slots.count ((s.sailing n).t % (s.sailing n).period) = 1 →
    k = min (min (if ch.bulk then 1 else 8) (ch.send.takeWhile fun x => decide (x.1 < (s.sailing n).t)).length) ch.credits →
    ∃ t : State, Happens (.channelSlot n c) s t ∧ (t.sailing n).chans[c]? = some { ch with
        send := ch.send.drop k, credits := ch.credits - k, gone := ch.gone + k, air := ch.air ++ (ch.send.take k).map fun x => ((s.sailing n).t + ch.route, x.2) } ∧
      (∀ i : Nat, i ≠ c → (t.sailing n).chans[i]? = (s.sailing n).chans[i]?) ∧
      (∀ r ∈ (t.sailing n).retries, r ∈ (s.sailing n).retries ∨ r.chan = c ∧ r.due = (s.sailing n).t + ch.route ∧ (s.sailing n).t ≤ r.since ∧
        r.since ≤ r.due ∧ ∃ l ∈ (s.sailing n).links, l.key = r.key ∧ l.entry r.lane (r.since % (s.sailing n).period) = 2 ^ 14 + c) ∧ t.mem = s.mem ∧ t.cores = s.cores) ∧
  (∀ (s : State) (n c : Nat) (ch : Chan), ChannelIs s n c ch → ∃ t : State, Happens (.channelWordArrival n c) s t ∧
    (t.sailing n).chans[c]? = some { ch with recv := ch.recv ++ ch.air.filter (there (s.sailing n) c),
                                             air := ch.air.filter fun x => !there (s.sailing n) c x } ∧ t.cores = s.cores) ∧
  (∀ (s : State) (n c : Nat) (ch : Chan), ChannelIs s n c ch → ∃ t : State, Happens (.creditReturn n c) s t ∧
    (t.sailing n).chans[c]? = some { ch with
      credits := ch.credits + (ch.back.filter fun u => decide (u ≤ (s.sailing n).t)).length,
      back := ch.back.filter fun u => decide ((s.sailing n).t < u) } ∧ t.cores = s.cores) ∧
  (∀ (s : State) (n : Nat), (s.sailing n).running = true → ∃ t : State, Happens (.flitDelivery n) s t ∧
    (t.sailing n).chans.length = (s.sailing n).chans.length ∧ t.cores = s.cores ∧
    ∀ (c : Nat) (ch : Chan), (s.sailing n).chans[c]? = some ch → (t.sailing n).chans[c]? = some { ch with
      recv := ch.recv ++ ch.air.filter (there (s.sailing n) c), air := ch.air.filter fun x => !there (s.sailing n) c x })

/-- A barrier's node counts its arrivals, sends its completions with the last one, and drops a stale arrival; a completion sets DONE. A collective that
every participant has issued accesses their scratchpads as ports come free, then writes each one's result and completes, or faults them all where they disagree. A packet is held,
closes an armed round of one with its block once that has its ports, or is dropped (04 R123; 10 R318, R319, R323, R326). Which die counts a stale arrival (log 23) and that a
collective completes in one cycle for all its participants (log 41) are the model's (DEDUCED). -/
def Obligations.BarriersCollectivesAndRoundsComplete : Prop :=
  (∀ (s : State) (n : Nat) (m : BarMsg) (x : BarNode) (ps : List Nat), (s.sailing n).running = true → (s.sailing n).arrivals = [m] →
    m.due ≤ (s.sailing n).t → x = (s.sailing n).node m → ps = (s.sailing n).participants m.scope m.inst →
    (m.gen = x.gen → x.count + 1 < ps.length → ∃ t : State, Happens (.barrierArrival n) s t ∧ (t.sailing n).arrivals = [] ∧
      ((t.sailing n).node m).count = x.count + 1 ∧ ((t.sailing n).node m).gen = x.gen ∧
      (t.sailing n).completions = (s.sailing n).completions ∧ t.cores = s.cores) ∧
    (m.gen = x.gen → x.count + 1 = ps.length → ∃ t : State, Happens (.barrierArrival n) s t ∧ (t.sailing n).arrivals = [] ∧
      ((t.sailing n).node m).count = 0 ∧ ((t.sailing n).node m).gen = (x.gen + 1) % 65536 ∧ (t.sailing n).completions =
        (s.sailing n).completions ++ ps.map (fun p => { m with due := (s.sailing n).t + halfBar s.pod.latr m.scope, core := p }) ∧
      t.cores = s.cores) ∧
    (m.gen ≠ x.gen → ∃ t : State, Happens (.barrierArrival n) s t ∧ (t.sailing n).arrivals = [] ∧
      (t.die (nodeDie m.scope m.inst)).bardrop = (s.die (nodeDie m.scope m.inst)).bardrop + 1 ∧
      (t.sailing n).nodes = (s.sailing n).nodes)) ∧
  (∀ (s : State) (n : Nat) (m : BarMsg), (s.sailing n).running = true → (s.sailing n).completions = [m] → m.due ≤ (s.sailing n).t →
    barIndex m.scope m.b < (s.core m.core).bars.toList.length →
    ((s.core m.core).run.stopped = 0 → ∃ t : State, Happens (.barrierCompletion n) s t ∧ (t.sailing n).completions = [] ∧
      doneOf t m.core m = (m.gen + 1) % 65536 ∧ (t.core m.core).files = (s.core m.core).files) ∧
    ((s.core m.core).run.stopped ≠ 0 → ∃ t : State, Happens (.barrierCompletion n) s t ∧ (t.sailing n).completions = [m] ∧
      t.cores = s.cores)) ∧
  (∀ (s : State) (n : Nat) (x : Coll) (y : CollPart) (rest : List CollPart), (s.sailing n).running = true → (s.sailing n).colls = [x] →
    collReady s (s.sailing n) x = (true, none) → ∀ u ps, collServe s x.parts = (u, ps) → x.ranked u = y :: rest →
    ((∃ z ∈ ps, z.through s = false) → ∃ t : State, Happens (.collectiveComplete n) s t ∧ (t.sailing n).colls = [{ x with parts := ps }] ∧ t.mem = s.mem) ∧
    ((∀ z ∈ ps, z.through s = true) → (∀ z ∈ x.ranked u, z.op = y.op ∧ z.n = y.n ∧ z.comp = y.comp ∧ z.width = y.width) → ∃ t v : State,
      Happens (.collectiveComplete n) s t ∧ v.mem = s.mem ∧ v.cores = u.cores ∧ t = (x.ranked u).foldl (fun w z => collWrite w (x.ranked u)
        ((x.ranked u).map fun z => (List.range z.n).map fun i => readElt v z.core z.cap.bfmt (denseShape z.src z.n) 0 i) z) v ∧
      (t.sailing n).colls = [] ∧ ∀ z ∈ x.ranked u, Gone t z.core z.id) ∧
    ((∀ z ∈ ps, z.through s = true) → (∃ z ∈ rest, z.op ≠ y.op ∨ z.n ≠ y.n ∨ z.comp ≠ y.comp ∨ z.width ≠ y.width) → ∃ t : State,
      Happens (.collectiveComplete n) s t ∧ (t.sailing n).colls = [] ∧ ∀ z ∈ x.ranked u, Gone t z.core z.id ∧ (t.core z.core).run.faulted = true)) ∧
  (∀ (s : State) (n p : Nat) (x : Packet) (g : Group), (s.sailing n).running = true → (s.sailing n).packets = [x] → x.way.there = true →
    x.owner < 4 * (s.sailing n).quads.length → p = (s.sailing n).coreAt x.owner → g = (s.core p).groups.toList.getD x.group {} → x.group < 16 → g.held = [] →
    (∀ i, i < 4 * (s.sailing n).quads.length → ∀ y ∈ (s.core ((s.sailing n).coreAt i)).groups, y.served = none) →
    (x.round = g.nr → g.armed = none → ∃ t : State, Happens (.combiningPacket n) s t ∧ (t.sailing n).packets = [] ∧
      (t.core p).groups.toList.getD x.group {} = { g with held := [x] } ∧ t.mem = s.mem) ∧
    (x.round ≠ g.nr → x.round ≠ (g.nr + 1) % 16 → ∃ t : State, Happens (.combiningPacket n) s t ∧ (t.sailing n).packets = [] ∧
      (t.die (dieOf p)).cmbdrop = (s.die (dieOf p)).cmbdrop + 1 ∧ t.cores = s.cores ∧ t.mem = s.mem) ∧
    (∀ k v a : Nat, x.round = g.nr → x.merge = false → x.n = 1 → x.items = [(k, v)] → g.armed = some (false, 1, a) → Unmapped s p →
      ∀ u j, s.serveWords [(true, spadBase p + a, spadBase p + a + 16)] 0 64 = (u, j) →
      (MemoryCanonical s → wordIn [(true, spadBase p + a, spadBase p + a + 16)] j = none → ∃ t : State, Happens (.combiningPacket n) s t ∧
        t.mem.read (spadBase p + a) 8 = (k * 2 ^ 32 + v) % 2 ^ 64 ∧ t.mem.read (spadBase p + a + 8) 8 = 1 ∧
        (t.core p).groups.toList.getD x.group {} = { nr := (g.nr + 1) % 16, armed := none, held := [] }) ∧
      (wordIn [(true, spadBase p + a, spadBase p + a + 16)] j ≠ none → ∃ t : State, Happens (.combiningPacket n) s t ∧
        (t.core p).groups.toList.getD x.group {} = { g with held := [x], served := some j } ∧ t.mem = s.mem)))

/-- A legal alignment between sailings sets LATR and HLAT; a hold that is requested freezes the clocks HLAT cycles on, for its length, and every sailing
core counts it; a slack slot resends a flit of its lane, which is awaited no longer where its copy is good; a link's slot takes the first of the flits that wait at it, which
passes, or is garbled and waits for that lane again; caps hold from the next boundary; frames are numbered (10 R303 to R307, R311, R327). Frame numbers and what they acknowledge
(log 53), the places and lanes of residue flits with LMUSED (log 54), the noise of a line and the delays of a route's links (log 71) and the cap's periods (log 73) are the
model's choices. -/
def Sys2Proof.Claims.LinksHoldsAndResidue : Prop :=
  (∀ (s : State) (l h : Nat),
    (l % 8 = 0 → 64 ≤ l → l ≤ 2048 → h % 8 = 0 → h < 65536 → (∀ x ∈ s.sailings, 5 ≤ x.2.state) → ∃ t : State,
      Happens (.linkAlignment l h) s t ∧ t.pod.latr = l ∧ t.pod.hlat = h ∧ t.cores = s.cores ∧ t.mem = s.mem) ∧
    (l % 8 ≠ 0 ∨ l < 64 ∨ 2048 < l ∨ h % 8 ≠ 0 ∨ 65536 ≤ h ∨ (∃ x ∈ s.sailings, x.2.state ≤ 4) → Happens (.linkAlignment l h) s s)) ∧
  (∀ (s : State) (n d : Nat) (r : Retry), (s.sailing n).running = true → (s.sailing n).resent = [r] → d = r.key / 2 ^ 26 % 64 * 4 + r.key / 2 ^ 24 % 4 →
    ∃ t : State, Happens (.flitResend n) s t ∧ (t.die d).lretry = (s.die d).lretry + 1 ∧ (∀ x ∈ (s.sailing n).retries, x ≠ r → x ∈ (t.sailing n).retries) ∧
    (crcBad (withCrc r.flit ^^^ Config.lineNoise s.freeIx) = false → r ∉ (t.sailing n).retries) ∧
    (crcBad (withCrc r.flit ^^^ Config.lineNoise s.freeIx) = true → (t.sailing n).retries = (s.sailing n).retries) ∧
    (t.sailing n).chans = (s.sailing n).chans ∧ t.cores = s.cores ∧ t.mem = s.mem) ∧
  (∀ (s : State) (n : Nat) (r : Retry), r ∈ (s.sailing n).resent → r ∈ (s.sailing n).retries ∧ r.since < (s.sailing n).t ∧ ∃ l ∈ (s.sailing n).links, l.key = r.key ∧
    l.entry r.lane ((s.sailing n).t % (s.sailing n).period) / 2 ^ 14 = 2) ∧
  (∀ (s : State) (h : Nat),
    (h % 64 = 0 → 64 ≤ h → h ≤ 4096 → s.pod.freeze = none → ∃ t : State, Happens (.holdRequest h) s t ∧
      t.pod.holds = s.pod.holds ++ [(s.pod.tt + s.pod.hlat, h)] ∧ t.pod.freeze = none ∧ t.cores = s.cores) ∧
    (∀ a b, h % 64 = 0 → 64 ≤ h → h ≤ 4096 → s.pod.freeze = some (a, b) → ∃ t : State, Happens (.holdRequest h) s t ∧
      t.pod.freeze = some (a, max b (s.wall + h)) ∧ t.pod.holds = s.pod.holds) ∧
    (h % 64 ≠ 0 ∨ h < 64 ∨ 4096 < h → Happens (.holdRequest h) s s)) ∧
  (∀ (s : State) (u h : Nat), s.pod.holds = [(u, h)] → s.pod.freeze = none →
    (u ≤ s.pod.tt → ∃ t : State, Happens .holdFreeze s t ∧ t.pod.holds = [] ∧ t.pod.freeze = some (s.wall + 1, s.wall + h) ∧
      t.cores = s.cores) ∧
    (s.pod.tt < u → Happens .holdFreeze s s)) ∧
  (∀ (s : State) (a b : Nat), s.pod.freeze = some (a, b) →
    (b ≤ s.wall → ∃ t : State, Happens .holdFreezeEnd s t ∧ t.pod.freeze = none ∧ t.mem = s.mem ∧ ∀ p n, (s.core p).run.sailing = some n →
      (s.sailing n).running = true → (t.core p).obs.holdn = (s.core p).obs.holdn + 1 ∧
        (t.core p).obs.holdcyc = (s.core p).obs.holdcyc + BitVec.ofNat 64 (b + 1 - a) ∧ (t.core p).files = (s.core p).files) ∧
    (s.wall < b → Happens .holdFreezeEnd s s)) ∧
  (∀ (s : State) (d key lane : Nat) (bad : Bool), bad = crcBad (Config.lineNoise s.freeIx) →
    (∀ w ∈ waitingFlits s d, wayOf s w.flit = some w.way → (∀ y ∈ waitingFlits s d, y.at_ = key ∧ y.way.lost = none ∧ (y = w ∨ GoesBefore w y)) →
      OneLane s key lane → laneSlot s key lane ≠ .closed → ∃ t : State, Happens (.residueSlot d) s t ∧ Passed s t w lane bad ∧ t.mem = s.mem ∧
      (t.die d).lretry = (s.die d).lretry ∧
      (t.die d).lmused = (s.die d).lmused + (if laneOffers s d && laneSelected s d key lane then 1 else 0)) ∧
    (∀ w, waitingFlits s d = [w] → wayOf s w.flit = some w.way → w.at_ = key → w.way.lost = some lane → OneLane s key lane → laneSlot s key lane = .slack →
      ∃ t : State, Happens (.residueSlot d) s t ∧ Passed s t w lane bad ∧ t.mem = s.mem ∧ (t.die d).lretry = (s.die d).lretry + 1) ∧
    ((∀ w ∈ waitingFlits s d, ∀ l, l < linkLanes (linkKind w.at_) → laneSlot s w.at_ l = .closed) → Happens (.residueSlot d) s s)) ∧
  (∀ (s : State) (k a b : Nat), ∃ t : State, Happens (.powerLimit k a b) s t ∧ (t.pkg k).cap = some (a % 2 ^ 24, b % 2 ^ 24) ∧
    (t.pkg k).above = some s.pod.tt ∧ (t.pkg k).code = (s.pkg k).code ∧ t.cores = s.cores ∧ t.mem = s.mem) ∧
  (∀ (s : State) (k r : Nat) (x y : RPort), r < 24 → x = (s.pkg k).ports.toList.getD r {} → x.up = true →
    y = (s.pkg x.peer).ports.toList.getD x.peerPort {} → ∃ (t : State) (z : RPort), Happens (.roslysFrame k r) s t ∧
      (t.pkg k).ports.toList.getD r {} = z ∧ z.up = true ∧ z.peer = x.peer ∧ z.peerPort = x.peerPort ∧ z.seq = x.seq + 1 ∧ z.ack = y.seq ∧
      z.crcs.length = 21 ∧ t.cores = s.cores ∧ t.mem = s.mem)

/-- Channels, links, holds and residue slots keep the Timetable (10 R303 to R313, R327). -/
def Obligations.TheFabricKeepsItsTimetable : Prop := Claims.ChannelsKeepTheirSlots ∧ Claims.LinksHoldsAndResidue

/-! ## The platform -/

namespace Sys2Proof.Claims

/-- The one access of core p to another core's scratchpad or to physical memory under way is r: it is over its way, has yet to perform, and has not asked its home in
this cycle; no fault record of the core and no status block of its sailing waits for it. -/
def ToPerform (s : State) (p : Nat) (r : Remote) : Prop :=
  (s.core p).remotes = [r] ∧ r.way.there = true ∧ r.result = none ∧ (r.asked = none ∨ r.way.last < s.wall) ∧ (s.core p).posts = [] ∧
    ∀ n, (s.core p).run.sailing = some n → (s.sailing n).blocks = []

/-- The ports of core q's scratchpad are free in this cycle (04 R123). -/
def PortsFree (s : State) (q : Nat) : Prop := (s.core q).run.used = []

/-- The byte of physical memory that byte a of core q's scratchpad is for a scalar agent. -/
def homeByte (s : State) (q a : Nat) : Nat := spadBase q + (s.core q).visible a

/-- Bytes [a, a + n) hold v, and every other byte of memory is as it was. -/
def OnlyWrites (s t : State) (a n v : Nat) : Prop := t.mem.read a n = v % 256 ^ n ∧ ∀ x, x < a ∨ a + n ≤ x → t.mem.get x = s.mem.get x

/-- A monitor's register as it is stored (14 R400). -/
def MonitorSet (m : Monitor) (v : Nat) : Prop :=
  (m.cfg.extractLsb' 0 4).toNat = (if v % 16 < 7 then v % 16 else 0) ∧ (m.cfg.extractLsb' 4 5).toNat = v / 16 % 32 ∧ m.cfg.extractLsb' 9 3 = 0 ∧
    (m.cfg.extractLsb' 12 36).toNat = v / 4096 % 2 ^ 36 ∧ m.cfg.extractLsb' 48 16 = 0 ∧ m.count = 0 ∧ m.max = 0 ∧ m.min = BitVec.allOnes 64

/-- The port of a package. -/
def portOf (s : State) (k r : Nat) : RPort := (s.pkg k).ports.toList.getD r {}

/-- A sailing has quads in both of two packages. -/
def Spans (g : Sailing) (k j : Nat) : Prop := (∃ q ∈ g.quads, q / 96 = k) ∧ ∃ q ∈ g.quads, q / 96 = j

end Sys2Proof.Claims

/-- An access that is over its way performs at its home: a store or an atomic writes its bytes and no others, a load, a flag read or an atomic
answers what was there, a wrong tag, a faulted half or a faulted ring answers its fault, bytes above a watermark make it wait, and so does a port that an access
of higher rank has, until the next cycle; one of HBM is answered from the die's replica or from memory, and a write there waits while lines are retained; a helm's reaches the
registers and memories of control space. The reply fills its load-queue entry, or ends the flag operation that waits (01 R41; 04 R123, R126, R127, R138, R140; 09 R273, R274,
R291, R292, R294; 13 R365; 15 R405, R407). That a read above another core's watermark waits at the home's port, and where its fault is raised, are the model's (log 62, DESIGN
CHOICE). -/
def Obligations.RemoteAccessesPerformAndReply : Prop :=
  (∀ (s : State) (p q : Nat) (r : Remote) (v : Word), ToPerform s p r → spadOwner r.pa = some q → PortsFree s q →
    r.op = .store v ∨ r.op = .flagWrite v →
    ∃ t : State, Happens (.remoteAccessPerform p) s t ∧ (t.core p).remotes = [{ r with result := some 0, bad := none, way := { at_ := s.wall } }] ∧
      (MemoryCanonical s → OnlyWrites s t (homeByte s q (r.pa - spadBase q)) r.width v.toNat)) ∧
  (∀ (s : State) (p q : Nat) (r : Remote), ToPerform s p r → spadOwner r.pa = some q → (s.core q).run.sailing.isSome = true →
    (∃ n ∈ portsOf ((s.core q).visible (r.pa - spadBase q)) r.width, n ∈ (s.core q).run.used) → ∃ t : State,
    Happens (.remoteAccessPerform p) s t ∧ (t.core p).remotes = [{ r with asked := some (r.asked.getD s.wall), way := { r.way with last := s.wall } }] ∧ t.mem = s.mem) ∧
  (∀ (s : State) (p q : Nat) (r : Remote), ToPerform s p r → spadOwner r.pa = some q → PortsFree s q →
    (r.op = .load ∨ r.op = .flagRead → remoteGate s q (r.pa - spadBase q) r = none → r.width ≤ 8 → ∃ t : State, Happens (.remoteAccessPerform p) s t ∧
      (t.core p).remotes = [{ r with result := some (BitVec.ofNat 64 (readSpad s q (r.pa - spadBase q) r.width)), bad := none, way := { at_ := s.wall } }] ∧
      t.mem = s.mem) ∧
    (∀ (op : Nat) (b new : Word), r.op = .amo op b new → remoteGate s q (r.pa - spadBase q) r = none → op ≤ 9 →
      MemoryCanonical s → ∃ (t : State) (x : Nat), Happens (.remoteAccessPerform p) s t ∧
      (t.core p).remotes = [{ r with result := some (BitVec.ofNat 64 (readSpad s q (r.pa - spadBase q) r.width)), bad := none, way := { at_ := s.wall } }] ∧
      Atomic op r.width (readSpad s q (r.pa - spadBase q) r.width) (b.toNat % 2 ^ (8 * r.width)) new.toNat x ∧
      OnlyWrites s t (homeByte s q (r.pa - spadBase q)) r.width x) ∧
    (∀ h tag : Nat, r.op = .load ∨ r.op = .flagRead ∨ (∃ op b new, r.op = .amo op b new) → r.tag = some (h, tag) →
      tag ≠ (if ((s.core q).pmap.toList.getD (h % 16) {}).v then ((s.core q).pmap.toList.getD (h % 16) {}).tag else 0) → ∃ (t : State) (d : Nat),
      Happens (.remoteAccessPerform p) s t ∧ (t.core p).remotes = [{ r with result := some 0, bad := some (0x04, d), way := { at_ := s.wall } }] ∧ t.mem = s.mem) ∧
    (∀ src : Nat, r.op = .load ∨ r.op = .flagRead ∨ (∃ op b new, r.op = .amo op b new) → r.tag = none →
      (s.core q).halfFault (r.pa - spadBase q) r.width = some src ∨
        (s.core q).halfFault (r.pa - spadBase q) r.width = none ∧ (s.core q).watermark (r.pa - spadBase q) r.width = some (some src) → ∃ t : State,
      Happens (.remoteAccessPerform p) s t ∧ (t.core p).remotes = [{ r with result := some 0, bad := some (0x07, src), way := { at_ := s.wall } }] ∧ t.mem = s.mem) ∧
    (r.op = .load ∨ r.op = .flagRead ∨ (∃ op b new, r.op = .amo op b new) → r.tag = none → (s.core q).halfFault (r.pa - spadBase q) r.width = none →
      (s.core q).watermark (r.pa - spadBase q) r.width = some none → ∃ t : State,
      Happens (.remoteAccessPerform p) s t ∧ (t.core p).remotes = [{ r with asked := some (r.asked.getD s.wall), way := { r.way with last := s.wall } }] ∧ t.mem = s.mem)) ∧
  (∀ (s : State) (p : Nat) (r : Remote), ToPerform s p r → spadOwner r.pa = none → isControl r.pa = false →
    (r.op = .load → s.poisoned r.pa = false →
      ((∀ x ∈ (s.die (dieOf p)).replicas, x.1 ≠ r.pa / 64) → ∃ t : State, Happens (.remoteAccessPerform p) s t ∧ t.mem = s.mem ∧
        (t.core p).remotes = [{ r with result := some (BitVec.ofNat 64 (s.mem.read r.pa r.width)), bad := none, way := { at_ := s.wall } }]) ∧
      (∀ (l : BitVec 512) (rest : List (Nat × BitVec 512)), (s.die (dieOf p)).replicas = (r.pa / 64, l) :: rest → ∃ t : State,
        Happens (.remoteAccessPerform p) s t ∧ t.mem = s.mem ∧ (t.core p).remotes =
          [{ r with result := some (BitVec.ofNat 64 (l.toNat / 2 ^ (8 * (r.pa % 64)) % 2 ^ (8 * r.width))), bad := none, way := { at_ := s.wall } }])) ∧
    (retainFull s r.pa = false → MemoryCanonical s →
      (∀ v : Word, r.op = .store v → ∃ t : State, Happens (.remoteAccessPerform p) s t ∧
        (t.core p).remotes = [{ r with result := some 0, bad := none, way := { at_ := s.wall } }] ∧ OnlyWrites s t r.pa r.width v.toNat) ∧
      (∀ (op : Nat) (b new : Word), r.op = .amo op b new → op ≤ 9 → (∀ i, i < r.width → s.poisoned (r.pa + i) = false) → ∃ (t : State) (x : Nat),
        Happens (.remoteAccessPerform p) s t ∧
        (t.core p).remotes = [{ r with result := some (BitVec.ofNat 64 (s.mem.read r.pa r.width)), bad := none, way := { at_ := s.wall } }] ∧
        Atomic op r.width (s.mem.read r.pa r.width) (b.toNat % 2 ^ (8 * r.width)) new.toNat x ∧ OnlyWrites s t r.pa r.width x)) ∧
    (retainFull s r.pa = true → (∃ v, r.op = .store v) ∨ (∃ op b new, r.op = .amo op b new) → ∃ t : State, Happens (.remoteAccessPerform p) s t ∧
      (t.core p).remotes = [{ r with asked := some (r.asked.getD s.wall), way := { r.way with last := s.wall } }] ∧ t.mem = s.mem)) ∧
  (∀ (s : State) (p d x : Nat) (r : Remote), ToPerform s p r → isHelm p = true → (s.core p).run.sailing = none → d < 256 → r.pa = dieBase d + x →
    r.width = 8 → spadOwner r.pa = none →
    (x < 0x1800000 → x % 8 = 0 → MemoryCanonical s →
      (∀ v : Word, r.op = .store v → ∃ t : State, Happens (.remoteAccessPerform p) s t ∧
        (t.core p).remotes = [{ r with result := some 0, bad := none, way := { at_ := s.wall } }] ∧ OnlyWrites s t r.pa 8 v.toNat) ∧
      (r.op = .load → ∃ t : State, Happens (.remoteAccessPerform p) s t ∧ t.mem = s.mem ∧
        (t.core p).remotes = [{ r with result := some (if s.poisoned r.pa then 0 else BitVec.ofNat 64 (s.mem.read r.pa 8)), bad := none, way := { at_ := s.wall } }] ∧
        (t.die d).poisrd = (s.die d).poisrd + (if s.poisoned r.pa then 1 else 0)) ∧
      (∀ (op : Nat) (b new : Word), r.op = .amo op b new → op ≤ 9 → s.poisoned r.pa = false → ∃ (t : State) (y : Nat), Happens (.remoteAccessPerform p) s t ∧
        (t.core p).remotes = [{ r with result := some (BitVec.ofNat 64 (s.mem.read r.pa 8)), bad := none, way := { at_ := s.wall } }] ∧
        Atomic op 8 (s.mem.read r.pa 8) b.toNat new.toNat y ∧ OnlyWrites s t r.pa 8 y)) ∧
    (r.op = .load → x = 0x5000040 ∨ x = 0x5000058 → ∃ t : State, Happens (.remoteAccessPerform p) s t ∧ t.mem = s.mem ∧ t.dies = s.dies ∧
      (t.core p).remotes = [{ r with result := some (if x = 0x5000040 then (s.die d).ceSram else (s.die d).ueHbm), bad := none, way := { at_ := s.wall } }]) ∧
    (∀ v : Word, r.op = .store v → x = 0x5000000 → ∃ t u : State, Happens (.remoteAccessPerform p) s t ∧ Happens (.wakectlWrite d v.toNat) s u ∧
      (t.die d).wake = (u.die d).wake ∧ t.mem = s.mem ∧ (t.core p).remotes = [{ r with result := some 0, bad := none, way := { at_ := s.wall } }]) ∧
    (0x5001000 ≤ x → x < 0x5100000 → r.op = .load ∨ (∃ v, r.op = .store v) → ∃ t : State, Happens (.remoteAccessPerform p) s t ∧ t.mem = s.mem ∧
      t.dies = s.dies ∧ t.pkgs = s.pkgs ∧ (t.core p).remotes = [{ r with result := some 0, bad := none, way := { at_ := s.wall } }])) ∧
  (∀ (s : State) (p : Nat) (r : Remote) (v : Word), (s.core p).remotes = [r] → r.result = some v → r.way.there = true → r.due ≤ now s p →
    ∃ t : State, Happens (.remoteReply p) s t ∧ (t.core p).remotes = [] ∧ t.mem = s.mem ∧ (t.core p).files = (s.core p).files ∧
      (r.op = .flagRead → (t.core p).run.flag = some (v, r.bad)) ∧
      (∀ e : Nat, r.op ≠ .flagRead → r.entry = some e → (t.core p).queues.lq =
        (s.core p).queues.lq.map fun (x : QEntry) => if x.id = e then { x with val := some v, bad := r.bad } else x) ∧
      (r.op ≠ .flagRead → r.entry = none → (t.core p).queues.lq = (s.core p).queues.lq))

/-- A drift record that is queued goes to its place in the core's ring; monitors, the lane monitor and the wake recorder are set by their registers;
STOP, GO and STEP stop a core before its next bundle, with a record, and let it go on; a GO that finds it running waits for its stop (14 R398 to R404). The three debug events as
writes of DBGCTL, the breakpoint passed on GO, GO's wait and the kept STEP are log 30's, LMSEL and WAKECTL acting at once log 31's (DEDUCED). -/
def Obligations.ObservationAndDebugStops : Prop :=
  (∀ (s : State) (p : Nat), ((s.core p).obs.queue = [] ∨ (s.core p).obs.drlen = 0 ∨
      (∃ n, (s.core p).run.sailing = some n ∧ (s.sailing n).running = false) → Happens (.driftRecordDrain p) s s) ∧
    (∀ (v : Word) (rest : List Word) (a : Nat), (s.core p).obs.queue = v :: rest → (s.core p).obs.drlen ≠ 0 →
      (∀ n, (s.core p).run.sailing = some n → (s.sailing n).running = true) → (s.core p).obs.way.there = true →
      a = (s.core p).obs.drbase + 8 * ((s.core p).obs.drdrn.toNat % (s.core p).obs.drlen) →
      ∃ t : State, Happens (.driftRecordDrain p) s t ∧ (t.core p).obs.queue = rest ∧ (t.core p).obs.drdrn = (s.core p).obs.drdrn + 1 ∧
        (t.core p).files = (s.core p).files ∧ (populated a = true → isControl a = false → MemoryCanonical s → OnlyWrites s t a 8 v.toNat) ∧
        (populated a = false → t.mem = s.mem))) ∧
  (∀ (s : State) (p n v : Nat), n < 4 → ((s.core p).run.sailing = none ∨ (s.core p).run.closed = s.wall ∨
        (∃ a b, s.pod.freeze = some (a, b) ∧ a ≤ s.wall ∧ s.wall ≤ b) → ∃ t : State, Happens (.mcfgWrite p n v) s t ∧
      MonitorSet ((t.core p).obs.monitors.toList.getD n {}) v ∧ t.mem = s.mem) ∧
    (∀ k : Nat, (s.core p).run.sailing = some k → (s.sailing k).running = true → (s.core p).run.closed ≠ s.wall →
      (∀ a b, s.pod.freeze = some (a, b) → s.wall < a ∨ b < s.wall) → ∃ (t : State) (x : Word), Happens (.mcfgWrite p n v) s t ∧
      (t.core p).obs = (s.core p).obs ∧ (t.core p).pipe.eoc = (s.core p).pipe.eoc ++ [.ctl (0xC0 + 16 * n) x] ∧ MonitorSet { cfg := x } v)) ∧
  (∀ (s : State) (d v : Nat), ∃ t : State, Happens (.lmselWrite d v) s t ∧ dieRegister t (t.die d) 0xA8 = 0 ∧ (t.die d).lmused = 0 ∧
    (t.die d).lmsel.toNat = bitField v 32 39 * 2 ^ 32 + bitField v 21 23 * 2 ^ 21 + bitField v 9 20 * 2 ^ 9 + bitField v 8 8 * 2 ^ 8 ∧
    t.mem = s.mem ∧ t.cores = s.cores) ∧
  (∀ (s : State) (d v : Nat), ∃ t : State, Happens (.wakectlWrite d v) s t ∧ (t.die d).wake.start = bitField v 32 63 ∧
    (t.die d).wake.trig = bitField v 17 21 ∧ ((t.die d).wake.mode = true ↔ bitField v 16 16 = 1) ∧ (t.die d).wake.quad = bitField v 0 4 ∧
    ((t.die d).wake.arm = true ↔ bitField v 8 8 = 1) ∧ (bitField v 8 8 = 1 → (t.die d).wake.done = false ∧ (t.die d).wake.last = 0) ∧
    (bitField v 8 8 = 0 → (t.die d).wake.done = (s.die d).wake.done ∧ (t.die d).wake.last = (s.die d).wake.last ∧
      (t.die d).wake.sailing = (s.die d).wake.sailing) ∧ t.mem = s.mem) ∧
  (∀ (s : State) (d n : Nat), (s.die d).wake.sailing = some n → (s.die d).wake.arm = true →
    (5 ≤ (s.sailing n).state → ∃ t : State, Happens (.wakeDone d) s t ∧ (t.die d).wake.done = true ∧ (t.die d).wake.arm = false) ∧
    ((s.sailing n).running = true → (s.die d).wake.mode = false → (s.die d).wake.start + 65535 ≤ (s.sailing n).t → ∃ t : State,
      Happens (.wakeDone d) s t ∧ (t.die d).wake.done = true ∧ (t.die d).wake.arm = false) ∧
    ((s.sailing n).state < 5 → (s.die d).wake.mode = false → (s.sailing n).t < (s.die d).wake.start + 65535 → Happens (.wakeDone d) s s)) ∧
  (∀ (s : State) (p : Nat),
    (∃ t : State, Happens (.dbgStop p) s t ∧ (t.core p).dbg.stop = true ∧ (t.core p).dbg.step = false ∧ (t.core p).run = (s.core p).run ∧
      (t.core p).files = (s.core p).files) ∧
    ((s.core p).run.stopped = 2 → ∃ t : State, Happens (.dbgGo p) s t ∧ (t.core p).run = { (s.core p).run with stopped := 0 } ∧
      (t.core p).dbg.stepping = false ∧ (t.core p).dbg.pass = true ∧ (t.core p).dbg.held = true ∧ (t.core p).files = (s.core p).files) ∧
    ((s.core p).run.stopped = 2 → ∃ t : State, Happens (.dbgStep p) s t ∧ (t.core p).run = { (s.core p).run with stopped := 0 } ∧
      (t.core p).dbg.stepping = true ∧ (t.core p).dbg.pass = true ∧ (t.core p).files = (s.core p).files) ∧
    ((s.core p).run.stopped ≠ 2 → ∃ t : State, Happens (.dbgGo p) s t ∧ (t.core p).dbg.go = true ∧ (t.core p).run = (s.core p).run ∧ (t.core p).files = (s.core p).files)) ∧
  (∀ (s : State) (p a : Nat), isHelm p = false → (s.core p).due = true → a = (s.core p).nextBaddr →
    (∀ r : Nat, ((s.core p).dbg.stop = true ∧ r = 0) ∨ ((s.core p).dbg.stop = false ∧ (s.core p).dbg.pass = false ∧
        (((s.core p).dbg.brk0 % 2 = 1 ∧ (s.core p).dbg.brk0 / 4 = a / 4 ∧ r = 1) ∨
          ((s.core p).dbg.brk0 % 2 = 0 ∧ (s.core p).dbg.brk1 % 2 = 1 ∧ (s.core p).dbg.brk1 / 4 = a / 4 ∧ r = 2) ∨
          ((s.core p).dbg.brk0 % 2 = 0 ∧ (s.core p).dbg.brk1 % 2 = 0 ∧ (s.core p).dbg.stepping = true ∧ r = 3))) →
      (s.die (s.recordDie p)).faultBuf.length < 64 → (s.core p).remoteBusy = false → ∃ (t : State) (v : BitVec 256),
        Happens (.debugStopTaken p) s t ∧ (t.core p).run.stopped = (if (s.core p).dbg.go then 0 else 2) ∧ (t.core p).dbg.go = false ∧ (t.core p).dbg.reason = r ∧ (t.core p).files = (s.core p).files ∧
        (t.die (s.recordDie p)).faultBuf = (s.die (s.recordDie p)).faultBuf ++ [v] ∧ RecordSays v 0x0D 6 (s.core p).ctl.lid 0 a (now s p) r) ∧
    ((s.core p).dbg.stop = false → (s.core p).dbg.brk0 % 2 = 0 → (s.core p).dbg.brk1 % 2 = 0 → (s.core p).dbg.stepping = false →
      Happens (.debugStopTaken p) s s))

/-- Host words enter their endpoint or are dropped and counted, behind the host's earlier writes, once a flit has carried them there; host reads pop, host writes reach the HBM,
or wait while lines are retained; control space takes whole aligned words, and at an offset that no table lists none; memory errors are corrected, or poison their word, and are
counted, when they are read, by the patrol, or by the scrubber in its time; an invalidation removes a replica (01 R41; 09 R294; 10 R307; 13 R368; 15 R405 to R409, R415, R416). The
order of what the host sends is log 45's, and what an error's event carries log 46's and log 77's. -/
def Sys2Proof.Claims.HostAndMemoryErrors : Prop :=
  (∀ (s : State) (u e v : Nat) (q : List Word), e < 16 → q = (s.helm (helmBase + u)).inbound.toList.getD e [] → s.hostWrites = [] →
    ∃ t : State, Happens (.hostChannelWrite u e v) s t ∧ t.mem = s.mem ∧ t.cores = s.cores ∧
      ((HostOp.word u e v).links ≠ [] → t.hostWrites = [.word u e v] ∧ t.hostWay = { at_ := s.wall } ∧ t.helms = s.helms ∧ t.dies = s.dies) ∧
      ((HostOp.word u e v).links = [] → t.hostWrites = [] ∧ (∀ d, ∀ i ∈ (t.die d).invals, i.by_ ≠ .host) ∧
        (q.length < 64 → (t.helm (helmBase + u)).inbound.toList.getD e [] = q ++ [BitVec.ofNat 64 v]) ∧
        (64 ≤ q.length → t.helms = s.helms ∧ (t.die (dieOf (helmBase + u))).hchdrop = (s.die (dieOf (helmBase + u))).hchdrop + 1))) ∧
  (∀ (s : State) (u e v e' v' : Nat) (q : List Word), e < 16 → e' < 16 → e ≠ e' → q = (s.helm (helmBase + u)).inbound.toList.getD e [] →
    s.hostWrites = [.word u e v] → s.hostWay.there = true → ∃ t : State, Happens (.hostChannelWrite u e' v') s t ∧ t.mem = s.mem ∧ t.cores = s.cores ∧
      (∀ d, ∀ i ∈ (t.die d).invals, i.by_ ≠ .host) ∧ (q.length < 64 → (t.helm (helmBase + u)).inbound.toList.getD e [] = q ++ [BitVec.ofNat 64 v]) ∧
      (64 ≤ q.length → (t.helm (helmBase + u)).inbound.toList.getD e [] = q)) ∧
  (∀ (s : State) (u e v a w : Nat), e < 16 → s.hostWrites = [.mem a w] → s.hostWay.there = true →
    (retainFull s a = true → ∃ t : State, Happens (.hostChannelWrite u e v) s t ∧
      t.hostWrites = [.mem a w, .word u e v] ∧ t.helms = s.helms ∧ t.mem = s.mem ∧ t.cores = s.cores) ∧
    (retainFull s a = false → MemoryCanonical s → ∃ t : State, Happens (.hostChannelWrite u e v) s t ∧ OnlyWrites s t a 8 w ∧ t.cores = s.cores ∧
      ((HostOp.word u e v).links ≠ [] → t.hostWrites = [.word u e v] ∧ t.helms = s.helms))) ∧
  (∀ (s : State) (u e : Nat), 16 ≤ e → e < 32 → ∃ t : State, Happens (.hostOutboundRead u e) s t ∧ t.cores = s.cores ∧ t.mem = s.mem ∧
    (t.helm (helmBase + u)).outbound.toList.getD (e - 16) [] = ((s.helm (helmBase + u)).outbound.toList.getD (e - 16) []).drop 1) ∧
  (∀ (s : State) (d : Nat), ∃ t : State, Happens (.hostFaultPop d) s t ∧ (t.die d).faultBuf = (s.die d).faultBuf.drop 1 ∧ t.cores = s.cores ∧
    t.mem = s.mem ∧ t.sailings = s.sailings) ∧
  (∀ (s : State) (k o v : Nat),
    (k < 64 → o + 8 ≤ 0xB2D05E0000 → s.hostWrites = [] → ∃ t : State, Happens (.hostMemoryWrite k o v) s t ∧ t.cores = s.cores ∧
      ((HostOp.mem (pkgBase k + o) v).links ≠ [] ∨ retainFull s (pkgBase k + o) = true → t.hostWrites = [.mem (pkgBase k + o) v] ∧ t.mem = s.mem) ∧
      ((HostOp.mem (pkgBase k + o) v).links = [] → retainFull s (pkgBase k + o) = false → MemoryCanonical s → t.hostWrites = [] ∧
        OnlyWrites s t (pkgBase k + o) 8 v)) ∧
    (0xB2D05E0000 < o + 8 → Happens (.hostMemoryWrite k o v) s s)) ∧
  (∀ (s : State) (d x v : Nat), d < 256 →
    (x < 0x1800000 ∨ (0x2000000 ≤ x ∧ x < 0x2200000) → x % 8 = 0 → MemoryCanonical s → ∃ t : State,
      Happens (.controlRegisterWrite (dieBase d + x) v) s t ∧ OnlyWrites s t (dieBase d + x) 8 v ∧ t.cores = s.cores) ∧
    (∀ p : Nat, p < 96 → x = 0x4000408 + 0x20000 * p → ∃ t : State, Happens (.controlRegisterWrite (dieBase d + x) v) s t ∧
      (t.core (96 * d + p)).dbg.brk0 = bitField v 2 47 * 4 + v % 2 ∧ (t.core (96 * d + p)).run = (s.core (96 * d + p)).run ∧ t.mem = s.mem) ∧
    (x % 8 ≠ 0 → Happens (.controlRegisterWrite (dieBase d + x) v) s s) ∧
    (0x1800000 ≤ x ∧ x < 0x2000000 ∨ 0x2200000 ≤ x ∧ x < 0x4000000 ∨ 0x4C00000 ≤ x ∧ x < 0x40000000 ∧ x ≠ 0x5000000 ∧ x ≠ 0x50000A0 ∧
      (d % 4 ≠ 0 ∨ x < 0x7000000 ∨ 0x7000100 ≤ x ∧ x < 0x7000500 ∨ 0x7010000 ≤ x) → Happens (.controlRegisterWrite (dieBase d + x) v) s s) ∧
    (∀ p y : Nat, p < 96 → y < 0x20000 → x = 0x4000000 + 0x20000 * p + y → y < 0x208 ∨ 0x218 ≤ y ∧ y < 0x400 ∨ 0x418 ≤ y ∧ y < 0xE00 ∨ 0x1000 ≤ y →
      Happens (.controlRegisterWrite (dieBase d + x) v) s s)) ∧
  (∀ (s : State) (a v : Nat), isControl a = false → Happens (.controlRegisterWrite a v) s s) ∧
  (∀ (s : State) (a b : Nat), populated a = true → a % 0x400000000000 < 0x300000000000 →
    (b = 1 → ∃ t : State, Happens (.scrub a b) s t ∧ (t.die (hbmDie a)).ceHbm = (s.die (hbmDie a)).ceHbm + 1 ∧ t.poison = s.poison ∧
      t.mem = s.mem ∧ t.cores = s.cores) ∧
    (2 ≤ b → ∃ t : State, Happens (.scrub a b) s t ∧ (t.die (hbmDie a)).ueHbm = (s.die (hbmDie a)).ueHbm + 1 ∧ t.poisoned a = true ∧
      (∀ x : Nat, x / 8 ≠ a / 8 → t.poisoned x = s.poisoned x) ∧ t.mem = s.mem ∧ t.cores = s.cores)) ∧
  (∀ (s : State) (a p : Nat), populated a = true → spadOwner a = some p →
    ∃ t u : State, Happens (.scrub a 1) s t ∧ (t.die (dieOf p)).ceSram = (s.die (dieOf p)).ceSram + 1 ∧ t.poison = s.poison ∧
      Happens (.scrub a 2) s u ∧ (u.die (dieOf p)).ueSram = (s.die (dieOf p)).ueSram + 1 ∧ u.poisoned a = true) ∧
  (∀ (s : State) (k : Nat), s.upsets = [] → Happens (.hbmPatrolScrub k) s s) ∧
  (∀ (s : State) (k a : Nat) (u : Upset), s.upsets = [u] → a = 8 * u.word →
    (a % 0x400000000000 < 0x300000000000 → a / 0x400000000000 = k → ∃ t : State, Happens (.hbmPatrolScrub k) s t ∧ t.upsets = [] ∧ t.mem = s.mem ∧
      t.cores = s.cores ∧ (u.bits = 1 → t.poison = s.poison ∧ (t.die (hbmDie a)).ceHbm = (s.die (hbmDie a)).ceHbm + 1) ∧
      (u.bits ≠ 1 → t.poisoned a = true ∧ (t.die (hbmDie a)).ueHbm = (s.die (hbmDie a)).ueHbm + 1)) ∧
    (0x300000000000 ≤ a % 0x400000000000 ∨ a / 0x400000000000 ≠ k → Happens (.hbmPatrolScrub k) s s) ∧
    (∀ p : Nat, 0x300000000000 ≤ a % 0x400000000000 → spadOwner a = some p → u.bits = 1 → u.at_ + 2 ^ 28 ≤ s.wall + 1 →
      (scrub s).upsets = [] ∧ (scrub s).poison = s.poison ∧ ((scrub s).die (dieOf p)).ceSram = (s.die (dieOf p)).ceSram + 1 ∧ (scrub s).mem = s.mem) ∧
    (a % 0x400000000000 < 0x300000000000 → u.bits = 1 → s.wall % (24 * 60 * 60 * 1200000000) = 0 → (scrub s).upsets = [] ∧
      ((scrub s).die (hbmDie a)).ceHbm = (s.die (hbmDie a)).ceHbm + 1 ∧ (scrub s).mem = s.mem)) ∧
  (∀ (s : State) (d : Nat) (i : Inval), (s.die d).invals = [i] → ∃ t : State, Happens (.invalidationArrival d) s t ∧ (t.die d).invals = [] ∧
    (t.die d).replicas = ((s.die d).replicas.filter fun x => x.1 != i.line) ∧ t.mem = s.mem ∧ t.cores = s.cores)

/-- A package that is reset, or loses its power, keeps nothing but its HBM; a reboot stops its helm cores, and a boot starts them at its image's entry
where the image passes the checks; attestation signs the nonce as it stood; a clock change waits for the sailings that came before it; a port that
goes down takes its peer with it and kills the sailings that span both packages, a faulted one that still owns its quads too (13 R374, R388; 15 R410 to R414). What a reboot keeps
and the order of the boot's checks are log 24's, the sailings of a reset package log 32's, and what a clock change waits for log 33's (DEDUCED or DESIGN CHOICE). -/
def Sys2Proof.Claims.ResetBootClockAndPorts : Prop :=
  (∀ (s : State) (k : Nat), ∃ t : State, Happens (.packageReset k) s t ∧ (t.pkg k).code = 0xFF ∧ (t.pkg k).bootAddr = 0 ∧
    (∀ p : Nat, pkgOf p = k → t.core p = {} ∧ t.helm p = {}) ∧ (∀ q : Nat, q / 96 = k → t.quad q = {}) ∧
    (MemoryCanonical s → ∀ a : Nat, t.mem.get a = if a / 0x400000000000 = k ∧ 0x300000000000 ≤ a % 0x400000000000 then 0 else s.mem.get a) ∧
    (∀ j : Nat, j ≠ k → t.pkg j = s.pkg j) ∧ packageRegister t k 0x028 = 0 ∧ packageRegister t k 0x018 = 64 ∧ packageRegister t k 0x020 = 8) ∧
  (∀ (s : State) (k : Nat), ∃ t : State, Happens (.thermalShutdown k) s t ∧ (t.pkg k).off = true ∧ (∀ p : Nat, pkgOf p = k → t.core p = {}) ∧
    (∀ r j i : Nat, r < 24 → i < 24 → j ≠ k → (∀ x : Nat, x < 24 → (portOf s k x).up = true → (portOf s k x).peer ≠ k) → (portOf s k r).up = true → (portOf s k r).peer = j →
      (portOf s k r).peerPort = i → (portOf t j i).up = false)) ∧
  (∀ (s : State) (k : Nat), ∃ t : State, Happens (.reboot k) s t ∧ (t.pkg k).code = 0xFF ∧ (t.pkg k).bootAddr = (s.pkg k).bootAddr ∧
    (∀ p : Nat, isHelm p = true → pkgOf p = k → t.core p = {}) ∧ (∀ p : Nat, isHelm p = false → t.core p = s.core p) ∧
    t.dies = s.dies ∧ t.helms = s.helms ∧ t.sailings = s.sailings ∧ t.mem = s.mem) ∧
  (∀ (s : State) (k : Nat),
    ((s.pkg k).code ≠ 0xFF → Happens (.boot k) s s) ∧
    (∀ (digest : BitVec 256) (entry i : Nat), (s.pkg k).code = 0xFF → (s.pkg k).off = false → bootCheck s k = (0, digest, entry) → i < 8 →
      ∃ t : State, Happens (.boot k) s t ∧ (t.pkg k).code = 0 ∧ (t.pkg k).meas[1] = digest ∧ t.mem = s.mem ∧
        (t.core (helmBase + 8 * k + i)).run.live = true ∧ (t.core (helmBase + 8 * k + i)).fetch.pc = entry) ∧
    (∀ code : Nat, (s.pkg k).code = 0xFF → (s.pkg k).off = false → (bootCheck s k).1 = code → code ≠ 0 → ∃ t : State, Happens (.boot k) s t ∧
      (t.pkg k).code = code ∧ t.cores = s.cores ∧ t.mem = s.mem) ∧
    (s.poison = [] → s.mem.read (pkgBase k + (s.pkg k).bootAddr) 4 ≠ 0x57464D4C → (s.pkg k).code = 0xFF → (s.pkg k).off = false →
      ∃ t : State, Happens (.boot k) s t ∧ (t.pkg k).code = 1 ∧ t.cores = s.cores)) ∧
  (∀ (s : State) (k v : Nat), ∃ t : State, Happens (.attgoWrite k v) s t ∧ t.mem = s.mem ∧ t.cores = s.cores ∧
    (v % 2 = 1 → (s.pkg k).signing = none → t.pkg k = { s.pkg k with signing := some (s.pkg k).nonce }) ∧
    (v % 2 = 0 ∨ (s.pkg k).signing ≠ none → t.pkg k = s.pkg k)) ∧
  (∀ (s : State) (k : Nat), ((s.pkg k).signing = none → Happens (.attestationSigned k) s s) ∧
    (∀ n : BitVec 256, (s.pkg k).signing = some n → ∃ t : State, Happens (.attestationSigned k) s t ∧ (t.pkg k).signing = none ∧
      (t.pkg k).sig = Config.identitySign k n (s.pkg k).meas.toList k ∧ (t.pkg k).meas = (s.pkg k).meas)) ∧
  (∀ (s : State) (k v : Nat), ∃ t : State, Happens (.clkselWrite k v) s t ∧ t.mem = s.mem ∧ t.cores = s.cores ∧ t.pod.clk = s.pod.clk ∧
    (∀ x, x = (if v % 4 = 1 then 1 else 0) →
      (s.pod.change = none → t.pod.change = some (x, s.nextSailing)) ∧ (∀ y first, s.pod.change = some (y, first) → t.pod.change = some (x, first)) ∧
      ((∀ a ∈ s.pkgs, (t.pkg a.1).fresh = false) ∧ (k ∈ s.pkgs.map Prod.fst → packageRegister t k 0x028 = x + 256)))) ∧
  (∀ s : State, (s.pod.change = none → Happens .clockChange s s) ∧
    (∀ v first : Nat, s.pod.change = some (v, first) →
      ((∃ x ∈ s.sailings, x.1 < first ∧ x.2.state ≤ 4) → Happens .clockChange s s) ∧
      ((∀ x ∈ s.sailings, x.1 < first → 5 ≤ x.2.state) → ∃ t : State, Happens .clockChange s t ∧ t.pod.change = none ∧ t.pod.clk = v ∧
        (v ≠ 0 → t.pod.latr = s.pod.latr ∧ t.pod.hlat = s.pod.hlat) ∧
        (v = 0 → t.pod.latr % 8 = 0 ∧ 64 ≤ t.pod.latr ∧ t.pod.latr ≤ 2048 ∧ t.pod.hlat % 8 = 0 ∧ t.pod.hlat < 65536)))) ∧
  (∀ (s : State) (k r j i : Nat), j = (portOf s k r).peer → i = (portOf s k r).peerPort → ((portOf s k r).up = false → Happens (.portDown k r) s s) ∧
    (r < 24 → i < 24 → (portOf s k r).up = true → ∃ t : State, Happens (.portDown k r) s t ∧ (portOf t k r).up = false ∧ (portOf t j i).up = false ∧
      (∀ n ∈ s.sailings.map Prod.fst, Spans (s.sailing n) k j → (s.sailing n).state ≤ 4 ∨ (s.sailing n).state = 6 → (t.sailing n).killed = true) ∧
      (∀ n : Nat, ¬ Spans (s.sailing n) k j → t.sailing n = s.sailing n)))

/-- The host's accesses, memory errors, resets, boot, the clock and the ports (13 R368; 15 R405 to R416). -/
def Obligations.HostErrorsResetsAndBoot : Prop := Claims.HostAndMemoryErrors ∧ Claims.ResetBootClockAndPorts

/-! ## The life of a sailing -/

namespace Sys2Proof.Claims

/-- No core holds a part of sailing n. -/
def Released (t : State) (n : Nat) : Prop := ∀ x ∈ t.cores, x.2.run.sailing ≠ some n

/-- The quads that a launch names. -/
def quadsAsked (s : State) (n : Nat) : List Nat := (quadEntries s (s.sailing n)).map entryQuad

/-- The launch of sailing n waits for nothing but its loading. -/
def Launching (s : State) (n : Nat) : Prop :=
  (s.sailing n).state = 0 ∧ (s.sailing n).loaded = false ∧ (s.sailing n).killed = false ∧ s.pod.change = none ∧ n < s.nextSailing

/-- The state in which a launch that is not refused has loaded its partition. -/
def loadedState (s : State) (n : Nat) : State :=
  loadSailing s n (quadsAsked s n) (parseImage s (pkgOf (s.sailing n).helm) (s.sailing n).ttbl (4 * (s.sailing n).nquads))

/-- The entry segment of a loaded sailing can be expanded (13 R371). -/
def EntryGood (s : State) (n : Nat) : Prop :=
  let seg := readSegment (loadedState s n) (((loadedState s n).sailing n).coreAt 0) (s.sailing n).entry
  seg.failed = none ∧ seg.badHdr = false

end Sys2Proof.Claims

/-- A launch is refused with STATE 7 and the first cause that holds, or loads every core of its partition from the record and the image, all of them live, or idle but
for the core of the root task; it begins with STATE 1 at cycle 0 of its clock. A sailing whose every part has ended is done with STATE 5, END and its deadline's outcome; one that is
marked halts at landings and stops with STATE 3 where every core has halted; a killed one ends with STATE 8; their quads and carve-outs are free. A status block waits for the
remote accesses of its cores. A budget period begins with every USED 0 (10 R302; 13 R370 to R373, R376, R381, R383, R384, R388). That the first cause that holds is reported (log 26),
that a killed sailing's STATE 8 waits for its remote accesses (log 29) and what a stop takes along (log 28) are the model's (DEDUCED). -/
def Obligations.SailingsStartStopAndEnd : Prop :=
  (∀ (s : State) (n : Nat), Launching s n →
    (∀ c : Nat, refusal s n (s.sailing n) = some c → ∃ t : State, Happens (.sailingStart n) s t ∧ (t.sailing n).state = 7 ∧ (t.sailing n).cause = c ∧
      (t.sailing n).loaded = false ∧ BlockWritten s t n ∧ ∀ p : Nat, CoreKept s t p) ∧
    (refusal s n (s.sailing n) = none → (s.sailing n).task = false → EntryGood s n → (quadsAsked s n).Nodup → ∃ t : State,
      Happens (.sailingStart n) s t ∧ (t.sailing n).state = 0 ∧ (t.sailing n).loaded = true ∧ (t.sailing n).quads = quadsAsked s n ∧
      (t.sailing n).t = 0 ∧ ∀ k : Nat, k < 4 * (quadsAsked s n).length → ∃ (p : Nat) (c : Core), p = (t.sailing n).coreAt k ∧ c = t.core p ∧
        c.run.sailing = some n ∧ c.run.live = true ∧ c.run.halted = false ∧ c.ctl.lid = k ∧ c.ctl.qcount = (quadsAsked s n).length ∧
        c.ctl.carve = (s.sailing n).carve ∧ c.ctl.seed = (s.sailing n).seed ∧ c.ctl.landb = (s.sailing n).landb ∧
        c.ctl.ptroot = (s.sailing n).ptroot ∧ c.ctl.spwin = (s.sailing n).spwin ∧ c.fetch.pc = (s.sailing n).entry + 16 ∧
        c.files.x = ({} : Files).x ∧ c.files.f = ({} : Files).f ∧ c.files.a = ({} : Files).a ∧ c.pipe = {} ∧
        (∀ i : Fin 8, c.ctl.bfmt[i] = BitVec.ofNat 64 (s.mem.read ((s.sailing n).image + 8 * i.val) 8 % 65536))) ∧
    (refusal s n (s.sailing n) = none → (s.sailing n).task = true → EntryGood s n → (quadsAsked s n).Nodup → isHelm (s.sailing n).helm = true → ∃ t : State,
      Happens (.sailingStart n) s t ∧ (t.sailing n).state = 0 ∧ (t.sailing n).loaded = true ∧ (t.sailing n).quads = quadsAsked s n ∧
      ∀ k : Nat, k < 4 * (quadsAsked s n).length → ∃ (p : Nat) (c : Core), p = (t.sailing n).coreAt k ∧ c = t.core p ∧ c.run.sailing = some n ∧
        c.ctl.lid = k ∧ c.ctl.taskpath = 0 ∧ c.files.f = ({} : Files).f ∧ c.files.a = ({} : Files).a ∧
        (k ≠ 0 → c.run.live = false ∧ c.run.busy = false ∧ c.files.x = ({} : Files).x) ∧
        (k = 0 → c.run.live = true ∧ c.run.busy = true ∧ c.fetch.pc = (s.sailing n).entry + 16 ∧
          (∀ i : Fin 8, c.x (BitVec.ofNat 5 (i.val + 1)) = BitVec.ofNat 64 (readSpad s (s.sailing n).helm ((s.sailing n).rootarg + 8 * i.val) 8)) ∧
          ∀ r : BitVec 5, 9 ≤ r.toNat → c.x r = 0))) ∧
  (∀ (s t : State) (n : Nat) (g : Sailing), (s.sailings.map Prod.fst).Nodup → (n, g) ∈ s.sailings → t = advanceSailings s →
    (g.loaded = true → g.killed = false → g.running = false → (t.sailing n).running = true ∧ (t.sailing n).loaded = false ∧ (t.sailing n).t = g.t ∧
      (g.state = 0 → (t.sailing n).state = 1 ∧ (t.sailing n).start = s.wallOf (dieOf g.helm) ∧
        ((∀ x ∈ s.sailings, x.1 ≠ n → x.2.loaded = false) → BlockWritten s t n)) ∧
      (g.state ≠ 0 → (t.sailing n).state = g.state ∧ (t.sailing n).start = g.start) ∧
      ∀ p : Nat, (s.core p).run.sailing = some n → (t.core p).run.t = g.t ∧ (t.core p).run.lcnt = (s.core p).run.lcnt ∧
        (t.core p).files = (s.core p).files) ∧
    (g.loaded = false → g.running = true → (t.sailing n).t = g.t + 1 ∧ (t.sailing n).state = g.state ∧
      ∀ p : Nat, (s.core p).run.sailing = some n → (t.core p).run.t = g.t + 1 ∧ (t.core p).files = (s.core p).files)) ∧
  (∀ (s : State) (n : Nat), (s.sailing n).running = true → (s.sailing n).state = 1 ∨ (s.sailing n).state = 2 →
    (sailingEnded s n (s.sailing n) = true → ∃ (t : State) (d w : Nat), d = dieOf (s.sailing n).helm ∧ w = s.wallOf d ∧ Happens (.sailingDone n) s t ∧
      (t.sailing n).state = 5 ∧ (t.sailing n).running = false ∧ (t.sailing n).endW = w ∧ (t.sailing n).scyc = (s.sailing n).t ∧
      ((t.sailing n).late = true ↔ (s.sailing n).deadline ≠ 0 ∧ (s.sailing n).deadline < w) ∧ BlockWritten s t n ∧ Released t n) ∧
    (sailingEnded s n (s.sailing n) = false → Happens (.sailingDone n) s s)) ∧
  (∀ (s : State) (p n : Nat), (s.core p).run.sailing = some n →
    ((s.sailing n).state = 2 → ∃ t : State, Happens (.preemptMark p) s t ∧ (t.core p).run = { (s.core p).run with preempt := true } ∧
      (t.core p).files = (s.core p).files ∧ ∀ q : Nat, q ≠ p → t.core q = s.core q) ∧
    ((s.sailing n).state ≠ 2 → Happens (.preemptMark p) s s)) ∧
  (∀ (s : State) (n : Nat), (s.sailing n).running = true → (s.sailing n).state = 2 →
    ((∀ i : Nat, i < 4 * (s.sailing n).quads.length → ((s.core ((s.sailing n).coreAt i)).run.stopped = 1 ∨
        (s.core ((s.sailing n).coreAt i)).run.halted = true ∨ (s.sailing n).task = true ∧ (s.core ((s.sailing n).coreAt i)).run.busy = false) ∧
        (s.core ((s.sailing n).coreAt i)).note.iss = false) → (∀ c ∈ (s.sailing n).chans, c.air = []) → ∃ t : State, Happens (.stopCycle n) s t ∧
      (t.sailing n).state = 3 ∧ (t.sailing n).running = false ∧ (t.sailing n).stopW = s.wall ∧ (t.sailing n).t = (s.sailing n).t ∧
      BlockWritten s t n) ∧
    ((∃ i, i < 4 * (s.sailing n).quads.length ∧ ((s.core ((s.sailing n).coreAt i)).note.iss = true ∨
        (s.core ((s.sailing n).coreAt i)).run.stopped ≠ 1 ∧ (s.core ((s.sailing n).coreAt i)).run.halted = false ∧ (s.sailing n).task = false)) → Happens (.stopCycle n) s s)) ∧
  (∀ (s : State) (n : Nat), (s.sailing n).killed = true → (s.sailing n).state ≠ 8 →
    (s.engineWork n = false → (∀ x ∈ s.cores, x.2.run.sailing = some n → x.2.remotes = []) → ∃ t : State, Happens (.killComplete n) s t ∧
      (t.sailing n).state = 8 ∧ (t.sailing n).slot = none ∧ (t.sailing n).chans = [] ∧ (t.sailing n).arrivals = [] ∧ BlockWritten s t n ∧
      Released t n ∧ ∀ d : Nat, ∀ m, (s.sailing n).arrivals = [m] → d = nodeDie m.scope m.inst → (t.die d).bardrop = (s.die d).bardrop + 1) ∧
    (s.engineWork n = true → Happens (.killComplete n) s s)) ∧
  (∀ (s : State) (d : Nat), (s.wallOf d % 12000000 = 0 → ∃ t : State, Happens (.budgetPeriodBoundary d) s t ∧
      (∀ k : Nat, k < 64 → (queueOf (t.die d) k).used = 0 ∧ (queueOf (t.die d) k).attr = (queueOf (s.die d) k).attr ∧
        (queueOf (t.die d) k).fifo = (queueOf (s.die d) k).fifo) ∧ t.mem = s.mem ∧ t.cores = s.cores) ∧
    (s.wallOf d % 12000000 ≠ 0 → Happens (.budgetPeriodBoundary d) s s))
end

