-- ==== Sys2Proof/Laws/Decode.lean ====
section
/-! SUPPORT. The laws of the decoder: the arm that each opcode takes, and a field of a word that encode writes. -/

namespace Sys2Proof.Laws

/-- Every field fits its width, and the widths make t bits. -/
inductive Fits : List (Nat × Nat) → Nat → Prop where
  | nil : Fits [] 0
  | cons {n x : Nat} {l : List (Nat × Nat)} {t : Nat} (hx : x < 2 ^ n) (h : Fits l t) : Fits ((n, x) :: l) (t + n)

/-- A field of n bits with value x stands lo bits up. -/
inductive Stands : List (Nat × Nat) → Nat → Nat → Nat → Prop where
  | here {n x : Nat} {l : List (Nat × Nat)} : Stands ((n, x) :: l) 0 n x
  | up {m y : Nat} {l : List (Nat × Nat)} {lo n x : Nat} (h : Stands l lo n x) : Stands ((m, y) :: l) (lo + m) n x

/-- A packed word stays below its whole width. -/
theorem pack_lt {l : List (Nat × Nat)} {t : Nat} (h : Fits l t) : pack l < 2 ^ t := by
  induction h with
  | nil => simp [pack]
  | @cons n x l t hx _ ih =>
    show x + 2 ^ n * pack l < _
    calc x + 2 ^ n * pack l < 2 ^ n * 1 + 2 ^ n * pack l := by omega
      _ = 2 ^ n * (1 + pack l) := by ring
      _ ≤ 2 ^ n * 2 ^ t := Nat.mul_le_mul_left _ (by omega)
      _ = 2 ^ (t + n) := by rw [Nat.pow_add, Nat.mul_comm]

/-- A field is read where it stands. -/
theorem pack_field {l : List (Nat × Nat)} {t lo n x : Nat} (h : Fits l t) (hs : Stands l lo n x) : pack l / 2 ^ lo % 2 ^ n = x := by
  induction hs generalizing t with
  | @here n x l =>
    cases h with
    | cons hx _ =>
      show (x + 2 ^ n * pack l) / 2 ^ 0 % 2 ^ n = x
      rw [pow_zero, Nat.div_one, Nat.add_mul_mod_self_left, Nat.mod_eq_of_lt hx]
  | @up m y l lo n x _ ih =>
    cases h with
    | cons hy h =>
      rw [Nat.add_comm lo m, Nat.pow_add, ← Nat.div_div_eq_div_mul]
      show (y + 2 ^ m * pack l) / 2 ^ m / _ % _ = x
      rw [Nat.add_mul_div_left _ _ (Nat.two_pow_pos m), Nat.div_eq_of_lt hy, Nat.zero_add]
      exact ih h

/-- A field of a word of packed fields. -/
theorem word_field {l : List (Nat × Nat)} {lo n : Nat} (y : BitVec n) (h : Fits l 32) (hs : Stands l lo n y.toNat) :
    (word (pack l)).extractLsb' lo n = y := by
  have hw' : pack l % 4294967296 = pack l := Nat.mod_eq_of_lt (pack_lt h)
  apply BitVec.eq_of_toNat_eq
  simp [word, Nat.shiftRight_eq_div_pow, hw', pack_field h hs]

/-- A parsed instruction whose fields are good is decoded. -/
theorem decodeSlot_ok {k : SlotClass} {w e : Code} {i : Instr} (hp : parseSlot k w e = .ok i) (hb : i.badField = none) :
    decodeSlot k w e = .ok i := by
  unfold decodeSlot; rw [hp]; show (match i.badField with | some n => Except.error (Bad.operand n) | none => Except.ok i) = _; rw [hb]

/-- A parsed instruction with a bad field is rejected by the field's operand number (03 R90). -/
theorem decodeSlot_bad {k : SlotClass} {w e : Code} {i : Instr} {n : Nat} (hp : parseSlot k w e = .ok i) (hb : i.badField = some n) :
    decodeSlot k w e = .error (.operand n) := by
  unfold decodeSlot; rw [hp]; show (match i.badField with | some n => Except.error (Bad.operand n) | none => Except.ok i) = _; rw [hb]

theorem parseA_1 (w e : Code) (h : w.extractLsb' 25 7 = 1#7) : parseA w e =
    .ok (.addA (w.extractLsb' 21 4) (w.extractLsb' 16 5) (w.extractLsb' 11 5) (w.extractLsb' 6 5) (w.extractLsb' 0 6)) := by
  unfold parseA; rw [h]; rfl
theorem parseA_2 (w e : Code) (h : w.extractLsb' 25 7 = 2#7) : parseA w e =
    .ok (.addiA (w.extractLsb' 21 4) (w.extractLsb' 16 5) (w.extractLsb' 11 5) (w.extractLsb' 0 11)) := by
  unfold parseA; rw [h]; rfl
theorem parseA_3 (w e : Code) (h : w.extractLsb' 25 7 = 3#7) : parseA w e =
    .ok (.liA (w.extractLsb' 21 4) (w.extractLsb' 16 5) (w.extractLsb' 0 16)) := by
  unfold parseA; rw [h]; rfl
theorem parseA_4 (w e : Code) (h : w.extractLsb' 25 7 = 4#7) : parseA w e =
    .ok (.liuA (w.extractLsb' 21 4) (w.extractLsb' 16 5) (w.extractLsb' 0 16)) := by
  unfold parseA; rw [h]; rfl
theorem parseA_5 (w e : Code) (h : w.extractLsb' 25 7 = 5#7) : parseA w e =
    if w.extractLsb' 20 1 ≠ 0 then .error (.operand 0) else if w.extractLsb' 3 3 ≠ 0 then .error (.operand 4) else .ok (.cmpA (w.extractLsb' 21 4) (w.extractLsb' 16 4) (w.extractLsb' 11 5) (w.extractLsb' 6 5) (w.extractLsb' 0 3)) := by
  unfold parseA; rw [h]; rfl
theorem parseA_6 (w e : Code) (h : w.extractLsb' 25 7 = 6#7) : parseA w e =
    if w.extractLsb' 20 1 ≠ 0 then .error (.operand 0) else .ok (.cmpiA (w.extractLsb' 21 4) (w.extractLsb' 16 4) (w.extractLsb' 11 5) (w.extractLsb' 8 3) (w.extractLsb' 0 8)) := by
  unfold parseA; rw [h]; rfl
theorem parseA_8 (w e : Code) (h : w.extractLsb' 25 7 = 8#7) : parseA w e =
    .ok (.ldB (w.extractLsb' 21 4) (w.extractLsb' 16 5) (w.extractLsb' 11 5) (w.extractLsb' 7 4) (w.extractLsb' 0 7)) := by
  unfold parseA; rw [h]; rfl
theorem parseA_9 (w e : Code) (h : w.extractLsb' 25 7 = 9#7) : parseA w e =
    .ok (.ldH (w.extractLsb' 21 4) (w.extractLsb' 16 5) (w.extractLsb' 11 5) (w.extractLsb' 7 4) (w.extractLsb' 0 7)) := by
  unfold parseA; rw [h]; rfl
theorem parseA_10 (w e : Code) (h : w.extractLsb' 25 7 = 10#7) : parseA w e =
    .ok (.ldW (w.extractLsb' 21 4) (w.extractLsb' 16 5) (w.extractLsb' 11 5) (w.extractLsb' 7 4) (w.extractLsb' 0 7)) := by
  unfold parseA; rw [h]; rfl
theorem parseA_11 (w e : Code) (h : w.extractLsb' 25 7 = 11#7) : parseA w e =
    .ok (.ldD (w.extractLsb' 21 4) (w.extractLsb' 16 5) (w.extractLsb' 11 5) (w.extractLsb' 7 4) (w.extractLsb' 0 7)) := by
  unfold parseA; rw [h]; rfl
theorem parseA_12 (w e : Code) (h : w.extractLsb' 25 7 = 12#7) : parseA w e =
    .ok (.stB (w.extractLsb' 21 4) (w.extractLsb' 16 5) (w.extractLsb' 11 5) (w.extractLsb' 7 4) (w.extractLsb' 0 7)) := by
  unfold parseA; rw [h]; rfl
theorem parseA_13 (w e : Code) (h : w.extractLsb' 25 7 = 13#7) : parseA w e =
    .ok (.stH (w.extractLsb' 21 4) (w.extractLsb' 16 5) (w.extractLsb' 11 5) (w.extractLsb' 7 4) (w.extractLsb' 0 7)) := by
  unfold parseA; rw [h]; rfl
theorem parseA_14 (w e : Code) (h : w.extractLsb' 25 7 = 14#7) : parseA w e =
    .ok (.stW (w.extractLsb' 21 4) (w.extractLsb' 16 5) (w.extractLsb' 11 5) (w.extractLsb' 7 4) (w.extractLsb' 0 7)) := by
  unfold parseA; rw [h]; rfl
theorem parseA_15 (w e : Code) (h : w.extractLsb' 25 7 = 15#7) : parseA w e =
    .ok (.stD (w.extractLsb' 21 4) (w.extractLsb' 16 5) (w.extractLsb' 11 5) (w.extractLsb' 7 4) (w.extractLsb' 0 7)) := by
  unfold parseA; rw [h]; rfl
theorem parseA_16 (w e : Code) (h : w.extractLsb' 25 7 = 16#7) : parseA w e =
    if w.extractLsb' 10 1 ≠ 0 then .error (.operand 2) else .ok (.ldb (w.extractLsb' 21 4) (w.extractLsb' 16 5) (w.extractLsb' 11 5) (w.extractLsb' 6 4) (w.extractLsb' 5 1) (w.extractLsb' 0 5)) := by
  unfold parseA; rw [h]; rfl
theorem parseA_17 (w e : Code) (h : w.extractLsb' 25 7 = 17#7) : parseA w e =
    if w.extractLsb' 10 1 ≠ 0 then .error (.operand 2) else if w.extractLsb' 5 1 ≠ 0 then .error (.operand 4) else .ok (.stb (w.extractLsb' 21 4) (w.extractLsb' 16 5) (w.extractLsb' 11 5) (w.extractLsb' 6 4) (w.extractLsb' 0 5)) := by
  unfold parseA; rw [h]; rfl
theorem parseA_18 (w e : Code) (h : w.extractLsb' 25 7 = 18#7) : parseA w e =
    if w.extractLsb' 20 1 = 0 then if w.extractLsb' 16 1 ≠ 0 then .error (.operand 4) else .ok (.fenceOc (w.extractLsb' 21 4) (w.extractLsb' 17 3) (w.extractLsb' 0 16)) else
    if w.extractLsb' 20 1 = 1 then if w.extractLsb' 16 1 ≠ 0 then .error (.operand 4) else .ok (.fenceOcAll (w.extractLsb' 21 4) (w.extractLsb' 17 3) (w.extractLsb' 0 16)) else
    .error (.operand 4) := by
  unfold parseA; rw [h]; rfl
theorem parseA_19 (w e : Code) (h : w.extractLsb' 25 7 = 19#7) : parseA w e =
    if w.extractLsb' 4 2 ≠ 0 then .error (.operand 4) else .ok (.amoW (w.extractLsb' 21 4) (w.extractLsb' 16 5) (w.extractLsb' 11 5) (w.extractLsb' 6 5) (w.extractLsb' 0 4)) := by
  unfold parseA; rw [h]; rfl
theorem parseA_20 (w e : Code) (h : w.extractLsb' 25 7 = 20#7) : parseA w e =
    if w.extractLsb' 4 2 ≠ 0 then .error (.operand 4) else .ok (.amoD (w.extractLsb' 21 4) (w.extractLsb' 16 5) (w.extractLsb' 11 5) (w.extractLsb' 6 5) (w.extractLsb' 0 4)) := by
  unfold parseA; rw [h]; rfl
theorem parseA_21 (w e : Code) (h : w.extractLsb' 25 7 = 21#7) : parseA w e =
    if w.extractLsb' 3 1 = 0 then if w.extractLsb' 6 5 ≠ 0 then .error (.operand 2) else if w.extractLsb' 4 2 ≠ 0 then .error (.operand 4) else .ok (.sbind (w.extractLsb' 21 4) (w.extractLsb' 16 5) (w.extractLsb' 11 5) (w.extractLsb' 2 1) (w.extractLsb' 0 2)) else
    if w.extractLsb' 3 1 = 1 then if w.extractLsb' 11 5 ≠ 0 then .error (.operand 1) else if w.extractLsb' 6 5 ≠ 0 then .error (.operand 2) else if w.extractLsb' 4 2 ≠ 0 then .error (.operand 4) else .ok (.sbindU (w.extractLsb' 21 4) (w.extractLsb' 16 5) (w.extractLsb' 2 1) (w.extractLsb' 0 2)) else
    .error (.operand 4) := by
  unfold parseA; rw [h]; rfl
theorem parseA_22 (w e : Code) (h : w.extractLsb' 25 7 = 22#7) : parseA w e =
    if w.extractLsb' 0 2 = 0 then if w.extractLsb' 16 5 ≠ 0 then .error (.operand 0) else if w.extractLsb' 6 5 ≠ 0 then .error (.operand 2) else if w.extractLsb' 2 4 ≠ 0 then .error (.operand 4) else .ok (.lxsend (w.extractLsb' 21 4) (w.extractLsb' 11 5)) else
    if w.extractLsb' 0 2 = 1 then if w.extractLsb' 19 2 ≠ 0 then .error (.operand 0) else if w.extractLsb' 6 5 ≠ 0 then .error (.operand 2) else if w.extractLsb' 2 4 ≠ 0 then .error (.operand 4) else .ok (.lxsendCh (w.extractLsb' 21 4) (w.extractLsb' 16 3) (w.extractLsb' 11 5)) else
    if w.extractLsb' 0 2 = 2 then if w.extractLsb' 19 2 ≠ 0 then .error (.operand 0) else if w.extractLsb' 11 5 ≠ 0 then .error (.operand 1) else if w.extractLsb' 6 5 ≠ 0 then .error (.operand 2) else if w.extractLsb' 2 4 ≠ 0 then .error (.operand 4) else .ok (.lxsendCls (w.extractLsb' 21 4) (w.extractLsb' 16 3)) else
    .error (.operand 4) := by
  unfold parseA; rw [h]; rfl
theorem parseA_23 (w e : Code) (h : w.extractLsb' 25 7 = 23#7) : parseA w e =
    if w.extractLsb' 4 2 = 0 then if w.extractLsb' 19 2 ≠ 0 then .error (.operand 0) else .ok (.pub (w.extractLsb' 21 4) (w.extractLsb' 16 3) (w.extractLsb' 11 5) (w.extractLsb' 6 5) (w.extractLsb' 0 4)) else
    if w.extractLsb' 4 2 = 1 then if w.extractLsb' 20 1 ≠ 0 then .error (.operand 0) else if w.extractLsb' 6 5 ≠ 0 then .error (.operand 2) else if w.extractLsb' 0 4 ≠ 0 then .error (.operand 4) else .ok (.pubMap (w.extractLsb' 21 4) (w.extractLsb' 16 4) (w.extractLsb' 11 5)) else
    if w.extractLsb' 4 2 = 2 then if w.extractLsb' 20 1 ≠ 0 then .error (.operand 0) else if w.extractLsb' 11 5 ≠ 0 then .error (.operand 1) else if w.extractLsb' 6 5 ≠ 0 then .error (.operand 2) else if w.extractLsb' 0 4 ≠ 0 then .error (.operand 4) else .ok (.pubUnmap (w.extractLsb' 21 4) (w.extractLsb' 16 4)) else
    .error (.operand 4) := by
  unfold parseA; rw [h]; rfl
theorem parseA_24 (w e : Code) (h : w.extractLsb' 25 7 = 24#7) : parseA w e =
    if w.extractLsb' 0 1 = 0 then if w.extractLsb' 16 5 ≠ 0 then .error (.operand 0) else if w.extractLsb' 1 5 ≠ 0 then .error (.operand 4) else .ok (.expect (w.extractLsb' 21 4) (w.extractLsb' 11 5) (w.extractLsb' 6 5)) else
    if w.extractLsb' 0 1 = 1 then if w.extractLsb' 16 5 ≠ 0 then .error (.operand 0) else if w.extractLsb' 6 5 ≠ 0 then .error (.operand 2) else if w.extractLsb' 1 5 ≠ 0 then .error (.operand 4) else .ok (.expectC (w.extractLsb' 21 4) (w.extractLsb' 11 5)) else
    .error (.operand 4) := by
  unfold parseA; rw [h]; rfl
theorem parseA_63 (w e : Code) (h : w.extractLsb' 25 7 = 63#7) : parseA w e =
    if w.extractLsb' 6 5 ≠ 0 then .error (.operand 2) else if w.extractLsb' 5 1 ≠ 0 then .error (.operand 4) else .ok (.cp (w.extractLsb' 21 4) (w.extractLsb' 16 5) (w.extractLsb' 11 5) (w.extractLsb' 3 2) (w.extractLsb' 0 3)) := by
  unfold parseA; rw [h]; rfl
theorem parseA_64 (w e : Code) (h : w.extractLsb' 25 7 = 64#7) : parseA w e =
    .ok (.sldB (w.extractLsb' 21 4) (w.extractLsb' 16 5) (w.extractLsb' 11 5) (w.extractLsb' 7 4) (w.extractLsb' 0 7)) := by
  unfold parseA; rw [h]; rfl
theorem parseA_65 (w e : Code) (h : w.extractLsb' 25 7 = 65#7) : parseA w e =
    .ok (.sldH (w.extractLsb' 21 4) (w.extractLsb' 16 5) (w.extractLsb' 11 5) (w.extractLsb' 7 4) (w.extractLsb' 0 7)) := by
  unfold parseA; rw [h]; rfl
theorem parseA_66 (w e : Code) (h : w.extractLsb' 25 7 = 66#7) : parseA w e =
    .ok (.sldW (w.extractLsb' 21 4) (w.extractLsb' 16 5) (w.extractLsb' 11 5) (w.extractLsb' 7 4) (w.extractLsb' 0 7)) := by
  unfold parseA; rw [h]; rfl
theorem parseA_67 (w e : Code) (h : w.extractLsb' 25 7 = 67#7) : parseA w e =
    .ok (.sldD (w.extractLsb' 21 4) (w.extractLsb' 16 5) (w.extractLsb' 11 5) (w.extractLsb' 7 4) (w.extractLsb' 0 7)) := by
  unfold parseA; rw [h]; rfl
theorem parseA_68 (w e : Code) (h : w.extractLsb' 25 7 = 68#7) : parseA w e =
    .ok (.sstB (w.extractLsb' 21 4) (w.extractLsb' 16 5) (w.extractLsb' 11 5) (w.extractLsb' 7 4) (w.extractLsb' 0 7)) := by
  unfold parseA; rw [h]; rfl
theorem parseA_69 (w e : Code) (h : w.extractLsb' 25 7 = 69#7) : parseA w e =
    .ok (.sstH (w.extractLsb' 21 4) (w.extractLsb' 16 5) (w.extractLsb' 11 5) (w.extractLsb' 7 4) (w.extractLsb' 0 7)) := by
  unfold parseA; rw [h]; rfl
theorem parseA_70 (w e : Code) (h : w.extractLsb' 25 7 = 70#7) : parseA w e =
    .ok (.sstW (w.extractLsb' 21 4) (w.extractLsb' 16 5) (w.extractLsb' 11 5) (w.extractLsb' 7 4) (w.extractLsb' 0 7)) := by
  unfold parseA; rw [h]; rfl
theorem parseA_71 (w e : Code) (h : w.extractLsb' 25 7 = 71#7) : parseA w e =
    .ok (.sstD (w.extractLsb' 21 4) (w.extractLsb' 16 5) (w.extractLsb' 11 5) (w.extractLsb' 7 4) (w.extractLsb' 0 7)) := by
  unfold parseA; rw [h]; rfl
theorem parseA_72 (w e : Code) (h : w.extractLsb' 25 7 = 72#7) : parseA w e =
    if w.extractLsb' 4 2 ≠ 0 then .error (.operand 4) else .ok (.samoW (w.extractLsb' 21 4) (w.extractLsb' 16 5) (w.extractLsb' 11 5) (w.extractLsb' 6 5) (w.extractLsb' 0 4)) := by
  unfold parseA; rw [h]; rfl
theorem parseA_73 (w e : Code) (h : w.extractLsb' 25 7 = 73#7) : parseA w e =
    if w.extractLsb' 4 2 ≠ 0 then .error (.operand 4) else .ok (.samoD (w.extractLsb' 21 4) (w.extractLsb' 16 5) (w.extractLsb' 11 5) (w.extractLsb' 6 5) (w.extractLsb' 0 4)) := by
  unfold parseA; rw [h]; rfl
theorem parseA_96 (w e : Code) (h : w.extractLsb' 25 7 = 96#7) : parseA w e =
    if w.extractLsb' 16 5 ≠ 0 then .error (.operand 0) else if w.extractLsb' 0 6 ≠ 0 then .error (.operand 4) else .ok (.facqW (w.extractLsb' 21 4) (w.extractLsb' 11 5) (w.extractLsb' 6 5) (e.extractLsb' 20 12) (e.extractLsb' 19 1) (e.extractLsb' 16 3) (e.extractLsb' 0 16)) := by
  unfold parseA; rw [h]; rfl
theorem parseA_97 (w e : Code) (h : w.extractLsb' 25 7 = 97#7) : parseA w e =
    if w.extractLsb' 20 1 ≠ 0 then .error (.operand 0) else if w.extractLsb' 0 6 ≠ 0 then .error (.operand 4) else .ok (.facqT (w.extractLsb' 21 4) (w.extractLsb' 16 4) (w.extractLsb' 11 5) (w.extractLsb' 6 5) (e.extractLsb' 20 12) (e.extractLsb' 19 1) (e.extractLsb' 16 3) (e.extractLsb' 0 16)) := by
  unfold parseA; rw [h]; rfl
theorem parseA_98 (w e : Code) (h : w.extractLsb' 25 7 = 98#7) : parseA w e =
    if w.extractLsb' 16 5 ≠ 0 then .error (.operand 0) else if w.extractLsb' 0 6 ≠ 0 then .error (.operand 4) else .ok (.frel (w.extractLsb' 21 4) (w.extractLsb' 11 5) (w.extractLsb' 6 5) (e.extractLsb' 20 12) (e.extractLsb' 19 1) (e.extractLsb' 16 3) (e.extractLsb' 0 16)) := by
  unfold parseA; rw [h]; rfl
theorem parseX_1 (w : Code) (h : w.extractLsb' 25 7 = 1#7) : parseX w =
    .ok (.addX (w.extractLsb' 21 4) (w.extractLsb' 16 5) (w.extractLsb' 11 5) (w.extractLsb' 6 5) (w.extractLsb' 0 6)) := by
  unfold parseX; rw [h]; rfl
theorem parseX_2 (w : Code) (h : w.extractLsb' 25 7 = 2#7) : parseX w =
    .ok (.addiX (w.extractLsb' 21 4) (w.extractLsb' 16 5) (w.extractLsb' 11 5) (w.extractLsb' 0 11)) := by
  unfold parseX; rw [h]; rfl
theorem parseX_3 (w : Code) (h : w.extractLsb' 25 7 = 3#7) : parseX w =
    .ok (.andi (w.extractLsb' 21 4) (w.extractLsb' 16 5) (w.extractLsb' 11 5) (w.extractLsb' 0 11)) := by
  unfold parseX; rw [h]; rfl
theorem parseX_4 (w : Code) (h : w.extractLsb' 25 7 = 4#7) : parseX w =
    .ok (.ori (w.extractLsb' 21 4) (w.extractLsb' 16 5) (w.extractLsb' 11 5) (w.extractLsb' 0 11)) := by
  unfold parseX; rw [h]; rfl
theorem parseX_5 (w : Code) (h : w.extractLsb' 25 7 = 5#7) : parseX w =
    .ok (.xori (w.extractLsb' 21 4) (w.extractLsb' 16 5) (w.extractLsb' 11 5) (w.extractLsb' 0 11)) := by
  unfold parseX; rw [h]; rfl
theorem parseX_6 (w : Code) (h : w.extractLsb' 25 7 = 6#7) : parseX w =
    if w.extractLsb' 6 5 ≠ 0 then .error (.operand 5) else .ok (.shli (w.extractLsb' 21 4) (w.extractLsb' 16 5) (w.extractLsb' 11 5) (w.extractLsb' 0 6)) := by
  unfold parseX; rw [h]; rfl
theorem parseX_7 (w : Code) (h : w.extractLsb' 25 7 = 7#7) : parseX w =
    if w.extractLsb' 6 5 ≠ 0 then .error (.operand 5) else .ok (.shri (w.extractLsb' 21 4) (w.extractLsb' 16 5) (w.extractLsb' 11 5) (w.extractLsb' 0 6)) := by
  unfold parseX; rw [h]; rfl
theorem parseX_8 (w : Code) (h : w.extractLsb' 25 7 = 8#7) : parseX w =
    if w.extractLsb' 6 5 ≠ 0 then .error (.operand 5) else .ok (.srai (w.extractLsb' 21 4) (w.extractLsb' 16 5) (w.extractLsb' 11 5) (w.extractLsb' 0 6)) := by
  unfold parseX; rw [h]; rfl
theorem parseX_9 (w : Code) (h : w.extractLsb' 25 7 = 9#7) : parseX w =
    .ok (.liX (w.extractLsb' 21 4) (w.extractLsb' 16 5) (w.extractLsb' 0 16)) := by
  unfold parseX; rw [h]; rfl
theorem parseX_10 (w : Code) (h : w.extractLsb' 25 7 = 10#7) : parseX w =
    .ok (.liuX (w.extractLsb' 21 4) (w.extractLsb' 16 5) (w.extractLsb' 0 16)) := by
  unfold parseX; rw [h]; rfl
theorem parseX_11 (w : Code) (h : w.extractLsb' 25 7 = 11#7) : parseX w =
    if w.extractLsb' 20 1 ≠ 0 then .error (.operand 0) else if w.extractLsb' 3 3 ≠ 0 then .error (.operand 4) else .ok (.cmpX (w.extractLsb' 21 4) (w.extractLsb' 16 4) (w.extractLsb' 11 5) (w.extractLsb' 6 5) (w.extractLsb' 0 3)) := by
  unfold parseX; rw [h]; rfl
theorem parseX_12 (w : Code) (h : w.extractLsb' 25 7 = 12#7) : parseX w =
    if w.extractLsb' 20 1 ≠ 0 then .error (.operand 0) else .ok (.cmpiX (w.extractLsb' 21 4) (w.extractLsb' 16 4) (w.extractLsb' 11 5) (w.extractLsb' 8 3) (w.extractLsb' 0 8)) := by
  unfold parseX; rw [h]; rfl
theorem parseX_13 (w : Code) (h : w.extractLsb' 25 7 = 13#7) : parseX w =
    if w.extractLsb' 4 2 ≠ 0 then .error (.operand 4) else .ok (.sel (w.extractLsb' 21 4) (w.extractLsb' 16 5) (w.extractLsb' 11 5) (w.extractLsb' 6 5) (w.extractLsb' 0 4)) := by
  unfold parseX; rw [h]; rfl
theorem parseX_14 (w : Code) (h : w.extractLsb' 25 7 = 14#7) : parseX w =
    if w.extractLsb' 2 4 ≠ 0 then .error (.operand 4) else .ok (.mul (w.extractLsb' 21 4) (w.extractLsb' 16 5) (w.extractLsb' 11 5) (w.extractLsb' 6 5) (w.extractLsb' 0 2)) := by
  unfold parseX; rw [h]; rfl
theorem parseX_15 (w : Code) (h : w.extractLsb' 25 7 = 15#7) : parseX w =
    if w.extractLsb' 1 5 ≠ 0 then .error (.operand 4) else .ok (.mulw (w.extractLsb' 21 4) (w.extractLsb' 16 5) (w.extractLsb' 11 5) (w.extractLsb' 6 5) (w.extractLsb' 0 1)) := by
  unfold parseX; rw [h]; rfl
theorem parseX_16 (w : Code) (h : w.extractLsb' 25 7 = 16#7) : parseX w =
    if w.extractLsb' 2 4 ≠ 0 then .error (.operand 4) else .ok (.div (w.extractLsb' 21 4) (w.extractLsb' 16 5) (w.extractLsb' 11 5) (w.extractLsb' 6 5) (w.extractLsb' 0 2)) := by
  unfold parseX; rw [h]; rfl
theorem parseX_17 (w : Code) (h : w.extractLsb' 25 7 = 17#7) : parseX w =
    if w.extractLsb' 6 5 ≠ 0 then .error (.operand 2) else .ok (.bcnt (w.extractLsb' 21 4) (w.extractLsb' 16 5) (w.extractLsb' 11 5) (w.extractLsb' 0 6)) := by
  unfold parseX; rw [h]; rfl
theorem parseX_18 (w : Code) (h : w.extractLsb' 25 7 = 18#7) : parseX w =
    .ok (.ext (w.extractLsb' 21 4) (w.extractLsb' 16 5) (w.extractLsb' 11 5) (w.extractLsb' 6 5) (w.extractLsb' 0 6)) := by
  unfold parseX; rw [h]; rfl
theorem parseX_19 (w : Code) (h : w.extractLsb' 25 7 = 19#7) : parseX w =
    .ok (.ins (w.extractLsb' 21 4) (w.extractLsb' 16 5) (w.extractLsb' 11 5) (w.extractLsb' 6 5) (w.extractLsb' 0 6)) := by
  unfold parseX; rw [h]; rfl
theorem parseX_20 (w : Code) (h : w.extractLsb' 25 7 = 20#7) : parseX w =
    .ok (.exts (w.extractLsb' 21 4) (w.extractLsb' 16 5) (w.extractLsb' 11 5) (w.extractLsb' 6 5) (w.extractLsb' 0 6)) := by
  unfold parseX; rw [h]; rfl
theorem parseX_21 (w : Code) (h : w.extractLsb' 25 7 = 21#7) : parseX w =
    if w.extractLsb' 3 3 ≠ 0 then .error (.operand 4) else .ok (.crc8 (w.extractLsb' 21 4) (w.extractLsb' 16 5) (w.extractLsb' 11 5) (w.extractLsb' 6 5) (w.extractLsb' 0 3)) := by
  unfold parseX; rw [h]; rfl
theorem parseX_22 (w : Code) (h : w.extractLsb' 25 7 = 22#7) : parseX w =
    if w.extractLsb' 1 5 ≠ 0 then .error (.operand 4) else .ok (.rng (w.extractLsb' 21 4) (w.extractLsb' 16 5) (w.extractLsb' 11 5) (w.extractLsb' 6 5) (w.extractLsb' 0 1)) := by
  unfold parseX; rw [h]; rfl
theorem parseX_23 (w : Code) (h : w.extractLsb' 25 7 = 23#7) : parseX w =
    if w.extractLsb' 6 5 ≠ 0 then .error (.operand 2) else if w.extractLsb' 2 4 ≠ 0 then .error (.operand 4) else .ok (.tdec (w.extractLsb' 21 4) (w.extractLsb' 16 5) (w.extractLsb' 11 5) (w.extractLsb' 0 2)) := by
  unfold parseX; rw [h]; rfl
theorem parseX_24 (w : Code) (h : w.extractLsb' 25 7 = 24#7) : parseX w =
    if w.extractLsb' 20 1 ≠ 0 then .error (.operand 0) else if w.extractLsb' 4 2 ≠ 0 then .error (.operand 4) else .ok (.tcmp (w.extractLsb' 21 4) (w.extractLsb' 16 4) (w.extractLsb' 11 5) (w.extractLsb' 6 5) (w.extractLsb' 2 2) (w.extractLsb' 0 2)) := by
  unfold parseX; rw [h]; rfl
theorem parseX_25 (w : Code) (h : w.extractLsb' 25 7 = 25#7) : parseX w =
    if w.extractLsb' 6 5 ≠ 0 then .error (.operand 2) else .ok (.tcvt (w.extractLsb' 21 4) (w.extractLsb' 16 5) (w.extractLsb' 11 5) (w.extractLsb' 4 2) (w.extractLsb' 2 2) (w.extractLsb' 0 2)) := by
  unfold parseX; rw [h]; rfl
theorem parseX_63 (w : Code) (h : w.extractLsb' 25 7 = 63#7) : parseX w =
    if w.extractLsb' 6 5 ≠ 0 then .error (.operand 2) else if w.extractLsb' 5 1 ≠ 0 then .error (.operand 4) else .ok (.cp (w.extractLsb' 21 4) (w.extractLsb' 16 5) (w.extractLsb' 11 5) (w.extractLsb' 3 2) (w.extractLsb' 0 3)) := by
  unfold parseX; rw [h]; rfl
theorem parseF_1 (w : Code) (h : w.extractLsb' 25 7 = 1#7) : parseF w =
    if w.extractLsb' 1 5 ≠ 0 then .error (.operand 4) else .ok (.fadd (w.extractLsb' 21 4) (w.extractLsb' 16 5) (w.extractLsb' 11 5) (w.extractLsb' 6 5) (w.extractLsb' 0 1)) := by
  unfold parseF; rw [h]; rfl
theorem parseF_2 (w : Code) (h : w.extractLsb' 25 7 = 2#7) : parseF w =
    if w.extractLsb' 1 5 ≠ 0 then .error (.operand 4) else .ok (.fsub (w.extractLsb' 21 4) (w.extractLsb' 16 5) (w.extractLsb' 11 5) (w.extractLsb' 6 5) (w.extractLsb' 0 1)) := by
  unfold parseF; rw [h]; rfl
theorem parseF_3 (w : Code) (h : w.extractLsb' 25 7 = 3#7) : parseF w =
    if w.extractLsb' 1 5 ≠ 0 then .error (.operand 4) else .ok (.fmul (w.extractLsb' 21 4) (w.extractLsb' 16 5) (w.extractLsb' 11 5) (w.extractLsb' 6 5) (w.extractLsb' 0 1)) := by
  unfold parseF; rw [h]; rfl
theorem parseF_4 (w : Code) (h : w.extractLsb' 25 7 = 4#7) : parseF w =
    .ok (.fma (w.extractLsb' 21 4) (w.extractLsb' 16 5) (w.extractLsb' 11 5) (w.extractLsb' 6 5) (w.extractLsb' 1 5) (w.extractLsb' 0 1)) := by
  unfold parseF; rw [h]; rfl
theorem parseF_5 (w : Code) (h : w.extractLsb' 25 7 = 5#7) : parseF w =
    .ok (.fms (w.extractLsb' 21 4) (w.extractLsb' 16 5) (w.extractLsb' 11 5) (w.extractLsb' 6 5) (w.extractLsb' 1 5) (w.extractLsb' 0 1)) := by
  unfold parseF; rw [h]; rfl
theorem parseF_6 (w : Code) (h : w.extractLsb' 25 7 = 6#7) : parseF w =
    .ok (.fnma (w.extractLsb' 21 4) (w.extractLsb' 16 5) (w.extractLsb' 11 5) (w.extractLsb' 6 5) (w.extractLsb' 1 5) (w.extractLsb' 0 1)) := by
  unfold parseF; rw [h]; rfl
theorem parseF_7 (w : Code) (h : w.extractLsb' 25 7 = 7#7) : parseF w =
    if w.extractLsb' 1 5 ≠ 0 then .error (.operand 4) else .ok (.fdiv (w.extractLsb' 21 4) (w.extractLsb' 16 5) (w.extractLsb' 11 5) (w.extractLsb' 6 5) (w.extractLsb' 0 1)) := by
  unfold parseF; rw [h]; rfl
theorem parseF_8 (w : Code) (h : w.extractLsb' 25 7 = 8#7) : parseF w =
    if w.extractLsb' 6 5 ≠ 0 then .error (.operand 2) else if w.extractLsb' 1 5 ≠ 0 then .error (.operand 4) else .ok (.fsqrt (w.extractLsb' 21 4) (w.extractLsb' 16 5) (w.extractLsb' 11 5) (w.extractLsb' 0 1)) := by
  unfold parseF; rw [h]; rfl
theorem parseF_9 (w : Code) (h : w.extractLsb' 25 7 = 9#7) : parseF w =
    if w.extractLsb' 1 5 ≠ 0 then .error (.operand 4) else .ok (.fmin (w.extractLsb' 21 4) (w.extractLsb' 16 5) (w.extractLsb' 11 5) (w.extractLsb' 6 5) (w.extractLsb' 0 1)) := by
  unfold parseF; rw [h]; rfl
theorem parseF_10 (w : Code) (h : w.extractLsb' 25 7 = 10#7) : parseF w =
    if w.extractLsb' 1 5 ≠ 0 then .error (.operand 4) else .ok (.fmax (w.extractLsb' 21 4) (w.extractLsb' 16 5) (w.extractLsb' 11 5) (w.extractLsb' 6 5) (w.extractLsb' 0 1)) := by
  unfold parseF; rw [h]; rfl
theorem parseF_11 (w : Code) (h : w.extractLsb' 25 7 = 11#7) : parseF w =
    if w.extractLsb' 20 1 ≠ 0 then .error (.operand 0) else if w.extractLsb' 4 2 ≠ 0 then .error (.operand 4) else .ok (.fcmp (w.extractLsb' 21 4) (w.extractLsb' 16 4) (w.extractLsb' 11 5) (w.extractLsb' 6 5) (w.extractLsb' 1 3) (w.extractLsb' 0 1)) := by
  unfold parseF; rw [h]; rfl
theorem parseF_12 (w : Code) (h : w.extractLsb' 25 7 = 12#7) : parseF w =
    if w.extractLsb' 6 5 ≠ 0 then .error (.operand 2) else .ok (.fcvt (w.extractLsb' 21 4) (w.extractLsb' 16 5) (w.extractLsb' 11 5) (w.extractLsb' 3 3) (w.extractLsb' 0 3)) := by
  unfold parseF; rw [h]; rfl
theorem parseF_13 (w : Code) (h : w.extractLsb' 25 7 = 13#7) : parseF w =
    if w.extractLsb' 3 3 ≠ 0 then .error (.operand 4) else .ok (.fsgn (w.extractLsb' 21 4) (w.extractLsb' 16 5) (w.extractLsb' 11 5) (w.extractLsb' 6 5) (w.extractLsb' 1 2) (w.extractLsb' 0 1)) := by
  unfold parseF; rw [h]; rfl
theorem parseF_14 (w : Code) (h : w.extractLsb' 25 7 = 14#7) : parseF w =
    if w.extractLsb' 6 5 ≠ 0 then .error (.operand 2) else if w.extractLsb' 1 5 ≠ 0 then .error (.operand 4) else .ok (.fcls (w.extractLsb' 21 4) (w.extractLsb' 16 5) (w.extractLsb' 11 5) (w.extractLsb' 0 1)) := by
  unfold parseF; rw [h]; rfl
theorem parseF_15 (w : Code) (h : w.extractLsb' 25 7 = 15#7) : parseF w =
    if w.extractLsb' 2 1 = 0 then if w.extractLsb' 3 3 ≠ 0 then .error (.operand 4) else .ok (.tadd (w.extractLsb' 21 4) (w.extractLsb' 16 5) (w.extractLsb' 11 5) (w.extractLsb' 6 5) (w.extractLsb' 0 2)) else
    if w.extractLsb' 2 1 = 1 then if w.extractLsb' 3 3 ≠ 0 then .error (.operand 4) else .ok (.tsub (w.extractLsb' 21 4) (w.extractLsb' 16 5) (w.extractLsb' 11 5) (w.extractLsb' 6 5) (w.extractLsb' 0 2)) else
    .error (.operand 4) := by
  unfold parseF; rw [h]; rfl
theorem parseF_16 (w : Code) (h : w.extractLsb' 25 7 = 16#7) : parseF w =
    if w.extractLsb' 2 4 ≠ 0 then .error (.operand 4) else .ok (.tmul (w.extractLsb' 21 4) (w.extractLsb' 16 5) (w.extractLsb' 11 5) (w.extractLsb' 6 5) (w.extractLsb' 0 2)) := by
  unfold parseF; rw [h]; rfl
theorem parseF_63 (w : Code) (h : w.extractLsb' 25 7 = 63#7) : parseF w =
    if w.extractLsb' 6 5 ≠ 0 then .error (.operand 2) else if w.extractLsb' 5 1 ≠ 0 then .error (.operand 4) else .ok (.cp (w.extractLsb' 21 4) (w.extractLsb' 16 5) (w.extractLsb' 11 5) (w.extractLsb' 3 2) (w.extractLsb' 0 3)) := by
  unfold parseF; rw [h]; rfl
theorem parseV_1 (w : Code) (h : w.extractLsb' 25 7 = 1#7) : parseV w =
    if w.extractLsb' 3 2 ≠ 0 then .error (.operand 4) else .ok (.vadd (w.extractLsb' 21 4) (w.extractLsb' 17 4) (w.extractLsb' 13 4) (w.extractLsb' 9 4) (w.extractLsb' 5 4) (w.extractLsb' 0 3)) := by
  unfold parseV; rw [h]; rfl
theorem parseV_2 (w : Code) (h : w.extractLsb' 25 7 = 2#7) : parseV w =
    if w.extractLsb' 3 2 ≠ 0 then .error (.operand 4) else .ok (.vsub (w.extractLsb' 21 4) (w.extractLsb' 17 4) (w.extractLsb' 13 4) (w.extractLsb' 9 4) (w.extractLsb' 5 4) (w.extractLsb' 0 3)) := by
  unfold parseV; rw [h]; rfl
theorem parseV_3 (w : Code) (h : w.extractLsb' 25 7 = 3#7) : parseV w =
    if w.extractLsb' 3 2 ≠ 0 then .error (.operand 4) else .ok (.vmul (w.extractLsb' 21 4) (w.extractLsb' 17 4) (w.extractLsb' 13 4) (w.extractLsb' 9 4) (w.extractLsb' 5 4) (w.extractLsb' 0 3)) := by
  unfold parseV; rw [h]; rfl
theorem parseV_4 (w : Code) (h : w.extractLsb' 25 7 = 4#7) : parseV w =
    if w.extractLsb' 3 2 = 0 then .ok (.vfma (w.extractLsb' 21 4) (w.extractLsb' 17 4) (w.extractLsb' 13 4) (w.extractLsb' 9 4) (w.extractLsb' 5 4) (w.extractLsb' 0 3)) else
    if w.extractLsb' 3 2 = 1 then .ok (.vfms (w.extractLsb' 21 4) (w.extractLsb' 17 4) (w.extractLsb' 13 4) (w.extractLsb' 9 4) (w.extractLsb' 5 4) (w.extractLsb' 0 3)) else
    if w.extractLsb' 3 2 = 2 then .ok (.vfnma (w.extractLsb' 21 4) (w.extractLsb' 17 4) (w.extractLsb' 13 4) (w.extractLsb' 9 4) (w.extractLsb' 5 4) (w.extractLsb' 0 3)) else
    .error (.operand 4) := by
  unfold parseV; rw [h]; rfl
theorem parseV_5 (w : Code) (h : w.extractLsb' 25 7 = 5#7) : parseV w =
    if w.extractLsb' 3 2 ≠ 0 then .error (.operand 4) else .ok (.vmin (w.extractLsb' 21 4) (w.extractLsb' 17 4) (w.extractLsb' 13 4) (w.extractLsb' 9 4) (w.extractLsb' 5 4) (w.extractLsb' 0 3)) := by
  unfold parseV; rw [h]; rfl
theorem parseV_6 (w : Code) (h : w.extractLsb' 25 7 = 6#7) : parseV w =
    if w.extractLsb' 3 2 ≠ 0 then .error (.operand 4) else .ok (.vmax (w.extractLsb' 21 4) (w.extractLsb' 17 4) (w.extractLsb' 13 4) (w.extractLsb' 9 4) (w.extractLsb' 5 4) (w.extractLsb' 0 3)) := by
  unfold parseV; rw [h]; rfl
theorem parseV_7 (w : Code) (h : w.extractLsb' 25 7 = 7#7) : parseV w =
    if w.extractLsb' 9 4 ≠ 0 then .error (.operand 2) else if w.extractLsb' 3 2 ≠ 0 then .error (.operand 4) else .ok (.vabs (w.extractLsb' 21 4) (w.extractLsb' 17 4) (w.extractLsb' 13 4) (w.extractLsb' 5 4) (w.extractLsb' 0 3)) := by
  unfold parseV; rw [h]; rfl
theorem parseV_8 (w : Code) (h : w.extractLsb' 25 7 = 8#7) : parseV w =
    if w.extractLsb' 9 4 ≠ 0 then .error (.operand 2) else if w.extractLsb' 0 3 ≠ 0 then .error (.operand 4) else .ok (.vcvt (w.extractLsb' 21 4) (w.extractLsb' 17 4) (w.extractLsb' 13 4) (w.extractLsb' 5 4) (w.extractLsb' 3 2)) := by
  unfold parseV; rw [h]; rfl
theorem parseV_9 (w : Code) (h : w.extractLsb' 25 7 = 9#7) : parseV w =
    if w.extractLsb' 4 1 ≠ 0 then .error (.operand 4) else .ok (.vsf (w.extractLsb' 21 4) (w.extractLsb' 17 4) (w.extractLsb' 13 4) (w.extractLsb' 9 4) (w.extractLsb' 5 4) (w.extractLsb' 3 1) (w.extractLsb' 0 3)) := by
  unfold parseV; rw [h]; rfl
theorem parseV_10 (w : Code) (h : w.extractLsb' 25 7 = 10#7) : parseV w =
    if w.extractLsb' 9 4 ≠ 0 then .error (.operand 2) else .ok (.vred (w.extractLsb' 21 4) (w.extractLsb' 17 4) (w.extractLsb' 13 4) (w.extractLsb' 5 4) (w.extractLsb' 3 2) (w.extractLsb' 0 3)) := by
  unfold parseV; rw [h]; rfl
theorem parseV_11 (w : Code) (h : w.extractLsb' 25 7 = 11#7) : parseV w =
    if w.extractLsb' 9 4 ≠ 0 then .error (.operand 2) else .ok (.vscan (w.extractLsb' 21 4) (w.extractLsb' 17 4) (w.extractLsb' 13 4) (w.extractLsb' 5 4) (w.extractLsb' 3 2) (w.extractLsb' 0 3)) := by
  unfold parseV; rw [h]; rfl
theorem parseV_12 (w : Code) (h : w.extractLsb' 25 7 = 12#7) : parseV w =
    .ok (.vcmp (w.extractLsb' 21 4) (w.extractLsb' 17 4) (w.extractLsb' 13 4) (w.extractLsb' 9 4) (w.extractLsb' 5 4) (w.extractLsb' 3 2) (w.extractLsb' 0 3)) := by
  unfold parseV; rw [h]; rfl
theorem parseV_13 (w : Code) (h : w.extractLsb' 25 7 = 13#7) : parseV w =
    if w.extractLsb' 3 2 ≠ 0 then .error (.operand 4) else .ok (.vsel (w.extractLsb' 21 4) (w.extractLsb' 17 4) (w.extractLsb' 13 4) (w.extractLsb' 9 4) (w.extractLsb' 5 4) (w.extractLsb' 0 3)) := by
  unfold parseV; rw [h]; rfl
theorem parseV_14 (w : Code) (h : w.extractLsb' 25 7 = 14#7) : parseV w =
    if w.extractLsb' 9 4 ≠ 0 then .error (.operand 2) else if w.extractLsb' 3 2 ≠ 0 then .error (.operand 4) else .ok (.vmov (w.extractLsb' 21 4) (w.extractLsb' 17 4) (w.extractLsb' 13 4) (w.extractLsb' 5 4) (w.extractLsb' 0 3)) := by
  unfold parseV; rw [h]; rfl
theorem parseV_15 (w : Code) (h : w.extractLsb' 25 7 = 15#7) : parseV w =
    if w.extractLsb' 0 5 ≠ 0 then .error (.operand 4) else .ok (.vfill (w.extractLsb' 21 4) (w.extractLsb' 17 4) (w.extractLsb' 9 8) (w.extractLsb' 5 4)) := by
  unfold parseV; rw [h]; rfl
theorem parseV_16 (w : Code) (h : w.extractLsb' 25 7 = 16#7) : parseV w =
    if w.extractLsb' 3 2 ≠ 0 then .error (.operand 4) else .ok (.vdot (w.extractLsb' 21 4) (w.extractLsb' 17 4) (w.extractLsb' 13 4) (w.extractLsb' 9 4) (w.extractLsb' 5 4) (w.extractLsb' 0 3)) := by
  unfold parseV; rw [h]; rfl
theorem parseV_17 (w : Code) (h : w.extractLsb' 25 7 = 17#7) : parseV w =
    if w.extractLsb' 9 4 ≠ 0 then .error (.operand 2) else if w.extractLsb' 0 5 ≠ 0 then .error (.operand 4) else .ok (.tdecv (w.extractLsb' 21 4) (w.extractLsb' 17 4) (w.extractLsb' 13 4) (w.extractLsb' 5 4)) := by
  unfold parseV; rw [h]; rfl
theorem parseV_18 (w : Code) (h : w.extractLsb' 25 7 = 18#7) : parseV w =
    if w.extractLsb' 3 1 = 0 then if w.extractLsb' 4 1 ≠ 0 then .error (.operand 4) else if w.extractLsb' 0 3 ≠ 0 then .error (.operand 4) else .ok (.vqacc (w.extractLsb' 21 4) (w.extractLsb' 17 4) (w.extractLsb' 13 4) (w.extractLsb' 9 4) (w.extractLsb' 5 4)) else
    if w.extractLsb' 3 1 = 1 then if w.extractLsb' 9 4 ≠ 0 then .error (.operand 2) else if w.extractLsb' 4 1 ≠ 0 then .error (.operand 4) else if w.extractLsb' 0 3 ≠ 0 then .error (.operand 4) else .ok (.vqaccS (w.extractLsb' 21 4) (w.extractLsb' 17 4) (w.extractLsb' 13 4) (w.extractLsb' 5 4)) else
    .error (.operand 4) := by
  unfold parseV; rw [h]; rfl
theorem parseV_19 (w : Code) (h : w.extractLsb' 25 7 = 19#7) : parseV w =
    if w.extractLsb' 0 1 = 0 then if w.extractLsb' 9 4 ≠ 0 then .error (.operand 2) else if w.extractLsb' 1 4 ≠ 0 then .error (.operand 4) else .ok (.vqrd (w.extractLsb' 21 4) (w.extractLsb' 17 4) (w.extractLsb' 13 4) (w.extractLsb' 5 4)) else
    if w.extractLsb' 0 1 = 1 then if w.extractLsb' 9 4 ≠ 0 then .error (.operand 2) else if w.extractLsb' 1 4 ≠ 0 then .error (.operand 4) else .ok (.vqrdZ (w.extractLsb' 21 4) (w.extractLsb' 17 4) (w.extractLsb' 13 4) (w.extractLsb' 5 4)) else
    .error (.operand 4) := by
  unfold parseV; rw [h]; rfl
theorem parseV_20 (w : Code) (h : w.extractLsb' 25 7 = 20#7) : parseV w =
    if w.extractLsb' 13 4 ≠ 0 then .error (.operand 1) else if w.extractLsb' 9 4 ≠ 0 then .error (.operand 2) else if w.extractLsb' 5 4 ≠ 0 then .error (.operand 4) else if w.extractLsb' 2 3 ≠ 0 then .error (.operand 4) else .ok (.vqclr (w.extractLsb' 21 4) (w.extractLsb' 17 4) (w.extractLsb' 0 2)) := by
  unfold parseV; rw [h]; rfl
theorem parseV_21 (w : Code) (h : w.extractLsb' 25 7 = 21#7) : parseV w =
    if w.extractLsb' 0 1 ≠ 0 then .error (.operand 4) else .ok (.vloop (w.extractLsb' 21 4) (w.extractLsb' 17 4) (w.extractLsb' 1 16)) := by
  unfold parseV; rw [h]; rfl
theorem parseV_22 (w : Code) (h : w.extractLsb' 25 7 = 22#7) : parseV w =
    if w.extractLsb' 4 1 = 0 then if w.extractLsb' 0 4 ≠ 0 then .error (.operand 0) else .ok (.vsync (w.extractLsb' 21 4) (w.extractLsb' 5 16)) else
    if w.extractLsb' 4 1 = 1 then .ok (.vsyncT (w.extractLsb' 21 4) (w.extractLsb' 5 16) (w.extractLsb' 0 4)) else
    .error (.operand 4) := by
  unfold parseV; rw [h]; rfl
theorem parseV_32 (w : Code) (h : w.extractLsb' 25 7 = 32#7) : parseV w =
    if w.extractLsb' 9 4 ≠ 0 then .error (.operand 2) else if w.extractLsb' 0 5 ≠ 0 then .error (.operand 4) else .ok (.chs (w.extractLsb' 21 4) (w.extractLsb' 17 4) (w.extractLsb' 13 4) (w.extractLsb' 5 4)) := by
  unfold parseV; rw [h]; rfl
theorem parseV_33 (w : Code) (h : w.extractLsb' 25 7 = 33#7) : parseV w =
    if w.extractLsb' 9 4 ≠ 0 then .error (.operand 2) else if w.extractLsb' 0 5 ≠ 0 then .error (.operand 4) else .ok (.chv (w.extractLsb' 21 4) (w.extractLsb' 17 4) (w.extractLsb' 13 4) (w.extractLsb' 5 4)) := by
  unfold parseV; rw [h]; rfl
theorem parseV_63 (w : Code) (h : w.extractLsb' 25 7 = 63#7) : parseV w =
    if w.extractLsb' 6 5 ≠ 0 then .error (.operand 2) else if w.extractLsb' 5 1 ≠ 0 then .error (.operand 4) else .ok (.cp (w.extractLsb' 21 4) (w.extractLsb' 16 5) (w.extractLsb' 11 5) (w.extractLsb' 3 2) (w.extractLsb' 0 3)) := by
  unfold parseV; rw [h]; rfl
theorem parseM_1 (w : Code) (h : w.extractLsb' 25 7 = 1#7) : parseM w =
    if w.extractLsb' 17 4 ≠ 0 then .error (.operand 0) else if w.extractLsb' 0 9 ≠ 0 then .error (.operand 4) else .ok (.mlease (w.extractLsb' 21 4) (w.extractLsb' 9 8)) := by
  unfold parseM; rw [h]; rfl
theorem parseM_2 (w : Code) (h : w.extractLsb' 25 7 = 2#7) : parseM w =
    if w.extractLsb' 17 4 ≠ 0 then .error (.operand 0) else if w.extractLsb' 13 4 ≠ 0 then .error (.operand 1) else if w.extractLsb' 9 4 ≠ 0 then .error (.operand 2) else if w.extractLsb' 5 4 ≠ 0 then .error (.operand 4) else if w.extractLsb' 0 5 ≠ 0 then .error (.operand 4) else .ok (.mfree (w.extractLsb' 21 4)) := by
  unfold parseM; rw [h]; rfl
theorem parseM_3 (w : Code) (h : w.extractLsb' 25 7 = 3#7) : parseM w =
    if w.extractLsb' 13 2 = 0 then if w.extractLsb' 15 2 ≠ 0 then .error (.operand 1) else if w.extractLsb' 9 4 ≠ 0 then .error (.operand 2) else if w.extractLsb' 5 4 ≠ 0 then .error (.operand 4) else .ok (.mcfg (w.extractLsb' 21 4) (w.extractLsb' 17 4) (w.extractLsb' 3 2) (w.extractLsb' 0 3)) else
    if w.extractLsb' 13 2 = 1 then if w.extractLsb' 15 2 ≠ 0 then .error (.operand 1) else .ok (.mcfgLd (w.extractLsb' 21 4) (w.extractLsb' 17 4) (w.extractLsb' 9 4) (w.extractLsb' 5 4) (w.extractLsb' 3 2) (w.extractLsb' 0 3)) else
    if w.extractLsb' 13 2 = 2 then if w.extractLsb' 15 2 ≠ 0 then .error (.operand 1) else .ok (.mcfgAdd (w.extractLsb' 21 4) (w.extractLsb' 17 4) (w.extractLsb' 9 4) (w.extractLsb' 5 4) (w.extractLsb' 3 2) (w.extractLsb' 0 3)) else
    .error (.operand 1) := by
  unfold parseM; rw [h]; rfl
theorem parseM_4 (w : Code) (h : w.extractLsb' 25 7 = 4#7) : parseM w =
    if w.extractLsb' 18 3 ≠ 0 then .error (.operand 0) else if w.extractLsb' 0 5 ≠ 0 then .error (.operand 4) else .ok (.mgath (w.extractLsb' 21 4) (w.extractLsb' 17 1) (w.extractLsb' 13 4) (w.extractLsb' 9 4) (w.extractLsb' 5 4)) := by
  unfold parseM; rw [h]; rfl
theorem parseM_5 (w : Code) (h : w.extractLsb' 25 7 = 5#7) : parseM w =
    if w.extractLsb' 18 3 ≠ 0 then .error (.operand 0) else if w.extractLsb' 9 4 ≠ 0 then .error (.operand 2) else if w.extractLsb' 0 5 ≠ 0 then .error (.operand 4) else .ok (.mlatb (w.extractLsb' 21 4) (w.extractLsb' 17 1) (w.extractLsb' 13 4) (w.extractLsb' 5 4)) := by
  unfold parseM; rw [h]; rfl
theorem parseM_6 (w : Code) (h : w.extractLsb' 25 7 = 6#7) : parseM w =
    if w.extractLsb' 5 4 ≠ 0 then .error (.operand 4) else if w.extractLsb' 2 3 ≠ 0 then .error (.operand 4) else .ok (.mma (w.extractLsb' 21 4) (w.extractLsb' 17 4) (w.extractLsb' 13 4) (w.extractLsb' 9 4) (w.extractLsb' 1 1) (w.extractLsb' 0 1)) := by
  unfold parseM; rw [h]; rfl
theorem parseM_7 (w : Code) (h : w.extractLsb' 25 7 = 7#7) : parseM w =
    if w.extractLsb' 5 4 ≠ 0 then .error (.operand 4) else if w.extractLsb' 4 1 ≠ 0 then .error (.operand 4) else if w.extractLsb' 1 1 ≠ 0 then .error (.operand 4) else .ok (.mmas (w.extractLsb' 21 4) (w.extractLsb' 17 4) (w.extractLsb' 13 4) (w.extractLsb' 9 4) (w.extractLsb' 2 2) (w.extractLsb' 0 1)) := by
  unfold parseM; rw [h]; rfl
theorem parseM_8 (w : Code) (h : w.extractLsb' 25 7 = 8#7) : parseM w =
    if w.extractLsb' 0 2 = 0 then if w.extractLsb' 2 3 ≠ 0 then .error (.operand 4) else .ok (.mst (w.extractLsb' 21 4) (w.extractLsb' 17 4) (w.extractLsb' 13 4) (w.extractLsb' 9 4) (w.extractLsb' 5 4)) else
    if w.extractLsb' 0 2 = 1 then if w.extractLsb' 2 3 ≠ 0 then .error (.operand 4) else .ok (.mstRaw (w.extractLsb' 21 4) (w.extractLsb' 17 4) (w.extractLsb' 13 4) (w.extractLsb' 9 4) (w.extractLsb' 5 4)) else
    if w.extractLsb' 0 2 = 2 then if w.extractLsb' 9 4 ≠ 0 then .error (.operand 2) else if w.extractLsb' 5 4 ≠ 0 then .error (.operand 4) else if w.extractLsb' 2 3 ≠ 0 then .error (.operand 4) else .ok (.mstSt (w.extractLsb' 21 4) (w.extractLsb' 17 4) (w.extractLsb' 13 4)) else
    .error (.operand 4) := by
  unfold parseM; rw [h]; rfl
theorem parseM_9 (w : Code) (h : w.extractLsb' 25 7 = 9#7) : parseM w =
    if w.extractLsb' 11 2 ≠ 0 then .error (.operand 2) else if w.extractLsb' 0 5 ≠ 0 then .error (.operand 4) else .ok (.mcomp (w.extractLsb' 21 4) (w.extractLsb' 17 4) (w.extractLsb' 13 4) (w.extractLsb' 9 2) (w.extractLsb' 5 4)) := by
  unfold parseM; rw [h]; rfl
theorem parseM_10 (w : Code) (h : w.extractLsb' 25 7 = 10#7) : parseM w =
    if w.extractLsb' 2 3 ≠ 0 then .error (.operand 4) else .ok (.mtile (w.extractLsb' 21 4) (w.extractLsb' 17 4) (w.extractLsb' 13 4) (w.extractLsb' 9 4) (w.extractLsb' 5 4) (w.extractLsb' 1 1) (w.extractLsb' 0 1)) := by
  unfold parseM; rw [h]; rfl
theorem parseM_11 (w : Code) (h : w.extractLsb' 25 7 = 11#7) : parseM w =
    if w.extractLsb' 0 5 ≠ 0 then .error (.operand 4) else .ok (.mwalk (w.extractLsb' 21 4) (w.extractLsb' 17 4) (w.extractLsb' 13 4) (w.extractLsb' 9 4) (w.extractLsb' 5 4)) := by
  unfold parseM; rw [h]; rfl
theorem parseM_12 (w : Code) (h : w.extractLsb' 25 7 = 12#7) : parseM w =
    if w.extractLsb' 19 2 ≠ 0 then .error (.operand 0) else if w.extractLsb' 9 4 ≠ 0 then .error (.operand 2) else if w.extractLsb' 0 5 ≠ 0 then .error (.operand 4) else .ok (.mdld (w.extractLsb' 21 4) (w.extractLsb' 17 2) (w.extractLsb' 13 4) (w.extractLsb' 5 4)) := by
  unfold parseM; rw [h]; rfl
theorem parseM_13 (w : Code) (h : w.extractLsb' 25 7 = 13#7) : parseM w =
    if w.extractLsb' 19 2 ≠ 0 then .error (.operand 0) else if w.extractLsb' 9 4 ≠ 0 then .error (.operand 2) else if w.extractLsb' 0 5 ≠ 0 then .error (.operand 4) else .ok (.mdst (w.extractLsb' 21 4) (w.extractLsb' 17 2) (w.extractLsb' 13 4) (w.extractLsb' 5 4)) := by
  unfold parseM; rw [h]; rfl
theorem parseM_14 (w : Code) (h : w.extractLsb' 25 7 = 14#7) : parseM w =
    if w.extractLsb' 0 1 = 0 then if w.extractLsb' 17 4 ≠ 0 then .error (.operand 0) else if w.extractLsb' 9 4 ≠ 0 then .error (.operand 2) else if w.extractLsb' 1 4 ≠ 0 then .error (.operand 4) else .ok (.route (w.extractLsb' 21 4) (w.extractLsb' 13 4) (w.extractLsb' 5 4)) else
    if w.extractLsb' 0 1 = 1 then if w.extractLsb' 17 4 ≠ 0 then .error (.operand 0) else if w.extractLsb' 9 4 ≠ 0 then .error (.operand 2) else if w.extractLsb' 1 4 ≠ 0 then .error (.operand 4) else .ok (.routeTx (w.extractLsb' 21 4) (w.extractLsb' 13 4) (w.extractLsb' 5 4)) else
    .error (.operand 4) := by
  unfold parseM; rw [h]; rfl
theorem parseM_16 (w : Code) (h : w.extractLsb' 25 7 = 16#7) : parseM w =
    .ok (.mli (w.extractLsb' 21 4) (w.extractLsb' 16 5) (w.extractLsb' 0 16)) := by
  unfold parseM; rw [h]; rfl
theorem parseM_17 (w : Code) (h : w.extractLsb' 25 7 = 17#7) : parseM w =
    .ok (.mliu (w.extractLsb' 21 4) (w.extractLsb' 16 5) (w.extractLsb' 0 16)) := by
  unfold parseM; rw [h]; rfl
theorem parseM_18 (w : Code) (h : w.extractLsb' 25 7 = 18#7) : parseM w =
    .ok (.madd (w.extractLsb' 21 4) (w.extractLsb' 16 5) (w.extractLsb' 11 5) (w.extractLsb' 6 5) (w.extractLsb' 0 6)) := by
  unfold parseM; rw [h]; rfl
theorem parseM_19 (w : Code) (h : w.extractLsb' 25 7 = 19#7) : parseM w =
    .ok (.maddi (w.extractLsb' 21 4) (w.extractLsb' 16 5) (w.extractLsb' 11 5) (w.extractLsb' 0 11)) := by
  unfold parseM; rw [h]; rfl
theorem parseM_63 (w : Code) (h : w.extractLsb' 25 7 = 63#7) : parseM w =
    if w.extractLsb' 6 5 ≠ 0 then .error (.operand 2) else if w.extractLsb' 5 1 ≠ 0 then .error (.operand 4) else .ok (.cp (w.extractLsb' 21 4) (w.extractLsb' 16 5) (w.extractLsb' 11 5) (w.extractLsb' 3 2) (w.extractLsb' 0 3)) := by
  unfold parseM; rw [h]; rfl
theorem parseC_1 (w : Code) (h : w.extractLsb' 25 7 = 1#7) : parseC w =
    .ok (.br (w.extractLsb' 21 4) (w.extractLsb' 0 21)) := by
  unfold parseC; rw [h]; rfl
theorem parseC_2 (w : Code) (h : w.extractLsb' 25 7 = 2#7) : parseC w =
    .ok (.brl (w.extractLsb' 21 4) (w.extractLsb' 0 21)) := by
  unfold parseC; rw [h]; rfl
theorem parseC_3 (w : Code) (h : w.extractLsb' 25 7 = 3#7) : parseC w =
    if w.extractLsb' 0 1 = 0 then if w.extractLsb' 16 5 ≠ 0 then .error (.operand 0) else if w.extractLsb' 6 5 ≠ 0 then .error (.operand 2) else if w.extractLsb' 1 5 ≠ 0 then .error (.operand 4) else .ok (.brr (w.extractLsb' 21 4) (w.extractLsb' 11 5)) else
    if w.extractLsb' 0 1 = 1 then if w.extractLsb' 16 5 ≠ 0 then .error (.operand 0) else if w.extractLsb' 6 5 ≠ 0 then .error (.operand 2) else if w.extractLsb' 1 5 ≠ 0 then .error (.operand 4) else .ok (.brrL (w.extractLsb' 21 4) (w.extractLsb' 11 5)) else
    .error (.operand 4) := by
  unfold parseC; rw [h]; rfl
theorem parseC_4 (w : Code) (h : w.extractLsb' 25 7 = 4#7) : parseC w =
    .ok (.lset (w.extractLsb' 21 4) (w.extractLsb' 19 2) (w.extractLsb' 18 1) (w.extractLsb' 12 6) (w.extractLsb' 0 12)) := by
  unfold parseC; rw [h]; rfl
theorem parseC_5 (w : Code) (h : w.extractLsb' 25 7 = 5#7) : parseC w =
    .ok (.lupd (w.extractLsb' 21 4) (w.extractLsb' 19 2) (w.extractLsb' 15 4) (w.extractLsb' 14 1) (w.extractLsb' 0 14)) := by
  unfold parseC; rw [h]; rfl
theorem parseC_6 (w : Code) (h : w.extractLsb' 25 7 = 6#7) : parseC w =
    if w.extractLsb' 16 5 ≠ 0 then .error (.operand 0) else if w.extractLsb' 6 5 ≠ 0 then .error (.operand 2) else if w.extractLsb' 4 2 ≠ 0 then .error (.operand 4) else .ok (.ltrim (w.extractLsb' 21 4) (w.extractLsb' 11 5) (w.extractLsb' 0 4)) := by
  unfold parseC; rw [h]; rfl
theorem parseC_7 (w : Code) (h : w.extractLsb' 25 7 = 7#7) : parseC w =
    if w.extractLsb' 16 5 ≠ 0 then .error (.operand 0) else if w.extractLsb' 11 5 ≠ 0 then .error (.operand 1) else if w.extractLsb' 6 5 ≠ 0 then .error (.operand 2) else if w.extractLsb' 0 6 ≠ 0 then .error (.operand 4) else .ok (.halt (w.extractLsb' 21 4)) := by
  unfold parseC; rw [h]; rfl
theorem parseC_8 (w : Code) (h : w.extractLsb' 25 7 = 8#7) : parseC w =
    if w.extractLsb' 20 1 ≠ 0 then .error (.operand 0) else if w.extractLsb' 15 1 ≠ 0 then .error (.operand 1) else if w.extractLsb' 10 1 ≠ 0 then .error (.operand 2) else if w.extractLsb' 3 3 ≠ 0 then .error (.operand 4) else .ok (.gop (w.extractLsb' 21 4) (w.extractLsb' 16 4) (w.extractLsb' 11 4) (w.extractLsb' 6 4) (w.extractLsb' 0 3)) := by
  unfold parseC; rw [h]; rfl
theorem parseC_9 (w : Code) (h : w.extractLsb' 25 7 = 9#7) : parseC w =
    .ok (.cli (w.extractLsb' 21 4) (w.extractLsb' 16 5) (w.extractLsb' 0 16)) := by
  unfold parseC; rw [h]; rfl
theorem parseC_10 (w : Code) (h : w.extractLsb' 25 7 = 10#7) : parseC w =
    if w.extractLsb' 0 4 ≠ 0 then .error (.operand 4) else .ok (.cget (w.extractLsb' 21 4) (w.extractLsb' 16 5) (w.extractLsb' 4 12)) := by
  unfold parseC; rw [h]; rfl
theorem parseC_11 (w : Code) (h : w.extractLsb' 25 7 = 11#7) : parseC w =
    if w.extractLsb' 0 4 ≠ 0 then .error (.operand 4) else .ok (.cset (w.extractLsb' 21 4) (w.extractLsb' 16 5) (w.extractLsb' 4 12)) := by
  unfold parseC; rw [h]; rfl
theorem parseC_12 (w : Code) (h : w.extractLsb' 25 7 = 12#7) : parseC w =
    if w.extractLsb' 6 5 ≠ 0 then .error (.operand 2) else if w.extractLsb' 0 6 ≠ 0 then .error (.operand 4) else .ok (.spawn (w.extractLsb' 21 4) (w.extractLsb' 16 5) (w.extractLsb' 11 5)) := by
  unfold parseC; rw [h]; rfl
theorem parseC_13 (w : Code) (h : w.extractLsb' 25 7 = 13#7) : parseC w =
    if w.extractLsb' 11 5 ≠ 0 then .error (.operand 1) else if w.extractLsb' 6 5 ≠ 0 then .error (.operand 2) else if w.extractLsb' 0 6 ≠ 0 then .error (.operand 4) else .ok (.join (w.extractLsb' 21 4) (w.extractLsb' 16 5)) := by
  unfold parseC; rw [h]; rfl
theorem parseC_14 (w : Code) (h : w.extractLsb' 25 7 = 14#7) : parseC w =
    if w.extractLsb' 20 1 ≠ 0 then .error (.operand 0) else if w.extractLsb' 3 3 ≠ 0 then .error (.operand 4) else .ok (.spawnS (w.extractLsb' 21 4) (w.extractLsb' 16 4) (w.extractLsb' 11 5) (w.extractLsb' 6 5) (w.extractLsb' 0 3)) := by
  unfold parseC; rw [h]; rfl
theorem parseC_15 (w : Code) (h : w.extractLsb' 25 7 = 15#7) : parseC w =
    if w.extractLsb' 16 5 ≠ 0 then .error (.operand 0) else .ok (.trap (w.extractLsb' 21 4) (w.extractLsb' 0 16)) := by
  unfold parseC; rw [h]; rfl
theorem parseC_16 (w : Code) (h : w.extractLsb' 25 7 = 16#7) : parseC w =
    if w.extractLsb' 0 1 = 0 then if w.extractLsb' 16 5 ≠ 0 then .error (.operand 0) else if w.extractLsb' 1 5 ≠ 0 then .error (.operand 4) else .ok (.chw (w.extractLsb' 21 4) (w.extractLsb' 11 5) (w.extractLsb' 6 5)) else
    if w.extractLsb' 0 1 = 1 then if w.extractLsb' 16 5 ≠ 0 then .error (.operand 0) else if w.extractLsb' 1 5 ≠ 0 then .error (.operand 4) else .ok (.chwRel (w.extractLsb' 21 4) (w.extractLsb' 11 5) (w.extractLsb' 6 5)) else
    .error (.operand 4) := by
  unfold parseC; rw [h]; rfl
theorem parseC_17 (w : Code) (h : w.extractLsb' 25 7 = 17#7) : parseC w =
    if w.extractLsb' 0 1 = 0 then if w.extractLsb' 6 5 ≠ 0 then .error (.operand 2) else if w.extractLsb' 1 5 ≠ 0 then .error (.operand 4) else .ok (.chr (w.extractLsb' 21 4) (w.extractLsb' 16 5) (w.extractLsb' 11 5)) else
    if w.extractLsb' 0 1 = 1 then if w.extractLsb' 6 5 ≠ 0 then .error (.operand 2) else if w.extractLsb' 1 5 ≠ 0 then .error (.operand 4) else .ok (.chrAcq (w.extractLsb' 21 4) (w.extractLsb' 16 5) (w.extractLsb' 11 5)) else
    .error (.operand 4) := by
  unfold parseC; rw [h]; rfl
theorem parseC_18 (w : Code) (h : w.extractLsb' 25 7 = 18#7) : parseC w =
    if w.extractLsb' 3 2 = 0 then if w.extractLsb' 20 1 ≠ 0 then .error (.operand 0) else if w.extractLsb' 11 5 ≠ 0 then .error (.operand 1) else if w.extractLsb' 6 5 ≠ 0 then .error (.operand 2) else if w.extractLsb' 5 1 ≠ 0 then .error (.operand 4) else .ok (.barSync (w.extractLsb' 21 4) (w.extractLsb' 16 4) (w.extractLsb' 0 3)) else
    if w.extractLsb' 3 2 = 1 then if w.extractLsb' 20 1 ≠ 0 then .error (.operand 0) else if w.extractLsb' 11 5 ≠ 0 then .error (.operand 1) else if w.extractLsb' 6 5 ≠ 0 then .error (.operand 2) else if w.extractLsb' 5 1 ≠ 0 then .error (.operand 4) else .ok (.barArr (w.extractLsb' 21 4) (w.extractLsb' 16 4) (w.extractLsb' 0 3)) else
    if w.extractLsb' 3 2 = 2 then if w.extractLsb' 20 1 ≠ 0 then .error (.operand 0) else if w.extractLsb' 11 5 ≠ 0 then .error (.operand 1) else if w.extractLsb' 6 5 ≠ 0 then .error (.operand 2) else if w.extractLsb' 5 1 ≠ 0 then .error (.operand 4) else .ok (.barWait (w.extractLsb' 21 4) (w.extractLsb' 16 4) (w.extractLsb' 0 3)) else
    .error (.operand 4) := by
  unfold parseC; rw [h]; rfl
theorem parseC_19 (w : Code) (h : w.extractLsb' 25 7 = 19#7) : parseC w =
    if w.extractLsb' 5 1 ≠ 0 then .error (.operand 4) else .ok (.coll (w.extractLsb' 21 4) (w.extractLsb' 16 5) (w.extractLsb' 11 5) (w.extractLsb' 6 5) (w.extractLsb' 2 3) (w.extractLsb' 0 2)) := by
  unfold parseC; rw [h]; rfl
theorem parseC_20 (w : Code) (h : w.extractLsb' 25 7 = 20#7) : parseC w =
    if w.extractLsb' 0 2 = 0 then if w.extractLsb' 16 5 ≠ 0 then .error (.operand 0) else if w.extractLsb' 2 4 ≠ 0 then .error (.operand 4) else .ok (.cmbxMax (w.extractLsb' 21 4) (w.extractLsb' 11 5) (w.extractLsb' 6 5)) else
    if w.extractLsb' 0 2 = 1 then if w.extractLsb' 16 5 ≠ 0 then .error (.operand 0) else if w.extractLsb' 2 4 ≠ 0 then .error (.operand 4) else .ok (.cmbxMerge (w.extractLsb' 21 4) (w.extractLsb' 11 5) (w.extractLsb' 6 5)) else
    if w.extractLsb' 0 2 = 2 then if w.extractLsb' 16 5 ≠ 0 then .error (.operand 0) else if w.extractLsb' 2 4 ≠ 0 then .error (.operand 4) else .ok (.cmbxArmmax (w.extractLsb' 21 4) (w.extractLsb' 11 5) (w.extractLsb' 6 5)) else
    if w.extractLsb' 0 2 = 3 then if w.extractLsb' 16 5 ≠ 0 then .error (.operand 0) else if w.extractLsb' 2 4 ≠ 0 then .error (.operand 4) else .ok (.cmbxArmmerge (w.extractLsb' 21 4) (w.extractLsb' 11 5) (w.extractLsb' 6 5)) else
    .error (.operand 4) := by
  unfold parseC; rw [h]; rfl
theorem parseC_21 (w : Code) (h : w.extractLsb' 25 7 = 21#7) : parseC w =
    if w.extractLsb' 16 5 ≠ 0 then .error (.operand 0) else if w.extractLsb' 6 5 ≠ 0 then .error (.operand 2) else if w.extractLsb' 4 2 ≠ 0 then .error (.operand 4) else .ok (.sqOpen (w.extractLsb' 21 4) (w.extractLsb' 11 5) (w.extractLsb' 0 4)) := by
  unfold parseC; rw [h]; rfl
theorem parseC_22 (w : Code) (h : w.extractLsb' 25 7 = 22#7) : parseC w =
    if w.extractLsb' 4 1 = 0 then if w.extractLsb' 16 5 ≠ 0 then .error (.operand 0) else if w.extractLsb' 6 5 ≠ 0 then .error (.operand 2) else if w.extractLsb' 5 1 ≠ 0 then .error (.operand 4) else .ok (.sqFeed (w.extractLsb' 21 4) (w.extractLsb' 11 5) (w.extractLsb' 0 4)) else
    if w.extractLsb' 4 1 = 1 then if w.extractLsb' 16 5 ≠ 0 then .error (.operand 0) else if w.extractLsb' 6 5 ≠ 0 then .error (.operand 2) else if w.extractLsb' 5 1 ≠ 0 then .error (.operand 4) else .ok (.sqFeedAcc (w.extractLsb' 21 4) (w.extractLsb' 11 5) (w.extractLsb' 0 4)) else
    .error (.operand 4) := by
  unfold parseC; rw [h]; rfl
theorem parseC_23 (w : Code) (h : w.extractLsb' 25 7 = 23#7) : parseC w =
    if w.extractLsb' 16 5 ≠ 0 then .error (.operand 0) else if w.extractLsb' 6 5 ≠ 0 then .error (.operand 2) else if w.extractLsb' 4 2 ≠ 0 then .error (.operand 4) else .ok (.sqMask (w.extractLsb' 21 4) (w.extractLsb' 11 5) (w.extractLsb' 0 4)) := by
  unfold parseC; rw [h]; rfl
theorem parseC_24 (w : Code) (h : w.extractLsb' 25 7 = 24#7) : parseC w =
    if w.extractLsb' 16 5 ≠ 0 then .error (.operand 0) else if w.extractLsb' 6 5 ≠ 0 then .error (.operand 2) else if w.extractLsb' 4 2 ≠ 0 then .error (.operand 4) else .ok (.sqFork (w.extractLsb' 21 4) (w.extractLsb' 11 5) (w.extractLsb' 0 4)) := by
  unfold parseC; rw [h]; rfl
theorem parseC_25 (w : Code) (h : w.extractLsb' 25 7 = 25#7) : parseC w =
    if w.extractLsb' 16 5 ≠ 0 then .error (.operand 0) else if w.extractLsb' 6 5 ≠ 0 then .error (.operand 2) else if w.extractLsb' 4 2 ≠ 0 then .error (.operand 4) else .ok (.sqRoll (w.extractLsb' 21 4) (w.extractLsb' 11 5) (w.extractLsb' 0 4)) := by
  unfold parseC; rw [h]; rfl
theorem parseC_26 (w : Code) (h : w.extractLsb' 25 7 = 26#7) : parseC w =
    if w.extractLsb' 4 2 = 0 then if w.extractLsb' 16 5 ≠ 0 then .error (.operand 0) else if w.extractLsb' 6 5 ≠ 0 then .error (.operand 2) else .ok (.sqSampG (w.extractLsb' 21 4) (w.extractLsb' 11 5) (w.extractLsb' 0 4)) else
    if w.extractLsb' 4 2 = 1 then if w.extractLsb' 16 5 ≠ 0 then .error (.operand 0) else if w.extractLsb' 6 5 ≠ 0 then .error (.operand 2) else .ok (.sqSampP (w.extractLsb' 21 4) (w.extractLsb' 11 5) (w.extractLsb' 0 4)) else
    if w.extractLsb' 4 2 = 2 then if w.extractLsb' 16 5 ≠ 0 then .error (.operand 0) else if w.extractLsb' 6 5 ≠ 0 then .error (.operand 2) else .ok (.sqSampFin (w.extractLsb' 21 4) (w.extractLsb' 11 5) (w.extractLsb' 0 4)) else
    .error (.operand 4) := by
  unfold parseC; rw [h]; rfl
theorem parseC_27 (w : Code) (h : w.extractLsb' 25 7 = 27#7) : parseC w =
    if w.extractLsb' 16 5 ≠ 0 then .error (.operand 0) else if w.extractLsb' 6 5 ≠ 0 then .error (.operand 2) else if w.extractLsb' 4 2 ≠ 0 then .error (.operand 4) else .ok (.sqCommit (w.extractLsb' 21 4) (w.extractLsb' 11 5) (w.extractLsb' 0 4)) := by
  unfold parseC; rw [h]; rfl
theorem parseC_28 (w : Code) (h : w.extractLsb' 25 7 = 28#7) : parseC w =
    if w.extractLsb' 4 1 = 0 then if w.extractLsb' 16 5 ≠ 0 then .error (.operand 0) else if w.extractLsb' 6 5 ≠ 0 then .error (.operand 2) else if w.extractLsb' 5 1 ≠ 0 then .error (.operand 4) else .ok (.sqFree (w.extractLsb' 21 4) (w.extractLsb' 11 5) (w.extractLsb' 0 4)) else
    if w.extractLsb' 4 1 = 1 then if w.extractLsb' 16 5 ≠ 0 then .error (.operand 0) else if w.extractLsb' 6 5 ≠ 0 then .error (.operand 2) else if w.extractLsb' 5 1 ≠ 0 then .error (.operand 4) else .ok (.sqFreeRec (w.extractLsb' 21 4) (w.extractLsb' 11 5) (w.extractLsb' 0 4)) else
    .error (.operand 4) := by
  unfold parseC; rw [h]; rfl
theorem parseC_32 (w : Code) (h : w.extractLsb' 25 7 = 32#7) : parseC w =
    if w.extractLsb' 16 5 ≠ 0 then .error (.operand 0) else if w.extractLsb' 6 5 ≠ 0 then .error (.operand 2) else if w.extractLsb' 0 6 ≠ 0 then .error (.operand 4) else .ok (.mig (w.extractLsb' 21 4) (w.extractLsb' 11 5)) := by
  unfold parseC; rw [h]; rfl
theorem parseC_33 (w : Code) (h : w.extractLsb' 25 7 = 33#7) : parseC w =
    if w.extractLsb' 16 5 ≠ 0 then .error (.operand 0) else if w.extractLsb' 11 5 ≠ 0 then .error (.operand 1) else if w.extractLsb' 6 5 ≠ 0 then .error (.operand 2) else if w.extractLsb' 0 6 ≠ 0 then .error (.operand 4) else .ok (.yield (w.extractLsb' 21 4)) := by
  unfold parseC; rw [h]; rfl
theorem parseC_34 (w : Code) (h : w.extractLsb' 25 7 = 34#7) : parseC w =
    if w.extractLsb' 0 1 = 0 then if w.extractLsb' 16 5 ≠ 0 then .error (.operand 0) else if w.extractLsb' 6 5 ≠ 0 then .error (.operand 2) else if w.extractLsb' 1 5 ≠ 0 then .error (.operand 4) else .ok (.snooze (w.extractLsb' 21 4) (w.extractLsb' 11 5)) else
    if w.extractLsb' 0 1 = 1 then if w.extractLsb' 16 5 ≠ 0 then .error (.operand 0) else if w.extractLsb' 6 5 ≠ 0 then .error (.operand 2) else if w.extractLsb' 1 5 ≠ 0 then .error (.operand 4) else .ok (.snoozeW (w.extractLsb' 21 4) (w.extractLsb' 11 5)) else
    .error (.operand 4) := by
  unfold parseC; rw [h]; rfl
theorem parseC_35 (w : Code) (h : w.extractLsb' 25 7 = 35#7) : parseC w =
    if w.extractLsb' 16 5 ≠ 0 then .error (.operand 0) else if w.extractLsb' 11 5 ≠ 0 then .error (.operand 1) else if w.extractLsb' 6 5 ≠ 0 then .error (.operand 2) else if w.extractLsb' 0 6 ≠ 0 then .error (.operand 4) else .ok (.sexit (w.extractLsb' 21 4)) := by
  unfold parseC; rw [h]; rfl
theorem parseC_48 (w : Code) (h : w.extractLsb' 25 7 = 48#7) : parseC w =
    if w.extractLsb' 16 5 ≠ 0 then .error (.operand 0) else if w.extractLsb' 0 6 ≠ 0 then .error (.operand 4) else .ok (.sail (w.extractLsb' 21 4) (w.extractLsb' 11 5) (w.extractLsb' 6 5)) := by
  unfold parseC; rw [h]; rfl
theorem parseC_49 (w : Code) (h : w.extractLsb' 25 7 = 49#7) : parseC w =
    if w.extractLsb' 16 5 ≠ 0 then .error (.operand 0) else if w.extractLsb' 6 5 ≠ 0 then .error (.operand 2) else if w.extractLsb' 0 6 ≠ 0 then .error (.operand 4) else .ok (.swait (w.extractLsb' 21 4) (w.extractLsb' 11 5)) := by
  unfold parseC; rw [h]; rfl
theorem parseC_50 (w : Code) (h : w.extractLsb' 25 7 = 50#7) : parseC w =
    if w.extractLsb' 0 1 = 0 then if w.extractLsb' 16 5 ≠ 0 then .error (.operand 0) else if w.extractLsb' 6 5 ≠ 0 then .error (.operand 2) else if w.extractLsb' 1 5 ≠ 0 then .error (.operand 4) else .ok (.preempt (w.extractLsb' 21 4) (w.extractLsb' 11 5)) else
    if w.extractLsb' 0 1 = 1 then if w.extractLsb' 16 5 ≠ 0 then .error (.operand 0) else if w.extractLsb' 6 5 ≠ 0 then .error (.operand 2) else if w.extractLsb' 1 5 ≠ 0 then .error (.operand 4) else .ok (.preemptKill (w.extractLsb' 21 4) (w.extractLsb' 11 5)) else
    .error (.operand 4) := by
  unfold parseC; rw [h]; rfl
theorem parseC_51 (w : Code) (h : w.extractLsb' 25 7 = 51#7) : parseC w =
    if w.extractLsb' 16 5 ≠ 0 then .error (.operand 0) else if w.extractLsb' 6 5 ≠ 0 then .error (.operand 2) else if w.extractLsb' 1 5 ≠ 0 then .error (.operand 4) else .ok (.ctxsv (w.extractLsb' 21 4) (w.extractLsb' 11 5) (w.extractLsb' 0 1)) := by
  unfold parseC; rw [h]; rfl
theorem parseC_52 (w : Code) (h : w.extractLsb' 25 7 = 52#7) : parseC w =
    if w.extractLsb' 16 5 ≠ 0 then .error (.operand 0) else if w.extractLsb' 6 5 ≠ 0 then .error (.operand 2) else if w.extractLsb' 1 5 ≠ 0 then .error (.operand 4) else .ok (.ctxld (w.extractLsb' 21 4) (w.extractLsb' 11 5) (w.extractLsb' 0 1)) := by
  unfold parseC; rw [h]; rfl
theorem parseC_53 (w : Code) (h : w.extractLsb' 25 7 = 53#7) : parseC w =
    if w.extractLsb' 16 5 ≠ 0 then .error (.operand 0) else if w.extractLsb' 6 5 ≠ 0 then .error (.operand 2) else if w.extractLsb' 0 6 ≠ 0 then .error (.operand 4) else .ok (.qpop (w.extractLsb' 21 4) (w.extractLsb' 11 5)) := by
  unfold parseC; rw [h]; rfl
theorem parseC_54 (w : Code) (h : w.extractLsb' 25 7 = 54#7) : parseC w =
    if w.extractLsb' 0 1 = 0 then if w.extractLsb' 16 5 ≠ 0 then .error (.operand 0) else if w.extractLsb' 1 5 ≠ 0 then .error (.operand 4) else .ok (.qpush (w.extractLsb' 21 4) (w.extractLsb' 11 5) (w.extractLsb' 6 5)) else
    if w.extractLsb' 0 1 = 1 then if w.extractLsb' 16 5 ≠ 0 then .error (.operand 0) else if w.extractLsb' 1 5 ≠ 0 then .error (.operand 4) else .ok (.qpushCfg (w.extractLsb' 21 4) (w.extractLsb' 11 5) (w.extractLsb' 6 5)) else
    .error (.operand 4) := by
  unfold parseC; rw [h]; rfl
theorem parseC_55 (w : Code) (h : w.extractLsb' 25 7 = 55#7) : parseC w =
    if w.extractLsb' 0 1 = 0 then if w.extractLsb' 16 5 ≠ 0 then .error (.operand 0) else if w.extractLsb' 1 5 ≠ 0 then .error (.operand 4) else .ok (.pgenCap (w.extractLsb' 21 4) (w.extractLsb' 11 5) (w.extractLsb' 6 5)) else
    if w.extractLsb' 0 1 = 1 then if w.extractLsb' 16 5 ≠ 0 then .error (.operand 0) else if w.extractLsb' 6 5 ≠ 0 then .error (.operand 2) else if w.extractLsb' 1 5 ≠ 0 then .error (.operand 4) else .ok (.pgenPub (w.extractLsb' 21 4) (w.extractLsb' 11 5)) else
    .error (.operand 4) := by
  unfold parseC; rw [h]; rfl
theorem parseC_56 (w : Code) (h : w.extractLsb' 25 7 = 56#7) : parseC w =
    if w.extractLsb' 16 5 ≠ 0 then .error (.operand 0) else if w.extractLsb' 0 6 ≠ 0 then .error (.operand 4) else .ok (.tlbm (w.extractLsb' 21 4) (w.extractLsb' 11 5) (w.extractLsb' 6 5)) := by
  unfold parseC; rw [h]; rfl
theorem parseC_57 (w : Code) (h : w.extractLsb' 25 7 = 57#7) : parseC w =
    if w.extractLsb' 0 1 = 0 then if w.extractLsb' 16 5 ≠ 0 then .error (.operand 0) else if w.extractLsb' 6 5 ≠ 0 then .error (.operand 2) else if w.extractLsb' 1 5 ≠ 0 then .error (.operand 4) else .ok (.ovfld (w.extractLsb' 21 4) (w.extractLsb' 11 5)) else
    if w.extractLsb' 0 1 = 1 then if w.extractLsb' 16 5 ≠ 0 then .error (.operand 0) else if w.extractLsb' 6 5 ≠ 0 then .error (.operand 2) else if w.extractLsb' 1 5 ≠ 0 then .error (.operand 4) else .ok (.ovfldSelf (w.extractLsb' 21 4) (w.extractLsb' 11 5)) else
    .error (.operand 4) := by
  unfold parseC; rw [h]; rfl
theorem parseC_63 (w : Code) (h : w.extractLsb' 25 7 = 63#7) : parseC w =
    if w.extractLsb' 6 5 ≠ 0 then .error (.operand 2) else if w.extractLsb' 5 1 ≠ 0 then .error (.operand 4) else .ok (.cp (w.extractLsb' 21 4) (w.extractLsb' 16 5) (w.extractLsb' 11 5) (w.extractLsb' 3 2) (w.extractLsb' 0 3)) := by
  unfold parseC; rw [h]; rfl

end Sys2Proof.Laws
end

