-- ==== Sys2Proof/Laws/State.lean ====
section
/-! SUPPORT. What each update of a record leaves as it was, and what it changes: one lemma for each field and update. -/

namespace Sys2Proof.Machine

/-! ### State.setCore -/

@[simp] theorem State.setCore_wall (s : State) (p : Nat) (c : Core) : (s.setCore p c).wall = s.wall := rfl
@[simp] theorem State.setCore_cores (s : State) (p : Nat) (c : Core) : (s.setCore p c).cores = s.cores.set p c := rfl
@[simp] theorem State.setCore_helms (s : State) (p : Nat) (c : Core) : (s.setCore p c).helms = s.helms := rfl
@[simp] theorem State.setCore_dies (s : State) (p : Nat) (c : Core) : (s.setCore p c).dies = s.dies := rfl
@[simp] theorem State.setCore_sailings (s : State) (p : Nat) (c : Core) : (s.setCore p c).sailings = s.sailings := rfl
@[simp] theorem State.setCore_lighters (s : State) (p : Nat) (c : Core) : (s.setCore p c).lighters = s.lighters := rfl
@[simp] theorem State.setCore_quads (s : State) (p : Nat) (c : Core) : (s.setCore p c).quads = s.quads := rfl
@[simp] theorem State.setCore_pkgs (s : State) (p : Nat) (c : Core) : (s.setCore p c).pkgs = s.pkgs := rfl
@[simp] theorem State.setCore_pod (s : State) (p : Nat) (c : Core) : (s.setCore p c).pod = s.pod := rfl
@[simp] theorem State.setCore_nextSailing (s : State) (p : Nat) (c : Core) : (s.setCore p c).nextSailing = s.nextSailing := rfl
@[simp] theorem State.setCore_mem (s : State) (p : Nat) (c : Core) : (s.setCore p c).mem = s.mem := rfl
@[simp] theorem State.setCore_poison (s : State) (p : Nat) (c : Core) : (s.setCore p c).poison = s.poison := rfl
@[simp] theorem State.setCore_foreign (s : State) (p : Nat) (c : Core) : (s.setCore p c).foreign = s.foreign := rfl
@[simp] theorem State.setCore_cur (s : State) (p : Nat) (c : Core) : (s.setCore p c).cur = s.cur := rfl
@[simp] theorem State.setCore_freeIx (s : State) (p : Nat) (c : Core) : (s.setCore p c).freeIx = s.freeIx := rfl
@[simp] theorem State.setCore_moves (s : State) (p : Nat) (c : Core) : (s.setCore p c).moves = s.moves := rfl
@[simp] theorem State.setCore_inputs (s : State) (p : Nat) (c : Core) : (s.setCore p c).inputs = s.inputs := rfl
@[simp] theorem State.setCore_hostWrites (s : State) (p : Nat) (c : Core) : (s.setCore p c).hostWrites = s.hostWrites := rfl
@[simp] theorem State.setCore_hostWay (s : State) (p : Nat) (c : Core) : (s.setCore p c).hostWay = s.hostWay := rfl
@[simp] theorem State.setCore_upsets (s : State) (p : Nat) (c : Core) : (s.setCore p c).upsets = s.upsets := rfl
@[simp] theorem State.setCore_kept (s : State) (p : Nat) (c : Core) : (s.setCore p c).kept = s.kept := rfl

/-! ### State.modCore -/

@[simp] theorem State.modCore_wall (s : State) (p : Nat) (f : Core → Core) : (s.modCore p f).wall = s.wall := rfl
@[simp] theorem State.modCore_cores (s : State) (p : Nat) (f : Core → Core) : (s.modCore p f).cores = s.cores.set p (f (s.core p)) := rfl
@[simp] theorem State.modCore_helms (s : State) (p : Nat) (f : Core → Core) : (s.modCore p f).helms = s.helms := rfl
@[simp] theorem State.modCore_dies (s : State) (p : Nat) (f : Core → Core) : (s.modCore p f).dies = s.dies := rfl
@[simp] theorem State.modCore_sailings (s : State) (p : Nat) (f : Core → Core) : (s.modCore p f).sailings = s.sailings := rfl
@[simp] theorem State.modCore_lighters (s : State) (p : Nat) (f : Core → Core) : (s.modCore p f).lighters = s.lighters := rfl
@[simp] theorem State.modCore_quads (s : State) (p : Nat) (f : Core → Core) : (s.modCore p f).quads = s.quads := rfl
@[simp] theorem State.modCore_pkgs (s : State) (p : Nat) (f : Core → Core) : (s.modCore p f).pkgs = s.pkgs := rfl
@[simp] theorem State.modCore_pod (s : State) (p : Nat) (f : Core → Core) : (s.modCore p f).pod = s.pod := rfl
@[simp] theorem State.modCore_nextSailing (s : State) (p : Nat) (f : Core → Core) : (s.modCore p f).nextSailing = s.nextSailing := rfl
@[simp] theorem State.modCore_mem (s : State) (p : Nat) (f : Core → Core) : (s.modCore p f).mem = s.mem := rfl
@[simp] theorem State.modCore_poison (s : State) (p : Nat) (f : Core → Core) : (s.modCore p f).poison = s.poison := rfl
@[simp] theorem State.modCore_foreign (s : State) (p : Nat) (f : Core → Core) : (s.modCore p f).foreign = s.foreign := rfl
@[simp] theorem State.modCore_cur (s : State) (p : Nat) (f : Core → Core) : (s.modCore p f).cur = s.cur := rfl
@[simp] theorem State.modCore_freeIx (s : State) (p : Nat) (f : Core → Core) : (s.modCore p f).freeIx = s.freeIx := rfl
@[simp] theorem State.modCore_moves (s : State) (p : Nat) (f : Core → Core) : (s.modCore p f).moves = s.moves := rfl
@[simp] theorem State.modCore_inputs (s : State) (p : Nat) (f : Core → Core) : (s.modCore p f).inputs = s.inputs := rfl
@[simp] theorem State.modCore_hostWrites (s : State) (p : Nat) (f : Core → Core) : (s.modCore p f).hostWrites = s.hostWrites := rfl
@[simp] theorem State.modCore_hostWay (s : State) (p : Nat) (f : Core → Core) : (s.modCore p f).hostWay = s.hostWay := rfl
@[simp] theorem State.modCore_upsets (s : State) (p : Nat) (f : Core → Core) : (s.modCore p f).upsets = s.upsets := rfl
@[simp] theorem State.modCore_kept (s : State) (p : Nat) (f : Core → Core) : (s.modCore p f).kept = s.kept := rfl

/-! ### State.modOwn -/

@[simp] theorem State.modOwn_wall (s : State) (f : Core → Core) : (s.modOwn f).wall = s.wall := rfl
@[simp] theorem State.modOwn_cores (s : State) (f : Core → Core) : (s.modOwn f).cores = s.cores.set s.me (f (s.core s.me)) := rfl
@[simp] theorem State.modOwn_helms (s : State) (f : Core → Core) : (s.modOwn f).helms = s.helms := rfl
@[simp] theorem State.modOwn_dies (s : State) (f : Core → Core) : (s.modOwn f).dies = s.dies := rfl
@[simp] theorem State.modOwn_sailings (s : State) (f : Core → Core) : (s.modOwn f).sailings = s.sailings := rfl
@[simp] theorem State.modOwn_lighters (s : State) (f : Core → Core) : (s.modOwn f).lighters = s.lighters := rfl
@[simp] theorem State.modOwn_quads (s : State) (f : Core → Core) : (s.modOwn f).quads = s.quads := rfl
@[simp] theorem State.modOwn_pkgs (s : State) (f : Core → Core) : (s.modOwn f).pkgs = s.pkgs := rfl
@[simp] theorem State.modOwn_pod (s : State) (f : Core → Core) : (s.modOwn f).pod = s.pod := rfl
@[simp] theorem State.modOwn_nextSailing (s : State) (f : Core → Core) : (s.modOwn f).nextSailing = s.nextSailing := rfl
@[simp] theorem State.modOwn_mem (s : State) (f : Core → Core) : (s.modOwn f).mem = s.mem := rfl
@[simp] theorem State.modOwn_poison (s : State) (f : Core → Core) : (s.modOwn f).poison = s.poison := rfl
@[simp] theorem State.modOwn_foreign (s : State) (f : Core → Core) : (s.modOwn f).foreign = s.foreign := rfl
@[simp] theorem State.modOwn_cur (s : State) (f : Core → Core) : (s.modOwn f).cur = s.cur := rfl
@[simp] theorem State.modOwn_freeIx (s : State) (f : Core → Core) : (s.modOwn f).freeIx = s.freeIx := rfl
@[simp] theorem State.modOwn_moves (s : State) (f : Core → Core) : (s.modOwn f).moves = s.moves := rfl
@[simp] theorem State.modOwn_inputs (s : State) (f : Core → Core) : (s.modOwn f).inputs = s.inputs := rfl
@[simp] theorem State.modOwn_hostWrites (s : State) (f : Core → Core) : (s.modOwn f).hostWrites = s.hostWrites := rfl
@[simp] theorem State.modOwn_hostWay (s : State) (f : Core → Core) : (s.modOwn f).hostWay = s.hostWay := rfl
@[simp] theorem State.modOwn_upsets (s : State) (f : Core → Core) : (s.modOwn f).upsets = s.upsets := rfl
@[simp] theorem State.modOwn_kept (s : State) (f : Core → Core) : (s.modOwn f).kept = s.kept := rfl

/-! ### State.modDie -/

@[simp] theorem State.modDie_wall (s : State) (d : Nat) (f : Die → Die) : (s.modDie d f).wall = s.wall := rfl
@[simp] theorem State.modDie_cores (s : State) (d : Nat) (f : Die → Die) : (s.modDie d f).cores = s.cores := rfl
@[simp] theorem State.modDie_helms (s : State) (d : Nat) (f : Die → Die) : (s.modDie d f).helms = s.helms := rfl
@[simp] theorem State.modDie_dies (s : State) (d : Nat) (f : Die → Die) : (s.modDie d f).dies = s.dies.set d (f (s.die d)) := rfl
@[simp] theorem State.modDie_sailings (s : State) (d : Nat) (f : Die → Die) : (s.modDie d f).sailings = s.sailings := rfl
@[simp] theorem State.modDie_lighters (s : State) (d : Nat) (f : Die → Die) : (s.modDie d f).lighters = s.lighters := rfl
@[simp] theorem State.modDie_quads (s : State) (d : Nat) (f : Die → Die) : (s.modDie d f).quads = s.quads := rfl
@[simp] theorem State.modDie_pkgs (s : State) (d : Nat) (f : Die → Die) : (s.modDie d f).pkgs = s.pkgs := rfl
@[simp] theorem State.modDie_pod (s : State) (d : Nat) (f : Die → Die) : (s.modDie d f).pod = s.pod := rfl
@[simp] theorem State.modDie_nextSailing (s : State) (d : Nat) (f : Die → Die) : (s.modDie d f).nextSailing = s.nextSailing := rfl
@[simp] theorem State.modDie_mem (s : State) (d : Nat) (f : Die → Die) : (s.modDie d f).mem = s.mem := rfl
@[simp] theorem State.modDie_poison (s : State) (d : Nat) (f : Die → Die) : (s.modDie d f).poison = s.poison := rfl
@[simp] theorem State.modDie_foreign (s : State) (d : Nat) (f : Die → Die) : (s.modDie d f).foreign = s.foreign := rfl
@[simp] theorem State.modDie_cur (s : State) (d : Nat) (f : Die → Die) : (s.modDie d f).cur = s.cur := rfl
@[simp] theorem State.modDie_freeIx (s : State) (d : Nat) (f : Die → Die) : (s.modDie d f).freeIx = s.freeIx := rfl
@[simp] theorem State.modDie_moves (s : State) (d : Nat) (f : Die → Die) : (s.modDie d f).moves = s.moves := rfl
@[simp] theorem State.modDie_inputs (s : State) (d : Nat) (f : Die → Die) : (s.modDie d f).inputs = s.inputs := rfl
@[simp] theorem State.modDie_hostWrites (s : State) (d : Nat) (f : Die → Die) : (s.modDie d f).hostWrites = s.hostWrites := rfl
@[simp] theorem State.modDie_hostWay (s : State) (d : Nat) (f : Die → Die) : (s.modDie d f).hostWay = s.hostWay := rfl
@[simp] theorem State.modDie_upsets (s : State) (d : Nat) (f : Die → Die) : (s.modDie d f).upsets = s.upsets := rfl
@[simp] theorem State.modDie_kept (s : State) (d : Nat) (f : Die → Die) : (s.modDie d f).kept = s.kept := rfl

/-! ### State.modHelm -/

@[simp] theorem State.modHelm_wall (s : State) (h : Nat) (f : HelmRegs → HelmRegs) : (s.modHelm h f).wall = s.wall := rfl
@[simp] theorem State.modHelm_cores (s : State) (h : Nat) (f : HelmRegs → HelmRegs) : (s.modHelm h f).cores = s.cores := rfl
@[simp] theorem State.modHelm_helms (s : State) (h : Nat) (f : HelmRegs → HelmRegs) : (s.modHelm h f).helms = s.helms.set h (f (s.helm h)) := rfl
@[simp] theorem State.modHelm_dies (s : State) (h : Nat) (f : HelmRegs → HelmRegs) : (s.modHelm h f).dies = s.dies := rfl
@[simp] theorem State.modHelm_sailings (s : State) (h : Nat) (f : HelmRegs → HelmRegs) : (s.modHelm h f).sailings = s.sailings := rfl
@[simp] theorem State.modHelm_lighters (s : State) (h : Nat) (f : HelmRegs → HelmRegs) : (s.modHelm h f).lighters = s.lighters := rfl
@[simp] theorem State.modHelm_quads (s : State) (h : Nat) (f : HelmRegs → HelmRegs) : (s.modHelm h f).quads = s.quads := rfl
@[simp] theorem State.modHelm_pkgs (s : State) (h : Nat) (f : HelmRegs → HelmRegs) : (s.modHelm h f).pkgs = s.pkgs := rfl
@[simp] theorem State.modHelm_pod (s : State) (h : Nat) (f : HelmRegs → HelmRegs) : (s.modHelm h f).pod = s.pod := rfl
@[simp] theorem State.modHelm_nextSailing (s : State) (h : Nat) (f : HelmRegs → HelmRegs) : (s.modHelm h f).nextSailing = s.nextSailing := rfl
@[simp] theorem State.modHelm_mem (s : State) (h : Nat) (f : HelmRegs → HelmRegs) : (s.modHelm h f).mem = s.mem := rfl
@[simp] theorem State.modHelm_poison (s : State) (h : Nat) (f : HelmRegs → HelmRegs) : (s.modHelm h f).poison = s.poison := rfl
@[simp] theorem State.modHelm_foreign (s : State) (h : Nat) (f : HelmRegs → HelmRegs) : (s.modHelm h f).foreign = s.foreign := rfl
@[simp] theorem State.modHelm_cur (s : State) (h : Nat) (f : HelmRegs → HelmRegs) : (s.modHelm h f).cur = s.cur := rfl
@[simp] theorem State.modHelm_freeIx (s : State) (h : Nat) (f : HelmRegs → HelmRegs) : (s.modHelm h f).freeIx = s.freeIx := rfl
@[simp] theorem State.modHelm_moves (s : State) (h : Nat) (f : HelmRegs → HelmRegs) : (s.modHelm h f).moves = s.moves := rfl
@[simp] theorem State.modHelm_inputs (s : State) (h : Nat) (f : HelmRegs → HelmRegs) : (s.modHelm h f).inputs = s.inputs := rfl
@[simp] theorem State.modHelm_hostWrites (s : State) (h : Nat) (f : HelmRegs → HelmRegs) : (s.modHelm h f).hostWrites = s.hostWrites := rfl
@[simp] theorem State.modHelm_hostWay (s : State) (h : Nat) (f : HelmRegs → HelmRegs) : (s.modHelm h f).hostWay = s.hostWay := rfl
@[simp] theorem State.modHelm_upsets (s : State) (h : Nat) (f : HelmRegs → HelmRegs) : (s.modHelm h f).upsets = s.upsets := rfl
@[simp] theorem State.modHelm_kept (s : State) (h : Nat) (f : HelmRegs → HelmRegs) : (s.modHelm h f).kept = s.kept := rfl

/-! ### State.modSailing -/

@[simp] theorem State.modSailing_wall (s : State) (n : Nat) (f : Sailing → Sailing) : (s.modSailing n f).wall = s.wall := rfl
@[simp] theorem State.modSailing_cores (s : State) (n : Nat) (f : Sailing → Sailing) : (s.modSailing n f).cores = s.cores := rfl
@[simp] theorem State.modSailing_helms (s : State) (n : Nat) (f : Sailing → Sailing) : (s.modSailing n f).helms = s.helms := rfl
@[simp] theorem State.modSailing_dies (s : State) (n : Nat) (f : Sailing → Sailing) : (s.modSailing n f).dies = s.dies := rfl
@[simp] theorem State.modSailing_sailings (s : State) (n : Nat) (f : Sailing → Sailing) : (s.modSailing n f).sailings = s.sailings.set n (f (s.sailing n)) := rfl
@[simp] theorem State.modSailing_lighters (s : State) (n : Nat) (f : Sailing → Sailing) : (s.modSailing n f).lighters = s.lighters := rfl
@[simp] theorem State.modSailing_quads (s : State) (n : Nat) (f : Sailing → Sailing) : (s.modSailing n f).quads = s.quads := rfl
@[simp] theorem State.modSailing_pkgs (s : State) (n : Nat) (f : Sailing → Sailing) : (s.modSailing n f).pkgs = s.pkgs := rfl
@[simp] theorem State.modSailing_pod (s : State) (n : Nat) (f : Sailing → Sailing) : (s.modSailing n f).pod = s.pod := rfl
@[simp] theorem State.modSailing_nextSailing (s : State) (n : Nat) (f : Sailing → Sailing) : (s.modSailing n f).nextSailing = s.nextSailing := rfl
@[simp] theorem State.modSailing_mem (s : State) (n : Nat) (f : Sailing → Sailing) : (s.modSailing n f).mem = s.mem := rfl
@[simp] theorem State.modSailing_poison (s : State) (n : Nat) (f : Sailing → Sailing) : (s.modSailing n f).poison = s.poison := rfl
@[simp] theorem State.modSailing_foreign (s : State) (n : Nat) (f : Sailing → Sailing) : (s.modSailing n f).foreign = s.foreign := rfl
@[simp] theorem State.modSailing_cur (s : State) (n : Nat) (f : Sailing → Sailing) : (s.modSailing n f).cur = s.cur := rfl
@[simp] theorem State.modSailing_freeIx (s : State) (n : Nat) (f : Sailing → Sailing) : (s.modSailing n f).freeIx = s.freeIx := rfl
@[simp] theorem State.modSailing_moves (s : State) (n : Nat) (f : Sailing → Sailing) : (s.modSailing n f).moves = s.moves := rfl
@[simp] theorem State.modSailing_inputs (s : State) (n : Nat) (f : Sailing → Sailing) : (s.modSailing n f).inputs = s.inputs := rfl
@[simp] theorem State.modSailing_hostWrites (s : State) (n : Nat) (f : Sailing → Sailing) : (s.modSailing n f).hostWrites = s.hostWrites := rfl
@[simp] theorem State.modSailing_hostWay (s : State) (n : Nat) (f : Sailing → Sailing) : (s.modSailing n f).hostWay = s.hostWay := rfl
@[simp] theorem State.modSailing_upsets (s : State) (n : Nat) (f : Sailing → Sailing) : (s.modSailing n f).upsets = s.upsets := rfl
@[simp] theorem State.modSailing_kept (s : State) (n : Nat) (f : Sailing → Sailing) : (s.modSailing n f).kept = s.kept := rfl

/-! ### State.modQuad -/

@[simp] theorem State.modQuad_wall (s : State) (q : Nat) (f : Quad → Quad) : (s.modQuad q f).wall = s.wall := rfl
@[simp] theorem State.modQuad_cores (s : State) (q : Nat) (f : Quad → Quad) : (s.modQuad q f).cores = s.cores := rfl
@[simp] theorem State.modQuad_helms (s : State) (q : Nat) (f : Quad → Quad) : (s.modQuad q f).helms = s.helms := rfl
@[simp] theorem State.modQuad_dies (s : State) (q : Nat) (f : Quad → Quad) : (s.modQuad q f).dies = s.dies := rfl
@[simp] theorem State.modQuad_sailings (s : State) (q : Nat) (f : Quad → Quad) : (s.modQuad q f).sailings = s.sailings := rfl
@[simp] theorem State.modQuad_lighters (s : State) (q : Nat) (f : Quad → Quad) : (s.modQuad q f).lighters = s.lighters := rfl
@[simp] theorem State.modQuad_quads (s : State) (q : Nat) (f : Quad → Quad) : (s.modQuad q f).quads = s.quads.set q (f (s.quad q)) := rfl
@[simp] theorem State.modQuad_pkgs (s : State) (q : Nat) (f : Quad → Quad) : (s.modQuad q f).pkgs = s.pkgs := rfl
@[simp] theorem State.modQuad_pod (s : State) (q : Nat) (f : Quad → Quad) : (s.modQuad q f).pod = s.pod := rfl
@[simp] theorem State.modQuad_nextSailing (s : State) (q : Nat) (f : Quad → Quad) : (s.modQuad q f).nextSailing = s.nextSailing := rfl
@[simp] theorem State.modQuad_mem (s : State) (q : Nat) (f : Quad → Quad) : (s.modQuad q f).mem = s.mem := rfl
@[simp] theorem State.modQuad_poison (s : State) (q : Nat) (f : Quad → Quad) : (s.modQuad q f).poison = s.poison := rfl
@[simp] theorem State.modQuad_foreign (s : State) (q : Nat) (f : Quad → Quad) : (s.modQuad q f).foreign = s.foreign := rfl
@[simp] theorem State.modQuad_cur (s : State) (q : Nat) (f : Quad → Quad) : (s.modQuad q f).cur = s.cur := rfl
@[simp] theorem State.modQuad_freeIx (s : State) (q : Nat) (f : Quad → Quad) : (s.modQuad q f).freeIx = s.freeIx := rfl
@[simp] theorem State.modQuad_moves (s : State) (q : Nat) (f : Quad → Quad) : (s.modQuad q f).moves = s.moves := rfl
@[simp] theorem State.modQuad_inputs (s : State) (q : Nat) (f : Quad → Quad) : (s.modQuad q f).inputs = s.inputs := rfl
@[simp] theorem State.modQuad_hostWrites (s : State) (q : Nat) (f : Quad → Quad) : (s.modQuad q f).hostWrites = s.hostWrites := rfl
@[simp] theorem State.modQuad_hostWay (s : State) (q : Nat) (f : Quad → Quad) : (s.modQuad q f).hostWay = s.hostWay := rfl
@[simp] theorem State.modQuad_upsets (s : State) (q : Nat) (f : Quad → Quad) : (s.modQuad q f).upsets = s.upsets := rfl
@[simp] theorem State.modQuad_kept (s : State) (q : Nat) (f : Quad → Quad) : (s.modQuad q f).kept = s.kept := rfl

/-! ### State.modPkg -/

@[simp] theorem State.modPkg_wall (s : State) (k : Nat) (f : Package → Package) : (s.modPkg k f).wall = s.wall := rfl
@[simp] theorem State.modPkg_cores (s : State) (k : Nat) (f : Package → Package) : (s.modPkg k f).cores = s.cores := rfl
@[simp] theorem State.modPkg_helms (s : State) (k : Nat) (f : Package → Package) : (s.modPkg k f).helms = s.helms := rfl
@[simp] theorem State.modPkg_dies (s : State) (k : Nat) (f : Package → Package) : (s.modPkg k f).dies = s.dies := rfl
@[simp] theorem State.modPkg_sailings (s : State) (k : Nat) (f : Package → Package) : (s.modPkg k f).sailings = s.sailings := rfl
@[simp] theorem State.modPkg_lighters (s : State) (k : Nat) (f : Package → Package) : (s.modPkg k f).lighters = s.lighters := rfl
@[simp] theorem State.modPkg_quads (s : State) (k : Nat) (f : Package → Package) : (s.modPkg k f).quads = s.quads := rfl
@[simp] theorem State.modPkg_pkgs (s : State) (k : Nat) (f : Package → Package) : (s.modPkg k f).pkgs = s.pkgs.set k (f (s.pkg k)) := rfl
@[simp] theorem State.modPkg_pod (s : State) (k : Nat) (f : Package → Package) : (s.modPkg k f).pod = s.pod := rfl
@[simp] theorem State.modPkg_nextSailing (s : State) (k : Nat) (f : Package → Package) : (s.modPkg k f).nextSailing = s.nextSailing := rfl
@[simp] theorem State.modPkg_mem (s : State) (k : Nat) (f : Package → Package) : (s.modPkg k f).mem = s.mem := rfl
@[simp] theorem State.modPkg_poison (s : State) (k : Nat) (f : Package → Package) : (s.modPkg k f).poison = s.poison := rfl
@[simp] theorem State.modPkg_foreign (s : State) (k : Nat) (f : Package → Package) : (s.modPkg k f).foreign = s.foreign := rfl
@[simp] theorem State.modPkg_cur (s : State) (k : Nat) (f : Package → Package) : (s.modPkg k f).cur = s.cur := rfl
@[simp] theorem State.modPkg_freeIx (s : State) (k : Nat) (f : Package → Package) : (s.modPkg k f).freeIx = s.freeIx := rfl
@[simp] theorem State.modPkg_moves (s : State) (k : Nat) (f : Package → Package) : (s.modPkg k f).moves = s.moves := rfl
@[simp] theorem State.modPkg_inputs (s : State) (k : Nat) (f : Package → Package) : (s.modPkg k f).inputs = s.inputs := rfl
@[simp] theorem State.modPkg_hostWrites (s : State) (k : Nat) (f : Package → Package) : (s.modPkg k f).hostWrites = s.hostWrites := rfl
@[simp] theorem State.modPkg_hostWay (s : State) (k : Nat) (f : Package → Package) : (s.modPkg k f).hostWay = s.hostWay := rfl
@[simp] theorem State.modPkg_upsets (s : State) (k : Nat) (f : Package → Package) : (s.modPkg k f).upsets = s.upsets := rfl
@[simp] theorem State.modPkg_kept (s : State) (k : Nat) (f : Package → Package) : (s.modPkg k f).kept = s.kept := rfl

/-! ### State.setPoison -/

@[simp] theorem State.setPoison_wall (s : State) (pa n : Nat) : (s.setPoison pa n).wall = s.wall := rfl
@[simp] theorem State.setPoison_cores (s : State) (pa n : Nat) : (s.setPoison pa n).cores = s.cores := rfl
@[simp] theorem State.setPoison_helms (s : State) (pa n : Nat) : (s.setPoison pa n).helms = s.helms := rfl
@[simp] theorem State.setPoison_dies (s : State) (pa n : Nat) : (s.setPoison pa n).dies = s.dies := rfl
@[simp] theorem State.setPoison_sailings (s : State) (pa n : Nat) : (s.setPoison pa n).sailings = s.sailings := rfl
@[simp] theorem State.setPoison_lighters (s : State) (pa n : Nat) : (s.setPoison pa n).lighters = s.lighters := rfl
@[simp] theorem State.setPoison_quads (s : State) (pa n : Nat) : (s.setPoison pa n).quads = s.quads := rfl
@[simp] theorem State.setPoison_pkgs (s : State) (pa n : Nat) : (s.setPoison pa n).pkgs = s.pkgs := rfl
@[simp] theorem State.setPoison_pod (s : State) (pa n : Nat) : (s.setPoison pa n).pod = s.pod := rfl
@[simp] theorem State.setPoison_nextSailing (s : State) (pa n : Nat) : (s.setPoison pa n).nextSailing = s.nextSailing := rfl
@[simp] theorem State.setPoison_mem (s : State) (pa n : Nat) : (s.setPoison pa n).mem = s.mem := rfl
@[simp] theorem State.setPoison_poison (s : State) (pa n : Nat) : (s.setPoison pa n).poison = (wordsOf pa n).foldl insWord s.poison := rfl
@[simp] theorem State.setPoison_foreign (s : State) (pa n : Nat) : (s.setPoison pa n).foreign = s.foreign := rfl
@[simp] theorem State.setPoison_cur (s : State) (pa n : Nat) : (s.setPoison pa n).cur = s.cur := rfl
@[simp] theorem State.setPoison_freeIx (s : State) (pa n : Nat) : (s.setPoison pa n).freeIx = s.freeIx := rfl
@[simp] theorem State.setPoison_moves (s : State) (pa n : Nat) : (s.setPoison pa n).moves = s.moves := rfl
@[simp] theorem State.setPoison_inputs (s : State) (pa n : Nat) : (s.setPoison pa n).inputs = s.inputs := rfl
@[simp] theorem State.setPoison_hostWrites (s : State) (pa n : Nat) : (s.setPoison pa n).hostWrites = s.hostWrites := rfl
@[simp] theorem State.setPoison_hostWay (s : State) (pa n : Nat) : (s.setPoison pa n).hostWay = s.hostWay := rfl
@[simp] theorem State.setPoison_upsets (s : State) (pa n : Nat) : (s.setPoison pa n).upsets = s.upsets := rfl
@[simp] theorem State.setPoison_kept (s : State) (pa n : Nat) : (s.setPoison pa n).kept = s.kept := rfl

/-! ### State.modSkiff -/

@[simp] theorem State.modSkiff_wall (s : State) (p : Nat) (j : BitVec 3) (f : Skiff → Skiff) : (s.modSkiff p j f).wall = s.wall := rfl
@[simp] theorem State.modSkiff_helms (s : State) (p : Nat) (j : BitVec 3) (f : Skiff → Skiff) : (s.modSkiff p j f).helms = s.helms := rfl
@[simp] theorem State.modSkiff_dies (s : State) (p : Nat) (j : BitVec 3) (f : Skiff → Skiff) : (s.modSkiff p j f).dies = s.dies := rfl
@[simp] theorem State.modSkiff_sailings (s : State) (p : Nat) (j : BitVec 3) (f : Skiff → Skiff) : (s.modSkiff p j f).sailings = s.sailings := rfl
@[simp] theorem State.modSkiff_lighters (s : State) (p : Nat) (j : BitVec 3) (f : Skiff → Skiff) : (s.modSkiff p j f).lighters = s.lighters := rfl
@[simp] theorem State.modSkiff_quads (s : State) (p : Nat) (j : BitVec 3) (f : Skiff → Skiff) : (s.modSkiff p j f).quads = s.quads := rfl
@[simp] theorem State.modSkiff_pkgs (s : State) (p : Nat) (j : BitVec 3) (f : Skiff → Skiff) : (s.modSkiff p j f).pkgs = s.pkgs := rfl
@[simp] theorem State.modSkiff_pod (s : State) (p : Nat) (j : BitVec 3) (f : Skiff → Skiff) : (s.modSkiff p j f).pod = s.pod := rfl
@[simp] theorem State.modSkiff_nextSailing (s : State) (p : Nat) (j : BitVec 3) (f : Skiff → Skiff) : (s.modSkiff p j f).nextSailing = s.nextSailing := rfl
@[simp] theorem State.modSkiff_mem (s : State) (p : Nat) (j : BitVec 3) (f : Skiff → Skiff) : (s.modSkiff p j f).mem = s.mem := rfl
@[simp] theorem State.modSkiff_poison (s : State) (p : Nat) (j : BitVec 3) (f : Skiff → Skiff) : (s.modSkiff p j f).poison = s.poison := rfl
@[simp] theorem State.modSkiff_foreign (s : State) (p : Nat) (j : BitVec 3) (f : Skiff → Skiff) : (s.modSkiff p j f).foreign = s.foreign := rfl
@[simp] theorem State.modSkiff_cur (s : State) (p : Nat) (j : BitVec 3) (f : Skiff → Skiff) : (s.modSkiff p j f).cur = s.cur := rfl
@[simp] theorem State.modSkiff_freeIx (s : State) (p : Nat) (j : BitVec 3) (f : Skiff → Skiff) : (s.modSkiff p j f).freeIx = s.freeIx := rfl
@[simp] theorem State.modSkiff_moves (s : State) (p : Nat) (j : BitVec 3) (f : Skiff → Skiff) : (s.modSkiff p j f).moves = s.moves := rfl
@[simp] theorem State.modSkiff_inputs (s : State) (p : Nat) (j : BitVec 3) (f : Skiff → Skiff) : (s.modSkiff p j f).inputs = s.inputs := rfl
@[simp] theorem State.modSkiff_hostWrites (s : State) (p : Nat) (j : BitVec 3) (f : Skiff → Skiff) : (s.modSkiff p j f).hostWrites = s.hostWrites := rfl
@[simp] theorem State.modSkiff_hostWay (s : State) (p : Nat) (j : BitVec 3) (f : Skiff → Skiff) : (s.modSkiff p j f).hostWay = s.hostWay := rfl
@[simp] theorem State.modSkiff_upsets (s : State) (p : Nat) (j : BitVec 3) (f : Skiff → Skiff) : (s.modSkiff p j f).upsets = s.upsets := rfl
@[simp] theorem State.modSkiff_kept (s : State) (p : Nat) (j : BitVec 3) (f : Skiff → Skiff) : (s.modSkiff p j f).kept = s.kept := rfl

/-! ### State.modBarrel -/

@[simp] theorem State.modBarrel_wall (s : State) (p : Nat) (f : Barrel → Barrel) : (s.modBarrel p f).wall = s.wall := rfl
@[simp] theorem State.modBarrel_cores (s : State) (p : Nat) (f : Barrel → Barrel) : (s.modBarrel p f).cores = s.cores.set p { s.core p with barrel := f (s.core p).barrel } := rfl
@[simp] theorem State.modBarrel_helms (s : State) (p : Nat) (f : Barrel → Barrel) : (s.modBarrel p f).helms = s.helms := rfl
@[simp] theorem State.modBarrel_dies (s : State) (p : Nat) (f : Barrel → Barrel) : (s.modBarrel p f).dies = s.dies := rfl
@[simp] theorem State.modBarrel_sailings (s : State) (p : Nat) (f : Barrel → Barrel) : (s.modBarrel p f).sailings = s.sailings := rfl
@[simp] theorem State.modBarrel_lighters (s : State) (p : Nat) (f : Barrel → Barrel) : (s.modBarrel p f).lighters = s.lighters := rfl
@[simp] theorem State.modBarrel_quads (s : State) (p : Nat) (f : Barrel → Barrel) : (s.modBarrel p f).quads = s.quads := rfl
@[simp] theorem State.modBarrel_pkgs (s : State) (p : Nat) (f : Barrel → Barrel) : (s.modBarrel p f).pkgs = s.pkgs := rfl
@[simp] theorem State.modBarrel_pod (s : State) (p : Nat) (f : Barrel → Barrel) : (s.modBarrel p f).pod = s.pod := rfl
@[simp] theorem State.modBarrel_nextSailing (s : State) (p : Nat) (f : Barrel → Barrel) : (s.modBarrel p f).nextSailing = s.nextSailing := rfl
@[simp] theorem State.modBarrel_mem (s : State) (p : Nat) (f : Barrel → Barrel) : (s.modBarrel p f).mem = s.mem := rfl
@[simp] theorem State.modBarrel_poison (s : State) (p : Nat) (f : Barrel → Barrel) : (s.modBarrel p f).poison = s.poison := rfl
@[simp] theorem State.modBarrel_foreign (s : State) (p : Nat) (f : Barrel → Barrel) : (s.modBarrel p f).foreign = s.foreign := rfl
@[simp] theorem State.modBarrel_cur (s : State) (p : Nat) (f : Barrel → Barrel) : (s.modBarrel p f).cur = s.cur := rfl
@[simp] theorem State.modBarrel_freeIx (s : State) (p : Nat) (f : Barrel → Barrel) : (s.modBarrel p f).freeIx = s.freeIx := rfl
@[simp] theorem State.modBarrel_moves (s : State) (p : Nat) (f : Barrel → Barrel) : (s.modBarrel p f).moves = s.moves := rfl
@[simp] theorem State.modBarrel_inputs (s : State) (p : Nat) (f : Barrel → Barrel) : (s.modBarrel p f).inputs = s.inputs := rfl
@[simp] theorem State.modBarrel_hostWrites (s : State) (p : Nat) (f : Barrel → Barrel) : (s.modBarrel p f).hostWrites = s.hostWrites := rfl
@[simp] theorem State.modBarrel_hostWay (s : State) (p : Nat) (f : Barrel → Barrel) : (s.modBarrel p f).hostWay = s.hostWay := rfl
@[simp] theorem State.modBarrel_upsets (s : State) (p : Nat) (f : Barrel → Barrel) : (s.modBarrel p f).upsets = s.upsets := rfl
@[simp] theorem State.modBarrel_kept (s : State) (p : Nat) (f : Barrel → Barrel) : (s.modBarrel p f).kept = s.kept := rfl

/-! ### Core.land -/

@[simp] theorem Core.land_run (c : Core) (slot lat : Nat) (d : Dest) (v : Word) : (c.land slot lat d v).run = c.run := rfl
@[simp] theorem Core.land_files (c : Core) (slot lat : Nat) (d : Dest) (v : Word) : (c.land slot lat d v).files = c.files := rfl
@[simp] theorem Core.land_pipe (c : Core) (slot lat : Nat) (d : Dest) (v : Word) : (c.land slot lat d v).pipe = { c.pipe with pend := c.pipe.pend ++ [⟨c.run.t + lat, c.run.t, slot, d, v⟩] } := rfl
@[simp] theorem Core.land_queues (c : Core) (slot lat : Nat) (d : Dest) (v : Word) : (c.land slot lat d v).queues = c.queues := rfl
@[simp] theorem Core.land_fetch (c : Core) (slot lat : Nat) (d : Dest) (v : Word) : (c.land slot lat d v).fetch = c.fetch := rfl
@[simp] theorem Core.land_ctl (c : Core) (slot lat : Nat) (d : Dest) (v : Word) : (c.land slot lat d v).ctl = c.ctl := rfl
@[simp] theorem Core.land_ports (c : Core) (slot lat : Nat) (d : Dest) (v : Word) : (c.land slot lat d v).ports = c.ports := rfl
@[simp] theorem Core.land_remotes (c : Core) (slot lat : Nat) (d : Dest) (v : Word) : (c.land slot lat d v).remotes = c.remotes := rfl
@[simp] theorem Core.land_posts (c : Core) (slot lat : Nat) (d : Dest) (v : Word) : (c.land slot lat d v).posts = c.posts := rfl
@[simp] theorem Core.land_flight (c : Core) (slot lat : Nat) (d : Dest) (v : Word) : (c.land slot lat d v).flight = c.flight := rfl
@[simp] theorem Core.land_nextFlight (c : Core) (slot lat : Nat) (d : Dest) (v : Word) : (c.land slot lat d v).nextFlight = c.nextFlight := rfl
@[simp] theorem Core.land_wmc (c : Core) (slot lat : Nat) (d : Dest) (v : Word) : (c.land slot lat d v).wmc = c.wmc := rfl
@[simp] theorem Core.land_pmap (c : Core) (slot lat : Nat) (d : Dest) (v : Word) : (c.land slot lat d v).pmap = c.pmap := rfl
@[simp] theorem Core.land_swaps (c : Core) (slot lat : Nat) (d : Dest) (v : Word) : (c.land slot lat d v).swaps = c.swaps := rfl
@[simp] theorem Core.land_expects (c : Core) (slot lat : Nat) (d : Dest) (v : Word) : (c.land slot lat d v).expects = c.expects := rfl
@[simp] theorem Core.land_tagged (c : Core) (slot lat : Nat) (d : Dest) (v : Word) : (c.land slot lat d v).tagged = c.tagged := rfl
@[simp] theorem Core.land_refills (c : Core) (slot lat : Nat) (d : Dest) (v : Word) : (c.land slot lat d v).refills = c.refills := rfl
@[simp] theorem Core.land_stlb (c : Core) (slot lat : Nat) (d : Dest) (v : Word) : (c.land slot lat d v).stlb = c.stlb := rfl
@[simp] theorem Core.land_vec (c : Core) (slot lat : Nat) (d : Dest) (v : Word) : (c.land slot lat d v).vec = c.vec := rfl
@[simp] theorem Core.land_moves (c : Core) (slot lat : Nat) (d : Dest) (v : Word) : (c.land slot lat d v).moves = c.moves := rfl
@[simp] theorem Core.land_plans (c : Core) (slot lat : Nat) (d : Dest) (v : Word) : (c.land slot lat d v).plans = c.plans := rfl
@[simp] theorem Core.land_sfu (c : Core) (slot lat : Nat) (d : Dest) (v : Word) : (c.land slot lat d v).sfu = c.sfu := rfl
@[simp] theorem Core.land_bars (c : Core) (slot lat : Nat) (d : Dest) (v : Word) : (c.land slot lat d v).bars = c.bars := rfl
@[simp] theorem Core.land_colls (c : Core) (slot lat : Nat) (d : Dest) (v : Word) : (c.land slot lat d v).colls = c.colls := rfl
@[simp] theorem Core.land_groups (c : Core) (slot lat : Nat) (d : Dest) (v : Word) : (c.land slot lat d v).groups = c.groups := rfl
@[simp] theorem Core.land_obs (c : Core) (slot lat : Nat) (d : Dest) (v : Word) : (c.land slot lat d v).obs = c.obs := rfl
@[simp] theorem Core.land_note (c : Core) (slot lat : Nat) (d : Dest) (v : Word) : (c.land slot lat d v).note = c.note := rfl
@[simp] theorem Core.land_dbg (c : Core) (slot lat : Nat) (d : Dest) (v : Word) : (c.land slot lat d v).dbg = c.dbg := rfl
@[simp] theorem Core.land_barrel (c : Core) (slot lat : Nat) (d : Dest) (v : Word) : (c.land slot lat d v).barrel = c.barrel := rfl

/-! ### Core.later -/

@[simp] theorem Core.later_run (c : Core) (e : EndAct) : (c.later e).run = c.run := rfl
@[simp] theorem Core.later_files (c : Core) (e : EndAct) : (c.later e).files = c.files := rfl
@[simp] theorem Core.later_pipe (c : Core) (e : EndAct) : (c.later e).pipe = { c.pipe with eoc := c.pipe.eoc ++ [e] } := rfl
@[simp] theorem Core.later_queues (c : Core) (e : EndAct) : (c.later e).queues = c.queues := rfl
@[simp] theorem Core.later_fetch (c : Core) (e : EndAct) : (c.later e).fetch = c.fetch := rfl
@[simp] theorem Core.later_ctl (c : Core) (e : EndAct) : (c.later e).ctl = c.ctl := rfl
@[simp] theorem Core.later_ports (c : Core) (e : EndAct) : (c.later e).ports = c.ports := rfl
@[simp] theorem Core.later_remotes (c : Core) (e : EndAct) : (c.later e).remotes = c.remotes := rfl
@[simp] theorem Core.later_posts (c : Core) (e : EndAct) : (c.later e).posts = c.posts := rfl
@[simp] theorem Core.later_flight (c : Core) (e : EndAct) : (c.later e).flight = c.flight := rfl
@[simp] theorem Core.later_nextFlight (c : Core) (e : EndAct) : (c.later e).nextFlight = c.nextFlight := rfl
@[simp] theorem Core.later_wmc (c : Core) (e : EndAct) : (c.later e).wmc = c.wmc := rfl
@[simp] theorem Core.later_pmap (c : Core) (e : EndAct) : (c.later e).pmap = c.pmap := rfl
@[simp] theorem Core.later_swaps (c : Core) (e : EndAct) : (c.later e).swaps = c.swaps := rfl
@[simp] theorem Core.later_expects (c : Core) (e : EndAct) : (c.later e).expects = c.expects := rfl
@[simp] theorem Core.later_tagged (c : Core) (e : EndAct) : (c.later e).tagged = c.tagged := rfl
@[simp] theorem Core.later_refills (c : Core) (e : EndAct) : (c.later e).refills = c.refills := rfl
@[simp] theorem Core.later_stlb (c : Core) (e : EndAct) : (c.later e).stlb = c.stlb := rfl
@[simp] theorem Core.later_vec (c : Core) (e : EndAct) : (c.later e).vec = c.vec := rfl
@[simp] theorem Core.later_moves (c : Core) (e : EndAct) : (c.later e).moves = c.moves := rfl
@[simp] theorem Core.later_plans (c : Core) (e : EndAct) : (c.later e).plans = c.plans := rfl
@[simp] theorem Core.later_sfu (c : Core) (e : EndAct) : (c.later e).sfu = c.sfu := rfl
@[simp] theorem Core.later_bars (c : Core) (e : EndAct) : (c.later e).bars = c.bars := rfl
@[simp] theorem Core.later_colls (c : Core) (e : EndAct) : (c.later e).colls = c.colls := rfl
@[simp] theorem Core.later_groups (c : Core) (e : EndAct) : (c.later e).groups = c.groups := rfl
@[simp] theorem Core.later_obs (c : Core) (e : EndAct) : (c.later e).obs = c.obs := rfl
@[simp] theorem Core.later_note (c : Core) (e : EndAct) : (c.later e).note = c.note := rfl
@[simp] theorem Core.later_dbg (c : Core) (e : EndAct) : (c.later e).dbg = c.dbg := rfl
@[simp] theorem Core.later_barrel (c : Core) (e : EndAct) : (c.later e).barrel = c.barrel := rfl

/-! ### Tables -/

/-- A table answers the record that was set last for a key. -/
@[simp] theorem Tab.get_set_self {α : Type} (t : Tab α) (d : α) (k : Nat) (v : α) : (Tab.set t k v).get d k = v := by
  induction t with
  | nil => simp [Tab.set, Tab.get]
  | cons x t ih =>
    obtain ⟨k', v'⟩ := x
    by_cases h : k = k'
    · simp [Tab.set, Tab.get, h]
    · by_cases h' : k < k'
      · simp [Tab.set, Tab.get, h, h']
      · simp [Tab.set, Tab.get, h, h', ih]

/-- Setting one key leaves the records of the others. -/
theorem Tab.get_set_other {α : Type} (t : Tab α) (d : α) {k k' : Nat} (v : α) (hk : k' ≠ k) :
    (Tab.set t k v).get d k' = t.get d k' := by
  induction t with
  | nil => simp [Tab.set, Tab.get, hk]
  | cons x t ih =>
    obtain ⟨k2, v2⟩ := x
    by_cases h : k = k2
    · subst h; simp [Tab.set, Tab.get, hk]
    · by_cases h' : k < k2
      · simp [Tab.set, Tab.get, h, h', hk]
      · simp [Tab.set, Tab.get, h, h', ih]

/-! ### A record after its own update, and after another's -/

@[simp] theorem State.core_setCore (s : State) (p : Nat) (c : Core) : (s.setCore p c).core p = c := Tab.get_set_self ..
theorem State.core_setCore_other (s : State) {p q : Nat} (c : Core) (h : q ≠ p) : (s.setCore p c).core q = s.core q :=
  Tab.get_set_other _ _ _ h
@[simp] theorem State.core_modCore (s : State) (p : Nat) (f : Core → Core) : (s.modCore p f).core p = f (s.core p) := Tab.get_set_self ..
theorem State.core_modCore_other (s : State) {p q : Nat} (f : Core → Core) (h : q ≠ p) : (s.modCore p f).core q = s.core q :=
  Tab.get_set_other _ _ _ h
@[simp] theorem State.die_modDie (s : State) (d : Nat) (f : Die → Die) : (s.modDie d f).die d = f (s.die d) := Tab.get_set_self ..
theorem State.die_modDie_other (s : State) {d e : Nat} (f : Die → Die) (h : e ≠ d) : (s.modDie d f).die e = s.die e :=
  Tab.get_set_other _ _ _ h
@[simp] theorem State.helm_modHelm (s : State) (h : Nat) (f : HelmRegs → HelmRegs) : (s.modHelm h f).helm h = f (s.helm h) :=
  Tab.get_set_self ..
@[simp] theorem State.sailing_modSailing (s : State) (n : Nat) (f : Sailing → Sailing) :
    (s.modSailing n f).sailing n = f (s.sailing n) := Tab.get_set_self ..
theorem State.sailing_modSailing_other (s : State) {n m : Nat} (f : Sailing → Sailing) (h : m ≠ n) :
    (s.modSailing n f).sailing m = s.sailing m := Tab.get_set_other _ _ _ h
@[simp] theorem State.quad_modQuad (s : State) (q : Nat) (f : Quad → Quad) : (s.modQuad q f).quad q = f (s.quad q) :=
  Tab.get_set_self ..
@[simp] theorem State.pkg_modPkg (s : State) (k : Nat) (f : Package → Package) : (s.modPkg k f).pkg k = f (s.pkg k) :=
  Tab.get_set_self ..

/-! ### Records of one table under the update of another -/

@[simp] theorem State.die_setCore (s : State) (p : Nat) (c : Core) (d : Nat) : (s.setCore p c).die d = s.die d := rfl
@[simp] theorem State.helm_setCore (s : State) (p : Nat) (c : Core) (h : Nat) : (s.setCore p c).helm h = s.helm h := rfl
@[simp] theorem State.sailing_setCore (s : State) (p : Nat) (c : Core) (n : Nat) : (s.setCore p c).sailing n = s.sailing n := rfl
@[simp] theorem State.quad_setCore (s : State) (p : Nat) (c : Core) (q : Nat) : (s.setCore p c).quad q = s.quad q := rfl
@[simp] theorem State.pkg_setCore (s : State) (p : Nat) (c : Core) (k : Nat) : (s.setCore p c).pkg k = s.pkg k := rfl
@[simp] theorem State.die_modCore (s : State) (p : Nat) (f : Core → Core) (d : Nat) : (s.modCore p f).die d = s.die d := rfl
@[simp] theorem State.helm_modCore (s : State) (p : Nat) (f : Core → Core) (h : Nat) : (s.modCore p f).helm h = s.helm h := rfl
@[simp] theorem State.sailing_modCore (s : State) (p : Nat) (f : Core → Core) (n : Nat) : (s.modCore p f).sailing n = s.sailing n := rfl
@[simp] theorem State.quad_modCore (s : State) (p : Nat) (f : Core → Core) (q : Nat) : (s.modCore p f).quad q = s.quad q := rfl
@[simp] theorem State.pkg_modCore (s : State) (p : Nat) (f : Core → Core) (k : Nat) : (s.modCore p f).pkg k = s.pkg k := rfl
@[simp] theorem State.core_modDie (s : State) (d : Nat) (f : Die → Die) (u : Nat) : (s.modDie d f).core u = s.core u := rfl
@[simp] theorem State.helm_modDie (s : State) (d : Nat) (f : Die → Die) (u : Nat) : (s.modDie d f).helm u = s.helm u := rfl
@[simp] theorem State.sailing_modDie (s : State) (d : Nat) (f : Die → Die) (u : Nat) : (s.modDie d f).sailing u = s.sailing u := rfl
@[simp] theorem State.quad_modDie (s : State) (d : Nat) (f : Die → Die) (u : Nat) : (s.modDie d f).quad u = s.quad u := rfl
@[simp] theorem State.pkg_modDie (s : State) (d : Nat) (f : Die → Die) (u : Nat) : (s.modDie d f).pkg u = s.pkg u := rfl
@[simp] theorem State.core_modSailing (s : State) (n : Nat) (f : Sailing → Sailing) (u : Nat) : (s.modSailing n f).core u = s.core u := rfl
@[simp] theorem State.die_modSailing (s : State) (n : Nat) (f : Sailing → Sailing) (u : Nat) : (s.modSailing n f).die u = s.die u := rfl
@[simp] theorem State.helm_modSailing (s : State) (n : Nat) (f : Sailing → Sailing) (u : Nat) : (s.modSailing n f).helm u = s.helm u := rfl
@[simp] theorem State.quad_modSailing (s : State) (n : Nat) (f : Sailing → Sailing) (u : Nat) : (s.modSailing n f).quad u = s.quad u := rfl
@[simp] theorem State.pkg_modSailing (s : State) (n : Nat) (f : Sailing → Sailing) (u : Nat) : (s.modSailing n f).pkg u = s.pkg u := rfl
@[simp] theorem State.core_modHelm (s : State) (h : Nat) (f : HelmRegs → HelmRegs) (u : Nat) : (s.modHelm h f).core u = s.core u := rfl
@[simp] theorem State.die_modHelm (s : State) (h : Nat) (f : HelmRegs → HelmRegs) (u : Nat) : (s.modHelm h f).die u = s.die u := rfl
@[simp] theorem State.sailing_modHelm (s : State) (h : Nat) (f : HelmRegs → HelmRegs) (u : Nat) : (s.modHelm h f).sailing u = s.sailing u := rfl
@[simp] theorem State.quad_modHelm (s : State) (h : Nat) (f : HelmRegs → HelmRegs) (u : Nat) : (s.modHelm h f).quad u = s.quad u := rfl
@[simp] theorem State.pkg_modHelm (s : State) (h : Nat) (f : HelmRegs → HelmRegs) (u : Nat) : (s.modHelm h f).pkg u = s.pkg u := rfl
@[simp] theorem State.core_modQuad (s : State) (q : Nat) (f : Quad → Quad) (u : Nat) : (s.modQuad q f).core u = s.core u := rfl
@[simp] theorem State.die_modQuad (s : State) (q : Nat) (f : Quad → Quad) (u : Nat) : (s.modQuad q f).die u = s.die u := rfl
@[simp] theorem State.helm_modQuad (s : State) (q : Nat) (f : Quad → Quad) (u : Nat) : (s.modQuad q f).helm u = s.helm u := rfl
@[simp] theorem State.sailing_modQuad (s : State) (q : Nat) (f : Quad → Quad) (u : Nat) : (s.modQuad q f).sailing u = s.sailing u := rfl
@[simp] theorem State.pkg_modQuad (s : State) (q : Nat) (f : Quad → Quad) (u : Nat) : (s.modQuad q f).pkg u = s.pkg u := rfl
@[simp] theorem State.core_modPkg (s : State) (k : Nat) (f : Package → Package) (u : Nat) : (s.modPkg k f).core u = s.core u := rfl
@[simp] theorem State.die_modPkg (s : State) (k : Nat) (f : Package → Package) (u : Nat) : (s.modPkg k f).die u = s.die u := rfl
@[simp] theorem State.helm_modPkg (s : State) (k : Nat) (f : Package → Package) (u : Nat) : (s.modPkg k f).helm u = s.helm u := rfl
@[simp] theorem State.sailing_modPkg (s : State) (k : Nat) (f : Package → Package) (u : Nat) : (s.modPkg k f).sailing u = s.sailing u := rfl
@[simp] theorem State.quad_modPkg (s : State) (k : Nat) (f : Package → Package) (u : Nat) : (s.modPkg k f).quad u = s.quad u := rfl

end Sys2Proof.Machine
end

