-- ==== Sys2Proof/Laws/Memory.lean ====
section
/-! SUPPORT. Memory: its canonical form is kept by every operation on it, a write is read back, and every other byte stays. -/

namespace Sys2Proof.Machine

/-! ### The canonical form -/

theorem Memory.wfFrom_mono {lo lo' : Nat} (m : Memory) (h : lo' ≤ lo) (hm : Memory.wfFrom lo m = true) : Memory.wfFrom lo' m = true := by
  cases m with
  | nil => rfl
  | cons x m =>
    obtain ⟨a, b⟩ := x
    simp only [Memory.wfFrom, Bool.and_eq_true, decide_eq_true_eq] at hm ⊢
    exact ⟨⟨by omega, hm.1.2⟩, hm.2⟩

/-- Writing a byte at or above the lower bound of a canonical memory keeps its form. -/
theorem Memory.put_wfFrom (m : Memory) (lo a : Nat) (b : Byte) (hl : lo ≤ a) (hm : Memory.wfFrom lo m = true) :
    Memory.wfFrom lo (m.put a b) = true := by
  induction m generalizing lo with
  | nil =>
    by_cases hb : b = 0#8
    · simp [Memory.put, hb, Memory.wfFrom]
    · simp [Memory.put, hb, Memory.wfFrom, hl]
  | cons x m ih =>
    obtain ⟨a', b'⟩ := x
    simp only [Memory.wfFrom, Bool.and_eq_true, decide_eq_true_eq] at hm
    obtain ⟨⟨h1, h2⟩, h3⟩ := hm
    replace h2 : ¬ b' = 0#8 := h2
    unfold Memory.put
    by_cases e : a = a'
    · subst e
      by_cases hb : b = 0#8
      · simp only [if_pos, hb, BitVec.ofNat_eq_ofNat]; exact Memory.wfFrom_mono m (by omega) h3
      · simp [hb, Memory.wfFrom, hl, h3]
    · by_cases l : a < a'
      · by_cases hb : b = 0#8
        · simp [e, l, hb, Memory.wfFrom, h1, h2, h3]
        · have : a + 1 ≤ a' := l
          simp [e, l, hb, Memory.wfFrom, hl, h2, h3, this]
      · have : a' + 1 ≤ a := by omega
        simp [e, l, Memory.wfFrom, h1, h2, ih (a' + 1) this h3]

/-- Every byte written keeps the canonical form. -/
theorem Memory.put_wf (m : Memory) (a : Nat) (b : Byte) (hm : m.wf = true) : (m.put a b).wf = true :=
  Memory.put_wfFrom m 0 a b (Nat.zero_le a) hm

/-- Every write keeps the canonical form. -/
theorem Memory.write_wf (m : Memory) (a v n : Nat) (hm : m.wf = true) : (m.write a v n).wf = true := by
  induction n generalizing m a v with
  | zero => exact hm
  | succ n ih => exact ih _ _ _ (Memory.put_wf m a _ hm)

/-- The memory of the reset state has the canonical form. -/
theorem Memory.reset_wf : State.reset.mem.wf = true := rfl

/-! ### Reading after writing -/

/-- A canonical memory reads 0 below its lower bound. -/
theorem Memory.get_below (m : Memory) (lo a : Nat) (h : a < lo) (hm : Memory.wfFrom lo m = true) : m.get a = 0 := by
  cases m with
  | nil => rfl
  | cons x m =>
    obtain ⟨a', b'⟩ := x
    simp only [Memory.wfFrom, Bool.and_eq_true, decide_eq_true_eq] at hm
    have h1 : a ≠ a' := by omega
    have h2 : a < a' := by omega
    simp [Memory.get, h1, h2]

/-- The byte just written is read. -/
theorem Memory.get_put_self (m : Memory) (lo a : Nat) (b : Byte) (hm : Memory.wfFrom lo m = true) : (m.put a b).get a = b := by
  induction m generalizing lo with
  | nil => by_cases hb : b = 0#8 <;> simp [Memory.put, Memory.get, hb]
  | cons x m ih =>
    obtain ⟨a', b'⟩ := x
    simp only [Memory.wfFrom, Bool.and_eq_true, decide_eq_true_eq] at hm
    obtain ⟨_, h3⟩ := hm
    unfold Memory.put
    by_cases e : a = a'
    · subst e
      by_cases hb : b = 0#8
      · simp only [if_pos, hb, BitVec.ofNat_eq_ofNat]; exact Memory.get_below m (a + 1) a (by omega) h3
      · simp [hb, Memory.get]
    · by_cases l : a < a'
      · by_cases hb : b = 0#8 <;> simp [e, l, hb, Memory.get]
      · simp [e, l, Memory.get, ih _ h3]

/-- Every other byte reads as before. -/
theorem Memory.get_put_other (m : Memory) (lo : Nat) {a x : Nat} (b : Byte) (hx : x ≠ a) (hm : Memory.wfFrom lo m = true) :
    (m.put a b).get x = m.get x := by
  induction m generalizing lo with
  | nil => by_cases hb : b = 0#8 <;> simp [Memory.put, Memory.get, hb, hx]
  | cons y m ih =>
    obtain ⟨a', b'⟩ := y
    simp only [Memory.wfFrom, Bool.and_eq_true, decide_eq_true_eq] at hm
    obtain ⟨_, h3⟩ := hm
    unfold Memory.put
    by_cases e : a = a'
    · subst e
      by_cases hb : b = 0#8
      · simp only [if_pos, hb, BitVec.ofNat_eq_ofNat, Memory.get, if_neg hx]
        by_cases l : x < a
        · simp only [if_pos l]; exact Memory.get_below m (a + 1) x (by omega) h3
        · simp only [if_neg l]
      · simp [hb, Memory.get, hx]
    · by_cases l : a < a'
      · by_cases hb : b = 0#8
        · simp [e, l, hb]
        · simp only [if_neg e, if_pos l, hb, BitVec.ofNat_eq_ofNat, if_false, Memory.get, if_neg hx]
          by_cases l' : x < a
          · have : x ≠ a' := by omega
            have : x < a' := by omega
            simp [*]
          · simp [l']
      · simp only [if_neg e, if_neg l, Memory.get, ih _ h3]

/-- A write leaves every byte outside it. -/
theorem Memory.get_write_outside (m : Memory) (a v n x : Nat) (hx : x < a ∨ a + n ≤ x) (hm : m.wf = true) :
    (m.write a v n).get x = m.get x := by
  induction n generalizing m a v with
  | zero => rfl
  | succ n ih =>
    show (Memory.write (m.put a _) (a + 1) (v / 256) n).get x = _
    rw [ih _ _ _ (by omega) (Memory.put_wf m a _ hm), Memory.get_put_other m 0 _ (by omega) hm]

/-- What was written is read back: the low n bytes of the value. -/
theorem Memory.read_write (m : Memory) (a v n : Nat) (hm : m.wf = true) : (m.write a v n).read a n = v % 256 ^ n := by
  have outside : ∀ (m : Memory) (a v n x : Nat), m.wf = true → x < a → (m.write a v n).get x = m.get x :=
    fun m a v n x h hx => Memory.get_write_outside m a v n x (.inl hx) h
  induction n generalizing m a v with
  | zero => simp [Memory.read, Nat.mod_one]
  | succ n ih =>
    show ((Memory.write (m.put a (BitVec.ofNat 8 v)) (a + 1) (v / 256) n).get a).toNat +
      256 * (Memory.write (m.put a (BitVec.ofNat 8 v)) (a + 1) (v / 256) n).read (a + 1) n = _
    have hp := Memory.put_wf m a (BitVec.ofNat 8 v) hm
    rw [ih _ _ _ hp, outside _ _ _ _ a hp (by omega), Memory.get_put_self m 0 a _ hm]
    have h8 : (BitVec.ofNat 8 v).toNat = v % 256 := by simp
    rw [h8, Nat.pow_succ', Nat.mod_mul]

/-! ### The state's own write -/

@[simp] theorem wakeSkiffs_mem (s : State) (pa n : Nat) : (wakeSkiffs s pa n).mem = s.mem := by
  unfold wakeSkiffs; split
  · rfl
  · split <;> rfl

@[simp] theorem sendInvals_mem (s : State) (w : Writer) (pa v n : Nat) : (sendInvals s w pa v n).mem = s.mem := by
  unfold sendInvals; split <;> rfl

/-- A write of the state is one write of its memory. -/
@[simp] theorem State.writeBy_mem (s : State) (w : Writer) (own : Bool) (pa v n : Nat) : (s.writeBy w own pa v n).mem = s.mem.write pa v n := by
  unfold State.writeBy; dsimp only; split <;> simp

@[simp] theorem State.write_mem (s : State) (own : Bool) (pa v n : Nat) : (s.write own pa v n).mem = s.mem.write pa v n := State.writeBy_mem ..

@[simp] theorem deliverInvals_mem (s : State) (f : Writer → Bool) : (deliverInvals s f).mem = s.mem := rfl

theorem State.write_wf (s : State) (own : Bool) (pa v n : Nat) (h : s.mem.wf = true) : (s.write own pa v n).mem.wf = true := by
  rw [State.write_mem]; exact Memory.write_wf _ _ _ _ h

end Sys2Proof.Machine
end

