-- ==== Sys2Proof/Laws/Ops.lean ====
section
/-! SUPPORT. What the shared operations can do: outcomes, the checks at issue, writes of memory, fault records and faults. -/

namespace Sys2Proof.Machine

/-! ### Outcomes -/

@[simp] theorem finish_ok (s t : State) : finish s (.ok t) = .next t := rfl
@[simp] theorem finish_fault (s : State) (c d : Nat) : finish s (.fault c d) = .next (takeFault s c d) := rfl
@[simp] theorem finish_stall (s : State) (c : Nat) (a : StallAct) : finish s (.stall c a) = .next (stallCore s s.me c s.cur.addr a) := rfl
@[simp] theorem Res.bind_ok (s : State) (k : State → Res) : (Res.ok s).bind k = k s := rfl
@[simp] theorem Res.bind_fault (c d : Nat) (k : State → Res) : (Res.fault c d).bind k = .fault c d := rfl
@[simp] theorem Res.bind_stall (c : Nat) (a : StallAct) (k : State → Res) : (Res.stall c a).bind k = .stall c a := rfl

/-- Operations in sequence take effect exactly where each does. -/
theorem Res.bind_eq_ok {r : Res} {k : State → Res} {t : State} : r.bind k = .ok t ↔ ∃ s, r = .ok s ∧ k s = .ok t := by
  cases r <;> simp

/-- An operation that issues by itself always answers a next state. -/
theorem finish_next (s : State) (r : Res) : ∃ t, finish s r = .next t := by
  cases r <;> exact ⟨_, rfl⟩

/-- Where the queues have room for what an operation does, its effect stands. -/
theorem queueLimit_ok {s : State} (h : s.own.queues.lq.length ≤ 32) (h' : s.own.queues.sq.length ≤ 32) : queueLimit (.ok s) = .ok s := by
  simp [queueLimit, Nat.not_lt.mpr h, Nat.not_lt.mpr h']

@[simp] theorem queueLimit_fault (c d : Nat) : queueLimit (.fault c d) = .fault c d := rfl
@[simp] theorem queueLimit_stall (c : Nat) (a : StallAct) : queueLimit (.stall c a) = .stall c a := rfl

@[simp] theorem Res.lowest_ok (s : State) (l : List Nat) : (Res.ok s).lowest l = .ok s := rfl
@[simp] theorem Res.lowest_fault (c d : Nat) (l : List Nat) : (Res.fault c d).lowest l = .fault c d := rfl

/-- An operation with no encoding fault and a true guard is its meaning; a stall has the lowest of its causes. -/
theorem issue_good {i : Instr} {g : BitVec 4} {body : State → Res} {s : State} (h : encodingFault s i = none) (hg : s.guard g = true) :
    issue i g body s = (body s).lowest (sourceCauses s (slotClassIn s i) i) := by simp [issue, h, hg]

/-- An operation with no encoding fault and a false guard has no effect. -/
theorem issue_skip {i : Instr} {g : BitVec 4} {body : State → Res} {s : State} (h : encodingFault s i = none) (hg : s.guard g = false) :
    issue i g body s = .ok (noResult 0 s) := by simp [issue, h, hg]

/-- An encoding fault is taken whatever the guard. -/
theorem issue_bad {i : Instr} {g : BitVec 4} {body : State → Res} {s : State} {f : Nat × Nat} (h : encodingFault s i = some f) :
    issue i g body s = .fault (leaseFirst s (slotClassIn s i) i.opcode g f).1 (leaseFirst s (slotClassIn s i) i.opcode g f).2 := by
  simp [issue, h]

/-! ### Writes of memory -/

/-- What a write changes of a core: the contexts of its barrel, and the record of the cycle's writes that snoozing skiffs look at. -/
def Core.Wrote (c d : Core) : Prop := ∃ b w, d = { c with barrel := b, run := { c.run with wrote := w } }

theorem Core.Wrote.refl (c : Core) : c.Wrote c := ⟨_, _, rfl⟩

theorem Core.Wrote.trans {c d e : Core} (h : c.Wrote d) (k : d.Wrote e) : c.Wrote e := by
  obtain ⟨b, w, rfl⟩ := h
  obtain ⟨b', w', rfl⟩ := k
  exact ⟨b', w', rfl⟩

/-- Two states differ in nothing but their memories with their hidden bits, what a write changes of cores, the replicas and the invalidations of dies, and what
the page tables' readers retain. -/
structure WriteFrame (s t : State) : Prop where
  core : ∀ q, (s.core q).Wrote (t.core q)
  die : ∀ d, ∃ r l, t.die d = { s.die d with replicas := r, invals := l }
  helms : t.helms = s.helms
  sailings : t.sailings = s.sailings
  lighters : t.lighters = s.lighters
  quads : t.quads = s.quads
  pkgs : t.pkgs = s.pkgs
  pod : t.pod = s.pod
  wall : t.wall = s.wall
  cur : t.cur = s.cur
  moves : t.moves = s.moves
  freeIx : t.freeIx = s.freeIx
  nextSailing : t.nextSailing = s.nextSailing

theorem WriteFrame.refl (s : State) : WriteFrame s s :=
  ⟨fun _ => .refl _, fun _ => ⟨_, _, rfl⟩, rfl, rfl, rfl, rfl, rfl, rfl, rfl, rfl, rfl, rfl, rfl⟩

theorem WriteFrame.trans {s t u : State} (h : WriteFrame s t) (k : WriteFrame t u) : WriteFrame s u where
  core q := (h.core q).trans (k.core q)
  die d := by
    obtain ⟨_, _, hb⟩ := h.die d
    obtain ⟨_, _, hc⟩ := k.die d
    exact ⟨_, _, by rw [hc, hb]⟩
  helms := k.helms.trans h.helms
  sailings := k.sailings.trans h.sailings
  lighters := k.lighters.trans h.lighters
  quads := k.quads.trans h.quads
  pkgs := k.pkgs.trans h.pkgs
  pod := k.pod.trans h.pod
  wall := k.wall.trans h.wall
  cur := k.cur.trans h.cur
  moves := k.moves.trans h.moves
  freeIx := k.freeIx.trans h.freeIx
  nextSailing := k.nextSailing.trans h.nextSailing

/-- A record of a table whose records are all changed in one way. -/
theorem Tab.get_map {α : Type} (t : Tab α) (d : α) (f : Nat → α → α) (h : ∀ k, f k d = d) (k : Nat) :
    Tab.get (List.map (fun x => (x.1, f x.1 x.2)) t) d k = f k (t.get d k) := by
  induction t with
  | nil => simp [Tab.get, h]
  | cons x t ih =>
    by_cases hk : k = x.1
    · subst hk; simp [Tab.get]
    · simp [Tab.get, hk, ih]

theorem wakeSkiffs_frame (s : State) (pa n : Nat) : WriteFrame s (wakeSkiffs s pa n) := by
  unfold wakeSkiffs
  split
  · exact .refl s
  · next p _ =>
    split
    · refine { WriteFrame.refl s with core := fun q => ?_ }
      by_cases h : q = p
      · subst h; exact ⟨_, _, State.core_modCore ..⟩
      · exact (State.core_modCore_other _ _ h).symm ▸ .refl _
    · exact .refl s

/-- What an invalidation changes of a die. -/
theorem Die.invalidate_frame (r : Die) (d : Nat) (w : Writer) (pa n : Nat) :
    ∃ x l, r.invalidate d w pa n = { r with replicas := x, invals := l } := by
  unfold Die.invalidate; split <;> exact ⟨_, _, rfl⟩

theorem sendInvals_frame (s : State) (w : Writer) (pa v n : Nat) : WriteFrame s (sendInvals s w pa v n) := by
  unfold sendInvals
  split
  · refine { WriteFrame.refl s with die := fun d => ?_ }
    obtain ⟨x, l, h⟩ := (s.die d).invalidate_frame d w pa n
    refine ⟨x, l, .trans (Tab.get_map s.dies {} (fun k r => r.invalidate k w pa n) (fun k => ?_) d) h⟩
    unfold Die.invalidate; split <;> rfl
  · exact .refl s

/-- Invalidations that arrive change replicas and the invalidations in flight. -/
theorem deliverInvals_frame (s : State) (f : Writer → Bool) : WriteFrame s (deliverInvals s f) :=
  { WriteFrame.refl s with die := fun d => ⟨_, _, Tab.get_map s.dies {} (fun _ r => { r with
      invals := r.invals.filter fun i => !f i.by_, replicas := r.replicas.filter fun x => !(r.invals.filter fun i => f i.by_).any fun i => i.line == x.1 })
      (fun _ => rfl) d⟩ }

/-- Memory and its hidden bits are in no record. -/
theorem WriteFrame.bits (s : State) (m : Memory) (x y : List Nat) (u : List Upset) : WriteFrame s { s with mem := m, poison := x, foreign := y, upsets := u } :=
  ⟨fun _ => .refl _, fun _ => ⟨_, _, rfl⟩, rfl, rfl, rfl, rfl, rfl, rfl, rfl, rfl, rfl, rfl, rfl⟩

/-- A write of memory changes nothing else but what a frame of writes names. -/
theorem State.writeBy_frame (s : State) (w : Writer) (own : Bool) (pa v n : Nat) : WriteFrame s (s.writeBy w own pa v n) := by
  unfold State.writeBy
  dsimp only
  split
  · exact (WriteFrame.bits s _ _ _ _).trans (sendInvals_frame _ w pa v n)
  · exact (WriteFrame.bits s _ _ _ _).trans (wakeSkiffs_frame _ pa n)

theorem State.write_frame (s : State) (own : Bool) (pa v n : Nat) : WriteFrame s (s.write own pa v n) := State.writeBy_frame ..

/-- A list of writes in sequence keeps the frame and the memory's form. -/
theorem foldl_write_frame {α : Type} (l : List α) (f : State → α → State) (hf : ∀ s a, WriteFrame s (f s a)) (s : State) :
    WriteFrame s (l.foldl f s) := by
  induction l generalizing s with
  | nil => exact .refl s
  | cons a l ih => exact (hf s a).trans (ih _)

theorem foldl_wf {α : Type} (l : List α) (f : State → α → State) (hf : ∀ s a, s.mem.wf = true → (f s a).mem.wf = true) (s : State)
    (h : s.mem.wf = true) : (l.foldl f s).mem.wf = true := by
  induction l generalizing s with
  | nil => exact h
  | cons a l ih => exact ih _ (hf s a h)

/-! ### Status blocks and fault records -/

theorem putBlock_frame (s : State) (a : Nat) (ws : List Nat) : WriteFrame s (putBlock s a ws) := foldl_write_frame _ _ (fun _ _ => State.write_frame ..) _

theorem putBlock_wf (s : State) (a : Nat) (ws : List Nat) (h : s.mem.wf = true) : (putBlock s a ws).mem.wf = true :=
  foldl_wf _ _ (fun _ _ => State.write_wf _ _ _ _ _) _ h

theorem flushBlocks_wf (s : State) (n : Nat) (h : s.mem.wf = true) : (flushBlocks s n).mem.wf = true := by
  unfold flushBlocks; dsimp only; split
  · exact h
  · exact foldl_wf _ _ (fun _ _ h => putBlock_wf _ _ _ h) _ h

theorem writeBlock_wf (s : State) (n : Nat) (h : s.mem.wf = true) : (writeBlock s n).mem.wf = true := flushBlocks_wf _ _ h

/-- The status blocks of a sailing that are written change no core but what a write changes. -/
theorem flushBlocks_core (s : State) (n q : Nat) : (s.core q).Wrote ((flushBlocks s n).core q) := by
  unfold flushBlocks; dsimp only; split
  · exact .refl _
  · have h := (foldl_write_frame ((s.sailing n).blocks.takeWhile fun x => !s.remotesOf n x.1)
      (fun t x => putBlock t (s.sailing n).block x.2) (fun _ _ => putBlock_frame ..)
      ((releaseSailing s n).modSailing n fun g => { g with blocks := g.blocks.drop ((s.sailing n).blocks.takeWhile fun x => !s.remotesOf n x.1).length })).core q
    rw [State.core_modSailing] at h
    exact ((deliverInvals_frame s _).core q).trans h

theorem setSailingState_wf (s : State) (n st : Nat) (h : s.mem.wf = true) : (setSailingState s n st).mem.wf = true := writeBlock_wf _ _ h

theorem countFault_wf (s : State) (n : Nat) (b : Bool) (h : s.mem.wf = true) : (countFault s n b).mem.wf = true := by
  unfold countFault; dsimp only; split
  · exact setSailingState_wf _ _ _ h
  · exact writeBlock_wf _ _ h

theorem ringPost_wf (s : State) (h : Nat) (v : BitVec 256) (hs : s.mem.wf = true) : (ringPost s h v).mem.wf = true := by
  unfold ringPost; dsimp only; split
  · exact hs
  · exact State.write_wf _ _ _ _ _ hs

theorem postRecord_wf (s : State) (d : Nat) (v : BitVec 256) (hs : s.mem.wf = true) : (postRecord s d v).mem.wf = true :=
  ringPost_wf _ _ _ (ringPost_wf _ _ _ hs)

theorem postRelease_wf (s : State) (p d : Nat) (v : BitVec 256) (hs : s.mem.wf = true) : (postRelease s p d v).mem.wf = true := by
  unfold postRelease; split
  · exact hs
  · exact postRecord_wf _ _ _ hs

theorem State.writeBy_wf (s : State) (w : Writer) (own : Bool) (pa v n : Nat) (h : s.mem.wf = true) : (s.writeBy w own pa v n).mem.wf = true := by
  rw [State.writeBy_mem]; exact Memory.write_wf _ _ _ _ h

theorem writeLine_wf (s : State) (p : Nat) (l : Line) (h : s.mem.wf = true) : (writeLine s p l).mem.wf = true := by
  refine foldl_wf _ _ (fun s w h => ?_) _ h
  split
  · exact State.writeBy_wf _ _ _ _ _ _ h
  · refine foldl_wf _ _ (fun s i h => ?_) _ h
    split
    · exact State.writeBy_wf _ _ _ _ _ _ h
    · exact h

theorem writeBackAll_wf (s : State) (p : Nat) (h : s.mem.wf = true) : (writeBackAll s p).mem.wf = true :=
  foldl_wf _ _ (fun _ _ h => writeLine_wf _ _ _ h) _ h

theorem postSkiff_wf (s : State) (p d : Nat) (v : BitVec 256) (hs : s.mem.wf = true) : (postSkiff s p d v).mem.wf = true :=
  postRecord_wf _ _ _ (writeBackAll_wf _ _ hs)

theorem postFault_wf (s : State) (p : Nat) (r : FaultRec) (b : Bool) (hs : s.mem.wf = true) : (postFault s p r b).mem.wf = true := by
  have h : (if r.skiff.isSome then postSkiff s p (s.recordDie p) r.bits else postRelease s p (s.recordDie p) r.bits).mem.wf = true := by
    split
    · exact postSkiff_wf _ _ _ _ hs
    · exact postRelease_wf _ _ _ _ hs
  unfold postFault
  generalize (if r.skiff.isSome then postSkiff s p (s.recordDie p) r.bits else postRelease s p (s.recordDie p) r.bits) = t at h ⊢
  dsimp only; split
  · split
    · exact h
    · exact countFault_wf _ _ _ h
  · exact h

theorem freeContext_mem (s : State) (p : Nat) (j : BitVec 3) : (freeContext s p j).mem = s.mem := by
  unfold freeContext inboxInstall; split <;> rfl

/-- Taking a fault keeps the form of memory. -/
theorem takeFault_wf (s : State) (c d : Nat) (hs : s.mem.wf = true) : (takeFault s c d).mem.wf = true := by
  unfold takeFault; dsimp only; split
  · exact postFault_wf _ _ _ _ hs
  · unfold skiffFault; dsimp only; rw [freeContext_mem]; exact postFault_wf _ _ _ _ hs

/-- An engine's fault keeps the form of memory. -/
theorem engineFault_wf (s : State) (p c d b : Nat) (w : Code) (hs : s.mem.wf = true) : (engineFault s p c d b w).mem.wf = true :=
  postFault_wf _ _ _ _ hs

/-- A record posted changes no core but what a write changes. -/
theorem ringPost_core (s : State) (h : Nat) (v : BitVec 256) (q : Nat) : (s.core q).Wrote ((ringPost s h v).core q) := by
  unfold ringPost; dsimp only; split
  · exact .refl _
  · exact (State.write_frame ..).core q

theorem postRecord_core (s : State) (d : Nat) (v : BitVec 256) (q : Nat) : (s.core q).Wrote ((postRecord s d v).core q) :=
  (ringPost_core s (helmBase + 2 * d) v q).trans (ringPost_core (ringPost s (helmBase + 2 * d) v) (helmBase + 2 * d + 1) v q)

/-- A change of one core, seen from each core. -/
theorem State.modCore_cases (s : State) (p q : Nat) (f : Core → Core) :
    (q = p ∧ (s.modCore p f).core q = f (s.core q)) ∨ (q ≠ p ∧ (s.modCore p f).core q = s.core q) := by
  by_cases h : q = p
  · subst h; exact .inl ⟨rfl, State.core_modCore ..⟩
  · exact .inr ⟨h, State.core_modCore_other _ _ h⟩

theorem writeBlock_core (s : State) (n q : Nat) : (s.core q).Wrote ((writeBlock s n).core q) := by
  have h := flushBlocks_core (s.modSailing n fun g => { g with blocks := g.blocks ++ [(s.wall, g.words)] }) n q
  rwa [State.core_modSailing] at h

theorem writeLine_frame (s : State) (p : Nat) (l : Line) : WriteFrame s (writeLine s p l) := by
  refine foldl_write_frame _ _ (fun s w => ?_) _
  split
  · exact State.writeBy_frame ..
  · refine foldl_write_frame _ _ (fun s i => ?_) _
    split
    · exact State.writeBy_frame ..
    · exact .refl _

/-- A cache written back changes of each core what a write changes. -/
theorem writeBackAll_core (s : State) (p q : Nat) : (s.core q).Wrote ((writeBackAll s p).core q) := by
  have k := (foldl_write_frame ((s.core p).barrel.cache.filter fun l => l.dirty ≠ 0) (writeLine · p ·) (fun _ _ => writeLine_frame ..) s).core q
  unfold writeBackAll State.modBarrel
  dsimp only
  rcases State.modCore_cases _ p q _ with ⟨-, e⟩ | ⟨-, e⟩ <;> rw [e]
  · exact k.trans ⟨_, _, rfl⟩
  · exact k

theorem postSkiff_core (s : State) (p d : Nat) (v : BitVec 256) (q : Nat) : (s.core q).Wrote ((postSkiff s p d v).core q) :=
  ((writeBackAll_core s p q).trans ((deliverInvals_frame _ _).core q)).trans (postRecord_core _ d v q)

theorem setSailingState_core (s : State) (n st q : Nat) : (s.core q).Wrote ((setSailingState s n st).core q) := by
  unfold setSailingState
  have h := writeBlock_core (s.modSailing n fun g => { g with state := st, scyc := g.t, endW := if 5 ≤ st then s.wallOf (dieOf g.helm) else g.endW }) n q
  rwa [State.core_modSailing] at h

theorem countFault_core (s : State) (n : Nat) (h : Bool) (q : Nat) : (s.core q).Wrote ((countFault s n h).core q) := by
  unfold countFault; dsimp only
  have e : (s.modSailing n fun g => { g with faults := g.faults + 1 }).core q = s.core q := State.core_modSailing ..
  generalize (s.modSailing n fun g => { g with faults := g.faults + 1 }) = t at e ⊢
  rw [← e]; split
  · exact setSailingState_core t n 6 q
  · exact writeBlock_core t n q

/-- What a fault record changes of its core: what a write changes, what the core observes, and the records that wait for its remote accesses. -/
def Core.Posted (c d : Core) : Prop := ∃ b w o l, d = { c with barrel := b, run := { c.run with wrote := w }, obs := o, posts := l }

theorem Core.Wrote.posted {c d : Core} (h : c.Wrote d) : c.Posted d := by
  obtain ⟨b, w, rfl⟩ := h; exact ⟨b, w, _, _, rfl⟩

theorem Core.Posted.trans {c d e : Core} (h : c.Posted d) (k : d.Posted e) : c.Posted e := by
  obtain ⟨b, w, o, l, rfl⟩ := h
  obtain ⟨b', w', o', l', rfl⟩ := k
  exact ⟨b', w', o', l', rfl⟩

theorem postRelease_core (s : State) (p d : Nat) (v : BitVec 256) (q : Nat) :
    (s.core q).Posted ((postRelease s p d v).core q) ∧ (q ≠ p → (s.core q).Wrote ((postRelease s p d v).core q)) := by
  unfold postRelease
  split
  · rcases s.modCore_cases p q (fun c => { c with posts := c.posts ++ [(d, v)] }) with ⟨h, e⟩ | ⟨h, e⟩ <;> rw [e]
    · exact ⟨⟨_, _, _, _, rfl⟩, fun k => absurd h k⟩
    · exact ⟨(Core.Wrote.refl _).posted, fun _ => .refl _⟩
  · have k := ((deliverInvals_frame s fun w => w.orderedBy p 0xFFFF).core q).trans (postRecord_core _ d v q)
    exact ⟨k.posted, fun _ => k⟩

/-- A fault posted for core p changes of it what a record changes, and of every other core what a write changes. -/
theorem postFault_core (s : State) (p : Nat) (r : FaultRec) (h : Bool) (q : Nat) :
    (s.core q).Posted ((postFault s p r h).core q) ∧ (q ≠ p → (s.core q).Wrote ((postFault s p r h).core q)) := by
  have a : ∀ t : State, t = (if r.skiff.isSome then postSkiff s p (s.recordDie p) r.bits else postRelease s p (s.recordDie p) r.bits) →
      (s.core q).Posted (t.core q) ∧ (q ≠ p → (s.core q).Wrote (t.core q)) := by
    rintro t rfl
    split
    · exact ⟨(postSkiff_core ..).posted, fun _ => postSkiff_core ..⟩
    · exact postRelease_core ..
  unfold postFault
  generalize hu : (if r.skiff.isSome then postSkiff s p (s.recordDie p) r.bits else postRelease s p (s.recordDie p) r.bits) = u
  obtain ⟨a1, a2⟩ := a u hu.symm
  have key : ∀ t : State, ((u.modCore p fun c =>
      { c with obs := { c.obs with now := c.obs.now ||| 1 } }).core q).Wrote (t.core q) →
      (s.core q).Posted (t.core q) ∧ (q ≠ p → (s.core q).Wrote (t.core q)) := by
    intro t ht
    rcases State.modCore_cases _ p q _ with ⟨e, k⟩ | ⟨e, k⟩ <;> rw [k] at ht
    · exact ⟨(a1.trans ⟨_, _, _, _, rfl⟩).trans ht.posted, fun n => absurd e n⟩
    · exact ⟨a1.trans ht.posted, fun n => (a2 n).trans ht⟩
  dsimp only
  split
  · split
    · exact key _ (.refl _)
    · exact key _ (countFault_core ..)
  · exact key _ (.refl _)

/-- A fault of a core's slot halts that core; what else it changes of it is what a record changes, and of any other core what a write changes. -/
theorem takeFault_core {s : State} {p : Nat} (h : s.cur.agent = .core p) (c d q : Nat) :
    (if q = p then { (s.core p).endStall p with run := ((s.core p).endStall p).run.dead } else s.core q).Posted ((takeFault s c d).core q) := by
  unfold takeFault
  simp only [h]
  obtain ⟨k, _⟩ := postFault_core (({ s with freeIx := s.freeIx + 1 } : State).setCore p
    { (s.core p).endStall p with run := ((s.core p).endStall p).run.dead }) p
    ⟨c, d, ((s.core p).endStall p).run.t, s.cur.addr, s.cur.word, ((s.core p).endStall p).ctl.lid, isHelm p, none, s.cur.slot⟩ true q
  by_cases hq : q = p
  · subst hq; rw [State.core_setCore] at k; rw [if_pos rfl]; exact k
  · rw [State.core_setCore_other _ _ hq] at k; rw [if_neg hq]; exact k

end Sys2Proof.Machine
end

