-- ==== Sys2Proof/Laws/PerInstr.lean ====
section
/-! SUPPORT. For every instruction, as syntax: what its own words decode to (03 R88 to R90, R100). -/

namespace Sys2Proof.Laws

/-- The words that encode writes for a slot instruction whose fields are good decode, in its own class, to it. -/
def Encode.Statement (i : Instr) : Prop :=
  ∀ k : SlotClass, i.slotClass = some k → i.badField = none → decodeWords k (encode i) = .ok i

theorem Encode.addA (g : BitVec 4) (d : BitVec 5) (a : BitVec 5) (b : BitVec 5) (f : BitVec 6) : Encode.Statement (.addA g d a b f) := by
  intro k hk hb
  cases hk
  have hw : Fits [(6, f.toNat), (5, b.toNat), (5, a.toNat), (5, d.toNat), (4, g.toNat), (7, 1)] 32 := .cons (f.isLt) (.cons (b.isLt) (.cons (a.isLt) (.cons (d.isLt) (.cons (g.isLt) (.cons (by decide) (.nil))))))
  have h0 := word_field (lo := 25) 1#7 hw (.up (.up (.up (.up (.up (.here))))))
  have h1 := word_field (lo := 21) g hw (.up (.up (.up (.up (.here)))))
  have h2 := word_field (lo := 16) d hw (.up (.up (.up (.here))))
  have h3 := word_field (lo := 11) a hw (.up (.up (.here)))
  have h4 := word_field (lo := 6) b hw (.up (.here))
  have h5 := word_field (lo := 0) f hw (.here)
  refine decodeSlot_ok ?_ hb
  show parseA (word (pack [(6, f.toNat), (5, b.toNat), (5, a.toNat), (5, d.toNat), (4, g.toNat), (7, 1)])) 0 = .ok (.addA g d a b f)
  generalize word (pack [(6, f.toNat), (5, b.toNat), (5, a.toNat), (5, d.toNat), (4, g.toNat), (7, 1)]) = W at h0 h1 h2 h3 h4 h5 ⊢
  rw [parseA_1 W 0 h0, h1, h2, h3, h4, h5]
theorem Encode.addiA (g : BitVec 4) (d : BitVec 5) (a : BitVec 5) (i : BitVec 11) : Encode.Statement (.addiA g d a i) := by
  intro k hk hb
  cases hk
  have hw : Fits [(11, i.toNat), (5, a.toNat), (5, d.toNat), (4, g.toNat), (7, 2)] 32 := .cons (i.isLt) (.cons (a.isLt) (.cons (d.isLt) (.cons (g.isLt) (.cons (by decide) (.nil)))))
  have h0 := word_field (lo := 25) 2#7 hw (.up (.up (.up (.up (.here)))))
  have h1 := word_field (lo := 21) g hw (.up (.up (.up (.here))))
  have h2 := word_field (lo := 16) d hw (.up (.up (.here)))
  have h3 := word_field (lo := 11) a hw (.up (.here))
  have h4 := word_field (lo := 0) i hw (.here)
  refine decodeSlot_ok ?_ hb
  show parseA (word (pack [(11, i.toNat), (5, a.toNat), (5, d.toNat), (4, g.toNat), (7, 2)])) 0 = .ok (.addiA g d a i)
  generalize word (pack [(11, i.toNat), (5, a.toNat), (5, d.toNat), (4, g.toNat), (7, 2)]) = W at h0 h1 h2 h3 h4 ⊢
  rw [parseA_2 W 0 h0, h1, h2, h3, h4]
theorem Encode.liA (g : BitVec 4) (d : BitVec 5) (i : BitVec 16) : Encode.Statement (.liA g d i) := by
  intro k hk hb
  cases hk
  have hw : Fits [(16, i.toNat), (5, d.toNat), (4, g.toNat), (7, 3)] 32 := .cons (i.isLt) (.cons (d.isLt) (.cons (g.isLt) (.cons (by decide) (.nil))))
  have h0 := word_field (lo := 25) 3#7 hw (.up (.up (.up (.here))))
  have h1 := word_field (lo := 21) g hw (.up (.up (.here)))
  have h2 := word_field (lo := 16) d hw (.up (.here))
  have h3 := word_field (lo := 0) i hw (.here)
  refine decodeSlot_ok ?_ hb
  show parseA (word (pack [(16, i.toNat), (5, d.toNat), (4, g.toNat), (7, 3)])) 0 = .ok (.liA g d i)
  generalize word (pack [(16, i.toNat), (5, d.toNat), (4, g.toNat), (7, 3)]) = W at h0 h1 h2 h3 ⊢
  rw [parseA_3 W 0 h0, h1, h2, h3]
theorem Encode.liuA (g : BitVec 4) (d : BitVec 5) (i : BitVec 16) : Encode.Statement (.liuA g d i) := by
  intro k hk hb
  cases hk
  have hw : Fits [(16, i.toNat), (5, d.toNat), (4, g.toNat), (7, 4)] 32 := .cons (i.isLt) (.cons (d.isLt) (.cons (g.isLt) (.cons (by decide) (.nil))))
  have h0 := word_field (lo := 25) 4#7 hw (.up (.up (.up (.here))))
  have h1 := word_field (lo := 21) g hw (.up (.up (.here)))
  have h2 := word_field (lo := 16) d hw (.up (.here))
  have h3 := word_field (lo := 0) i hw (.here)
  refine decodeSlot_ok ?_ hb
  show parseA (word (pack [(16, i.toNat), (5, d.toNat), (4, g.toNat), (7, 4)])) 0 = .ok (.liuA g d i)
  generalize word (pack [(16, i.toNat), (5, d.toNat), (4, g.toNat), (7, 4)]) = W at h0 h1 h2 h3 ⊢
  rw [parseA_4 W 0 h0, h1, h2, h3]
theorem Encode.cmpA (g : BitVec 4) (h : BitVec 4) (a : BitVec 5) (b : BitVec 5) (c : BitVec 3) : Encode.Statement (.cmpA g h a b c) := by
  intro k hk hb
  cases hk
  have hw : Fits [(3, c.toNat), (3, 0), (5, b.toNat), (5, a.toNat), (4, h.toNat), (1, 0), (4, g.toNat), (7, 5)] 32 := .cons (c.isLt) (.cons (by decide) (.cons (b.isLt) (.cons (a.isLt) (.cons (h.isLt) (.cons (by decide) (.cons (g.isLt) (.cons (by decide) (.nil))))))))
  have h0 := word_field (lo := 25) 5#7 hw (.up (.up (.up (.up (.up (.up (.up (.here))))))))
  have h1 := word_field (lo := 20) 0#1 hw (.up (.up (.up (.up (.up (.here))))))
  have h2 := word_field (lo := 3) 0#3 hw (.up (.here))
  have h3 := word_field (lo := 21) g hw (.up (.up (.up (.up (.up (.up (.here)))))))
  have h4 := word_field (lo := 16) h hw (.up (.up (.up (.up (.here)))))
  have h5 := word_field (lo := 11) a hw (.up (.up (.up (.here))))
  have h6 := word_field (lo := 6) b hw (.up (.up (.here)))
  have h7 := word_field (lo := 0) c hw (.here)
  refine decodeSlot_ok ?_ hb
  show parseA (word (pack [(3, c.toNat), (3, 0), (5, b.toNat), (5, a.toNat), (4, h.toNat), (1, 0), (4, g.toNat), (7, 5)])) 0 = .ok (.cmpA g h a b c)
  generalize word (pack [(3, c.toNat), (3, 0), (5, b.toNat), (5, a.toNat), (4, h.toNat), (1, 0), (4, g.toNat), (7, 5)]) = W at h0 h1 h2 h3 h4 h5 h6 h7 ⊢
  rw [parseA_5 W 0 h0, h1, h2, h3, h4, h5, h6, h7]
  rfl
theorem Encode.cmpiA (g : BitVec 4) (h : BitVec 4) (a : BitVec 5) (c : BitVec 3) (i : BitVec 8) : Encode.Statement (.cmpiA g h a c i) := by
  intro k hk hb
  cases hk
  have hw : Fits [(8, i.toNat), (3, c.toNat), (5, a.toNat), (4, h.toNat), (1, 0), (4, g.toNat), (7, 6)] 32 := .cons (i.isLt) (.cons (c.isLt) (.cons (a.isLt) (.cons (h.isLt) (.cons (by decide) (.cons (g.isLt) (.cons (by decide) (.nil)))))))
  have h0 := word_field (lo := 25) 6#7 hw (.up (.up (.up (.up (.up (.up (.here)))))))
  have h1 := word_field (lo := 20) 0#1 hw (.up (.up (.up (.up (.here)))))
  have h2 := word_field (lo := 21) g hw (.up (.up (.up (.up (.up (.here))))))
  have h3 := word_field (lo := 16) h hw (.up (.up (.up (.here))))
  have h4 := word_field (lo := 11) a hw (.up (.up (.here)))
  have h5 := word_field (lo := 8) c hw (.up (.here))
  have h6 := word_field (lo := 0) i hw (.here)
  refine decodeSlot_ok ?_ hb
  show parseA (word (pack [(8, i.toNat), (3, c.toNat), (5, a.toNat), (4, h.toNat), (1, 0), (4, g.toNat), (7, 6)])) 0 = .ok (.cmpiA g h a c i)
  generalize word (pack [(8, i.toNat), (3, c.toNat), (5, a.toNat), (4, h.toNat), (1, 0), (4, g.toNat), (7, 6)]) = W at h0 h1 h2 h3 h4 h5 h6 ⊢
  rw [parseA_6 W 0 h0, h1, h2, h3, h4, h5, h6]
  rfl
theorem Encode.ldB (g : BitVec 4) (d : BitVec 5) (a : BitVec 5) (c : BitVec 4) (i : BitVec 7) : Encode.Statement (.ldB g d a c i) := by
  intro k hk hb
  cases hk
  have hw : Fits [(7, i.toNat), (4, c.toNat), (5, a.toNat), (5, d.toNat), (4, g.toNat), (7, 8)] 32 := .cons (i.isLt) (.cons (c.isLt) (.cons (a.isLt) (.cons (d.isLt) (.cons (g.isLt) (.cons (by decide) (.nil))))))
  have h0 := word_field (lo := 25) 8#7 hw (.up (.up (.up (.up (.up (.here))))))
  have h1 := word_field (lo := 21) g hw (.up (.up (.up (.up (.here)))))
  have h2 := word_field (lo := 16) d hw (.up (.up (.up (.here))))
  have h3 := word_field (lo := 11) a hw (.up (.up (.here)))
  have h4 := word_field (lo := 7) c hw (.up (.here))
  have h5 := word_field (lo := 0) i hw (.here)
  refine decodeSlot_ok ?_ hb
  show parseA (word (pack [(7, i.toNat), (4, c.toNat), (5, a.toNat), (5, d.toNat), (4, g.toNat), (7, 8)])) 0 = .ok (.ldB g d a c i)
  generalize word (pack [(7, i.toNat), (4, c.toNat), (5, a.toNat), (5, d.toNat), (4, g.toNat), (7, 8)]) = W at h0 h1 h2 h3 h4 h5 ⊢
  rw [parseA_8 W 0 h0, h1, h2, h3, h4, h5]
theorem Encode.ldH (g : BitVec 4) (d : BitVec 5) (a : BitVec 5) (c : BitVec 4) (i : BitVec 7) : Encode.Statement (.ldH g d a c i) := by
  intro k hk hb
  cases hk
  have hw : Fits [(7, i.toNat), (4, c.toNat), (5, a.toNat), (5, d.toNat), (4, g.toNat), (7, 9)] 32 := .cons (i.isLt) (.cons (c.isLt) (.cons (a.isLt) (.cons (d.isLt) (.cons (g.isLt) (.cons (by decide) (.nil))))))
  have h0 := word_field (lo := 25) 9#7 hw (.up (.up (.up (.up (.up (.here))))))
  have h1 := word_field (lo := 21) g hw (.up (.up (.up (.up (.here)))))
  have h2 := word_field (lo := 16) d hw (.up (.up (.up (.here))))
  have h3 := word_field (lo := 11) a hw (.up (.up (.here)))
  have h4 := word_field (lo := 7) c hw (.up (.here))
  have h5 := word_field (lo := 0) i hw (.here)
  refine decodeSlot_ok ?_ hb
  show parseA (word (pack [(7, i.toNat), (4, c.toNat), (5, a.toNat), (5, d.toNat), (4, g.toNat), (7, 9)])) 0 = .ok (.ldH g d a c i)
  generalize word (pack [(7, i.toNat), (4, c.toNat), (5, a.toNat), (5, d.toNat), (4, g.toNat), (7, 9)]) = W at h0 h1 h2 h3 h4 h5 ⊢
  rw [parseA_9 W 0 h0, h1, h2, h3, h4, h5]
theorem Encode.ldW (g : BitVec 4) (d : BitVec 5) (a : BitVec 5) (c : BitVec 4) (i : BitVec 7) : Encode.Statement (.ldW g d a c i) := by
  intro k hk hb
  cases hk
  have hw : Fits [(7, i.toNat), (4, c.toNat), (5, a.toNat), (5, d.toNat), (4, g.toNat), (7, 10)] 32 := .cons (i.isLt) (.cons (c.isLt) (.cons (a.isLt) (.cons (d.isLt) (.cons (g.isLt) (.cons (by decide) (.nil))))))
  have h0 := word_field (lo := 25) 10#7 hw (.up (.up (.up (.up (.up (.here))))))
  have h1 := word_field (lo := 21) g hw (.up (.up (.up (.up (.here)))))
  have h2 := word_field (lo := 16) d hw (.up (.up (.up (.here))))
  have h3 := word_field (lo := 11) a hw (.up (.up (.here)))
  have h4 := word_field (lo := 7) c hw (.up (.here))
  have h5 := word_field (lo := 0) i hw (.here)
  refine decodeSlot_ok ?_ hb
  show parseA (word (pack [(7, i.toNat), (4, c.toNat), (5, a.toNat), (5, d.toNat), (4, g.toNat), (7, 10)])) 0 = .ok (.ldW g d a c i)
  generalize word (pack [(7, i.toNat), (4, c.toNat), (5, a.toNat), (5, d.toNat), (4, g.toNat), (7, 10)]) = W at h0 h1 h2 h3 h4 h5 ⊢
  rw [parseA_10 W 0 h0, h1, h2, h3, h4, h5]
theorem Encode.ldD (g : BitVec 4) (d : BitVec 5) (a : BitVec 5) (c : BitVec 4) (i : BitVec 7) : Encode.Statement (.ldD g d a c i) := by
  intro k hk hb
  cases hk
  have hw : Fits [(7, i.toNat), (4, c.toNat), (5, a.toNat), (5, d.toNat), (4, g.toNat), (7, 11)] 32 := .cons (i.isLt) (.cons (c.isLt) (.cons (a.isLt) (.cons (d.isLt) (.cons (g.isLt) (.cons (by decide) (.nil))))))
  have h0 := word_field (lo := 25) 11#7 hw (.up (.up (.up (.up (.up (.here))))))
  have h1 := word_field (lo := 21) g hw (.up (.up (.up (.up (.here)))))
  have h2 := word_field (lo := 16) d hw (.up (.up (.up (.here))))
  have h3 := word_field (lo := 11) a hw (.up (.up (.here)))
  have h4 := word_field (lo := 7) c hw (.up (.here))
  have h5 := word_field (lo := 0) i hw (.here)
  refine decodeSlot_ok ?_ hb
  show parseA (word (pack [(7, i.toNat), (4, c.toNat), (5, a.toNat), (5, d.toNat), (4, g.toNat), (7, 11)])) 0 = .ok (.ldD g d a c i)
  generalize word (pack [(7, i.toNat), (4, c.toNat), (5, a.toNat), (5, d.toNat), (4, g.toNat), (7, 11)]) = W at h0 h1 h2 h3 h4 h5 ⊢
  rw [parseA_11 W 0 h0, h1, h2, h3, h4, h5]
theorem Encode.stB (g : BitVec 4) (d : BitVec 5) (a : BitVec 5) (c : BitVec 4) (i : BitVec 7) : Encode.Statement (.stB g d a c i) := by
  intro k hk hb
  cases hk
  have hw : Fits [(7, i.toNat), (4, c.toNat), (5, a.toNat), (5, d.toNat), (4, g.toNat), (7, 12)] 32 := .cons (i.isLt) (.cons (c.isLt) (.cons (a.isLt) (.cons (d.isLt) (.cons (g.isLt) (.cons (by decide) (.nil))))))
  have h0 := word_field (lo := 25) 12#7 hw (.up (.up (.up (.up (.up (.here))))))
  have h1 := word_field (lo := 21) g hw (.up (.up (.up (.up (.here)))))
  have h2 := word_field (lo := 16) d hw (.up (.up (.up (.here))))
  have h3 := word_field (lo := 11) a hw (.up (.up (.here)))
  have h4 := word_field (lo := 7) c hw (.up (.here))
  have h5 := word_field (lo := 0) i hw (.here)
  refine decodeSlot_ok ?_ hb
  show parseA (word (pack [(7, i.toNat), (4, c.toNat), (5, a.toNat), (5, d.toNat), (4, g.toNat), (7, 12)])) 0 = .ok (.stB g d a c i)
  generalize word (pack [(7, i.toNat), (4, c.toNat), (5, a.toNat), (5, d.toNat), (4, g.toNat), (7, 12)]) = W at h0 h1 h2 h3 h4 h5 ⊢
  rw [parseA_12 W 0 h0, h1, h2, h3, h4, h5]
theorem Encode.stH (g : BitVec 4) (d : BitVec 5) (a : BitVec 5) (c : BitVec 4) (i : BitVec 7) : Encode.Statement (.stH g d a c i) := by
  intro k hk hb
  cases hk
  have hw : Fits [(7, i.toNat), (4, c.toNat), (5, a.toNat), (5, d.toNat), (4, g.toNat), (7, 13)] 32 := .cons (i.isLt) (.cons (c.isLt) (.cons (a.isLt) (.cons (d.isLt) (.cons (g.isLt) (.cons (by decide) (.nil))))))
  have h0 := word_field (lo := 25) 13#7 hw (.up (.up (.up (.up (.up (.here))))))
  have h1 := word_field (lo := 21) g hw (.up (.up (.up (.up (.here)))))
  have h2 := word_field (lo := 16) d hw (.up (.up (.up (.here))))
  have h3 := word_field (lo := 11) a hw (.up (.up (.here)))
  have h4 := word_field (lo := 7) c hw (.up (.here))
  have h5 := word_field (lo := 0) i hw (.here)
  refine decodeSlot_ok ?_ hb
  show parseA (word (pack [(7, i.toNat), (4, c.toNat), (5, a.toNat), (5, d.toNat), (4, g.toNat), (7, 13)])) 0 = .ok (.stH g d a c i)
  generalize word (pack [(7, i.toNat), (4, c.toNat), (5, a.toNat), (5, d.toNat), (4, g.toNat), (7, 13)]) = W at h0 h1 h2 h3 h4 h5 ⊢
  rw [parseA_13 W 0 h0, h1, h2, h3, h4, h5]
theorem Encode.stW (g : BitVec 4) (d : BitVec 5) (a : BitVec 5) (c : BitVec 4) (i : BitVec 7) : Encode.Statement (.stW g d a c i) := by
  intro k hk hb
  cases hk
  have hw : Fits [(7, i.toNat), (4, c.toNat), (5, a.toNat), (5, d.toNat), (4, g.toNat), (7, 14)] 32 := .cons (i.isLt) (.cons (c.isLt) (.cons (a.isLt) (.cons (d.isLt) (.cons (g.isLt) (.cons (by decide) (.nil))))))
  have h0 := word_field (lo := 25) 14#7 hw (.up (.up (.up (.up (.up (.here))))))
  have h1 := word_field (lo := 21) g hw (.up (.up (.up (.up (.here)))))
  have h2 := word_field (lo := 16) d hw (.up (.up (.up (.here))))
  have h3 := word_field (lo := 11) a hw (.up (.up (.here)))
  have h4 := word_field (lo := 7) c hw (.up (.here))
  have h5 := word_field (lo := 0) i hw (.here)
  refine decodeSlot_ok ?_ hb
  show parseA (word (pack [(7, i.toNat), (4, c.toNat), (5, a.toNat), (5, d.toNat), (4, g.toNat), (7, 14)])) 0 = .ok (.stW g d a c i)
  generalize word (pack [(7, i.toNat), (4, c.toNat), (5, a.toNat), (5, d.toNat), (4, g.toNat), (7, 14)]) = W at h0 h1 h2 h3 h4 h5 ⊢
  rw [parseA_14 W 0 h0, h1, h2, h3, h4, h5]
theorem Encode.stD (g : BitVec 4) (d : BitVec 5) (a : BitVec 5) (c : BitVec 4) (i : BitVec 7) : Encode.Statement (.stD g d a c i) := by
  intro k hk hb
  cases hk
  have hw : Fits [(7, i.toNat), (4, c.toNat), (5, a.toNat), (5, d.toNat), (4, g.toNat), (7, 15)] 32 := .cons (i.isLt) (.cons (c.isLt) (.cons (a.isLt) (.cons (d.isLt) (.cons (g.isLt) (.cons (by decide) (.nil))))))
  have h0 := word_field (lo := 25) 15#7 hw (.up (.up (.up (.up (.up (.here))))))
  have h1 := word_field (lo := 21) g hw (.up (.up (.up (.up (.here)))))
  have h2 := word_field (lo := 16) d hw (.up (.up (.up (.here))))
  have h3 := word_field (lo := 11) a hw (.up (.up (.here)))
  have h4 := word_field (lo := 7) c hw (.up (.here))
  have h5 := word_field (lo := 0) i hw (.here)
  refine decodeSlot_ok ?_ hb
  show parseA (word (pack [(7, i.toNat), (4, c.toNat), (5, a.toNat), (5, d.toNat), (4, g.toNat), (7, 15)])) 0 = .ok (.stD g d a c i)
  generalize word (pack [(7, i.toNat), (4, c.toNat), (5, a.toNat), (5, d.toNat), (4, g.toNat), (7, 15)]) = W at h0 h1 h2 h3 h4 h5 ⊢
  rw [parseA_15 W 0 h0, h1, h2, h3, h4, h5]
theorem Encode.ldb (g : BitVec 4) (d : BitVec 5) (a : BitVec 5) (c : BitVec 4) (s : BitVec 1) (w : BitVec 5) : Encode.Statement (.ldb g d a c s w) := by
  intro k hk hb
  cases hk
  have hw : Fits [(5, w.toNat), (1, s.toNat), (4, c.toNat), (1, 0), (5, a.toNat), (5, d.toNat), (4, g.toNat), (7, 16)] 32 := .cons (w.isLt) (.cons (s.isLt) (.cons (c.isLt) (.cons (by decide) (.cons (a.isLt) (.cons (d.isLt) (.cons (g.isLt) (.cons (by decide) (.nil))))))))
  have h0 := word_field (lo := 25) 16#7 hw (.up (.up (.up (.up (.up (.up (.up (.here))))))))
  have h1 := word_field (lo := 10) 0#1 hw (.up (.up (.up (.here))))
  have h2 := word_field (lo := 21) g hw (.up (.up (.up (.up (.up (.up (.here)))))))
  have h3 := word_field (lo := 16) d hw (.up (.up (.up (.up (.up (.here))))))
  have h4 := word_field (lo := 11) a hw (.up (.up (.up (.up (.here)))))
  have h5 := word_field (lo := 6) c hw (.up (.up (.here)))
  have h6 := word_field (lo := 5) s hw (.up (.here))
  have h7 := word_field (lo := 0) w hw (.here)
  refine decodeSlot_ok ?_ hb
  show parseA (word (pack [(5, w.toNat), (1, s.toNat), (4, c.toNat), (1, 0), (5, a.toNat), (5, d.toNat), (4, g.toNat), (7, 16)])) 0 = .ok (.ldb g d a c s w)
  generalize word (pack [(5, w.toNat), (1, s.toNat), (4, c.toNat), (1, 0), (5, a.toNat), (5, d.toNat), (4, g.toNat), (7, 16)]) = W at h0 h1 h2 h3 h4 h5 h6 h7 ⊢
  rw [parseA_16 W 0 h0, h1, h2, h3, h4, h5, h6, h7]
  rfl
theorem Encode.stb (g : BitVec 4) (d : BitVec 5) (a : BitVec 5) (c : BitVec 4) (w : BitVec 5) : Encode.Statement (.stb g d a c w) := by
  intro k hk hb
  cases hk
  have hw : Fits [(5, w.toNat), (1, 0), (4, c.toNat), (1, 0), (5, a.toNat), (5, d.toNat), (4, g.toNat), (7, 17)] 32 := .cons (w.isLt) (.cons (by decide) (.cons (c.isLt) (.cons (by decide) (.cons (a.isLt) (.cons (d.isLt) (.cons (g.isLt) (.cons (by decide) (.nil))))))))
  have h0 := word_field (lo := 25) 17#7 hw (.up (.up (.up (.up (.up (.up (.up (.here))))))))
  have h1 := word_field (lo := 10) 0#1 hw (.up (.up (.up (.here))))
  have h2 := word_field (lo := 5) 0#1 hw (.up (.here))
  have h3 := word_field (lo := 21) g hw (.up (.up (.up (.up (.up (.up (.here)))))))
  have h4 := word_field (lo := 16) d hw (.up (.up (.up (.up (.up (.here))))))
  have h5 := word_field (lo := 11) a hw (.up (.up (.up (.up (.here)))))
  have h6 := word_field (lo := 6) c hw (.up (.up (.here)))
  have h7 := word_field (lo := 0) w hw (.here)
  refine decodeSlot_ok ?_ hb
  show parseA (word (pack [(5, w.toNat), (1, 0), (4, c.toNat), (1, 0), (5, a.toNat), (5, d.toNat), (4, g.toNat), (7, 17)])) 0 = .ok (.stb g d a c w)
  generalize word (pack [(5, w.toNat), (1, 0), (4, c.toNat), (1, 0), (5, a.toNat), (5, d.toNat), (4, g.toNat), (7, 17)]) = W at h0 h1 h2 h3 h4 h5 h6 h7 ⊢
  rw [parseA_17 W 0 h0, h1, h2, h3, h4, h5, h6, h7]
  rfl
theorem Encode.fenceOc (g : BitVec 4) (s : BitVec 3) (m : BitVec 16) : Encode.Statement (.fenceOc g s m) := by
  intro k hk hb
  cases hk
  have hw : Fits [(16, m.toNat), (1, 0), (3, s.toNat), (1, 0), (4, g.toNat), (7, 18)] 32 := .cons (m.isLt) (.cons (by decide) (.cons (s.isLt) (.cons (by decide) (.cons (g.isLt) (.cons (by decide) (.nil))))))
  have h0 := word_field (lo := 25) 18#7 hw (.up (.up (.up (.up (.up (.here))))))
  have h1 := word_field (lo := 20) 0#1 hw (.up (.up (.up (.here))))
  have h2 := word_field (lo := 16) 0#1 hw (.up (.here))
  have h3 := word_field (lo := 21) g hw (.up (.up (.up (.up (.here)))))
  have h4 := word_field (lo := 17) s hw (.up (.up (.here)))
  have h5 := word_field (lo := 0) m hw (.here)
  refine decodeSlot_ok ?_ hb
  show parseA (word (pack [(16, m.toNat), (1, 0), (3, s.toNat), (1, 0), (4, g.toNat), (7, 18)])) 0 = .ok (.fenceOc g s m)
  generalize word (pack [(16, m.toNat), (1, 0), (3, s.toNat), (1, 0), (4, g.toNat), (7, 18)]) = W at h0 h1 h2 h3 h4 h5 ⊢
  rw [parseA_18 W 0 h0, h1, h2, h3, h4, h5]
  rfl
theorem Encode.fenceOcAll (g : BitVec 4) (s : BitVec 3) (m : BitVec 16) : Encode.Statement (.fenceOcAll g s m) := by
  intro k hk hb
  cases hk
  have hw : Fits [(16, m.toNat), (1, 0), (3, s.toNat), (1, 1), (4, g.toNat), (7, 18)] 32 := .cons (m.isLt) (.cons (by decide) (.cons (s.isLt) (.cons (by decide) (.cons (g.isLt) (.cons (by decide) (.nil))))))
  have h0 := word_field (lo := 25) 18#7 hw (.up (.up (.up (.up (.up (.here))))))
  have h1 := word_field (lo := 20) 1#1 hw (.up (.up (.up (.here))))
  have h2 := word_field (lo := 16) 0#1 hw (.up (.here))
  have h3 := word_field (lo := 21) g hw (.up (.up (.up (.up (.here)))))
  have h4 := word_field (lo := 17) s hw (.up (.up (.here)))
  have h5 := word_field (lo := 0) m hw (.here)
  refine decodeSlot_ok ?_ hb
  show parseA (word (pack [(16, m.toNat), (1, 0), (3, s.toNat), (1, 1), (4, g.toNat), (7, 18)])) 0 = .ok (.fenceOcAll g s m)
  generalize word (pack [(16, m.toNat), (1, 0), (3, s.toNat), (1, 1), (4, g.toNat), (7, 18)]) = W at h0 h1 h2 h3 h4 h5 ⊢
  rw [parseA_18 W 0 h0, h1, h2, h3, h4, h5]
  rfl
theorem Encode.amoW (g : BitVec 4) (o : BitVec 5) (a : BitVec 5) (b : BitVec 5) (c : BitVec 4) : Encode.Statement (.amoW g o a b c) := by
  intro k hk hb
  cases hk
  have hw : Fits [(4, c.toNat), (2, 0), (5, b.toNat), (5, a.toNat), (5, o.toNat), (4, g.toNat), (7, 19)] 32 := .cons (c.isLt) (.cons (by decide) (.cons (b.isLt) (.cons (a.isLt) (.cons (o.isLt) (.cons (g.isLt) (.cons (by decide) (.nil)))))))
  have h0 := word_field (lo := 25) 19#7 hw (.up (.up (.up (.up (.up (.up (.here)))))))
  have h1 := word_field (lo := 4) 0#2 hw (.up (.here))
  have h2 := word_field (lo := 21) g hw (.up (.up (.up (.up (.up (.here))))))
  have h3 := word_field (lo := 16) o hw (.up (.up (.up (.up (.here)))))
  have h4 := word_field (lo := 11) a hw (.up (.up (.up (.here))))
  have h5 := word_field (lo := 6) b hw (.up (.up (.here)))
  have h6 := word_field (lo := 0) c hw (.here)
  refine decodeSlot_ok ?_ hb
  show parseA (word (pack [(4, c.toNat), (2, 0), (5, b.toNat), (5, a.toNat), (5, o.toNat), (4, g.toNat), (7, 19)])) 0 = .ok (.amoW g o a b c)
  generalize word (pack [(4, c.toNat), (2, 0), (5, b.toNat), (5, a.toNat), (5, o.toNat), (4, g.toNat), (7, 19)]) = W at h0 h1 h2 h3 h4 h5 h6 ⊢
  rw [parseA_19 W 0 h0, h1, h2, h3, h4, h5, h6]
  rfl
theorem Encode.amoD (g : BitVec 4) (o : BitVec 5) (a : BitVec 5) (b : BitVec 5) (c : BitVec 4) : Encode.Statement (.amoD g o a b c) := by
  intro k hk hb
  cases hk
  have hw : Fits [(4, c.toNat), (2, 0), (5, b.toNat), (5, a.toNat), (5, o.toNat), (4, g.toNat), (7, 20)] 32 := .cons (c.isLt) (.cons (by decide) (.cons (b.isLt) (.cons (a.isLt) (.cons (o.isLt) (.cons (g.isLt) (.cons (by decide) (.nil)))))))
  have h0 := word_field (lo := 25) 20#7 hw (.up (.up (.up (.up (.up (.up (.here)))))))
  have h1 := word_field (lo := 4) 0#2 hw (.up (.here))
  have h2 := word_field (lo := 21) g hw (.up (.up (.up (.up (.up (.here))))))
  have h3 := word_field (lo := 16) o hw (.up (.up (.up (.up (.here)))))
  have h4 := word_field (lo := 11) a hw (.up (.up (.up (.here))))
  have h5 := word_field (lo := 6) b hw (.up (.up (.here)))
  have h6 := word_field (lo := 0) c hw (.here)
  refine decodeSlot_ok ?_ hb
  show parseA (word (pack [(4, c.toNat), (2, 0), (5, b.toNat), (5, a.toNat), (5, o.toNat), (4, g.toNat), (7, 20)])) 0 = .ok (.amoD g o a b c)
  generalize word (pack [(4, c.toNat), (2, 0), (5, b.toNat), (5, a.toNat), (5, o.toNat), (4, g.toNat), (7, 20)]) = W at h0 h1 h2 h3 h4 h5 h6 ⊢
  rw [parseA_20 W 0 h0, h1, h2, h3, h4, h5, h6]
  rfl
theorem Encode.sbind (g : BitVec 4) (r : BitVec 5) (a : BitVec 5) (f : BitVec 1) (p : BitVec 2) : Encode.Statement (.sbind g r a f p) := by
  intro k hk hb
  cases hk
  have hw : Fits [(2, p.toNat), (1, f.toNat), (1, 0), (2, 0), (5, 0), (5, a.toNat), (5, r.toNat), (4, g.toNat), (7, 21)] 32 := .cons (p.isLt) (.cons (f.isLt) (.cons (by decide) (.cons (by decide) (.cons (by decide) (.cons (a.isLt) (.cons (r.isLt) (.cons (g.isLt) (.cons (by decide) (.nil)))))))))
  have h0 := word_field (lo := 25) 21#7 hw (.up (.up (.up (.up (.up (.up (.up (.up (.here)))))))))
  have h1 := word_field (lo := 3) 0#1 hw (.up (.up (.here)))
  have h2 := word_field (lo := 6) 0#5 hw (.up (.up (.up (.up (.here)))))
  have h3 := word_field (lo := 4) 0#2 hw (.up (.up (.up (.here))))
  have h4 := word_field (lo := 21) g hw (.up (.up (.up (.up (.up (.up (.up (.here))))))))
  have h5 := word_field (lo := 16) r hw (.up (.up (.up (.up (.up (.up (.here)))))))
  have h6 := word_field (lo := 11) a hw (.up (.up (.up (.up (.up (.here))))))
  have h7 := word_field (lo := 2) f hw (.up (.here))
  have h8 := word_field (lo := 0) p hw (.here)
  refine decodeSlot_ok ?_ hb
  show parseA (word (pack [(2, p.toNat), (1, f.toNat), (1, 0), (2, 0), (5, 0), (5, a.toNat), (5, r.toNat), (4, g.toNat), (7, 21)])) 0 = .ok (.sbind g r a f p)
  generalize word (pack [(2, p.toNat), (1, f.toNat), (1, 0), (2, 0), (5, 0), (5, a.toNat), (5, r.toNat), (4, g.toNat), (7, 21)]) = W at h0 h1 h2 h3 h4 h5 h6 h7 h8 ⊢
  rw [parseA_21 W 0 h0, h1, h2, h3, h4, h5, h6, h7, h8]
  rfl
theorem Encode.sbindU (g : BitVec 4) (r : BitVec 5) (f : BitVec 1) (p : BitVec 2) : Encode.Statement (.sbindU g r f p) := by
  intro k hk hb
  cases hk
  have hw : Fits [(2, p.toNat), (1, f.toNat), (1, 1), (2, 0), (5, 0), (5, 0), (5, r.toNat), (4, g.toNat), (7, 21)] 32 := .cons (p.isLt) (.cons (f.isLt) (.cons (by decide) (.cons (by decide) (.cons (by decide) (.cons (by decide) (.cons (r.isLt) (.cons (g.isLt) (.cons (by decide) (.nil)))))))))
  have h0 := word_field (lo := 25) 21#7 hw (.up (.up (.up (.up (.up (.up (.up (.up (.here)))))))))
  have h1 := word_field (lo := 3) 1#1 hw (.up (.up (.here)))
  have h2 := word_field (lo := 11) 0#5 hw (.up (.up (.up (.up (.up (.here))))))
  have h3 := word_field (lo := 6) 0#5 hw (.up (.up (.up (.up (.here)))))
  have h4 := word_field (lo := 4) 0#2 hw (.up (.up (.up (.here))))
  have h5 := word_field (lo := 21) g hw (.up (.up (.up (.up (.up (.up (.up (.here))))))))
  have h6 := word_field (lo := 16) r hw (.up (.up (.up (.up (.up (.up (.here)))))))
  have h7 := word_field (lo := 2) f hw (.up (.here))
  have h8 := word_field (lo := 0) p hw (.here)
  refine decodeSlot_ok ?_ hb
  show parseA (word (pack [(2, p.toNat), (1, f.toNat), (1, 1), (2, 0), (5, 0), (5, 0), (5, r.toNat), (4, g.toNat), (7, 21)])) 0 = .ok (.sbindU g r f p)
  generalize word (pack [(2, p.toNat), (1, f.toNat), (1, 1), (2, 0), (5, 0), (5, 0), (5, r.toNat), (4, g.toNat), (7, 21)]) = W at h0 h1 h2 h3 h4 h5 h6 h7 h8 ⊢
  rw [parseA_21 W 0 h0, h1, h2, h3, h4, h5, h6, h7, h8]
  rfl
theorem Encode.lxsend (g : BitVec 4) (a : BitVec 5) : Encode.Statement (.lxsend g a) := by
  intro k hk hb
  cases hk
  have hw : Fits [(2, 0), (4, 0), (5, 0), (5, a.toNat), (5, 0), (4, g.toNat), (7, 22)] 32 := .cons (by decide) (.cons (by decide) (.cons (by decide) (.cons (a.isLt) (.cons (by decide) (.cons (g.isLt) (.cons (by decide) (.nil)))))))
  have h0 := word_field (lo := 25) 22#7 hw (.up (.up (.up (.up (.up (.up (.here)))))))
  have h1 := word_field (lo := 0) 0#2 hw (.here)
  have h2 := word_field (lo := 16) 0#5 hw (.up (.up (.up (.up (.here)))))
  have h3 := word_field (lo := 6) 0#5 hw (.up (.up (.here)))
  have h4 := word_field (lo := 2) 0#4 hw (.up (.here))
  have h5 := word_field (lo := 21) g hw (.up (.up (.up (.up (.up (.here))))))
  have h6 := word_field (lo := 11) a hw (.up (.up (.up (.here))))
  refine decodeSlot_ok ?_ hb
  show parseA (word (pack [(2, 0), (4, 0), (5, 0), (5, a.toNat), (5, 0), (4, g.toNat), (7, 22)])) 0 = .ok (.lxsend g a)
  generalize word (pack [(2, 0), (4, 0), (5, 0), (5, a.toNat), (5, 0), (4, g.toNat), (7, 22)]) = W at h0 h1 h2 h3 h4 h5 h6 ⊢
  rw [parseA_22 W 0 h0, h1, h2, h3, h4, h5, h6]
  rfl
theorem Encode.lxsendCh (g : BitVec 4) (n : BitVec 3) (a : BitVec 5) : Encode.Statement (.lxsendCh g n a) := by
  intro k hk hb
  cases hk
  have hw : Fits [(2, 1), (4, 0), (5, 0), (5, a.toNat), (3, n.toNat), (2, 0), (4, g.toNat), (7, 22)] 32 := .cons (by decide) (.cons (by decide) (.cons (by decide) (.cons (a.isLt) (.cons (n.isLt) (.cons (by decide) (.cons (g.isLt) (.cons (by decide) (.nil))))))))
  have h0 := word_field (lo := 25) 22#7 hw (.up (.up (.up (.up (.up (.up (.up (.here))))))))
  have h1 := word_field (lo := 0) 1#2 hw (.here)
  have h2 := word_field (lo := 19) 0#2 hw (.up (.up (.up (.up (.up (.here))))))
  have h3 := word_field (lo := 6) 0#5 hw (.up (.up (.here)))
  have h4 := word_field (lo := 2) 0#4 hw (.up (.here))
  have h5 := word_field (lo := 21) g hw (.up (.up (.up (.up (.up (.up (.here)))))))
  have h6 := word_field (lo := 16) n hw (.up (.up (.up (.up (.here)))))
  have h7 := word_field (lo := 11) a hw (.up (.up (.up (.here))))
  refine decodeSlot_ok ?_ hb
  show parseA (word (pack [(2, 1), (4, 0), (5, 0), (5, a.toNat), (3, n.toNat), (2, 0), (4, g.toNat), (7, 22)])) 0 = .ok (.lxsendCh g n a)
  generalize word (pack [(2, 1), (4, 0), (5, 0), (5, a.toNat), (3, n.toNat), (2, 0), (4, g.toNat), (7, 22)]) = W at h0 h1 h2 h3 h4 h5 h6 h7 ⊢
  rw [parseA_22 W 0 h0, h1, h2, h3, h4, h5, h6, h7]
  rfl
theorem Encode.lxsendCls (g : BitVec 4) (n : BitVec 3) : Encode.Statement (.lxsendCls g n) := by
  intro k hk hb
  cases hk
  have hw : Fits [(2, 2), (4, 0), (5, 0), (5, 0), (3, n.toNat), (2, 0), (4, g.toNat), (7, 22)] 32 := .cons (by decide) (.cons (by decide) (.cons (by decide) (.cons (by decide) (.cons (n.isLt) (.cons (by decide) (.cons (g.isLt) (.cons (by decide) (.nil))))))))
  have h0 := word_field (lo := 25) 22#7 hw (.up (.up (.up (.up (.up (.up (.up (.here))))))))
  have h1 := word_field (lo := 0) 2#2 hw (.here)
  have h2 := word_field (lo := 19) 0#2 hw (.up (.up (.up (.up (.up (.here))))))
  have h3 := word_field (lo := 11) 0#5 hw (.up (.up (.up (.here))))
  have h4 := word_field (lo := 6) 0#5 hw (.up (.up (.here)))
  have h5 := word_field (lo := 2) 0#4 hw (.up (.here))
  have h6 := word_field (lo := 21) g hw (.up (.up (.up (.up (.up (.up (.here)))))))
  have h7 := word_field (lo := 16) n hw (.up (.up (.up (.up (.here)))))
  refine decodeSlot_ok ?_ hb
  show parseA (word (pack [(2, 2), (4, 0), (5, 0), (5, 0), (3, n.toNat), (2, 0), (4, g.toNat), (7, 22)])) 0 = .ok (.lxsendCls g n)
  generalize word (pack [(2, 2), (4, 0), (5, 0), (5, 0), (3, n.toNat), (2, 0), (4, g.toNat), (7, 22)]) = W at h0 h1 h2 h3 h4 h5 h6 h7 ⊢
  rw [parseA_22 W 0 h0, h1, h2, h3, h4, h5, h6, h7]
  rfl
theorem Encode.pub (g : BitVec 4) (s : BitVec 3) (h : BitVec 5) (t : BitVec 5) (c : BitVec 4) : Encode.Statement (.pub g s h t c) := by
  intro k hk hb
  cases hk
  have hw : Fits [(4, c.toNat), (2, 0), (5, t.toNat), (5, h.toNat), (3, s.toNat), (2, 0), (4, g.toNat), (7, 23)] 32 := .cons (c.isLt) (.cons (by decide) (.cons (t.isLt) (.cons (h.isLt) (.cons (s.isLt) (.cons (by decide) (.cons (g.isLt) (.cons (by decide) (.nil))))))))
  have h0 := word_field (lo := 25) 23#7 hw (.up (.up (.up (.up (.up (.up (.up (.here))))))))
  have h1 := word_field (lo := 4) 0#2 hw (.up (.here))
  have h2 := word_field (lo := 19) 0#2 hw (.up (.up (.up (.up (.up (.here))))))
  have h3 := word_field (lo := 21) g hw (.up (.up (.up (.up (.up (.up (.here)))))))
  have h4 := word_field (lo := 16) s hw (.up (.up (.up (.up (.here)))))
  have h5 := word_field (lo := 11) h hw (.up (.up (.up (.here))))
  have h6 := word_field (lo := 6) t hw (.up (.up (.here)))
  have h7 := word_field (lo := 0) c hw (.here)
  refine decodeSlot_ok ?_ hb
  show parseA (word (pack [(4, c.toNat), (2, 0), (5, t.toNat), (5, h.toNat), (3, s.toNat), (2, 0), (4, g.toNat), (7, 23)])) 0 = .ok (.pub g s h t c)
  generalize word (pack [(4, c.toNat), (2, 0), (5, t.toNat), (5, h.toNat), (3, s.toNat), (2, 0), (4, g.toNat), (7, 23)]) = W at h0 h1 h2 h3 h4 h5 h6 h7 ⊢
  rw [parseA_23 W 0 h0, h1, h2, h3, h4, h5, h6, h7]
  rfl
theorem Encode.pubMap (g : BitVec 4) (n : BitVec 4) (a : BitVec 5) : Encode.Statement (.pubMap g n a) := by
  intro k hk hb
  cases hk
  have hw : Fits [(4, 0), (2, 1), (5, 0), (5, a.toNat), (4, n.toNat), (1, 0), (4, g.toNat), (7, 23)] 32 := .cons (by decide) (.cons (by decide) (.cons (by decide) (.cons (a.isLt) (.cons (n.isLt) (.cons (by decide) (.cons (g.isLt) (.cons (by decide) (.nil))))))))
  have h0 := word_field (lo := 25) 23#7 hw (.up (.up (.up (.up (.up (.up (.up (.here))))))))
  have h1 := word_field (lo := 4) 1#2 hw (.up (.here))
  have h2 := word_field (lo := 20) 0#1 hw (.up (.up (.up (.up (.up (.here))))))
  have h3 := word_field (lo := 6) 0#5 hw (.up (.up (.here)))
  have h4 := word_field (lo := 0) 0#4 hw (.here)
  have h5 := word_field (lo := 21) g hw (.up (.up (.up (.up (.up (.up (.here)))))))
  have h6 := word_field (lo := 16) n hw (.up (.up (.up (.up (.here)))))
  have h7 := word_field (lo := 11) a hw (.up (.up (.up (.here))))
  refine decodeSlot_ok ?_ hb
  show parseA (word (pack [(4, 0), (2, 1), (5, 0), (5, a.toNat), (4, n.toNat), (1, 0), (4, g.toNat), (7, 23)])) 0 = .ok (.pubMap g n a)
  generalize word (pack [(4, 0), (2, 1), (5, 0), (5, a.toNat), (4, n.toNat), (1, 0), (4, g.toNat), (7, 23)]) = W at h0 h1 h2 h3 h4 h5 h6 h7 ⊢
  rw [parseA_23 W 0 h0, h1, h2, h3, h4, h5, h6, h7]
  rfl
theorem Encode.pubUnmap (g : BitVec 4) (n : BitVec 4) : Encode.Statement (.pubUnmap g n) := by
  intro k hk hb
  cases hk
  have hw : Fits [(4, 0), (2, 2), (5, 0), (5, 0), (4, n.toNat), (1, 0), (4, g.toNat), (7, 23)] 32 := .cons (by decide) (.cons (by decide) (.cons (by decide) (.cons (by decide) (.cons (n.isLt) (.cons (by decide) (.cons (g.isLt) (.cons (by decide) (.nil))))))))
  have h0 := word_field (lo := 25) 23#7 hw (.up (.up (.up (.up (.up (.up (.up (.here))))))))
  have h1 := word_field (lo := 4) 2#2 hw (.up (.here))
  have h2 := word_field (lo := 20) 0#1 hw (.up (.up (.up (.up (.up (.here))))))
  have h3 := word_field (lo := 11) 0#5 hw (.up (.up (.up (.here))))
  have h4 := word_field (lo := 6) 0#5 hw (.up (.up (.here)))
  have h5 := word_field (lo := 0) 0#4 hw (.here)
  have h6 := word_field (lo := 21) g hw (.up (.up (.up (.up (.up (.up (.here)))))))
  have h7 := word_field (lo := 16) n hw (.up (.up (.up (.up (.here)))))
  refine decodeSlot_ok ?_ hb
  show parseA (word (pack [(4, 0), (2, 2), (5, 0), (5, 0), (4, n.toNat), (1, 0), (4, g.toNat), (7, 23)])) 0 = .ok (.pubUnmap g n)
  generalize word (pack [(4, 0), (2, 2), (5, 0), (5, 0), (4, n.toNat), (1, 0), (4, g.toNat), (7, 23)]) = W at h0 h1 h2 h3 h4 h5 h6 h7 ⊢
  rw [parseA_23 W 0 h0, h1, h2, h3, h4, h5, h6, h7]
  rfl
theorem Encode.expect (g : BitVec 4) (h : BitVec 5) (t : BitVec 5) : Encode.Statement (.expect g h t) := by
  intro k hk hb
  cases hk
  have hw : Fits [(1, 0), (5, 0), (5, t.toNat), (5, h.toNat), (5, 0), (4, g.toNat), (7, 24)] 32 := .cons (by decide) (.cons (by decide) (.cons (t.isLt) (.cons (h.isLt) (.cons (by decide) (.cons (g.isLt) (.cons (by decide) (.nil)))))))
  have h0 := word_field (lo := 25) 24#7 hw (.up (.up (.up (.up (.up (.up (.here)))))))
  have h1 := word_field (lo := 0) 0#1 hw (.here)
  have h2 := word_field (lo := 16) 0#5 hw (.up (.up (.up (.up (.here)))))
  have h3 := word_field (lo := 1) 0#5 hw (.up (.here))
  have h4 := word_field (lo := 21) g hw (.up (.up (.up (.up (.up (.here))))))
  have h5 := word_field (lo := 11) h hw (.up (.up (.up (.here))))
  have h6 := word_field (lo := 6) t hw (.up (.up (.here)))
  refine decodeSlot_ok ?_ hb
  show parseA (word (pack [(1, 0), (5, 0), (5, t.toNat), (5, h.toNat), (5, 0), (4, g.toNat), (7, 24)])) 0 = .ok (.expect g h t)
  generalize word (pack [(1, 0), (5, 0), (5, t.toNat), (5, h.toNat), (5, 0), (4, g.toNat), (7, 24)]) = W at h0 h1 h2 h3 h4 h5 h6 ⊢
  rw [parseA_24 W 0 h0, h1, h2, h3, h4, h5, h6]
  rfl
theorem Encode.expectC (g : BitVec 4) (h : BitVec 5) : Encode.Statement (.expectC g h) := by
  intro k hk hb
  cases hk
  have hw : Fits [(1, 1), (5, 0), (5, 0), (5, h.toNat), (5, 0), (4, g.toNat), (7, 24)] 32 := .cons (by decide) (.cons (by decide) (.cons (by decide) (.cons (h.isLt) (.cons (by decide) (.cons (g.isLt) (.cons (by decide) (.nil)))))))
  have h0 := word_field (lo := 25) 24#7 hw (.up (.up (.up (.up (.up (.up (.here)))))))
  have h1 := word_field (lo := 0) 1#1 hw (.here)
  have h2 := word_field (lo := 16) 0#5 hw (.up (.up (.up (.up (.here)))))
  have h3 := word_field (lo := 6) 0#5 hw (.up (.up (.here)))
  have h4 := word_field (lo := 1) 0#5 hw (.up (.here))
  have h5 := word_field (lo := 21) g hw (.up (.up (.up (.up (.up (.here))))))
  have h6 := word_field (lo := 11) h hw (.up (.up (.up (.here))))
  refine decodeSlot_ok ?_ hb
  show parseA (word (pack [(1, 1), (5, 0), (5, 0), (5, h.toNat), (5, 0), (4, g.toNat), (7, 24)])) 0 = .ok (.expectC g h)
  generalize word (pack [(1, 1), (5, 0), (5, 0), (5, h.toNat), (5, 0), (4, g.toNat), (7, 24)]) = W at h0 h1 h2 h3 h4 h5 h6 ⊢
  rw [parseA_24 W 0 h0, h1, h2, h3, h4, h5, h6]
  rfl
theorem Encode.cp (g : BitVec 4) (d : BitVec 5) (s : BitVec 5) (q : BitVec 2) (f : BitVec 3) : Encode.Statement (.cp g d s q f) := by
  intro k hk hb
  cases hk
  have hw : Fits [(3, f.toNat), (2, q.toNat), (1, 0), (5, 0), (5, s.toNat), (5, d.toNat), (4, g.toNat), (7, 63)] 32 := .cons (f.isLt) (.cons (q.isLt) (.cons (by decide) (.cons (by decide) (.cons (s.isLt) (.cons (d.isLt) (.cons (g.isLt) (.cons (by decide) (.nil))))))))
  have h0 := word_field (lo := 25) 63#7 hw (.up (.up (.up (.up (.up (.up (.up (.here))))))))
  have h1 := word_field (lo := 6) 0#5 hw (.up (.up (.up (.here))))
  have h2 := word_field (lo := 5) 0#1 hw (.up (.up (.here)))
  have h3 := word_field (lo := 21) g hw (.up (.up (.up (.up (.up (.up (.here)))))))
  have h4 := word_field (lo := 16) d hw (.up (.up (.up (.up (.up (.here))))))
  have h5 := word_field (lo := 11) s hw (.up (.up (.up (.up (.here)))))
  have h6 := word_field (lo := 3) q hw (.up (.here))
  have h7 := word_field (lo := 0) f hw (.here)
  refine decodeSlot_ok ?_ hb
  show parseA (word (pack [(3, f.toNat), (2, q.toNat), (1, 0), (5, 0), (5, s.toNat), (5, d.toNat), (4, g.toNat), (7, 63)])) 0 = .ok (.cp g d s q f)
  generalize word (pack [(3, f.toNat), (2, q.toNat), (1, 0), (5, 0), (5, s.toNat), (5, d.toNat), (4, g.toNat), (7, 63)]) = W at h0 h1 h2 h3 h4 h5 h6 h7 ⊢
  rw [parseA_63 W 0 h0, h1, h2, h3, h4, h5, h6, h7]
  rfl
theorem Encode.sldB (g : BitVec 4) (d : BitVec 5) (a : BitVec 5) (c : BitVec 4) (i : BitVec 7) : Encode.Statement (.sldB g d a c i) := by
  intro k hk hb
  cases hk
  have hw : Fits [(7, i.toNat), (4, c.toNat), (5, a.toNat), (5, d.toNat), (4, g.toNat), (7, 64)] 32 := .cons (i.isLt) (.cons (c.isLt) (.cons (a.isLt) (.cons (d.isLt) (.cons (g.isLt) (.cons (by decide) (.nil))))))
  have h0 := word_field (lo := 25) 64#7 hw (.up (.up (.up (.up (.up (.here))))))
  have h1 := word_field (lo := 21) g hw (.up (.up (.up (.up (.here)))))
  have h2 := word_field (lo := 16) d hw (.up (.up (.up (.here))))
  have h3 := word_field (lo := 11) a hw (.up (.up (.here)))
  have h4 := word_field (lo := 7) c hw (.up (.here))
  have h5 := word_field (lo := 0) i hw (.here)
  refine decodeSlot_ok ?_ hb
  show parseA (word (pack [(7, i.toNat), (4, c.toNat), (5, a.toNat), (5, d.toNat), (4, g.toNat), (7, 64)])) 0 = .ok (.sldB g d a c i)
  generalize word (pack [(7, i.toNat), (4, c.toNat), (5, a.toNat), (5, d.toNat), (4, g.toNat), (7, 64)]) = W at h0 h1 h2 h3 h4 h5 ⊢
  rw [parseA_64 W 0 h0, h1, h2, h3, h4, h5]
theorem Encode.sldH (g : BitVec 4) (d : BitVec 5) (a : BitVec 5) (c : BitVec 4) (i : BitVec 7) : Encode.Statement (.sldH g d a c i) := by
  intro k hk hb
  cases hk
  have hw : Fits [(7, i.toNat), (4, c.toNat), (5, a.toNat), (5, d.toNat), (4, g.toNat), (7, 65)] 32 := .cons (i.isLt) (.cons (c.isLt) (.cons (a.isLt) (.cons (d.isLt) (.cons (g.isLt) (.cons (by decide) (.nil))))))
  have h0 := word_field (lo := 25) 65#7 hw (.up (.up (.up (.up (.up (.here))))))
  have h1 := word_field (lo := 21) g hw (.up (.up (.up (.up (.here)))))
  have h2 := word_field (lo := 16) d hw (.up (.up (.up (.here))))
  have h3 := word_field (lo := 11) a hw (.up (.up (.here)))
  have h4 := word_field (lo := 7) c hw (.up (.here))
  have h5 := word_field (lo := 0) i hw (.here)
  refine decodeSlot_ok ?_ hb
  show parseA (word (pack [(7, i.toNat), (4, c.toNat), (5, a.toNat), (5, d.toNat), (4, g.toNat), (7, 65)])) 0 = .ok (.sldH g d a c i)
  generalize word (pack [(7, i.toNat), (4, c.toNat), (5, a.toNat), (5, d.toNat), (4, g.toNat), (7, 65)]) = W at h0 h1 h2 h3 h4 h5 ⊢
  rw [parseA_65 W 0 h0, h1, h2, h3, h4, h5]
theorem Encode.sldW (g : BitVec 4) (d : BitVec 5) (a : BitVec 5) (c : BitVec 4) (i : BitVec 7) : Encode.Statement (.sldW g d a c i) := by
  intro k hk hb
  cases hk
  have hw : Fits [(7, i.toNat), (4, c.toNat), (5, a.toNat), (5, d.toNat), (4, g.toNat), (7, 66)] 32 := .cons (i.isLt) (.cons (c.isLt) (.cons (a.isLt) (.cons (d.isLt) (.cons (g.isLt) (.cons (by decide) (.nil))))))
  have h0 := word_field (lo := 25) 66#7 hw (.up (.up (.up (.up (.up (.here))))))
  have h1 := word_field (lo := 21) g hw (.up (.up (.up (.up (.here)))))
  have h2 := word_field (lo := 16) d hw (.up (.up (.up (.here))))
  have h3 := word_field (lo := 11) a hw (.up (.up (.here)))
  have h4 := word_field (lo := 7) c hw (.up (.here))
  have h5 := word_field (lo := 0) i hw (.here)
  refine decodeSlot_ok ?_ hb
  show parseA (word (pack [(7, i.toNat), (4, c.toNat), (5, a.toNat), (5, d.toNat), (4, g.toNat), (7, 66)])) 0 = .ok (.sldW g d a c i)
  generalize word (pack [(7, i.toNat), (4, c.toNat), (5, a.toNat), (5, d.toNat), (4, g.toNat), (7, 66)]) = W at h0 h1 h2 h3 h4 h5 ⊢
  rw [parseA_66 W 0 h0, h1, h2, h3, h4, h5]
theorem Encode.sldD (g : BitVec 4) (d : BitVec 5) (a : BitVec 5) (c : BitVec 4) (i : BitVec 7) : Encode.Statement (.sldD g d a c i) := by
  intro k hk hb
  cases hk
  have hw : Fits [(7, i.toNat), (4, c.toNat), (5, a.toNat), (5, d.toNat), (4, g.toNat), (7, 67)] 32 := .cons (i.isLt) (.cons (c.isLt) (.cons (a.isLt) (.cons (d.isLt) (.cons (g.isLt) (.cons (by decide) (.nil))))))
  have h0 := word_field (lo := 25) 67#7 hw (.up (.up (.up (.up (.up (.here))))))
  have h1 := word_field (lo := 21) g hw (.up (.up (.up (.up (.here)))))
  have h2 := word_field (lo := 16) d hw (.up (.up (.up (.here))))
  have h3 := word_field (lo := 11) a hw (.up (.up (.here)))
  have h4 := word_field (lo := 7) c hw (.up (.here))
  have h5 := word_field (lo := 0) i hw (.here)
  refine decodeSlot_ok ?_ hb
  show parseA (word (pack [(7, i.toNat), (4, c.toNat), (5, a.toNat), (5, d.toNat), (4, g.toNat), (7, 67)])) 0 = .ok (.sldD g d a c i)
  generalize word (pack [(7, i.toNat), (4, c.toNat), (5, a.toNat), (5, d.toNat), (4, g.toNat), (7, 67)]) = W at h0 h1 h2 h3 h4 h5 ⊢
  rw [parseA_67 W 0 h0, h1, h2, h3, h4, h5]
theorem Encode.sstB (g : BitVec 4) (d : BitVec 5) (a : BitVec 5) (c : BitVec 4) (i : BitVec 7) : Encode.Statement (.sstB g d a c i) := by
  intro k hk hb
  cases hk
  have hw : Fits [(7, i.toNat), (4, c.toNat), (5, a.toNat), (5, d.toNat), (4, g.toNat), (7, 68)] 32 := .cons (i.isLt) (.cons (c.isLt) (.cons (a.isLt) (.cons (d.isLt) (.cons (g.isLt) (.cons (by decide) (.nil))))))
  have h0 := word_field (lo := 25) 68#7 hw (.up (.up (.up (.up (.up (.here))))))
  have h1 := word_field (lo := 21) g hw (.up (.up (.up (.up (.here)))))
  have h2 := word_field (lo := 16) d hw (.up (.up (.up (.here))))
  have h3 := word_field (lo := 11) a hw (.up (.up (.here)))
  have h4 := word_field (lo := 7) c hw (.up (.here))
  have h5 := word_field (lo := 0) i hw (.here)
  refine decodeSlot_ok ?_ hb
  show parseA (word (pack [(7, i.toNat), (4, c.toNat), (5, a.toNat), (5, d.toNat), (4, g.toNat), (7, 68)])) 0 = .ok (.sstB g d a c i)
  generalize word (pack [(7, i.toNat), (4, c.toNat), (5, a.toNat), (5, d.toNat), (4, g.toNat), (7, 68)]) = W at h0 h1 h2 h3 h4 h5 ⊢
  rw [parseA_68 W 0 h0, h1, h2, h3, h4, h5]
theorem Encode.sstH (g : BitVec 4) (d : BitVec 5) (a : BitVec 5) (c : BitVec 4) (i : BitVec 7) : Encode.Statement (.sstH g d a c i) := by
  intro k hk hb
  cases hk
  have hw : Fits [(7, i.toNat), (4, c.toNat), (5, a.toNat), (5, d.toNat), (4, g.toNat), (7, 69)] 32 := .cons (i.isLt) (.cons (c.isLt) (.cons (a.isLt) (.cons (d.isLt) (.cons (g.isLt) (.cons (by decide) (.nil))))))
  have h0 := word_field (lo := 25) 69#7 hw (.up (.up (.up (.up (.up (.here))))))
  have h1 := word_field (lo := 21) g hw (.up (.up (.up (.up (.here)))))
  have h2 := word_field (lo := 16) d hw (.up (.up (.up (.here))))
  have h3 := word_field (lo := 11) a hw (.up (.up (.here)))
  have h4 := word_field (lo := 7) c hw (.up (.here))
  have h5 := word_field (lo := 0) i hw (.here)
  refine decodeSlot_ok ?_ hb
  show parseA (word (pack [(7, i.toNat), (4, c.toNat), (5, a.toNat), (5, d.toNat), (4, g.toNat), (7, 69)])) 0 = .ok (.sstH g d a c i)
  generalize word (pack [(7, i.toNat), (4, c.toNat), (5, a.toNat), (5, d.toNat), (4, g.toNat), (7, 69)]) = W at h0 h1 h2 h3 h4 h5 ⊢
  rw [parseA_69 W 0 h0, h1, h2, h3, h4, h5]
theorem Encode.sstW (g : BitVec 4) (d : BitVec 5) (a : BitVec 5) (c : BitVec 4) (i : BitVec 7) : Encode.Statement (.sstW g d a c i) := by
  intro k hk hb
  cases hk
  have hw : Fits [(7, i.toNat), (4, c.toNat), (5, a.toNat), (5, d.toNat), (4, g.toNat), (7, 70)] 32 := .cons (i.isLt) (.cons (c.isLt) (.cons (a.isLt) (.cons (d.isLt) (.cons (g.isLt) (.cons (by decide) (.nil))))))
  have h0 := word_field (lo := 25) 70#7 hw (.up (.up (.up (.up (.up (.here))))))
  have h1 := word_field (lo := 21) g hw (.up (.up (.up (.up (.here)))))
  have h2 := word_field (lo := 16) d hw (.up (.up (.up (.here))))
  have h3 := word_field (lo := 11) a hw (.up (.up (.here)))
  have h4 := word_field (lo := 7) c hw (.up (.here))
  have h5 := word_field (lo := 0) i hw (.here)
  refine decodeSlot_ok ?_ hb
  show parseA (word (pack [(7, i.toNat), (4, c.toNat), (5, a.toNat), (5, d.toNat), (4, g.toNat), (7, 70)])) 0 = .ok (.sstW g d a c i)
  generalize word (pack [(7, i.toNat), (4, c.toNat), (5, a.toNat), (5, d.toNat), (4, g.toNat), (7, 70)]) = W at h0 h1 h2 h3 h4 h5 ⊢
  rw [parseA_70 W 0 h0, h1, h2, h3, h4, h5]
theorem Encode.sstD (g : BitVec 4) (d : BitVec 5) (a : BitVec 5) (c : BitVec 4) (i : BitVec 7) : Encode.Statement (.sstD g d a c i) := by
  intro k hk hb
  cases hk
  have hw : Fits [(7, i.toNat), (4, c.toNat), (5, a.toNat), (5, d.toNat), (4, g.toNat), (7, 71)] 32 := .cons (i.isLt) (.cons (c.isLt) (.cons (a.isLt) (.cons (d.isLt) (.cons (g.isLt) (.cons (by decide) (.nil))))))
  have h0 := word_field (lo := 25) 71#7 hw (.up (.up (.up (.up (.up (.here))))))
  have h1 := word_field (lo := 21) g hw (.up (.up (.up (.up (.here)))))
  have h2 := word_field (lo := 16) d hw (.up (.up (.up (.here))))
  have h3 := word_field (lo := 11) a hw (.up (.up (.here)))
  have h4 := word_field (lo := 7) c hw (.up (.here))
  have h5 := word_field (lo := 0) i hw (.here)
  refine decodeSlot_ok ?_ hb
  show parseA (word (pack [(7, i.toNat), (4, c.toNat), (5, a.toNat), (5, d.toNat), (4, g.toNat), (7, 71)])) 0 = .ok (.sstD g d a c i)
  generalize word (pack [(7, i.toNat), (4, c.toNat), (5, a.toNat), (5, d.toNat), (4, g.toNat), (7, 71)]) = W at h0 h1 h2 h3 h4 h5 ⊢
  rw [parseA_71 W 0 h0, h1, h2, h3, h4, h5]
theorem Encode.samoW (g : BitVec 4) (o : BitVec 5) (a : BitVec 5) (b : BitVec 5) (c : BitVec 4) : Encode.Statement (.samoW g o a b c) := by
  intro k hk hb
  cases hk
  have hw : Fits [(4, c.toNat), (2, 0), (5, b.toNat), (5, a.toNat), (5, o.toNat), (4, g.toNat), (7, 72)] 32 := .cons (c.isLt) (.cons (by decide) (.cons (b.isLt) (.cons (a.isLt) (.cons (o.isLt) (.cons (g.isLt) (.cons (by decide) (.nil)))))))
  have h0 := word_field (lo := 25) 72#7 hw (.up (.up (.up (.up (.up (.up (.here)))))))
  have h1 := word_field (lo := 4) 0#2 hw (.up (.here))
  have h2 := word_field (lo := 21) g hw (.up (.up (.up (.up (.up (.here))))))
  have h3 := word_field (lo := 16) o hw (.up (.up (.up (.up (.here)))))
  have h4 := word_field (lo := 11) a hw (.up (.up (.up (.here))))
  have h5 := word_field (lo := 6) b hw (.up (.up (.here)))
  have h6 := word_field (lo := 0) c hw (.here)
  refine decodeSlot_ok ?_ hb
  show parseA (word (pack [(4, c.toNat), (2, 0), (5, b.toNat), (5, a.toNat), (5, o.toNat), (4, g.toNat), (7, 72)])) 0 = .ok (.samoW g o a b c)
  generalize word (pack [(4, c.toNat), (2, 0), (5, b.toNat), (5, a.toNat), (5, o.toNat), (4, g.toNat), (7, 72)]) = W at h0 h1 h2 h3 h4 h5 h6 ⊢
  rw [parseA_72 W 0 h0, h1, h2, h3, h4, h5, h6]
  rfl
theorem Encode.samoD (g : BitVec 4) (o : BitVec 5) (a : BitVec 5) (b : BitVec 5) (c : BitVec 4) : Encode.Statement (.samoD g o a b c) := by
  intro k hk hb
  cases hk
  have hw : Fits [(4, c.toNat), (2, 0), (5, b.toNat), (5, a.toNat), (5, o.toNat), (4, g.toNat), (7, 73)] 32 := .cons (c.isLt) (.cons (by decide) (.cons (b.isLt) (.cons (a.isLt) (.cons (o.isLt) (.cons (g.isLt) (.cons (by decide) (.nil)))))))
  have h0 := word_field (lo := 25) 73#7 hw (.up (.up (.up (.up (.up (.up (.here)))))))
  have h1 := word_field (lo := 4) 0#2 hw (.up (.here))
  have h2 := word_field (lo := 21) g hw (.up (.up (.up (.up (.up (.here))))))
  have h3 := word_field (lo := 16) o hw (.up (.up (.up (.up (.here)))))
  have h4 := word_field (lo := 11) a hw (.up (.up (.up (.here))))
  have h5 := word_field (lo := 6) b hw (.up (.up (.here)))
  have h6 := word_field (lo := 0) c hw (.here)
  refine decodeSlot_ok ?_ hb
  show parseA (word (pack [(4, c.toNat), (2, 0), (5, b.toNat), (5, a.toNat), (5, o.toNat), (4, g.toNat), (7, 73)])) 0 = .ok (.samoD g o a b c)
  generalize word (pack [(4, c.toNat), (2, 0), (5, b.toNat), (5, a.toNat), (5, o.toNat), (4, g.toNat), (7, 73)]) = W at h0 h1 h2 h3 h4 h5 h6 ⊢
  rw [parseA_73 W 0 h0, h1, h2, h3, h4, h5, h6]
  rfl
theorem Encode.facqW (g : BitVec 4) (a : BitVec 5) (v : BitVec 5) (i : BitVec 12) (l : BitVec 1) (s : BitVec 3) (m : BitVec 16) : Encode.Statement (.facqW g a v i l s m) := by
  intro k hk hb
  cases hk
  have hw : Fits [(6, 0), (5, v.toNat), (5, a.toNat), (5, 0), (4, g.toNat), (7, 96)] 32 := .cons (by decide) (.cons (v.isLt) (.cons (a.isLt) (.cons (by decide) (.cons (g.isLt) (.cons (by decide) (.nil))))))
  have he : Fits [(16, m.toNat), (3, s.toNat), (1, l.toNat), (12, i.toNat)] 32 := .cons (m.isLt) (.cons (s.isLt) (.cons (l.isLt) (.cons (i.isLt) (.nil))))
  have h0 := word_field (lo := 25) 96#7 hw (.up (.up (.up (.up (.up (.here))))))
  have h1 := word_field (lo := 16) 0#5 hw (.up (.up (.up (.here))))
  have h2 := word_field (lo := 0) 0#6 hw (.here)
  have h3 := word_field (lo := 21) g hw (.up (.up (.up (.up (.here)))))
  have h4 := word_field (lo := 11) a hw (.up (.up (.here)))
  have h5 := word_field (lo := 6) v hw (.up (.here))
  have h6 := word_field (lo := 20) i he (.up (.up (.up (.here))))
  have h7 := word_field (lo := 19) l he (.up (.up (.here)))
  have h8 := word_field (lo := 16) s he (.up (.here))
  have h9 := word_field (lo := 0) m he (.here)
  refine decodeSlot_ok ?_ hb
  show parseA (word (pack [(6, 0), (5, v.toNat), (5, a.toNat), (5, 0), (4, g.toNat), (7, 96)])) (word (pack [(16, m.toNat), (3, s.toNat), (1, l.toNat), (12, i.toNat)])) = .ok (.facqW g a v i l s m)
  generalize word (pack [(6, 0), (5, v.toNat), (5, a.toNat), (5, 0), (4, g.toNat), (7, 96)]) = W at h0 h1 h2 h3 h4 h5 h6 h7 h8 h9 ⊢
  generalize word (pack [(16, m.toNat), (3, s.toNat), (1, l.toNat), (12, i.toNat)]) = E at h0 h1 h2 h3 h4 h5 h6 h7 h8 h9 ⊢
  rw [parseA_96 W E h0, h1, h2, h3, h4, h5, h6, h7, h8, h9]
  rfl
theorem Encode.facqT (g : BitVec 4) (h : BitVec 4) (a : BitVec 5) (v : BitVec 5) (i : BitVec 12) (l : BitVec 1) (s : BitVec 3) (m : BitVec 16) : Encode.Statement (.facqT g h a v i l s m) := by
  intro k hk hb
  cases hk
  have hw : Fits [(6, 0), (5, v.toNat), (5, a.toNat), (4, h.toNat), (1, 0), (4, g.toNat), (7, 97)] 32 := .cons (by decide) (.cons (v.isLt) (.cons (a.isLt) (.cons (h.isLt) (.cons (by decide) (.cons (g.isLt) (.cons (by decide) (.nil)))))))
  have he : Fits [(16, m.toNat), (3, s.toNat), (1, l.toNat), (12, i.toNat)] 32 := .cons (m.isLt) (.cons (s.isLt) (.cons (l.isLt) (.cons (i.isLt) (.nil))))
  have h0 := word_field (lo := 25) 97#7 hw (.up (.up (.up (.up (.up (.up (.here)))))))
  have h1 := word_field (lo := 20) 0#1 hw (.up (.up (.up (.up (.here)))))
  have h2 := word_field (lo := 0) 0#6 hw (.here)
  have h3 := word_field (lo := 21) g hw (.up (.up (.up (.up (.up (.here))))))
  have h4 := word_field (lo := 16) h hw (.up (.up (.up (.here))))
  have h5 := word_field (lo := 11) a hw (.up (.up (.here)))
  have h6 := word_field (lo := 6) v hw (.up (.here))
  have h7 := word_field (lo := 20) i he (.up (.up (.up (.here))))
  have h8 := word_field (lo := 19) l he (.up (.up (.here)))
  have h9 := word_field (lo := 16) s he (.up (.here))
  have h10 := word_field (lo := 0) m he (.here)
  refine decodeSlot_ok ?_ hb
  show parseA (word (pack [(6, 0), (5, v.toNat), (5, a.toNat), (4, h.toNat), (1, 0), (4, g.toNat), (7, 97)])) (word (pack [(16, m.toNat), (3, s.toNat), (1, l.toNat), (12, i.toNat)])) = .ok (.facqT g h a v i l s m)
  generalize word (pack [(6, 0), (5, v.toNat), (5, a.toNat), (4, h.toNat), (1, 0), (4, g.toNat), (7, 97)]) = W at h0 h1 h2 h3 h4 h5 h6 h7 h8 h9 h10 ⊢
  generalize word (pack [(16, m.toNat), (3, s.toNat), (1, l.toNat), (12, i.toNat)]) = E at h0 h1 h2 h3 h4 h5 h6 h7 h8 h9 h10 ⊢
  rw [parseA_97 W E h0, h1, h2, h3, h4, h5, h6, h7, h8, h9, h10]
  rfl
theorem Encode.frel (g : BitVec 4) (a : BitVec 5) (v : BitVec 5) (i : BitVec 12) (l : BitVec 1) (s : BitVec 3) (m : BitVec 16) : Encode.Statement (.frel g a v i l s m) := by
  intro k hk hb
  cases hk
  have hw : Fits [(6, 0), (5, v.toNat), (5, a.toNat), (5, 0), (4, g.toNat), (7, 98)] 32 := .cons (by decide) (.cons (v.isLt) (.cons (a.isLt) (.cons (by decide) (.cons (g.isLt) (.cons (by decide) (.nil))))))
  have he : Fits [(16, m.toNat), (3, s.toNat), (1, l.toNat), (12, i.toNat)] 32 := .cons (m.isLt) (.cons (s.isLt) (.cons (l.isLt) (.cons (i.isLt) (.nil))))
  have h0 := word_field (lo := 25) 98#7 hw (.up (.up (.up (.up (.up (.here))))))
  have h1 := word_field (lo := 16) 0#5 hw (.up (.up (.up (.here))))
  have h2 := word_field (lo := 0) 0#6 hw (.here)
  have h3 := word_field (lo := 21) g hw (.up (.up (.up (.up (.here)))))
  have h4 := word_field (lo := 11) a hw (.up (.up (.here)))
  have h5 := word_field (lo := 6) v hw (.up (.here))
  have h6 := word_field (lo := 20) i he (.up (.up (.up (.here))))
  have h7 := word_field (lo := 19) l he (.up (.up (.here)))
  have h8 := word_field (lo := 16) s he (.up (.here))
  have h9 := word_field (lo := 0) m he (.here)
  refine decodeSlot_ok ?_ hb
  show parseA (word (pack [(6, 0), (5, v.toNat), (5, a.toNat), (5, 0), (4, g.toNat), (7, 98)])) (word (pack [(16, m.toNat), (3, s.toNat), (1, l.toNat), (12, i.toNat)])) = .ok (.frel g a v i l s m)
  generalize word (pack [(6, 0), (5, v.toNat), (5, a.toNat), (5, 0), (4, g.toNat), (7, 98)]) = W at h0 h1 h2 h3 h4 h5 h6 h7 h8 h9 ⊢
  generalize word (pack [(16, m.toNat), (3, s.toNat), (1, l.toNat), (12, i.toNat)]) = E at h0 h1 h2 h3 h4 h5 h6 h7 h8 h9 ⊢
  rw [parseA_98 W E h0, h1, h2, h3, h4, h5, h6, h7, h8, h9]
  rfl
theorem Encode.addX (g : BitVec 4) (d : BitVec 5) (a : BitVec 5) (b : BitVec 5) (f : BitVec 6) : Encode.Statement (.addX g d a b f) := by
  intro k hk hb
  cases hk
  have hw : Fits [(6, f.toNat), (5, b.toNat), (5, a.toNat), (5, d.toNat), (4, g.toNat), (7, 1)] 32 := .cons (f.isLt) (.cons (b.isLt) (.cons (a.isLt) (.cons (d.isLt) (.cons (g.isLt) (.cons (by decide) (.nil))))))
  have h0 := word_field (lo := 25) 1#7 hw (.up (.up (.up (.up (.up (.here))))))
  have h1 := word_field (lo := 21) g hw (.up (.up (.up (.up (.here)))))
  have h2 := word_field (lo := 16) d hw (.up (.up (.up (.here))))
  have h3 := word_field (lo := 11) a hw (.up (.up (.here)))
  have h4 := word_field (lo := 6) b hw (.up (.here))
  have h5 := word_field (lo := 0) f hw (.here)
  refine decodeSlot_ok ?_ hb
  show parseX (word (pack [(6, f.toNat), (5, b.toNat), (5, a.toNat), (5, d.toNat), (4, g.toNat), (7, 1)])) = .ok (.addX g d a b f)
  generalize word (pack [(6, f.toNat), (5, b.toNat), (5, a.toNat), (5, d.toNat), (4, g.toNat), (7, 1)]) = W at h0 h1 h2 h3 h4 h5 ⊢
  rw [parseX_1 W h0, h1, h2, h3, h4, h5]
theorem Encode.addiX (g : BitVec 4) (d : BitVec 5) (a : BitVec 5) (i : BitVec 11) : Encode.Statement (.addiX g d a i) := by
  intro k hk hb
  cases hk
  have hw : Fits [(11, i.toNat), (5, a.toNat), (5, d.toNat), (4, g.toNat), (7, 2)] 32 := .cons (i.isLt) (.cons (a.isLt) (.cons (d.isLt) (.cons (g.isLt) (.cons (by decide) (.nil)))))
  have h0 := word_field (lo := 25) 2#7 hw (.up (.up (.up (.up (.here)))))
  have h1 := word_field (lo := 21) g hw (.up (.up (.up (.here))))
  have h2 := word_field (lo := 16) d hw (.up (.up (.here)))
  have h3 := word_field (lo := 11) a hw (.up (.here))
  have h4 := word_field (lo := 0) i hw (.here)
  refine decodeSlot_ok ?_ hb
  show parseX (word (pack [(11, i.toNat), (5, a.toNat), (5, d.toNat), (4, g.toNat), (7, 2)])) = .ok (.addiX g d a i)
  generalize word (pack [(11, i.toNat), (5, a.toNat), (5, d.toNat), (4, g.toNat), (7, 2)]) = W at h0 h1 h2 h3 h4 ⊢
  rw [parseX_2 W h0, h1, h2, h3, h4]
theorem Encode.andi (g : BitVec 4) (d : BitVec 5) (a : BitVec 5) (i : BitVec 11) : Encode.Statement (.andi g d a i) := by
  intro k hk hb
  cases hk
  have hw : Fits [(11, i.toNat), (5, a.toNat), (5, d.toNat), (4, g.toNat), (7, 3)] 32 := .cons (i.isLt) (.cons (a.isLt) (.cons (d.isLt) (.cons (g.isLt) (.cons (by decide) (.nil)))))
  have h0 := word_field (lo := 25) 3#7 hw (.up (.up (.up (.up (.here)))))
  have h1 := word_field (lo := 21) g hw (.up (.up (.up (.here))))
  have h2 := word_field (lo := 16) d hw (.up (.up (.here)))
  have h3 := word_field (lo := 11) a hw (.up (.here))
  have h4 := word_field (lo := 0) i hw (.here)
  refine decodeSlot_ok ?_ hb
  show parseX (word (pack [(11, i.toNat), (5, a.toNat), (5, d.toNat), (4, g.toNat), (7, 3)])) = .ok (.andi g d a i)
  generalize word (pack [(11, i.toNat), (5, a.toNat), (5, d.toNat), (4, g.toNat), (7, 3)]) = W at h0 h1 h2 h3 h4 ⊢
  rw [parseX_3 W h0, h1, h2, h3, h4]
theorem Encode.ori (g : BitVec 4) (d : BitVec 5) (a : BitVec 5) (i : BitVec 11) : Encode.Statement (.ori g d a i) := by
  intro k hk hb
  cases hk
  have hw : Fits [(11, i.toNat), (5, a.toNat), (5, d.toNat), (4, g.toNat), (7, 4)] 32 := .cons (i.isLt) (.cons (a.isLt) (.cons (d.isLt) (.cons (g.isLt) (.cons (by decide) (.nil)))))
  have h0 := word_field (lo := 25) 4#7 hw (.up (.up (.up (.up (.here)))))
  have h1 := word_field (lo := 21) g hw (.up (.up (.up (.here))))
  have h2 := word_field (lo := 16) d hw (.up (.up (.here)))
  have h3 := word_field (lo := 11) a hw (.up (.here))
  have h4 := word_field (lo := 0) i hw (.here)
  refine decodeSlot_ok ?_ hb
  show parseX (word (pack [(11, i.toNat), (5, a.toNat), (5, d.toNat), (4, g.toNat), (7, 4)])) = .ok (.ori g d a i)
  generalize word (pack [(11, i.toNat), (5, a.toNat), (5, d.toNat), (4, g.toNat), (7, 4)]) = W at h0 h1 h2 h3 h4 ⊢
  rw [parseX_4 W h0, h1, h2, h3, h4]
theorem Encode.xori (g : BitVec 4) (d : BitVec 5) (a : BitVec 5) (i : BitVec 11) : Encode.Statement (.xori g d a i) := by
  intro k hk hb
  cases hk
  have hw : Fits [(11, i.toNat), (5, a.toNat), (5, d.toNat), (4, g.toNat), (7, 5)] 32 := .cons (i.isLt) (.cons (a.isLt) (.cons (d.isLt) (.cons (g.isLt) (.cons (by decide) (.nil)))))
  have h0 := word_field (lo := 25) 5#7 hw (.up (.up (.up (.up (.here)))))
  have h1 := word_field (lo := 21) g hw (.up (.up (.up (.here))))
  have h2 := word_field (lo := 16) d hw (.up (.up (.here)))
  have h3 := word_field (lo := 11) a hw (.up (.here))
  have h4 := word_field (lo := 0) i hw (.here)
  refine decodeSlot_ok ?_ hb
  show parseX (word (pack [(11, i.toNat), (5, a.toNat), (5, d.toNat), (4, g.toNat), (7, 5)])) = .ok (.xori g d a i)
  generalize word (pack [(11, i.toNat), (5, a.toNat), (5, d.toNat), (4, g.toNat), (7, 5)]) = W at h0 h1 h2 h3 h4 ⊢
  rw [parseX_5 W h0, h1, h2, h3, h4]
theorem Encode.shli (g : BitVec 4) (d : BitVec 5) (a : BitVec 5) (s : BitVec 6) : Encode.Statement (.shli g d a s) := by
  intro k hk hb
  cases hk
  have hw : Fits [(6, s.toNat), (5, 0), (5, a.toNat), (5, d.toNat), (4, g.toNat), (7, 6)] 32 := .cons (s.isLt) (.cons (by decide) (.cons (a.isLt) (.cons (d.isLt) (.cons (g.isLt) (.cons (by decide) (.nil))))))
  have h0 := word_field (lo := 25) 6#7 hw (.up (.up (.up (.up (.up (.here))))))
  have h1 := word_field (lo := 6) 0#5 hw (.up (.here))
  have h2 := word_field (lo := 21) g hw (.up (.up (.up (.up (.here)))))
  have h3 := word_field (lo := 16) d hw (.up (.up (.up (.here))))
  have h4 := word_field (lo := 11) a hw (.up (.up (.here)))
  have h5 := word_field (lo := 0) s hw (.here)
  refine decodeSlot_ok ?_ hb
  show parseX (word (pack [(6, s.toNat), (5, 0), (5, a.toNat), (5, d.toNat), (4, g.toNat), (7, 6)])) = .ok (.shli g d a s)
  generalize word (pack [(6, s.toNat), (5, 0), (5, a.toNat), (5, d.toNat), (4, g.toNat), (7, 6)]) = W at h0 h1 h2 h3 h4 h5 ⊢
  rw [parseX_6 W h0, h1, h2, h3, h4, h5]
  rfl
theorem Encode.shri (g : BitVec 4) (d : BitVec 5) (a : BitVec 5) (s : BitVec 6) : Encode.Statement (.shri g d a s) := by
  intro k hk hb
  cases hk
  have hw : Fits [(6, s.toNat), (5, 0), (5, a.toNat), (5, d.toNat), (4, g.toNat), (7, 7)] 32 := .cons (s.isLt) (.cons (by decide) (.cons (a.isLt) (.cons (d.isLt) (.cons (g.isLt) (.cons (by decide) (.nil))))))
  have h0 := word_field (lo := 25) 7#7 hw (.up (.up (.up (.up (.up (.here))))))
  have h1 := word_field (lo := 6) 0#5 hw (.up (.here))
  have h2 := word_field (lo := 21) g hw (.up (.up (.up (.up (.here)))))
  have h3 := word_field (lo := 16) d hw (.up (.up (.up (.here))))
  have h4 := word_field (lo := 11) a hw (.up (.up (.here)))
  have h5 := word_field (lo := 0) s hw (.here)
  refine decodeSlot_ok ?_ hb
  show parseX (word (pack [(6, s.toNat), (5, 0), (5, a.toNat), (5, d.toNat), (4, g.toNat), (7, 7)])) = .ok (.shri g d a s)
  generalize word (pack [(6, s.toNat), (5, 0), (5, a.toNat), (5, d.toNat), (4, g.toNat), (7, 7)]) = W at h0 h1 h2 h3 h4 h5 ⊢
  rw [parseX_7 W h0, h1, h2, h3, h4, h5]
  rfl
theorem Encode.srai (g : BitVec 4) (d : BitVec 5) (a : BitVec 5) (s : BitVec 6) : Encode.Statement (.srai g d a s) := by
  intro k hk hb
  cases hk
  have hw : Fits [(6, s.toNat), (5, 0), (5, a.toNat), (5, d.toNat), (4, g.toNat), (7, 8)] 32 := .cons (s.isLt) (.cons (by decide) (.cons (a.isLt) (.cons (d.isLt) (.cons (g.isLt) (.cons (by decide) (.nil))))))
  have h0 := word_field (lo := 25) 8#7 hw (.up (.up (.up (.up (.up (.here))))))
  have h1 := word_field (lo := 6) 0#5 hw (.up (.here))
  have h2 := word_field (lo := 21) g hw (.up (.up (.up (.up (.here)))))
  have h3 := word_field (lo := 16) d hw (.up (.up (.up (.here))))
  have h4 := word_field (lo := 11) a hw (.up (.up (.here)))
  have h5 := word_field (lo := 0) s hw (.here)
  refine decodeSlot_ok ?_ hb
  show parseX (word (pack [(6, s.toNat), (5, 0), (5, a.toNat), (5, d.toNat), (4, g.toNat), (7, 8)])) = .ok (.srai g d a s)
  generalize word (pack [(6, s.toNat), (5, 0), (5, a.toNat), (5, d.toNat), (4, g.toNat), (7, 8)]) = W at h0 h1 h2 h3 h4 h5 ⊢
  rw [parseX_8 W h0, h1, h2, h3, h4, h5]
  rfl
theorem Encode.liX (g : BitVec 4) (d : BitVec 5) (i : BitVec 16) : Encode.Statement (.liX g d i) := by
  intro k hk hb
  cases hk
  have hw : Fits [(16, i.toNat), (5, d.toNat), (4, g.toNat), (7, 9)] 32 := .cons (i.isLt) (.cons (d.isLt) (.cons (g.isLt) (.cons (by decide) (.nil))))
  have h0 := word_field (lo := 25) 9#7 hw (.up (.up (.up (.here))))
  have h1 := word_field (lo := 21) g hw (.up (.up (.here)))
  have h2 := word_field (lo := 16) d hw (.up (.here))
  have h3 := word_field (lo := 0) i hw (.here)
  refine decodeSlot_ok ?_ hb
  show parseX (word (pack [(16, i.toNat), (5, d.toNat), (4, g.toNat), (7, 9)])) = .ok (.liX g d i)
  generalize word (pack [(16, i.toNat), (5, d.toNat), (4, g.toNat), (7, 9)]) = W at h0 h1 h2 h3 ⊢
  rw [parseX_9 W h0, h1, h2, h3]
theorem Encode.liuX (g : BitVec 4) (d : BitVec 5) (i : BitVec 16) : Encode.Statement (.liuX g d i) := by
  intro k hk hb
  cases hk
  have hw : Fits [(16, i.toNat), (5, d.toNat), (4, g.toNat), (7, 10)] 32 := .cons (i.isLt) (.cons (d.isLt) (.cons (g.isLt) (.cons (by decide) (.nil))))
  have h0 := word_field (lo := 25) 10#7 hw (.up (.up (.up (.here))))
  have h1 := word_field (lo := 21) g hw (.up (.up (.here)))
  have h2 := word_field (lo := 16) d hw (.up (.here))
  have h3 := word_field (lo := 0) i hw (.here)
  refine decodeSlot_ok ?_ hb
  show parseX (word (pack [(16, i.toNat), (5, d.toNat), (4, g.toNat), (7, 10)])) = .ok (.liuX g d i)
  generalize word (pack [(16, i.toNat), (5, d.toNat), (4, g.toNat), (7, 10)]) = W at h0 h1 h2 h3 ⊢
  rw [parseX_10 W h0, h1, h2, h3]
theorem Encode.cmpX (g : BitVec 4) (h : BitVec 4) (a : BitVec 5) (b : BitVec 5) (c : BitVec 3) : Encode.Statement (.cmpX g h a b c) := by
  intro k hk hb
  cases hk
  have hw : Fits [(3, c.toNat), (3, 0), (5, b.toNat), (5, a.toNat), (4, h.toNat), (1, 0), (4, g.toNat), (7, 11)] 32 := .cons (c.isLt) (.cons (by decide) (.cons (b.isLt) (.cons (a.isLt) (.cons (h.isLt) (.cons (by decide) (.cons (g.isLt) (.cons (by decide) (.nil))))))))
  have h0 := word_field (lo := 25) 11#7 hw (.up (.up (.up (.up (.up (.up (.up (.here))))))))
  have h1 := word_field (lo := 20) 0#1 hw (.up (.up (.up (.up (.up (.here))))))
  have h2 := word_field (lo := 3) 0#3 hw (.up (.here))
  have h3 := word_field (lo := 21) g hw (.up (.up (.up (.up (.up (.up (.here)))))))
  have h4 := word_field (lo := 16) h hw (.up (.up (.up (.up (.here)))))
  have h5 := word_field (lo := 11) a hw (.up (.up (.up (.here))))
  have h6 := word_field (lo := 6) b hw (.up (.up (.here)))
  have h7 := word_field (lo := 0) c hw (.here)
  refine decodeSlot_ok ?_ hb
  show parseX (word (pack [(3, c.toNat), (3, 0), (5, b.toNat), (5, a.toNat), (4, h.toNat), (1, 0), (4, g.toNat), (7, 11)])) = .ok (.cmpX g h a b c)
  generalize word (pack [(3, c.toNat), (3, 0), (5, b.toNat), (5, a.toNat), (4, h.toNat), (1, 0), (4, g.toNat), (7, 11)]) = W at h0 h1 h2 h3 h4 h5 h6 h7 ⊢
  rw [parseX_11 W h0, h1, h2, h3, h4, h5, h6, h7]
  rfl
theorem Encode.cmpiX (g : BitVec 4) (h : BitVec 4) (a : BitVec 5) (c : BitVec 3) (i : BitVec 8) : Encode.Statement (.cmpiX g h a c i) := by
  intro k hk hb
  cases hk
  have hw : Fits [(8, i.toNat), (3, c.toNat), (5, a.toNat), (4, h.toNat), (1, 0), (4, g.toNat), (7, 12)] 32 := .cons (i.isLt) (.cons (c.isLt) (.cons (a.isLt) (.cons (h.isLt) (.cons (by decide) (.cons (g.isLt) (.cons (by decide) (.nil)))))))
  have h0 := word_field (lo := 25) 12#7 hw (.up (.up (.up (.up (.up (.up (.here)))))))
  have h1 := word_field (lo := 20) 0#1 hw (.up (.up (.up (.up (.here)))))
  have h2 := word_field (lo := 21) g hw (.up (.up (.up (.up (.up (.here))))))
  have h3 := word_field (lo := 16) h hw (.up (.up (.up (.here))))
  have h4 := word_field (lo := 11) a hw (.up (.up (.here)))
  have h5 := word_field (lo := 8) c hw (.up (.here))
  have h6 := word_field (lo := 0) i hw (.here)
  refine decodeSlot_ok ?_ hb
  show parseX (word (pack [(8, i.toNat), (3, c.toNat), (5, a.toNat), (4, h.toNat), (1, 0), (4, g.toNat), (7, 12)])) = .ok (.cmpiX g h a c i)
  generalize word (pack [(8, i.toNat), (3, c.toNat), (5, a.toNat), (4, h.toNat), (1, 0), (4, g.toNat), (7, 12)]) = W at h0 h1 h2 h3 h4 h5 h6 ⊢
  rw [parseX_12 W h0, h1, h2, h3, h4, h5, h6]
  rfl
theorem Encode.sel (g : BitVec 4) (d : BitVec 5) (a : BitVec 5) (b : BitVec 5) (h : BitVec 4) : Encode.Statement (.sel g d a b h) := by
  intro k hk hb
  cases hk
  have hw : Fits [(4, h.toNat), (2, 0), (5, b.toNat), (5, a.toNat), (5, d.toNat), (4, g.toNat), (7, 13)] 32 := .cons (h.isLt) (.cons (by decide) (.cons (b.isLt) (.cons (a.isLt) (.cons (d.isLt) (.cons (g.isLt) (.cons (by decide) (.nil)))))))
  have h0 := word_field (lo := 25) 13#7 hw (.up (.up (.up (.up (.up (.up (.here)))))))
  have h1 := word_field (lo := 4) 0#2 hw (.up (.here))
  have h2 := word_field (lo := 21) g hw (.up (.up (.up (.up (.up (.here))))))
  have h3 := word_field (lo := 16) d hw (.up (.up (.up (.up (.here)))))
  have h4 := word_field (lo := 11) a hw (.up (.up (.up (.here))))
  have h5 := word_field (lo := 6) b hw (.up (.up (.here)))
  have h6 := word_field (lo := 0) h hw (.here)
  refine decodeSlot_ok ?_ hb
  show parseX (word (pack [(4, h.toNat), (2, 0), (5, b.toNat), (5, a.toNat), (5, d.toNat), (4, g.toNat), (7, 13)])) = .ok (.sel g d a b h)
  generalize word (pack [(4, h.toNat), (2, 0), (5, b.toNat), (5, a.toNat), (5, d.toNat), (4, g.toNat), (7, 13)]) = W at h0 h1 h2 h3 h4 h5 h6 ⊢
  rw [parseX_13 W h0, h1, h2, h3, h4, h5, h6]
  rfl
theorem Encode.mul (g : BitVec 4) (d : BitVec 5) (a : BitVec 5) (b : BitVec 5) (f : BitVec 2) : Encode.Statement (.mul g d a b f) := by
  intro k hk hb
  cases hk
  have hw : Fits [(2, f.toNat), (4, 0), (5, b.toNat), (5, a.toNat), (5, d.toNat), (4, g.toNat), (7, 14)] 32 := .cons (f.isLt) (.cons (by decide) (.cons (b.isLt) (.cons (a.isLt) (.cons (d.isLt) (.cons (g.isLt) (.cons (by decide) (.nil)))))))
  have h0 := word_field (lo := 25) 14#7 hw (.up (.up (.up (.up (.up (.up (.here)))))))
  have h1 := word_field (lo := 2) 0#4 hw (.up (.here))
  have h2 := word_field (lo := 21) g hw (.up (.up (.up (.up (.up (.here))))))
  have h3 := word_field (lo := 16) d hw (.up (.up (.up (.up (.here)))))
  have h4 := word_field (lo := 11) a hw (.up (.up (.up (.here))))
  have h5 := word_field (lo := 6) b hw (.up (.up (.here)))
  have h6 := word_field (lo := 0) f hw (.here)
  refine decodeSlot_ok ?_ hb
  show parseX (word (pack [(2, f.toNat), (4, 0), (5, b.toNat), (5, a.toNat), (5, d.toNat), (4, g.toNat), (7, 14)])) = .ok (.mul g d a b f)
  generalize word (pack [(2, f.toNat), (4, 0), (5, b.toNat), (5, a.toNat), (5, d.toNat), (4, g.toNat), (7, 14)]) = W at h0 h1 h2 h3 h4 h5 h6 ⊢
  rw [parseX_14 W h0, h1, h2, h3, h4, h5, h6]
  rfl
theorem Encode.mulw (g : BitVec 4) (d : BitVec 5) (a : BitVec 5) (b : BitVec 5) (u : BitVec 1) : Encode.Statement (.mulw g d a b u) := by
  intro k hk hb
  cases hk
  have hw : Fits [(1, u.toNat), (5, 0), (5, b.toNat), (5, a.toNat), (5, d.toNat), (4, g.toNat), (7, 15)] 32 := .cons (u.isLt) (.cons (by decide) (.cons (b.isLt) (.cons (a.isLt) (.cons (d.isLt) (.cons (g.isLt) (.cons (by decide) (.nil)))))))
  have h0 := word_field (lo := 25) 15#7 hw (.up (.up (.up (.up (.up (.up (.here)))))))
  have h1 := word_field (lo := 1) 0#5 hw (.up (.here))
  have h2 := word_field (lo := 21) g hw (.up (.up (.up (.up (.up (.here))))))
  have h3 := word_field (lo := 16) d hw (.up (.up (.up (.up (.here)))))
  have h4 := word_field (lo := 11) a hw (.up (.up (.up (.here))))
  have h5 := word_field (lo := 6) b hw (.up (.up (.here)))
  have h6 := word_field (lo := 0) u hw (.here)
  refine decodeSlot_ok ?_ hb
  show parseX (word (pack [(1, u.toNat), (5, 0), (5, b.toNat), (5, a.toNat), (5, d.toNat), (4, g.toNat), (7, 15)])) = .ok (.mulw g d a b u)
  generalize word (pack [(1, u.toNat), (5, 0), (5, b.toNat), (5, a.toNat), (5, d.toNat), (4, g.toNat), (7, 15)]) = W at h0 h1 h2 h3 h4 h5 h6 ⊢
  rw [parseX_15 W h0, h1, h2, h3, h4, h5, h6]
  rfl
theorem Encode.div (g : BitVec 4) (d : BitVec 5) (a : BitVec 5) (b : BitVec 5) (f : BitVec 2) : Encode.Statement (.div g d a b f) := by
  intro k hk hb
  cases hk
  have hw : Fits [(2, f.toNat), (4, 0), (5, b.toNat), (5, a.toNat), (5, d.toNat), (4, g.toNat), (7, 16)] 32 := .cons (f.isLt) (.cons (by decide) (.cons (b.isLt) (.cons (a.isLt) (.cons (d.isLt) (.cons (g.isLt) (.cons (by decide) (.nil)))))))
  have h0 := word_field (lo := 25) 16#7 hw (.up (.up (.up (.up (.up (.up (.here)))))))
  have h1 := word_field (lo := 2) 0#4 hw (.up (.here))
  have h2 := word_field (lo := 21) g hw (.up (.up (.up (.up (.up (.here))))))
  have h3 := word_field (lo := 16) d hw (.up (.up (.up (.up (.here)))))
  have h4 := word_field (lo := 11) a hw (.up (.up (.up (.here))))
  have h5 := word_field (lo := 6) b hw (.up (.up (.here)))
  have h6 := word_field (lo := 0) f hw (.here)
  refine decodeSlot_ok ?_ hb
  show parseX (word (pack [(2, f.toNat), (4, 0), (5, b.toNat), (5, a.toNat), (5, d.toNat), (4, g.toNat), (7, 16)])) = .ok (.div g d a b f)
  generalize word (pack [(2, f.toNat), (4, 0), (5, b.toNat), (5, a.toNat), (5, d.toNat), (4, g.toNat), (7, 16)]) = W at h0 h1 h2 h3 h4 h5 h6 ⊢
  rw [parseX_16 W h0, h1, h2, h3, h4, h5, h6]
  rfl
theorem Encode.bcnt (g : BitVec 4) (d : BitVec 5) (a : BitVec 5) (f : BitVec 6) : Encode.Statement (.bcnt g d a f) := by
  intro k hk hb
  cases hk
  have hw : Fits [(6, f.toNat), (5, 0), (5, a.toNat), (5, d.toNat), (4, g.toNat), (7, 17)] 32 := .cons (f.isLt) (.cons (by decide) (.cons (a.isLt) (.cons (d.isLt) (.cons (g.isLt) (.cons (by decide) (.nil))))))
  have h0 := word_field (lo := 25) 17#7 hw (.up (.up (.up (.up (.up (.here))))))
  have h1 := word_field (lo := 6) 0#5 hw (.up (.here))
  have h2 := word_field (lo := 21) g hw (.up (.up (.up (.up (.here)))))
  have h3 := word_field (lo := 16) d hw (.up (.up (.up (.here))))
  have h4 := word_field (lo := 11) a hw (.up (.up (.here)))
  have h5 := word_field (lo := 0) f hw (.here)
  refine decodeSlot_ok ?_ hb
  show parseX (word (pack [(6, f.toNat), (5, 0), (5, a.toNat), (5, d.toNat), (4, g.toNat), (7, 17)])) = .ok (.bcnt g d a f)
  generalize word (pack [(6, f.toNat), (5, 0), (5, a.toNat), (5, d.toNat), (4, g.toNat), (7, 17)]) = W at h0 h1 h2 h3 h4 h5 ⊢
  rw [parseX_17 W h0, h1, h2, h3, h4, h5]
  rfl
theorem Encode.ext (g : BitVec 4) (d : BitVec 5) (a : BitVec 5) (l : BitVec 5) (p : BitVec 6) : Encode.Statement (.ext g d a l p) := by
  intro k hk hb
  cases hk
  have hw : Fits [(6, p.toNat), (5, l.toNat), (5, a.toNat), (5, d.toNat), (4, g.toNat), (7, 18)] 32 := .cons (p.isLt) (.cons (l.isLt) (.cons (a.isLt) (.cons (d.isLt) (.cons (g.isLt) (.cons (by decide) (.nil))))))
  have h0 := word_field (lo := 25) 18#7 hw (.up (.up (.up (.up (.up (.here))))))
  have h1 := word_field (lo := 21) g hw (.up (.up (.up (.up (.here)))))
  have h2 := word_field (lo := 16) d hw (.up (.up (.up (.here))))
  have h3 := word_field (lo := 11) a hw (.up (.up (.here)))
  have h4 := word_field (lo := 6) l hw (.up (.here))
  have h5 := word_field (lo := 0) p hw (.here)
  refine decodeSlot_ok ?_ hb
  show parseX (word (pack [(6, p.toNat), (5, l.toNat), (5, a.toNat), (5, d.toNat), (4, g.toNat), (7, 18)])) = .ok (.ext g d a l p)
  generalize word (pack [(6, p.toNat), (5, l.toNat), (5, a.toNat), (5, d.toNat), (4, g.toNat), (7, 18)]) = W at h0 h1 h2 h3 h4 h5 ⊢
  rw [parseX_18 W h0, h1, h2, h3, h4, h5]
theorem Encode.ins (g : BitVec 4) (d : BitVec 5) (a : BitVec 5) (l : BitVec 5) (p : BitVec 6) : Encode.Statement (.ins g d a l p) := by
  intro k hk hb
  cases hk
  have hw : Fits [(6, p.toNat), (5, l.toNat), (5, a.toNat), (5, d.toNat), (4, g.toNat), (7, 19)] 32 := .cons (p.isLt) (.cons (l.isLt) (.cons (a.isLt) (.cons (d.isLt) (.cons (g.isLt) (.cons (by decide) (.nil))))))
  have h0 := word_field (lo := 25) 19#7 hw (.up (.up (.up (.up (.up (.here))))))
  have h1 := word_field (lo := 21) g hw (.up (.up (.up (.up (.here)))))
  have h2 := word_field (lo := 16) d hw (.up (.up (.up (.here))))
  have h3 := word_field (lo := 11) a hw (.up (.up (.here)))
  have h4 := word_field (lo := 6) l hw (.up (.here))
  have h5 := word_field (lo := 0) p hw (.here)
  refine decodeSlot_ok ?_ hb
  show parseX (word (pack [(6, p.toNat), (5, l.toNat), (5, a.toNat), (5, d.toNat), (4, g.toNat), (7, 19)])) = .ok (.ins g d a l p)
  generalize word (pack [(6, p.toNat), (5, l.toNat), (5, a.toNat), (5, d.toNat), (4, g.toNat), (7, 19)]) = W at h0 h1 h2 h3 h4 h5 ⊢
  rw [parseX_19 W h0, h1, h2, h3, h4, h5]
theorem Encode.exts (g : BitVec 4) (d : BitVec 5) (a : BitVec 5) (l : BitVec 5) (p : BitVec 6) : Encode.Statement (.exts g d a l p) := by
  intro k hk hb
  cases hk
  have hw : Fits [(6, p.toNat), (5, l.toNat), (5, a.toNat), (5, d.toNat), (4, g.toNat), (7, 20)] 32 := .cons (p.isLt) (.cons (l.isLt) (.cons (a.isLt) (.cons (d.isLt) (.cons (g.isLt) (.cons (by decide) (.nil))))))
  have h0 := word_field (lo := 25) 20#7 hw (.up (.up (.up (.up (.up (.here))))))
  have h1 := word_field (lo := 21) g hw (.up (.up (.up (.up (.here)))))
  have h2 := word_field (lo := 16) d hw (.up (.up (.up (.here))))
  have h3 := word_field (lo := 11) a hw (.up (.up (.here)))
  have h4 := word_field (lo := 6) l hw (.up (.here))
  have h5 := word_field (lo := 0) p hw (.here)
  refine decodeSlot_ok ?_ hb
  show parseX (word (pack [(6, p.toNat), (5, l.toNat), (5, a.toNat), (5, d.toNat), (4, g.toNat), (7, 20)])) = .ok (.exts g d a l p)
  generalize word (pack [(6, p.toNat), (5, l.toNat), (5, a.toNat), (5, d.toNat), (4, g.toNat), (7, 20)]) = W at h0 h1 h2 h3 h4 h5 ⊢
  rw [parseX_20 W h0, h1, h2, h3, h4, h5]
theorem Encode.crc8 (g : BitVec 4) (d : BitVec 5) (a : BitVec 5) (b : BitVec 5) (n : BitVec 3) : Encode.Statement (.crc8 g d a b n) := by
  intro k hk hb
  cases hk
  have hw : Fits [(3, n.toNat), (3, 0), (5, b.toNat), (5, a.toNat), (5, d.toNat), (4, g.toNat), (7, 21)] 32 := .cons (n.isLt) (.cons (by decide) (.cons (b.isLt) (.cons (a.isLt) (.cons (d.isLt) (.cons (g.isLt) (.cons (by decide) (.nil)))))))
  have h0 := word_field (lo := 25) 21#7 hw (.up (.up (.up (.up (.up (.up (.here)))))))
  have h1 := word_field (lo := 3) 0#3 hw (.up (.here))
  have h2 := word_field (lo := 21) g hw (.up (.up (.up (.up (.up (.here))))))
  have h3 := word_field (lo := 16) d hw (.up (.up (.up (.up (.here)))))
  have h4 := word_field (lo := 11) a hw (.up (.up (.up (.here))))
  have h5 := word_field (lo := 6) b hw (.up (.up (.here)))
  have h6 := word_field (lo := 0) n hw (.here)
  refine decodeSlot_ok ?_ hb
  show parseX (word (pack [(3, n.toNat), (3, 0), (5, b.toNat), (5, a.toNat), (5, d.toNat), (4, g.toNat), (7, 21)])) = .ok (.crc8 g d a b n)
  generalize word (pack [(3, n.toNat), (3, 0), (5, b.toNat), (5, a.toNat), (5, d.toNat), (4, g.toNat), (7, 21)]) = W at h0 h1 h2 h3 h4 h5 h6 ⊢
  rw [parseX_21 W h0, h1, h2, h3, h4, h5, h6]
  rfl
theorem Encode.rng (g : BitVec 4) (d : BitVec 5) (a : BitVec 5) (b : BitVec 5) (h : BitVec 1) : Encode.Statement (.rng g d a b h) := by
  intro k hk hb
  cases hk
  have hw : Fits [(1, h.toNat), (5, 0), (5, b.toNat), (5, a.toNat), (5, d.toNat), (4, g.toNat), (7, 22)] 32 := .cons (h.isLt) (.cons (by decide) (.cons (b.isLt) (.cons (a.isLt) (.cons (d.isLt) (.cons (g.isLt) (.cons (by decide) (.nil)))))))
  have h0 := word_field (lo := 25) 22#7 hw (.up (.up (.up (.up (.up (.up (.here)))))))
  have h1 := word_field (lo := 1) 0#5 hw (.up (.here))
  have h2 := word_field (lo := 21) g hw (.up (.up (.up (.up (.up (.here))))))
  have h3 := word_field (lo := 16) d hw (.up (.up (.up (.up (.here)))))
  have h4 := word_field (lo := 11) a hw (.up (.up (.up (.here))))
  have h5 := word_field (lo := 6) b hw (.up (.up (.here)))
  have h6 := word_field (lo := 0) h hw (.here)
  refine decodeSlot_ok ?_ hb
  show parseX (word (pack [(1, h.toNat), (5, 0), (5, b.toNat), (5, a.toNat), (5, d.toNat), (4, g.toNat), (7, 22)])) = .ok (.rng g d a b h)
  generalize word (pack [(1, h.toNat), (5, 0), (5, b.toNat), (5, a.toNat), (5, d.toNat), (4, g.toNat), (7, 22)]) = W at h0 h1 h2 h3 h4 h5 h6 ⊢
  rw [parseX_22 W h0, h1, h2, h3, h4, h5, h6]
  rfl
theorem Encode.tdec (g : BitVec 4) (d : BitVec 5) (a : BitVec 5) (t : BitVec 2) : Encode.Statement (.tdec g d a t) := by
  intro k hk hb
  cases hk
  have hw : Fits [(2, t.toNat), (4, 0), (5, 0), (5, a.toNat), (5, d.toNat), (4, g.toNat), (7, 23)] 32 := .cons (t.isLt) (.cons (by decide) (.cons (by decide) (.cons (a.isLt) (.cons (d.isLt) (.cons (g.isLt) (.cons (by decide) (.nil)))))))
  have h0 := word_field (lo := 25) 23#7 hw (.up (.up (.up (.up (.up (.up (.here)))))))
  have h1 := word_field (lo := 6) 0#5 hw (.up (.up (.here)))
  have h2 := word_field (lo := 2) 0#4 hw (.up (.here))
  have h3 := word_field (lo := 21) g hw (.up (.up (.up (.up (.up (.here))))))
  have h4 := word_field (lo := 16) d hw (.up (.up (.up (.up (.here)))))
  have h5 := word_field (lo := 11) a hw (.up (.up (.up (.here))))
  have h6 := word_field (lo := 0) t hw (.here)
  refine decodeSlot_ok ?_ hb
  show parseX (word (pack [(2, t.toNat), (4, 0), (5, 0), (5, a.toNat), (5, d.toNat), (4, g.toNat), (7, 23)])) = .ok (.tdec g d a t)
  generalize word (pack [(2, t.toNat), (4, 0), (5, 0), (5, a.toNat), (5, d.toNat), (4, g.toNat), (7, 23)]) = W at h0 h1 h2 h3 h4 h5 h6 ⊢
  rw [parseX_23 W h0, h1, h2, h3, h4, h5, h6]
  rfl
theorem Encode.tcmp (g : BitVec 4) (h : BitVec 4) (a : BitVec 5) (b : BitVec 5) (t : BitVec 2) (c : BitVec 2) : Encode.Statement (.tcmp g h a b t c) := by
  intro k hk hb
  cases hk
  have hw : Fits [(2, c.toNat), (2, t.toNat), (2, 0), (5, b.toNat), (5, a.toNat), (4, h.toNat), (1, 0), (4, g.toNat), (7, 24)] 32 := .cons (c.isLt) (.cons (t.isLt) (.cons (by decide) (.cons (b.isLt) (.cons (a.isLt) (.cons (h.isLt) (.cons (by decide) (.cons (g.isLt) (.cons (by decide) (.nil)))))))))
  have h0 := word_field (lo := 25) 24#7 hw (.up (.up (.up (.up (.up (.up (.up (.up (.here)))))))))
  have h1 := word_field (lo := 20) 0#1 hw (.up (.up (.up (.up (.up (.up (.here)))))))
  have h2 := word_field (lo := 4) 0#2 hw (.up (.up (.here)))
  have h3 := word_field (lo := 21) g hw (.up (.up (.up (.up (.up (.up (.up (.here))))))))
  have h4 := word_field (lo := 16) h hw (.up (.up (.up (.up (.up (.here))))))
  have h5 := word_field (lo := 11) a hw (.up (.up (.up (.up (.here)))))
  have h6 := word_field (lo := 6) b hw (.up (.up (.up (.here))))
  have h7 := word_field (lo := 2) t hw (.up (.here))
  have h8 := word_field (lo := 0) c hw (.here)
  refine decodeSlot_ok ?_ hb
  show parseX (word (pack [(2, c.toNat), (2, t.toNat), (2, 0), (5, b.toNat), (5, a.toNat), (4, h.toNat), (1, 0), (4, g.toNat), (7, 24)])) = .ok (.tcmp g h a b t c)
  generalize word (pack [(2, c.toNat), (2, t.toNat), (2, 0), (5, b.toNat), (5, a.toNat), (4, h.toNat), (1, 0), (4, g.toNat), (7, 24)]) = W at h0 h1 h2 h3 h4 h5 h6 h7 h8 ⊢
  rw [parseX_24 W h0, h1, h2, h3, h4, h5, h6, h7, h8]
  rfl
theorem Encode.tcvt (g : BitVec 4) (d : BitVec 5) (a : BitVec 5) (k : BitVec 2) (e : BitVec 2) (s : BitVec 2) : Encode.Statement (.tcvt g d a k e s) := by
  intro k hk hb
  cases hk
  have hw : Fits [(2, s.toNat), (2, e.toNat), (2, k.toNat), (5, 0), (5, a.toNat), (5, d.toNat), (4, g.toNat), (7, 25)] 32 := .cons (s.isLt) (.cons (e.isLt) (.cons (k.isLt) (.cons (by decide) (.cons (a.isLt) (.cons (d.isLt) (.cons (g.isLt) (.cons (by decide) (.nil))))))))
  have h0 := word_field (lo := 25) 25#7 hw (.up (.up (.up (.up (.up (.up (.up (.here))))))))
  have h1 := word_field (lo := 6) 0#5 hw (.up (.up (.up (.here))))
  have h2 := word_field (lo := 21) g hw (.up (.up (.up (.up (.up (.up (.here)))))))
  have h3 := word_field (lo := 16) d hw (.up (.up (.up (.up (.up (.here))))))
  have h4 := word_field (lo := 11) a hw (.up (.up (.up (.up (.here)))))
  have h5 := word_field (lo := 4) k hw (.up (.up (.here)))
  have h6 := word_field (lo := 2) e hw (.up (.here))
  have h7 := word_field (lo := 0) s hw (.here)
  refine decodeSlot_ok ?_ hb
  show parseX (word (pack [(2, s.toNat), (2, e.toNat), (2, k.toNat), (5, 0), (5, a.toNat), (5, d.toNat), (4, g.toNat), (7, 25)])) = .ok (.tcvt g d a k e s)
  generalize word (pack [(2, s.toNat), (2, e.toNat), (2, k.toNat), (5, 0), (5, a.toNat), (5, d.toNat), (4, g.toNat), (7, 25)]) = W at h0 h1 h2 h3 h4 h5 h6 h7 ⊢
  rw [parseX_25 W h0, h1, h2, h3, h4, h5, h6, h7]
  rfl
theorem Encode.fadd (g : BitVec 4) (d : BitVec 5) (a : BitVec 5) (b : BitVec 5) (p : BitVec 1) : Encode.Statement (.fadd g d a b p) := by
  intro k hk hb
  cases hk
  have hw : Fits [(1, p.toNat), (5, 0), (5, b.toNat), (5, a.toNat), (5, d.toNat), (4, g.toNat), (7, 1)] 32 := .cons (p.isLt) (.cons (by decide) (.cons (b.isLt) (.cons (a.isLt) (.cons (d.isLt) (.cons (g.isLt) (.cons (by decide) (.nil)))))))
  have h0 := word_field (lo := 25) 1#7 hw (.up (.up (.up (.up (.up (.up (.here)))))))
  have h1 := word_field (lo := 1) 0#5 hw (.up (.here))
  have h2 := word_field (lo := 21) g hw (.up (.up (.up (.up (.up (.here))))))
  have h3 := word_field (lo := 16) d hw (.up (.up (.up (.up (.here)))))
  have h4 := word_field (lo := 11) a hw (.up (.up (.up (.here))))
  have h5 := word_field (lo := 6) b hw (.up (.up (.here)))
  have h6 := word_field (lo := 0) p hw (.here)
  refine decodeSlot_ok ?_ hb
  show parseF (word (pack [(1, p.toNat), (5, 0), (5, b.toNat), (5, a.toNat), (5, d.toNat), (4, g.toNat), (7, 1)])) = .ok (.fadd g d a b p)
  generalize word (pack [(1, p.toNat), (5, 0), (5, b.toNat), (5, a.toNat), (5, d.toNat), (4, g.toNat), (7, 1)]) = W at h0 h1 h2 h3 h4 h5 h6 ⊢
  rw [parseF_1 W h0, h1, h2, h3, h4, h5, h6]
  rfl
theorem Encode.fsub (g : BitVec 4) (d : BitVec 5) (a : BitVec 5) (b : BitVec 5) (p : BitVec 1) : Encode.Statement (.fsub g d a b p) := by
  intro k hk hb
  cases hk
  have hw : Fits [(1, p.toNat), (5, 0), (5, b.toNat), (5, a.toNat), (5, d.toNat), (4, g.toNat), (7, 2)] 32 := .cons (p.isLt) (.cons (by decide) (.cons (b.isLt) (.cons (a.isLt) (.cons (d.isLt) (.cons (g.isLt) (.cons (by decide) (.nil)))))))
  have h0 := word_field (lo := 25) 2#7 hw (.up (.up (.up (.up (.up (.up (.here)))))))
  have h1 := word_field (lo := 1) 0#5 hw (.up (.here))
  have h2 := word_field (lo := 21) g hw (.up (.up (.up (.up (.up (.here))))))
  have h3 := word_field (lo := 16) d hw (.up (.up (.up (.up (.here)))))
  have h4 := word_field (lo := 11) a hw (.up (.up (.up (.here))))
  have h5 := word_field (lo := 6) b hw (.up (.up (.here)))
  have h6 := word_field (lo := 0) p hw (.here)
  refine decodeSlot_ok ?_ hb
  show parseF (word (pack [(1, p.toNat), (5, 0), (5, b.toNat), (5, a.toNat), (5, d.toNat), (4, g.toNat), (7, 2)])) = .ok (.fsub g d a b p)
  generalize word (pack [(1, p.toNat), (5, 0), (5, b.toNat), (5, a.toNat), (5, d.toNat), (4, g.toNat), (7, 2)]) = W at h0 h1 h2 h3 h4 h5 h6 ⊢
  rw [parseF_2 W h0, h1, h2, h3, h4, h5, h6]
  rfl
theorem Encode.fmul (g : BitVec 4) (d : BitVec 5) (a : BitVec 5) (b : BitVec 5) (p : BitVec 1) : Encode.Statement (.fmul g d a b p) := by
  intro k hk hb
  cases hk
  have hw : Fits [(1, p.toNat), (5, 0), (5, b.toNat), (5, a.toNat), (5, d.toNat), (4, g.toNat), (7, 3)] 32 := .cons (p.isLt) (.cons (by decide) (.cons (b.isLt) (.cons (a.isLt) (.cons (d.isLt) (.cons (g.isLt) (.cons (by decide) (.nil)))))))
  have h0 := word_field (lo := 25) 3#7 hw (.up (.up (.up (.up (.up (.up (.here)))))))
  have h1 := word_field (lo := 1) 0#5 hw (.up (.here))
  have h2 := word_field (lo := 21) g hw (.up (.up (.up (.up (.up (.here))))))
  have h3 := word_field (lo := 16) d hw (.up (.up (.up (.up (.here)))))
  have h4 := word_field (lo := 11) a hw (.up (.up (.up (.here))))
  have h5 := word_field (lo := 6) b hw (.up (.up (.here)))
  have h6 := word_field (lo := 0) p hw (.here)
  refine decodeSlot_ok ?_ hb
  show parseF (word (pack [(1, p.toNat), (5, 0), (5, b.toNat), (5, a.toNat), (5, d.toNat), (4, g.toNat), (7, 3)])) = .ok (.fmul g d a b p)
  generalize word (pack [(1, p.toNat), (5, 0), (5, b.toNat), (5, a.toNat), (5, d.toNat), (4, g.toNat), (7, 3)]) = W at h0 h1 h2 h3 h4 h5 h6 ⊢
  rw [parseF_3 W h0, h1, h2, h3, h4, h5, h6]
  rfl
theorem Encode.fma (g : BitVec 4) (d : BitVec 5) (a : BitVec 5) (b : BitVec 5) (c : BitVec 5) (p : BitVec 1) : Encode.Statement (.fma g d a b c p) := by
  intro k hk hb
  cases hk
  have hw : Fits [(1, p.toNat), (5, c.toNat), (5, b.toNat), (5, a.toNat), (5, d.toNat), (4, g.toNat), (7, 4)] 32 := .cons (p.isLt) (.cons (c.isLt) (.cons (b.isLt) (.cons (a.isLt) (.cons (d.isLt) (.cons (g.isLt) (.cons (by decide) (.nil)))))))
  have h0 := word_field (lo := 25) 4#7 hw (.up (.up (.up (.up (.up (.up (.here)))))))
  have h1 := word_field (lo := 21) g hw (.up (.up (.up (.up (.up (.here))))))
  have h2 := word_field (lo := 16) d hw (.up (.up (.up (.up (.here)))))
  have h3 := word_field (lo := 11) a hw (.up (.up (.up (.here))))
  have h4 := word_field (lo := 6) b hw (.up (.up (.here)))
  have h5 := word_field (lo := 1) c hw (.up (.here))
  have h6 := word_field (lo := 0) p hw (.here)
  refine decodeSlot_ok ?_ hb
  show parseF (word (pack [(1, p.toNat), (5, c.toNat), (5, b.toNat), (5, a.toNat), (5, d.toNat), (4, g.toNat), (7, 4)])) = .ok (.fma g d a b c p)
  generalize word (pack [(1, p.toNat), (5, c.toNat), (5, b.toNat), (5, a.toNat), (5, d.toNat), (4, g.toNat), (7, 4)]) = W at h0 h1 h2 h3 h4 h5 h6 ⊢
  rw [parseF_4 W h0, h1, h2, h3, h4, h5, h6]
theorem Encode.fms (g : BitVec 4) (d : BitVec 5) (a : BitVec 5) (b : BitVec 5) (c : BitVec 5) (p : BitVec 1) : Encode.Statement (.fms g d a b c p) := by
  intro k hk hb
  cases hk
  have hw : Fits [(1, p.toNat), (5, c.toNat), (5, b.toNat), (5, a.toNat), (5, d.toNat), (4, g.toNat), (7, 5)] 32 := .cons (p.isLt) (.cons (c.isLt) (.cons (b.isLt) (.cons (a.isLt) (.cons (d.isLt) (.cons (g.isLt) (.cons (by decide) (.nil)))))))
  have h0 := word_field (lo := 25) 5#7 hw (.up (.up (.up (.up (.up (.up (.here)))))))
  have h1 := word_field (lo := 21) g hw (.up (.up (.up (.up (.up (.here))))))
  have h2 := word_field (lo := 16) d hw (.up (.up (.up (.up (.here)))))
  have h3 := word_field (lo := 11) a hw (.up (.up (.up (.here))))
  have h4 := word_field (lo := 6) b hw (.up (.up (.here)))
  have h5 := word_field (lo := 1) c hw (.up (.here))
  have h6 := word_field (lo := 0) p hw (.here)
  refine decodeSlot_ok ?_ hb
  show parseF (word (pack [(1, p.toNat), (5, c.toNat), (5, b.toNat), (5, a.toNat), (5, d.toNat), (4, g.toNat), (7, 5)])) = .ok (.fms g d a b c p)
  generalize word (pack [(1, p.toNat), (5, c.toNat), (5, b.toNat), (5, a.toNat), (5, d.toNat), (4, g.toNat), (7, 5)]) = W at h0 h1 h2 h3 h4 h5 h6 ⊢
  rw [parseF_5 W h0, h1, h2, h3, h4, h5, h6]
theorem Encode.fnma (g : BitVec 4) (d : BitVec 5) (a : BitVec 5) (b : BitVec 5) (c : BitVec 5) (p : BitVec 1) : Encode.Statement (.fnma g d a b c p) := by
  intro k hk hb
  cases hk
  have hw : Fits [(1, p.toNat), (5, c.toNat), (5, b.toNat), (5, a.toNat), (5, d.toNat), (4, g.toNat), (7, 6)] 32 := .cons (p.isLt) (.cons (c.isLt) (.cons (b.isLt) (.cons (a.isLt) (.cons (d.isLt) (.cons (g.isLt) (.cons (by decide) (.nil)))))))
  have h0 := word_field (lo := 25) 6#7 hw (.up (.up (.up (.up (.up (.up (.here)))))))
  have h1 := word_field (lo := 21) g hw (.up (.up (.up (.up (.up (.here))))))
  have h2 := word_field (lo := 16) d hw (.up (.up (.up (.up (.here)))))
  have h3 := word_field (lo := 11) a hw (.up (.up (.up (.here))))
  have h4 := word_field (lo := 6) b hw (.up (.up (.here)))
  have h5 := word_field (lo := 1) c hw (.up (.here))
  have h6 := word_field (lo := 0) p hw (.here)
  refine decodeSlot_ok ?_ hb
  show parseF (word (pack [(1, p.toNat), (5, c.toNat), (5, b.toNat), (5, a.toNat), (5, d.toNat), (4, g.toNat), (7, 6)])) = .ok (.fnma g d a b c p)
  generalize word (pack [(1, p.toNat), (5, c.toNat), (5, b.toNat), (5, a.toNat), (5, d.toNat), (4, g.toNat), (7, 6)]) = W at h0 h1 h2 h3 h4 h5 h6 ⊢
  rw [parseF_6 W h0, h1, h2, h3, h4, h5, h6]
theorem Encode.fdiv (g : BitVec 4) (d : BitVec 5) (a : BitVec 5) (b : BitVec 5) (p : BitVec 1) : Encode.Statement (.fdiv g d a b p) := by
  intro k hk hb
  cases hk
  have hw : Fits [(1, p.toNat), (5, 0), (5, b.toNat), (5, a.toNat), (5, d.toNat), (4, g.toNat), (7, 7)] 32 := .cons (p.isLt) (.cons (by decide) (.cons (b.isLt) (.cons (a.isLt) (.cons (d.isLt) (.cons (g.isLt) (.cons (by decide) (.nil)))))))
  have h0 := word_field (lo := 25) 7#7 hw (.up (.up (.up (.up (.up (.up (.here)))))))
  have h1 := word_field (lo := 1) 0#5 hw (.up (.here))
  have h2 := word_field (lo := 21) g hw (.up (.up (.up (.up (.up (.here))))))
  have h3 := word_field (lo := 16) d hw (.up (.up (.up (.up (.here)))))
  have h4 := word_field (lo := 11) a hw (.up (.up (.up (.here))))
  have h5 := word_field (lo := 6) b hw (.up (.up (.here)))
  have h6 := word_field (lo := 0) p hw (.here)
  refine decodeSlot_ok ?_ hb
  show parseF (word (pack [(1, p.toNat), (5, 0), (5, b.toNat), (5, a.toNat), (5, d.toNat), (4, g.toNat), (7, 7)])) = .ok (.fdiv g d a b p)
  generalize word (pack [(1, p.toNat), (5, 0), (5, b.toNat), (5, a.toNat), (5, d.toNat), (4, g.toNat), (7, 7)]) = W at h0 h1 h2 h3 h4 h5 h6 ⊢
  rw [parseF_7 W h0, h1, h2, h3, h4, h5, h6]
  rfl
theorem Encode.fsqrt (g : BitVec 4) (d : BitVec 5) (a : BitVec 5) (p : BitVec 1) : Encode.Statement (.fsqrt g d a p) := by
  intro k hk hb
  cases hk
  have hw : Fits [(1, p.toNat), (5, 0), (5, 0), (5, a.toNat), (5, d.toNat), (4, g.toNat), (7, 8)] 32 := .cons (p.isLt) (.cons (by decide) (.cons (by decide) (.cons (a.isLt) (.cons (d.isLt) (.cons (g.isLt) (.cons (by decide) (.nil)))))))
  have h0 := word_field (lo := 25) 8#7 hw (.up (.up (.up (.up (.up (.up (.here)))))))
  have h1 := word_field (lo := 6) 0#5 hw (.up (.up (.here)))
  have h2 := word_field (lo := 1) 0#5 hw (.up (.here))
  have h3 := word_field (lo := 21) g hw (.up (.up (.up (.up (.up (.here))))))
  have h4 := word_field (lo := 16) d hw (.up (.up (.up (.up (.here)))))
  have h5 := word_field (lo := 11) a hw (.up (.up (.up (.here))))
  have h6 := word_field (lo := 0) p hw (.here)
  refine decodeSlot_ok ?_ hb
  show parseF (word (pack [(1, p.toNat), (5, 0), (5, 0), (5, a.toNat), (5, d.toNat), (4, g.toNat), (7, 8)])) = .ok (.fsqrt g d a p)
  generalize word (pack [(1, p.toNat), (5, 0), (5, 0), (5, a.toNat), (5, d.toNat), (4, g.toNat), (7, 8)]) = W at h0 h1 h2 h3 h4 h5 h6 ⊢
  rw [parseF_8 W h0, h1, h2, h3, h4, h5, h6]
  rfl
theorem Encode.fmin (g : BitVec 4) (d : BitVec 5) (a : BitVec 5) (b : BitVec 5) (p : BitVec 1) : Encode.Statement (.fmin g d a b p) := by
  intro k hk hb
  cases hk
  have hw : Fits [(1, p.toNat), (5, 0), (5, b.toNat), (5, a.toNat), (5, d.toNat), (4, g.toNat), (7, 9)] 32 := .cons (p.isLt) (.cons (by decide) (.cons (b.isLt) (.cons (a.isLt) (.cons (d.isLt) (.cons (g.isLt) (.cons (by decide) (.nil)))))))
  have h0 := word_field (lo := 25) 9#7 hw (.up (.up (.up (.up (.up (.up (.here)))))))
  have h1 := word_field (lo := 1) 0#5 hw (.up (.here))
  have h2 := word_field (lo := 21) g hw (.up (.up (.up (.up (.up (.here))))))
  have h3 := word_field (lo := 16) d hw (.up (.up (.up (.up (.here)))))
  have h4 := word_field (lo := 11) a hw (.up (.up (.up (.here))))
  have h5 := word_field (lo := 6) b hw (.up (.up (.here)))
  have h6 := word_field (lo := 0) p hw (.here)
  refine decodeSlot_ok ?_ hb
  show parseF (word (pack [(1, p.toNat), (5, 0), (5, b.toNat), (5, a.toNat), (5, d.toNat), (4, g.toNat), (7, 9)])) = .ok (.fmin g d a b p)
  generalize word (pack [(1, p.toNat), (5, 0), (5, b.toNat), (5, a.toNat), (5, d.toNat), (4, g.toNat), (7, 9)]) = W at h0 h1 h2 h3 h4 h5 h6 ⊢
  rw [parseF_9 W h0, h1, h2, h3, h4, h5, h6]
  rfl
theorem Encode.fmax (g : BitVec 4) (d : BitVec 5) (a : BitVec 5) (b : BitVec 5) (p : BitVec 1) : Encode.Statement (.fmax g d a b p) := by
  intro k hk hb
  cases hk
  have hw : Fits [(1, p.toNat), (5, 0), (5, b.toNat), (5, a.toNat), (5, d.toNat), (4, g.toNat), (7, 10)] 32 := .cons (p.isLt) (.cons (by decide) (.cons (b.isLt) (.cons (a.isLt) (.cons (d.isLt) (.cons (g.isLt) (.cons (by decide) (.nil)))))))
  have h0 := word_field (lo := 25) 10#7 hw (.up (.up (.up (.up (.up (.up (.here)))))))
  have h1 := word_field (lo := 1) 0#5 hw (.up (.here))
  have h2 := word_field (lo := 21) g hw (.up (.up (.up (.up (.up (.here))))))
  have h3 := word_field (lo := 16) d hw (.up (.up (.up (.up (.here)))))
  have h4 := word_field (lo := 11) a hw (.up (.up (.up (.here))))
  have h5 := word_field (lo := 6) b hw (.up (.up (.here)))
  have h6 := word_field (lo := 0) p hw (.here)
  refine decodeSlot_ok ?_ hb
  show parseF (word (pack [(1, p.toNat), (5, 0), (5, b.toNat), (5, a.toNat), (5, d.toNat), (4, g.toNat), (7, 10)])) = .ok (.fmax g d a b p)
  generalize word (pack [(1, p.toNat), (5, 0), (5, b.toNat), (5, a.toNat), (5, d.toNat), (4, g.toNat), (7, 10)]) = W at h0 h1 h2 h3 h4 h5 h6 ⊢
  rw [parseF_10 W h0, h1, h2, h3, h4, h5, h6]
  rfl
theorem Encode.fcmp (g : BitVec 4) (h : BitVec 4) (a : BitVec 5) (b : BitVec 5) (c : BitVec 3) (p : BitVec 1) : Encode.Statement (.fcmp g h a b c p) := by
  intro k hk hb
  cases hk
  have hw : Fits [(1, p.toNat), (3, c.toNat), (2, 0), (5, b.toNat), (5, a.toNat), (4, h.toNat), (1, 0), (4, g.toNat), (7, 11)] 32 := .cons (p.isLt) (.cons (c.isLt) (.cons (by decide) (.cons (b.isLt) (.cons (a.isLt) (.cons (h.isLt) (.cons (by decide) (.cons (g.isLt) (.cons (by decide) (.nil)))))))))
  have h0 := word_field (lo := 25) 11#7 hw (.up (.up (.up (.up (.up (.up (.up (.up (.here)))))))))
  have h1 := word_field (lo := 20) 0#1 hw (.up (.up (.up (.up (.up (.up (.here)))))))
  have h2 := word_field (lo := 4) 0#2 hw (.up (.up (.here)))
  have h3 := word_field (lo := 21) g hw (.up (.up (.up (.up (.up (.up (.up (.here))))))))
  have h4 := word_field (lo := 16) h hw (.up (.up (.up (.up (.up (.here))))))
  have h5 := word_field (lo := 11) a hw (.up (.up (.up (.up (.here)))))
  have h6 := word_field (lo := 6) b hw (.up (.up (.up (.here))))
  have h7 := word_field (lo := 1) c hw (.up (.here))
  have h8 := word_field (lo := 0) p hw (.here)
  refine decodeSlot_ok ?_ hb
  show parseF (word (pack [(1, p.toNat), (3, c.toNat), (2, 0), (5, b.toNat), (5, a.toNat), (4, h.toNat), (1, 0), (4, g.toNat), (7, 11)])) = .ok (.fcmp g h a b c p)
  generalize word (pack [(1, p.toNat), (3, c.toNat), (2, 0), (5, b.toNat), (5, a.toNat), (4, h.toNat), (1, 0), (4, g.toNat), (7, 11)]) = W at h0 h1 h2 h3 h4 h5 h6 h7 h8 ⊢
  rw [parseF_11 W h0, h1, h2, h3, h4, h5, h6, h7, h8]
  rfl
theorem Encode.fcvt (g : BitVec 4) (d : BitVec 5) (a : BitVec 5) (e : BitVec 3) (s : BitVec 3) : Encode.Statement (.fcvt g d a e s) := by
  intro k hk hb
  cases hk
  have hw : Fits [(3, s.toNat), (3, e.toNat), (5, 0), (5, a.toNat), (5, d.toNat), (4, g.toNat), (7, 12)] 32 := .cons (s.isLt) (.cons (e.isLt) (.cons (by decide) (.cons (a.isLt) (.cons (d.isLt) (.cons (g.isLt) (.cons (by decide) (.nil)))))))
  have h0 := word_field (lo := 25) 12#7 hw (.up (.up (.up (.up (.up (.up (.here)))))))
  have h1 := word_field (lo := 6) 0#5 hw (.up (.up (.here)))
  have h2 := word_field (lo := 21) g hw (.up (.up (.up (.up (.up (.here))))))
  have h3 := word_field (lo := 16) d hw (.up (.up (.up (.up (.here)))))
  have h4 := word_field (lo := 11) a hw (.up (.up (.up (.here))))
  have h5 := word_field (lo := 3) e hw (.up (.here))
  have h6 := word_field (lo := 0) s hw (.here)
  refine decodeSlot_ok ?_ hb
  show parseF (word (pack [(3, s.toNat), (3, e.toNat), (5, 0), (5, a.toNat), (5, d.toNat), (4, g.toNat), (7, 12)])) = .ok (.fcvt g d a e s)
  generalize word (pack [(3, s.toNat), (3, e.toNat), (5, 0), (5, a.toNat), (5, d.toNat), (4, g.toNat), (7, 12)]) = W at h0 h1 h2 h3 h4 h5 h6 ⊢
  rw [parseF_12 W h0, h1, h2, h3, h4, h5, h6]
  rfl
theorem Encode.fsgn (g : BitVec 4) (d : BitVec 5) (a : BitVec 5) (b : BitVec 5) (o : BitVec 2) (p : BitVec 1) : Encode.Statement (.fsgn g d a b o p) := by
  intro k hk hb
  cases hk
  have hw : Fits [(1, p.toNat), (2, o.toNat), (3, 0), (5, b.toNat), (5, a.toNat), (5, d.toNat), (4, g.toNat), (7, 13)] 32 := .cons (p.isLt) (.cons (o.isLt) (.cons (by decide) (.cons (b.isLt) (.cons (a.isLt) (.cons (d.isLt) (.cons (g.isLt) (.cons (by decide) (.nil))))))))
  have h0 := word_field (lo := 25) 13#7 hw (.up (.up (.up (.up (.up (.up (.up (.here))))))))
  have h1 := word_field (lo := 3) 0#3 hw (.up (.up (.here)))
  have h2 := word_field (lo := 21) g hw (.up (.up (.up (.up (.up (.up (.here)))))))
  have h3 := word_field (lo := 16) d hw (.up (.up (.up (.up (.up (.here))))))
  have h4 := word_field (lo := 11) a hw (.up (.up (.up (.up (.here)))))
  have h5 := word_field (lo := 6) b hw (.up (.up (.up (.here))))
  have h6 := word_field (lo := 1) o hw (.up (.here))
  have h7 := word_field (lo := 0) p hw (.here)
  refine decodeSlot_ok ?_ hb
  show parseF (word (pack [(1, p.toNat), (2, o.toNat), (3, 0), (5, b.toNat), (5, a.toNat), (5, d.toNat), (4, g.toNat), (7, 13)])) = .ok (.fsgn g d a b o p)
  generalize word (pack [(1, p.toNat), (2, o.toNat), (3, 0), (5, b.toNat), (5, a.toNat), (5, d.toNat), (4, g.toNat), (7, 13)]) = W at h0 h1 h2 h3 h4 h5 h6 h7 ⊢
  rw [parseF_13 W h0, h1, h2, h3, h4, h5, h6, h7]
  rfl
theorem Encode.fcls (g : BitVec 4) (d : BitVec 5) (a : BitVec 5) (p : BitVec 1) : Encode.Statement (.fcls g d a p) := by
  intro k hk hb
  cases hk
  have hw : Fits [(1, p.toNat), (5, 0), (5, 0), (5, a.toNat), (5, d.toNat), (4, g.toNat), (7, 14)] 32 := .cons (p.isLt) (.cons (by decide) (.cons (by decide) (.cons (a.isLt) (.cons (d.isLt) (.cons (g.isLt) (.cons (by decide) (.nil)))))))
  have h0 := word_field (lo := 25) 14#7 hw (.up (.up (.up (.up (.up (.up (.here)))))))
  have h1 := word_field (lo := 6) 0#5 hw (.up (.up (.here)))
  have h2 := word_field (lo := 1) 0#5 hw (.up (.here))
  have h3 := word_field (lo := 21) g hw (.up (.up (.up (.up (.up (.here))))))
  have h4 := word_field (lo := 16) d hw (.up (.up (.up (.up (.here)))))
  have h5 := word_field (lo := 11) a hw (.up (.up (.up (.here))))
  have h6 := word_field (lo := 0) p hw (.here)
  refine decodeSlot_ok ?_ hb
  show parseF (word (pack [(1, p.toNat), (5, 0), (5, 0), (5, a.toNat), (5, d.toNat), (4, g.toNat), (7, 14)])) = .ok (.fcls g d a p)
  generalize word (pack [(1, p.toNat), (5, 0), (5, 0), (5, a.toNat), (5, d.toNat), (4, g.toNat), (7, 14)]) = W at h0 h1 h2 h3 h4 h5 h6 ⊢
  rw [parseF_14 W h0, h1, h2, h3, h4, h5, h6]
  rfl
theorem Encode.tadd (g : BitVec 4) (d : BitVec 5) (a : BitVec 5) (b : BitVec 5) (t : BitVec 2) : Encode.Statement (.tadd g d a b t) := by
  intro k hk hb
  cases hk
  have hw : Fits [(2, t.toNat), (1, 0), (3, 0), (5, b.toNat), (5, a.toNat), (5, d.toNat), (4, g.toNat), (7, 15)] 32 := .cons (t.isLt) (.cons (by decide) (.cons (by decide) (.cons (b.isLt) (.cons (a.isLt) (.cons (d.isLt) (.cons (g.isLt) (.cons (by decide) (.nil))))))))
  have h0 := word_field (lo := 25) 15#7 hw (.up (.up (.up (.up (.up (.up (.up (.here))))))))
  have h1 := word_field (lo := 2) 0#1 hw (.up (.here))
  have h2 := word_field (lo := 3) 0#3 hw (.up (.up (.here)))
  have h3 := word_field (lo := 21) g hw (.up (.up (.up (.up (.up (.up (.here)))))))
  have h4 := word_field (lo := 16) d hw (.up (.up (.up (.up (.up (.here))))))
  have h5 := word_field (lo := 11) a hw (.up (.up (.up (.up (.here)))))
  have h6 := word_field (lo := 6) b hw (.up (.up (.up (.here))))
  have h7 := word_field (lo := 0) t hw (.here)
  refine decodeSlot_ok ?_ hb
  show parseF (word (pack [(2, t.toNat), (1, 0), (3, 0), (5, b.toNat), (5, a.toNat), (5, d.toNat), (4, g.toNat), (7, 15)])) = .ok (.tadd g d a b t)
  generalize word (pack [(2, t.toNat), (1, 0), (3, 0), (5, b.toNat), (5, a.toNat), (5, d.toNat), (4, g.toNat), (7, 15)]) = W at h0 h1 h2 h3 h4 h5 h6 h7 ⊢
  rw [parseF_15 W h0, h1, h2, h3, h4, h5, h6, h7]
  rfl
theorem Encode.tsub (g : BitVec 4) (d : BitVec 5) (a : BitVec 5) (b : BitVec 5) (t : BitVec 2) : Encode.Statement (.tsub g d a b t) := by
  intro k hk hb
  cases hk
  have hw : Fits [(2, t.toNat), (1, 1), (3, 0), (5, b.toNat), (5, a.toNat), (5, d.toNat), (4, g.toNat), (7, 15)] 32 := .cons (t.isLt) (.cons (by decide) (.cons (by decide) (.cons (b.isLt) (.cons (a.isLt) (.cons (d.isLt) (.cons (g.isLt) (.cons (by decide) (.nil))))))))
  have h0 := word_field (lo := 25) 15#7 hw (.up (.up (.up (.up (.up (.up (.up (.here))))))))
  have h1 := word_field (lo := 2) 1#1 hw (.up (.here))
  have h2 := word_field (lo := 3) 0#3 hw (.up (.up (.here)))
  have h3 := word_field (lo := 21) g hw (.up (.up (.up (.up (.up (.up (.here)))))))
  have h4 := word_field (lo := 16) d hw (.up (.up (.up (.up (.up (.here))))))
  have h5 := word_field (lo := 11) a hw (.up (.up (.up (.up (.here)))))
  have h6 := word_field (lo := 6) b hw (.up (.up (.up (.here))))
  have h7 := word_field (lo := 0) t hw (.here)
  refine decodeSlot_ok ?_ hb
  show parseF (word (pack [(2, t.toNat), (1, 1), (3, 0), (5, b.toNat), (5, a.toNat), (5, d.toNat), (4, g.toNat), (7, 15)])) = .ok (.tsub g d a b t)
  generalize word (pack [(2, t.toNat), (1, 1), (3, 0), (5, b.toNat), (5, a.toNat), (5, d.toNat), (4, g.toNat), (7, 15)]) = W at h0 h1 h2 h3 h4 h5 h6 h7 ⊢
  rw [parseF_15 W h0, h1, h2, h3, h4, h5, h6, h7]
  rfl
theorem Encode.tmul (g : BitVec 4) (d : BitVec 5) (a : BitVec 5) (b : BitVec 5) (t : BitVec 2) : Encode.Statement (.tmul g d a b t) := by
  intro k hk hb
  cases hk
  have hw : Fits [(2, t.toNat), (4, 0), (5, b.toNat), (5, a.toNat), (5, d.toNat), (4, g.toNat), (7, 16)] 32 := .cons (t.isLt) (.cons (by decide) (.cons (b.isLt) (.cons (a.isLt) (.cons (d.isLt) (.cons (g.isLt) (.cons (by decide) (.nil)))))))
  have h0 := word_field (lo := 25) 16#7 hw (.up (.up (.up (.up (.up (.up (.here)))))))
  have h1 := word_field (lo := 2) 0#4 hw (.up (.here))
  have h2 := word_field (lo := 21) g hw (.up (.up (.up (.up (.up (.here))))))
  have h3 := word_field (lo := 16) d hw (.up (.up (.up (.up (.here)))))
  have h4 := word_field (lo := 11) a hw (.up (.up (.up (.here))))
  have h5 := word_field (lo := 6) b hw (.up (.up (.here)))
  have h6 := word_field (lo := 0) t hw (.here)
  refine decodeSlot_ok ?_ hb
  show parseF (word (pack [(2, t.toNat), (4, 0), (5, b.toNat), (5, a.toNat), (5, d.toNat), (4, g.toNat), (7, 16)])) = .ok (.tmul g d a b t)
  generalize word (pack [(2, t.toNat), (4, 0), (5, b.toNat), (5, a.toNat), (5, d.toNat), (4, g.toNat), (7, 16)]) = W at h0 h1 h2 h3 h4 h5 h6 ⊢
  rw [parseF_16 W h0, h1, h2, h3, h4, h5, h6]
  rfl
theorem Encode.vadd (g : BitVec 4) (d : BitVec 4) (a : BitVec 4) (b : BitVec 4) (c : BitVec 4) (k : BitVec 3) : Encode.Statement (.vadd g d a b c k) := by
  intro k hk hb
  cases hk
  have hw : Fits [(3, k.toNat), (2, 0), (4, c.toNat), (4, b.toNat), (4, a.toNat), (4, d.toNat), (4, g.toNat), (7, 1)] 32 := .cons (k.isLt) (.cons (by decide) (.cons (c.isLt) (.cons (b.isLt) (.cons (a.isLt) (.cons (d.isLt) (.cons (g.isLt) (.cons (by decide) (.nil))))))))
  have h0 := word_field (lo := 25) 1#7 hw (.up (.up (.up (.up (.up (.up (.up (.here))))))))
  have h1 := word_field (lo := 3) 0#2 hw (.up (.here))
  have h2 := word_field (lo := 21) g hw (.up (.up (.up (.up (.up (.up (.here)))))))
  have h3 := word_field (lo := 17) d hw (.up (.up (.up (.up (.up (.here))))))
  have h4 := word_field (lo := 13) a hw (.up (.up (.up (.up (.here)))))
  have h5 := word_field (lo := 9) b hw (.up (.up (.up (.here))))
  have h6 := word_field (lo := 5) c hw (.up (.up (.here)))
  have h7 := word_field (lo := 0) k hw (.here)
  refine decodeSlot_ok ?_ hb
  show parseV (word (pack [(3, k.toNat), (2, 0), (4, c.toNat), (4, b.toNat), (4, a.toNat), (4, d.toNat), (4, g.toNat), (7, 1)])) = .ok (.vadd g d a b c k)
  generalize word (pack [(3, k.toNat), (2, 0), (4, c.toNat), (4, b.toNat), (4, a.toNat), (4, d.toNat), (4, g.toNat), (7, 1)]) = W at h0 h1 h2 h3 h4 h5 h6 h7 ⊢
  rw [parseV_1 W h0, h1, h2, h3, h4, h5, h6, h7]
  rfl
theorem Encode.vsub (g : BitVec 4) (d : BitVec 4) (a : BitVec 4) (b : BitVec 4) (c : BitVec 4) (k : BitVec 3) : Encode.Statement (.vsub g d a b c k) := by
  intro k hk hb
  cases hk
  have hw : Fits [(3, k.toNat), (2, 0), (4, c.toNat), (4, b.toNat), (4, a.toNat), (4, d.toNat), (4, g.toNat), (7, 2)] 32 := .cons (k.isLt) (.cons (by decide) (.cons (c.isLt) (.cons (b.isLt) (.cons (a.isLt) (.cons (d.isLt) (.cons (g.isLt) (.cons (by decide) (.nil))))))))
  have h0 := word_field (lo := 25) 2#7 hw (.up (.up (.up (.up (.up (.up (.up (.here))))))))
  have h1 := word_field (lo := 3) 0#2 hw (.up (.here))
  have h2 := word_field (lo := 21) g hw (.up (.up (.up (.up (.up (.up (.here)))))))
  have h3 := word_field (lo := 17) d hw (.up (.up (.up (.up (.up (.here))))))
  have h4 := word_field (lo := 13) a hw (.up (.up (.up (.up (.here)))))
  have h5 := word_field (lo := 9) b hw (.up (.up (.up (.here))))
  have h6 := word_field (lo := 5) c hw (.up (.up (.here)))
  have h7 := word_field (lo := 0) k hw (.here)
  refine decodeSlot_ok ?_ hb
  show parseV (word (pack [(3, k.toNat), (2, 0), (4, c.toNat), (4, b.toNat), (4, a.toNat), (4, d.toNat), (4, g.toNat), (7, 2)])) = .ok (.vsub g d a b c k)
  generalize word (pack [(3, k.toNat), (2, 0), (4, c.toNat), (4, b.toNat), (4, a.toNat), (4, d.toNat), (4, g.toNat), (7, 2)]) = W at h0 h1 h2 h3 h4 h5 h6 h7 ⊢
  rw [parseV_2 W h0, h1, h2, h3, h4, h5, h6, h7]
  rfl
theorem Encode.vmul (g : BitVec 4) (d : BitVec 4) (a : BitVec 4) (b : BitVec 4) (c : BitVec 4) (k : BitVec 3) : Encode.Statement (.vmul g d a b c k) := by
  intro k hk hb
  cases hk
  have hw : Fits [(3, k.toNat), (2, 0), (4, c.toNat), (4, b.toNat), (4, a.toNat), (4, d.toNat), (4, g.toNat), (7, 3)] 32 := .cons (k.isLt) (.cons (by decide) (.cons (c.isLt) (.cons (b.isLt) (.cons (a.isLt) (.cons (d.isLt) (.cons (g.isLt) (.cons (by decide) (.nil))))))))
  have h0 := word_field (lo := 25) 3#7 hw (.up (.up (.up (.up (.up (.up (.up (.here))))))))
  have h1 := word_field (lo := 3) 0#2 hw (.up (.here))
  have h2 := word_field (lo := 21) g hw (.up (.up (.up (.up (.up (.up (.here)))))))
  have h3 := word_field (lo := 17) d hw (.up (.up (.up (.up (.up (.here))))))
  have h4 := word_field (lo := 13) a hw (.up (.up (.up (.up (.here)))))
  have h5 := word_field (lo := 9) b hw (.up (.up (.up (.here))))
  have h6 := word_field (lo := 5) c hw (.up (.up (.here)))
  have h7 := word_field (lo := 0) k hw (.here)
  refine decodeSlot_ok ?_ hb
  show parseV (word (pack [(3, k.toNat), (2, 0), (4, c.toNat), (4, b.toNat), (4, a.toNat), (4, d.toNat), (4, g.toNat), (7, 3)])) = .ok (.vmul g d a b c k)
  generalize word (pack [(3, k.toNat), (2, 0), (4, c.toNat), (4, b.toNat), (4, a.toNat), (4, d.toNat), (4, g.toNat), (7, 3)]) = W at h0 h1 h2 h3 h4 h5 h6 h7 ⊢
  rw [parseV_3 W h0, h1, h2, h3, h4, h5, h6, h7]
  rfl
theorem Encode.vfma (g : BitVec 4) (d : BitVec 4) (a : BitVec 4) (b : BitVec 4) (c : BitVec 4) (k : BitVec 3) : Encode.Statement (.vfma g d a b c k) := by
  intro k hk hb
  cases hk
  have hw : Fits [(3, k.toNat), (2, 0), (4, c.toNat), (4, b.toNat), (4, a.toNat), (4, d.toNat), (4, g.toNat), (7, 4)] 32 := .cons (k.isLt) (.cons (by decide) (.cons (c.isLt) (.cons (b.isLt) (.cons (a.isLt) (.cons (d.isLt) (.cons (g.isLt) (.cons (by decide) (.nil))))))))
  have h0 := word_field (lo := 25) 4#7 hw (.up (.up (.up (.up (.up (.up (.up (.here))))))))
  have h1 := word_field (lo := 3) 0#2 hw (.up (.here))
  have h2 := word_field (lo := 21) g hw (.up (.up (.up (.up (.up (.up (.here)))))))
  have h3 := word_field (lo := 17) d hw (.up (.up (.up (.up (.up (.here))))))
  have h4 := word_field (lo := 13) a hw (.up (.up (.up (.up (.here)))))
  have h5 := word_field (lo := 9) b hw (.up (.up (.up (.here))))
  have h6 := word_field (lo := 5) c hw (.up (.up (.here)))
  have h7 := word_field (lo := 0) k hw (.here)
  refine decodeSlot_ok ?_ hb
  show parseV (word (pack [(3, k.toNat), (2, 0), (4, c.toNat), (4, b.toNat), (4, a.toNat), (4, d.toNat), (4, g.toNat), (7, 4)])) = .ok (.vfma g d a b c k)
  generalize word (pack [(3, k.toNat), (2, 0), (4, c.toNat), (4, b.toNat), (4, a.toNat), (4, d.toNat), (4, g.toNat), (7, 4)]) = W at h0 h1 h2 h3 h4 h5 h6 h7 ⊢
  rw [parseV_4 W h0, h1, h2, h3, h4, h5, h6, h7]
  rfl
theorem Encode.vfms (g : BitVec 4) (d : BitVec 4) (a : BitVec 4) (b : BitVec 4) (c : BitVec 4) (k : BitVec 3) : Encode.Statement (.vfms g d a b c k) := by
  intro k hk hb
  cases hk
  have hw : Fits [(3, k.toNat), (2, 1), (4, c.toNat), (4, b.toNat), (4, a.toNat), (4, d.toNat), (4, g.toNat), (7, 4)] 32 := .cons (k.isLt) (.cons (by decide) (.cons (c.isLt) (.cons (b.isLt) (.cons (a.isLt) (.cons (d.isLt) (.cons (g.isLt) (.cons (by decide) (.nil))))))))
  have h0 := word_field (lo := 25) 4#7 hw (.up (.up (.up (.up (.up (.up (.up (.here))))))))
  have h1 := word_field (lo := 3) 1#2 hw (.up (.here))
  have h2 := word_field (lo := 21) g hw (.up (.up (.up (.up (.up (.up (.here)))))))
  have h3 := word_field (lo := 17) d hw (.up (.up (.up (.up (.up (.here))))))
  have h4 := word_field (lo := 13) a hw (.up (.up (.up (.up (.here)))))
  have h5 := word_field (lo := 9) b hw (.up (.up (.up (.here))))
  have h6 := word_field (lo := 5) c hw (.up (.up (.here)))
  have h7 := word_field (lo := 0) k hw (.here)
  refine decodeSlot_ok ?_ hb
  show parseV (word (pack [(3, k.toNat), (2, 1), (4, c.toNat), (4, b.toNat), (4, a.toNat), (4, d.toNat), (4, g.toNat), (7, 4)])) = .ok (.vfms g d a b c k)
  generalize word (pack [(3, k.toNat), (2, 1), (4, c.toNat), (4, b.toNat), (4, a.toNat), (4, d.toNat), (4, g.toNat), (7, 4)]) = W at h0 h1 h2 h3 h4 h5 h6 h7 ⊢
  rw [parseV_4 W h0, h1, h2, h3, h4, h5, h6, h7]
  rfl
theorem Encode.vfnma (g : BitVec 4) (d : BitVec 4) (a : BitVec 4) (b : BitVec 4) (c : BitVec 4) (k : BitVec 3) : Encode.Statement (.vfnma g d a b c k) := by
  intro k hk hb
  cases hk
  have hw : Fits [(3, k.toNat), (2, 2), (4, c.toNat), (4, b.toNat), (4, a.toNat), (4, d.toNat), (4, g.toNat), (7, 4)] 32 := .cons (k.isLt) (.cons (by decide) (.cons (c.isLt) (.cons (b.isLt) (.cons (a.isLt) (.cons (d.isLt) (.cons (g.isLt) (.cons (by decide) (.nil))))))))
  have h0 := word_field (lo := 25) 4#7 hw (.up (.up (.up (.up (.up (.up (.up (.here))))))))
  have h1 := word_field (lo := 3) 2#2 hw (.up (.here))
  have h2 := word_field (lo := 21) g hw (.up (.up (.up (.up (.up (.up (.here)))))))
  have h3 := word_field (lo := 17) d hw (.up (.up (.up (.up (.up (.here))))))
  have h4 := word_field (lo := 13) a hw (.up (.up (.up (.up (.here)))))
  have h5 := word_field (lo := 9) b hw (.up (.up (.up (.here))))
  have h6 := word_field (lo := 5) c hw (.up (.up (.here)))
  have h7 := word_field (lo := 0) k hw (.here)
  refine decodeSlot_ok ?_ hb
  show parseV (word (pack [(3, k.toNat), (2, 2), (4, c.toNat), (4, b.toNat), (4, a.toNat), (4, d.toNat), (4, g.toNat), (7, 4)])) = .ok (.vfnma g d a b c k)
  generalize word (pack [(3, k.toNat), (2, 2), (4, c.toNat), (4, b.toNat), (4, a.toNat), (4, d.toNat), (4, g.toNat), (7, 4)]) = W at h0 h1 h2 h3 h4 h5 h6 h7 ⊢
  rw [parseV_4 W h0, h1, h2, h3, h4, h5, h6, h7]
  rfl
theorem Encode.vmin (g : BitVec 4) (d : BitVec 4) (a : BitVec 4) (b : BitVec 4) (c : BitVec 4) (k : BitVec 3) : Encode.Statement (.vmin g d a b c k) := by
  intro k hk hb
  cases hk
  have hw : Fits [(3, k.toNat), (2, 0), (4, c.toNat), (4, b.toNat), (4, a.toNat), (4, d.toNat), (4, g.toNat), (7, 5)] 32 := .cons (k.isLt) (.cons (by decide) (.cons (c.isLt) (.cons (b.isLt) (.cons (a.isLt) (.cons (d.isLt) (.cons (g.isLt) (.cons (by decide) (.nil))))))))
  have h0 := word_field (lo := 25) 5#7 hw (.up (.up (.up (.up (.up (.up (.up (.here))))))))
  have h1 := word_field (lo := 3) 0#2 hw (.up (.here))
  have h2 := word_field (lo := 21) g hw (.up (.up (.up (.up (.up (.up (.here)))))))
  have h3 := word_field (lo := 17) d hw (.up (.up (.up (.up (.up (.here))))))
  have h4 := word_field (lo := 13) a hw (.up (.up (.up (.up (.here)))))
  have h5 := word_field (lo := 9) b hw (.up (.up (.up (.here))))
  have h6 := word_field (lo := 5) c hw (.up (.up (.here)))
  have h7 := word_field (lo := 0) k hw (.here)
  refine decodeSlot_ok ?_ hb
  show parseV (word (pack [(3, k.toNat), (2, 0), (4, c.toNat), (4, b.toNat), (4, a.toNat), (4, d.toNat), (4, g.toNat), (7, 5)])) = .ok (.vmin g d a b c k)
  generalize word (pack [(3, k.toNat), (2, 0), (4, c.toNat), (4, b.toNat), (4, a.toNat), (4, d.toNat), (4, g.toNat), (7, 5)]) = W at h0 h1 h2 h3 h4 h5 h6 h7 ⊢
  rw [parseV_5 W h0, h1, h2, h3, h4, h5, h6, h7]
  rfl
theorem Encode.vmax (g : BitVec 4) (d : BitVec 4) (a : BitVec 4) (b : BitVec 4) (c : BitVec 4) (k : BitVec 3) : Encode.Statement (.vmax g d a b c k) := by
  intro k hk hb
  cases hk
  have hw : Fits [(3, k.toNat), (2, 0), (4, c.toNat), (4, b.toNat), (4, a.toNat), (4, d.toNat), (4, g.toNat), (7, 6)] 32 := .cons (k.isLt) (.cons (by decide) (.cons (c.isLt) (.cons (b.isLt) (.cons (a.isLt) (.cons (d.isLt) (.cons (g.isLt) (.cons (by decide) (.nil))))))))
  have h0 := word_field (lo := 25) 6#7 hw (.up (.up (.up (.up (.up (.up (.up (.here))))))))
  have h1 := word_field (lo := 3) 0#2 hw (.up (.here))
  have h2 := word_field (lo := 21) g hw (.up (.up (.up (.up (.up (.up (.here)))))))
  have h3 := word_field (lo := 17) d hw (.up (.up (.up (.up (.up (.here))))))
  have h4 := word_field (lo := 13) a hw (.up (.up (.up (.up (.here)))))
  have h5 := word_field (lo := 9) b hw (.up (.up (.up (.here))))
  have h6 := word_field (lo := 5) c hw (.up (.up (.here)))
  have h7 := word_field (lo := 0) k hw (.here)
  refine decodeSlot_ok ?_ hb
  show parseV (word (pack [(3, k.toNat), (2, 0), (4, c.toNat), (4, b.toNat), (4, a.toNat), (4, d.toNat), (4, g.toNat), (7, 6)])) = .ok (.vmax g d a b c k)
  generalize word (pack [(3, k.toNat), (2, 0), (4, c.toNat), (4, b.toNat), (4, a.toNat), (4, d.toNat), (4, g.toNat), (7, 6)]) = W at h0 h1 h2 h3 h4 h5 h6 h7 ⊢
  rw [parseV_6 W h0, h1, h2, h3, h4, h5, h6, h7]
  rfl
theorem Encode.vabs (g : BitVec 4) (d : BitVec 4) (a : BitVec 4) (c : BitVec 4) (k : BitVec 3) : Encode.Statement (.vabs g d a c k) := by
  intro k hk hb
  cases hk
  have hw : Fits [(3, k.toNat), (2, 0), (4, c.toNat), (4, 0), (4, a.toNat), (4, d.toNat), (4, g.toNat), (7, 7)] 32 := .cons (k.isLt) (.cons (by decide) (.cons (c.isLt) (.cons (by decide) (.cons (a.isLt) (.cons (d.isLt) (.cons (g.isLt) (.cons (by decide) (.nil))))))))
  have h0 := word_field (lo := 25) 7#7 hw (.up (.up (.up (.up (.up (.up (.up (.here))))))))
  have h1 := word_field (lo := 9) 0#4 hw (.up (.up (.up (.here))))
  have h2 := word_field (lo := 3) 0#2 hw (.up (.here))
  have h3 := word_field (lo := 21) g hw (.up (.up (.up (.up (.up (.up (.here)))))))
  have h4 := word_field (lo := 17) d hw (.up (.up (.up (.up (.up (.here))))))
  have h5 := word_field (lo := 13) a hw (.up (.up (.up (.up (.here)))))
  have h6 := word_field (lo := 5) c hw (.up (.up (.here)))
  have h7 := word_field (lo := 0) k hw (.here)
  refine decodeSlot_ok ?_ hb
  show parseV (word (pack [(3, k.toNat), (2, 0), (4, c.toNat), (4, 0), (4, a.toNat), (4, d.toNat), (4, g.toNat), (7, 7)])) = .ok (.vabs g d a c k)
  generalize word (pack [(3, k.toNat), (2, 0), (4, c.toNat), (4, 0), (4, a.toNat), (4, d.toNat), (4, g.toNat), (7, 7)]) = W at h0 h1 h2 h3 h4 h5 h6 h7 ⊢
  rw [parseV_7 W h0, h1, h2, h3, h4, h5, h6, h7]
  rfl
theorem Encode.vcvt (g : BitVec 4) (d : BitVec 4) (a : BitVec 4) (c : BitVec 4) (m : BitVec 2) : Encode.Statement (.vcvt g d a c m) := by
  intro k hk hb
  cases hk
  have hw : Fits [(3, 0), (2, m.toNat), (4, c.toNat), (4, 0), (4, a.toNat), (4, d.toNat), (4, g.toNat), (7, 8)] 32 := .cons (by decide) (.cons (m.isLt) (.cons (c.isLt) (.cons (by decide) (.cons (a.isLt) (.cons (d.isLt) (.cons (g.isLt) (.cons (by decide) (.nil))))))))
  have h0 := word_field (lo := 25) 8#7 hw (.up (.up (.up (.up (.up (.up (.up (.here))))))))
  have h1 := word_field (lo := 9) 0#4 hw (.up (.up (.up (.here))))
  have h2 := word_field (lo := 0) 0#3 hw (.here)
  have h3 := word_field (lo := 21) g hw (.up (.up (.up (.up (.up (.up (.here)))))))
  have h4 := word_field (lo := 17) d hw (.up (.up (.up (.up (.up (.here))))))
  have h5 := word_field (lo := 13) a hw (.up (.up (.up (.up (.here)))))
  have h6 := word_field (lo := 5) c hw (.up (.up (.here)))
  have h7 := word_field (lo := 3) m hw (.up (.here))
  refine decodeSlot_ok ?_ hb
  show parseV (word (pack [(3, 0), (2, m.toNat), (4, c.toNat), (4, 0), (4, a.toNat), (4, d.toNat), (4, g.toNat), (7, 8)])) = .ok (.vcvt g d a c m)
  generalize word (pack [(3, 0), (2, m.toNat), (4, c.toNat), (4, 0), (4, a.toNat), (4, d.toNat), (4, g.toNat), (7, 8)]) = W at h0 h1 h2 h3 h4 h5 h6 h7 ⊢
  rw [parseV_8 W h0, h1, h2, h3, h4, h5, h6, h7]
  rfl
theorem Encode.vsf (g : BitVec 4) (d : BitVec 4) (a : BitVec 4) (f : BitVec 4) (c : BitVec 4) (r : BitVec 1) (k : BitVec 3) : Encode.Statement (.vsf g d a f c r k) := by
  intro k hk hb
  cases hk
  have hw : Fits [(3, k.toNat), (1, r.toNat), (1, 0), (4, c.toNat), (4, f.toNat), (4, a.toNat), (4, d.toNat), (4, g.toNat), (7, 9)] 32 := .cons (k.isLt) (.cons (r.isLt) (.cons (by decide) (.cons (c.isLt) (.cons (f.isLt) (.cons (a.isLt) (.cons (d.isLt) (.cons (g.isLt) (.cons (by decide) (.nil)))))))))
  have h0 := word_field (lo := 25) 9#7 hw (.up (.up (.up (.up (.up (.up (.up (.up (.here)))))))))
  have h1 := word_field (lo := 4) 0#1 hw (.up (.up (.here)))
  have h2 := word_field (lo := 21) g hw (.up (.up (.up (.up (.up (.up (.up (.here))))))))
  have h3 := word_field (lo := 17) d hw (.up (.up (.up (.up (.up (.up (.here)))))))
  have h4 := word_field (lo := 13) a hw (.up (.up (.up (.up (.up (.here))))))
  have h5 := word_field (lo := 9) f hw (.up (.up (.up (.up (.here)))))
  have h6 := word_field (lo := 5) c hw (.up (.up (.up (.here))))
  have h7 := word_field (lo := 3) r hw (.up (.here))
  have h8 := word_field (lo := 0) k hw (.here)
  refine decodeSlot_ok ?_ hb
  show parseV (word (pack [(3, k.toNat), (1, r.toNat), (1, 0), (4, c.toNat), (4, f.toNat), (4, a.toNat), (4, d.toNat), (4, g.toNat), (7, 9)])) = .ok (.vsf g d a f c r k)
  generalize word (pack [(3, k.toNat), (1, r.toNat), (1, 0), (4, c.toNat), (4, f.toNat), (4, a.toNat), (4, d.toNat), (4, g.toNat), (7, 9)]) = W at h0 h1 h2 h3 h4 h5 h6 h7 h8 ⊢
  rw [parseV_9 W h0, h1, h2, h3, h4, h5, h6, h7, h8]
  rfl
theorem Encode.vred (g : BitVec 4) (d : BitVec 4) (a : BitVec 4) (c : BitVec 4) (o : BitVec 2) (k : BitVec 3) : Encode.Statement (.vred g d a c o k) := by
  intro k hk hb
  cases hk
  have hw : Fits [(3, k.toNat), (2, o.toNat), (4, c.toNat), (4, 0), (4, a.toNat), (4, d.toNat), (4, g.toNat), (7, 10)] 32 := .cons (k.isLt) (.cons (o.isLt) (.cons (c.isLt) (.cons (by decide) (.cons (a.isLt) (.cons (d.isLt) (.cons (g.isLt) (.cons (by decide) (.nil))))))))
  have h0 := word_field (lo := 25) 10#7 hw (.up (.up (.up (.up (.up (.up (.up (.here))))))))
  have h1 := word_field (lo := 9) 0#4 hw (.up (.up (.up (.here))))
  have h2 := word_field (lo := 21) g hw (.up (.up (.up (.up (.up (.up (.here)))))))
  have h3 := word_field (lo := 17) d hw (.up (.up (.up (.up (.up (.here))))))
  have h4 := word_field (lo := 13) a hw (.up (.up (.up (.up (.here)))))
  have h5 := word_field (lo := 5) c hw (.up (.up (.here)))
  have h6 := word_field (lo := 3) o hw (.up (.here))
  have h7 := word_field (lo := 0) k hw (.here)
  refine decodeSlot_ok ?_ hb
  show parseV (word (pack [(3, k.toNat), (2, o.toNat), (4, c.toNat), (4, 0), (4, a.toNat), (4, d.toNat), (4, g.toNat), (7, 10)])) = .ok (.vred g d a c o k)
  generalize word (pack [(3, k.toNat), (2, o.toNat), (4, c.toNat), (4, 0), (4, a.toNat), (4, d.toNat), (4, g.toNat), (7, 10)]) = W at h0 h1 h2 h3 h4 h5 h6 h7 ⊢
  rw [parseV_10 W h0, h1, h2, h3, h4, h5, h6, h7]
  rfl
theorem Encode.vscan (g : BitVec 4) (d : BitVec 4) (a : BitVec 4) (c : BitVec 4) (o : BitVec 2) (k : BitVec 3) : Encode.Statement (.vscan g d a c o k) := by
  intro k hk hb
  cases hk
  have hw : Fits [(3, k.toNat), (2, o.toNat), (4, c.toNat), (4, 0), (4, a.toNat), (4, d.toNat), (4, g.toNat), (7, 11)] 32 := .cons (k.isLt) (.cons (o.isLt) (.cons (c.isLt) (.cons (by decide) (.cons (a.isLt) (.cons (d.isLt) (.cons (g.isLt) (.cons (by decide) (.nil))))))))
  have h0 := word_field (lo := 25) 11#7 hw (.up (.up (.up (.up (.up (.up (.up (.here))))))))
  have h1 := word_field (lo := 9) 0#4 hw (.up (.up (.up (.here))))
  have h2 := word_field (lo := 21) g hw (.up (.up (.up (.up (.up (.up (.here)))))))
  have h3 := word_field (lo := 17) d hw (.up (.up (.up (.up (.up (.here))))))
  have h4 := word_field (lo := 13) a hw (.up (.up (.up (.up (.here)))))
  have h5 := word_field (lo := 5) c hw (.up (.up (.here)))
  have h6 := word_field (lo := 3) o hw (.up (.here))
  have h7 := word_field (lo := 0) k hw (.here)
  refine decodeSlot_ok ?_ hb
  show parseV (word (pack [(3, k.toNat), (2, o.toNat), (4, c.toNat), (4, 0), (4, a.toNat), (4, d.toNat), (4, g.toNat), (7, 11)])) = .ok (.vscan g d a c o k)
  generalize word (pack [(3, k.toNat), (2, o.toNat), (4, c.toNat), (4, 0), (4, a.toNat), (4, d.toNat), (4, g.toNat), (7, 11)]) = W at h0 h1 h2 h3 h4 h5 h6 h7 ⊢
  rw [parseV_11 W h0, h1, h2, h3, h4, h5, h6, h7]
  rfl
theorem Encode.vcmp (g : BitVec 4) (d : BitVec 4) (a : BitVec 4) (b : BitVec 4) (c : BitVec 4) (o : BitVec 2) (k : BitVec 3) : Encode.Statement (.vcmp g d a b c o k) := by
  intro k hk hb
  cases hk
  have hw : Fits [(3, k.toNat), (2, o.toNat), (4, c.toNat), (4, b.toNat), (4, a.toNat), (4, d.toNat), (4, g.toNat), (7, 12)] 32 := .cons (k.isLt) (.cons (o.isLt) (.cons (c.isLt) (.cons (b.isLt) (.cons (a.isLt) (.cons (d.isLt) (.cons (g.isLt) (.cons (by decide) (.nil))))))))
  have h0 := word_field (lo := 25) 12#7 hw (.up (.up (.up (.up (.up (.up (.up (.here))))))))
  have h1 := word_field (lo := 21) g hw (.up (.up (.up (.up (.up (.up (.here)))))))
  have h2 := word_field (lo := 17) d hw (.up (.up (.up (.up (.up (.here))))))
  have h3 := word_field (lo := 13) a hw (.up (.up (.up (.up (.here)))))
  have h4 := word_field (lo := 9) b hw (.up (.up (.up (.here))))
  have h5 := word_field (lo := 5) c hw (.up (.up (.here)))
  have h6 := word_field (lo := 3) o hw (.up (.here))
  have h7 := word_field (lo := 0) k hw (.here)
  refine decodeSlot_ok ?_ hb
  show parseV (word (pack [(3, k.toNat), (2, o.toNat), (4, c.toNat), (4, b.toNat), (4, a.toNat), (4, d.toNat), (4, g.toNat), (7, 12)])) = .ok (.vcmp g d a b c o k)
  generalize word (pack [(3, k.toNat), (2, o.toNat), (4, c.toNat), (4, b.toNat), (4, a.toNat), (4, d.toNat), (4, g.toNat), (7, 12)]) = W at h0 h1 h2 h3 h4 h5 h6 h7 ⊢
  rw [parseV_12 W h0, h1, h2, h3, h4, h5, h6, h7]
theorem Encode.vsel (g : BitVec 4) (d : BitVec 4) (a : BitVec 4) (b : BitVec 4) (c : BitVec 4) (k : BitVec 3) : Encode.Statement (.vsel g d a b c k) := by
  intro k hk hb
  cases hk
  have hw : Fits [(3, k.toNat), (2, 0), (4, c.toNat), (4, b.toNat), (4, a.toNat), (4, d.toNat), (4, g.toNat), (7, 13)] 32 := .cons (k.isLt) (.cons (by decide) (.cons (c.isLt) (.cons (b.isLt) (.cons (a.isLt) (.cons (d.isLt) (.cons (g.isLt) (.cons (by decide) (.nil))))))))
  have h0 := word_field (lo := 25) 13#7 hw (.up (.up (.up (.up (.up (.up (.up (.here))))))))
  have h1 := word_field (lo := 3) 0#2 hw (.up (.here))
  have h2 := word_field (lo := 21) g hw (.up (.up (.up (.up (.up (.up (.here)))))))
  have h3 := word_field (lo := 17) d hw (.up (.up (.up (.up (.up (.here))))))
  have h4 := word_field (lo := 13) a hw (.up (.up (.up (.up (.here)))))
  have h5 := word_field (lo := 9) b hw (.up (.up (.up (.here))))
  have h6 := word_field (lo := 5) c hw (.up (.up (.here)))
  have h7 := word_field (lo := 0) k hw (.here)
  refine decodeSlot_ok ?_ hb
  show parseV (word (pack [(3, k.toNat), (2, 0), (4, c.toNat), (4, b.toNat), (4, a.toNat), (4, d.toNat), (4, g.toNat), (7, 13)])) = .ok (.vsel g d a b c k)
  generalize word (pack [(3, k.toNat), (2, 0), (4, c.toNat), (4, b.toNat), (4, a.toNat), (4, d.toNat), (4, g.toNat), (7, 13)]) = W at h0 h1 h2 h3 h4 h5 h6 h7 ⊢
  rw [parseV_13 W h0, h1, h2, h3, h4, h5, h6, h7]
  rfl
theorem Encode.vmov (g : BitVec 4) (d : BitVec 4) (a : BitVec 4) (c : BitVec 4) (k : BitVec 3) : Encode.Statement (.vmov g d a c k) := by
  intro k hk hb
  cases hk
  have hw : Fits [(3, k.toNat), (2, 0), (4, c.toNat), (4, 0), (4, a.toNat), (4, d.toNat), (4, g.toNat), (7, 14)] 32 := .cons (k.isLt) (.cons (by decide) (.cons (c.isLt) (.cons (by decide) (.cons (a.isLt) (.cons (d.isLt) (.cons (g.isLt) (.cons (by decide) (.nil))))))))
  have h0 := word_field (lo := 25) 14#7 hw (.up (.up (.up (.up (.up (.up (.up (.here))))))))
  have h1 := word_field (lo := 9) 0#4 hw (.up (.up (.up (.here))))
  have h2 := word_field (lo := 3) 0#2 hw (.up (.here))
  have h3 := word_field (lo := 21) g hw (.up (.up (.up (.up (.up (.up (.here)))))))
  have h4 := word_field (lo := 17) d hw (.up (.up (.up (.up (.up (.here))))))
  have h5 := word_field (lo := 13) a hw (.up (.up (.up (.up (.here)))))
  have h6 := word_field (lo := 5) c hw (.up (.up (.here)))
  have h7 := word_field (lo := 0) k hw (.here)
  refine decodeSlot_ok ?_ hb
  show parseV (word (pack [(3, k.toNat), (2, 0), (4, c.toNat), (4, 0), (4, a.toNat), (4, d.toNat), (4, g.toNat), (7, 14)])) = .ok (.vmov g d a c k)
  generalize word (pack [(3, k.toNat), (2, 0), (4, c.toNat), (4, 0), (4, a.toNat), (4, d.toNat), (4, g.toNat), (7, 14)]) = W at h0 h1 h2 h3 h4 h5 h6 h7 ⊢
  rw [parseV_14 W h0, h1, h2, h3, h4, h5, h6, h7]
  rfl
theorem Encode.vfill (g : BitVec 4) (d : BitVec 4) (i : BitVec 8) (c : BitVec 4) : Encode.Statement (.vfill g d i c) := by
  intro k hk hb
  cases hk
  have hw : Fits [(5, 0), (4, c.toNat), (8, i.toNat), (4, d.toNat), (4, g.toNat), (7, 15)] 32 := .cons (by decide) (.cons (c.isLt) (.cons (i.isLt) (.cons (d.isLt) (.cons (g.isLt) (.cons (by decide) (.nil))))))
  have h0 := word_field (lo := 25) 15#7 hw (.up (.up (.up (.up (.up (.here))))))
  have h1 := word_field (lo := 0) 0#5 hw (.here)
  have h2 := word_field (lo := 21) g hw (.up (.up (.up (.up (.here)))))
  have h3 := word_field (lo := 17) d hw (.up (.up (.up (.here))))
  have h4 := word_field (lo := 9) i hw (.up (.up (.here)))
  have h5 := word_field (lo := 5) c hw (.up (.here))
  refine decodeSlot_ok ?_ hb
  show parseV (word (pack [(5, 0), (4, c.toNat), (8, i.toNat), (4, d.toNat), (4, g.toNat), (7, 15)])) = .ok (.vfill g d i c)
  generalize word (pack [(5, 0), (4, c.toNat), (8, i.toNat), (4, d.toNat), (4, g.toNat), (7, 15)]) = W at h0 h1 h2 h3 h4 h5 ⊢
  rw [parseV_15 W h0, h1, h2, h3, h4, h5]
  rfl
theorem Encode.vdot (g : BitVec 4) (d : BitVec 4) (a : BitVec 4) (b : BitVec 4) (c : BitVec 4) (k : BitVec 3) : Encode.Statement (.vdot g d a b c k) := by
  intro k hk hb
  cases hk
  have hw : Fits [(3, k.toNat), (2, 0), (4, c.toNat), (4, b.toNat), (4, a.toNat), (4, d.toNat), (4, g.toNat), (7, 16)] 32 := .cons (k.isLt) (.cons (by decide) (.cons (c.isLt) (.cons (b.isLt) (.cons (a.isLt) (.cons (d.isLt) (.cons (g.isLt) (.cons (by decide) (.nil))))))))
  have h0 := word_field (lo := 25) 16#7 hw (.up (.up (.up (.up (.up (.up (.up (.here))))))))
  have h1 := word_field (lo := 3) 0#2 hw (.up (.here))
  have h2 := word_field (lo := 21) g hw (.up (.up (.up (.up (.up (.up (.here)))))))
  have h3 := word_field (lo := 17) d hw (.up (.up (.up (.up (.up (.here))))))
  have h4 := word_field (lo := 13) a hw (.up (.up (.up (.up (.here)))))
  have h5 := word_field (lo := 9) b hw (.up (.up (.up (.here))))
  have h6 := word_field (lo := 5) c hw (.up (.up (.here)))
  have h7 := word_field (lo := 0) k hw (.here)
  refine decodeSlot_ok ?_ hb
  show parseV (word (pack [(3, k.toNat), (2, 0), (4, c.toNat), (4, b.toNat), (4, a.toNat), (4, d.toNat), (4, g.toNat), (7, 16)])) = .ok (.vdot g d a b c k)
  generalize word (pack [(3, k.toNat), (2, 0), (4, c.toNat), (4, b.toNat), (4, a.toNat), (4, d.toNat), (4, g.toNat), (7, 16)]) = W at h0 h1 h2 h3 h4 h5 h6 h7 ⊢
  rw [parseV_16 W h0, h1, h2, h3, h4, h5, h6, h7]
  rfl
theorem Encode.tdecv (g : BitVec 4) (d : BitVec 4) (a : BitVec 4) (c : BitVec 4) : Encode.Statement (.tdecv g d a c) := by
  intro k hk hb
  cases hk
  have hw : Fits [(5, 0), (4, c.toNat), (4, 0), (4, a.toNat), (4, d.toNat), (4, g.toNat), (7, 17)] 32 := .cons (by decide) (.cons (c.isLt) (.cons (by decide) (.cons (a.isLt) (.cons (d.isLt) (.cons (g.isLt) (.cons (by decide) (.nil)))))))
  have h0 := word_field (lo := 25) 17#7 hw (.up (.up (.up (.up (.up (.up (.here)))))))
  have h1 := word_field (lo := 9) 0#4 hw (.up (.up (.here)))
  have h2 := word_field (lo := 0) 0#5 hw (.here)
  have h3 := word_field (lo := 21) g hw (.up (.up (.up (.up (.up (.here))))))
  have h4 := word_field (lo := 17) d hw (.up (.up (.up (.up (.here)))))
  have h5 := word_field (lo := 13) a hw (.up (.up (.up (.here))))
  have h6 := word_field (lo := 5) c hw (.up (.here))
  refine decodeSlot_ok ?_ hb
  show parseV (word (pack [(5, 0), (4, c.toNat), (4, 0), (4, a.toNat), (4, d.toNat), (4, g.toNat), (7, 17)])) = .ok (.tdecv g d a c)
  generalize word (pack [(5, 0), (4, c.toNat), (4, 0), (4, a.toNat), (4, d.toNat), (4, g.toNat), (7, 17)]) = W at h0 h1 h2 h3 h4 h5 h6 ⊢
  rw [parseV_17 W h0, h1, h2, h3, h4, h5, h6]
  rfl
theorem Encode.vqacc (g : BitVec 4) (q : BitVec 4) (a : BitVec 4) (b : BitVec 4) (c : BitVec 4) : Encode.Statement (.vqacc g q a b c) := by
  intro k hk hb
  cases hk
  have hw : Fits [(3, 0), (1, 0), (1, 0), (4, c.toNat), (4, b.toNat), (4, a.toNat), (4, q.toNat), (4, g.toNat), (7, 18)] 32 := .cons (by decide) (.cons (by decide) (.cons (by decide) (.cons (c.isLt) (.cons (b.isLt) (.cons (a.isLt) (.cons (q.isLt) (.cons (g.isLt) (.cons (by decide) (.nil)))))))))
  have h0 := word_field (lo := 25) 18#7 hw (.up (.up (.up (.up (.up (.up (.up (.up (.here)))))))))
  have h1 := word_field (lo := 3) 0#1 hw (.up (.here))
  have h2 := word_field (lo := 4) 0#1 hw (.up (.up (.here)))
  have h3 := word_field (lo := 0) 0#3 hw (.here)
  have h4 := word_field (lo := 21) g hw (.up (.up (.up (.up (.up (.up (.up (.here))))))))
  have h5 := word_field (lo := 17) q hw (.up (.up (.up (.up (.up (.up (.here)))))))
  have h6 := word_field (lo := 13) a hw (.up (.up (.up (.up (.up (.here))))))
  have h7 := word_field (lo := 9) b hw (.up (.up (.up (.up (.here)))))
  have h8 := word_field (lo := 5) c hw (.up (.up (.up (.here))))
  refine decodeSlot_ok ?_ hb
  show parseV (word (pack [(3, 0), (1, 0), (1, 0), (4, c.toNat), (4, b.toNat), (4, a.toNat), (4, q.toNat), (4, g.toNat), (7, 18)])) = .ok (.vqacc g q a b c)
  generalize word (pack [(3, 0), (1, 0), (1, 0), (4, c.toNat), (4, b.toNat), (4, a.toNat), (4, q.toNat), (4, g.toNat), (7, 18)]) = W at h0 h1 h2 h3 h4 h5 h6 h7 h8 ⊢
  rw [parseV_18 W h0, h1, h2, h3, h4, h5, h6, h7, h8]
  rfl
theorem Encode.vqaccS (g : BitVec 4) (q : BitVec 4) (a : BitVec 4) (c : BitVec 4) : Encode.Statement (.vqaccS g q a c) := by
  intro k hk hb
  cases hk
  have hw : Fits [(3, 0), (1, 1), (1, 0), (4, c.toNat), (4, 0), (4, a.toNat), (4, q.toNat), (4, g.toNat), (7, 18)] 32 := .cons (by decide) (.cons (by decide) (.cons (by decide) (.cons (c.isLt) (.cons (by decide) (.cons (a.isLt) (.cons (q.isLt) (.cons (g.isLt) (.cons (by decide) (.nil)))))))))
  have h0 := word_field (lo := 25) 18#7 hw (.up (.up (.up (.up (.up (.up (.up (.up (.here)))))))))
  have h1 := word_field (lo := 3) 1#1 hw (.up (.here))
  have h2 := word_field (lo := 9) 0#4 hw (.up (.up (.up (.up (.here)))))
  have h3 := word_field (lo := 4) 0#1 hw (.up (.up (.here)))
  have h4 := word_field (lo := 0) 0#3 hw (.here)
  have h5 := word_field (lo := 21) g hw (.up (.up (.up (.up (.up (.up (.up (.here))))))))
  have h6 := word_field (lo := 17) q hw (.up (.up (.up (.up (.up (.up (.here)))))))
  have h7 := word_field (lo := 13) a hw (.up (.up (.up (.up (.up (.here))))))
  have h8 := word_field (lo := 5) c hw (.up (.up (.up (.here))))
  refine decodeSlot_ok ?_ hb
  show parseV (word (pack [(3, 0), (1, 1), (1, 0), (4, c.toNat), (4, 0), (4, a.toNat), (4, q.toNat), (4, g.toNat), (7, 18)])) = .ok (.vqaccS g q a c)
  generalize word (pack [(3, 0), (1, 1), (1, 0), (4, c.toNat), (4, 0), (4, a.toNat), (4, q.toNat), (4, g.toNat), (7, 18)]) = W at h0 h1 h2 h3 h4 h5 h6 h7 h8 ⊢
  rw [parseV_18 W h0, h1, h2, h3, h4, h5, h6, h7, h8]
  rfl
theorem Encode.vqrd (g : BitVec 4) (d : BitVec 4) (q : BitVec 4) (c : BitVec 4) : Encode.Statement (.vqrd g d q c) := by
  intro k hk hb
  cases hk
  have hw : Fits [(1, 0), (4, 0), (4, c.toNat), (4, 0), (4, q.toNat), (4, d.toNat), (4, g.toNat), (7, 19)] 32 := .cons (by decide) (.cons (by decide) (.cons (c.isLt) (.cons (by decide) (.cons (q.isLt) (.cons (d.isLt) (.cons (g.isLt) (.cons (by decide) (.nil))))))))
  have h0 := word_field (lo := 25) 19#7 hw (.up (.up (.up (.up (.up (.up (.up (.here))))))))
  have h1 := word_field (lo := 0) 0#1 hw (.here)
  have h2 := word_field (lo := 9) 0#4 hw (.up (.up (.up (.here))))
  have h3 := word_field (lo := 1) 0#4 hw (.up (.here))
  have h4 := word_field (lo := 21) g hw (.up (.up (.up (.up (.up (.up (.here)))))))
  have h5 := word_field (lo := 17) d hw (.up (.up (.up (.up (.up (.here))))))
  have h6 := word_field (lo := 13) q hw (.up (.up (.up (.up (.here)))))
  have h7 := word_field (lo := 5) c hw (.up (.up (.here)))
  refine decodeSlot_ok ?_ hb
  show parseV (word (pack [(1, 0), (4, 0), (4, c.toNat), (4, 0), (4, q.toNat), (4, d.toNat), (4, g.toNat), (7, 19)])) = .ok (.vqrd g d q c)
  generalize word (pack [(1, 0), (4, 0), (4, c.toNat), (4, 0), (4, q.toNat), (4, d.toNat), (4, g.toNat), (7, 19)]) = W at h0 h1 h2 h3 h4 h5 h6 h7 ⊢
  rw [parseV_19 W h0, h1, h2, h3, h4, h5, h6, h7]
  rfl
theorem Encode.vqrdZ (g : BitVec 4) (d : BitVec 4) (q : BitVec 4) (c : BitVec 4) : Encode.Statement (.vqrdZ g d q c) := by
  intro k hk hb
  cases hk
  have hw : Fits [(1, 1), (4, 0), (4, c.toNat), (4, 0), (4, q.toNat), (4, d.toNat), (4, g.toNat), (7, 19)] 32 := .cons (by decide) (.cons (by decide) (.cons (c.isLt) (.cons (by decide) (.cons (q.isLt) (.cons (d.isLt) (.cons (g.isLt) (.cons (by decide) (.nil))))))))
  have h0 := word_field (lo := 25) 19#7 hw (.up (.up (.up (.up (.up (.up (.up (.here))))))))
  have h1 := word_field (lo := 0) 1#1 hw (.here)
  have h2 := word_field (lo := 9) 0#4 hw (.up (.up (.up (.here))))
  have h3 := word_field (lo := 1) 0#4 hw (.up (.here))
  have h4 := word_field (lo := 21) g hw (.up (.up (.up (.up (.up (.up (.here)))))))
  have h5 := word_field (lo := 17) d hw (.up (.up (.up (.up (.up (.here))))))
  have h6 := word_field (lo := 13) q hw (.up (.up (.up (.up (.here)))))
  have h7 := word_field (lo := 5) c hw (.up (.up (.here)))
  refine decodeSlot_ok ?_ hb
  show parseV (word (pack [(1, 1), (4, 0), (4, c.toNat), (4, 0), (4, q.toNat), (4, d.toNat), (4, g.toNat), (7, 19)])) = .ok (.vqrdZ g d q c)
  generalize word (pack [(1, 1), (4, 0), (4, c.toNat), (4, 0), (4, q.toNat), (4, d.toNat), (4, g.toNat), (7, 19)]) = W at h0 h1 h2 h3 h4 h5 h6 h7 ⊢
  rw [parseV_19 W h0, h1, h2, h3, h4, h5, h6, h7]
  rfl
theorem Encode.vqclr (g : BitVec 4) (q : BitVec 4) (w : BitVec 2) : Encode.Statement (.vqclr g q w) := by
  intro k hk hb
  cases hk
  have hw : Fits [(2, w.toNat), (3, 0), (4, 0), (4, 0), (4, 0), (4, q.toNat), (4, g.toNat), (7, 20)] 32 := .cons (w.isLt) (.cons (by decide) (.cons (by decide) (.cons (by decide) (.cons (by decide) (.cons (q.isLt) (.cons (g.isLt) (.cons (by decide) (.nil))))))))
  have h0 := word_field (lo := 25) 20#7 hw (.up (.up (.up (.up (.up (.up (.up (.here))))))))
  have h1 := word_field (lo := 13) 0#4 hw (.up (.up (.up (.up (.here)))))
  have h2 := word_field (lo := 9) 0#4 hw (.up (.up (.up (.here))))
  have h3 := word_field (lo := 5) 0#4 hw (.up (.up (.here)))
  have h4 := word_field (lo := 2) 0#3 hw (.up (.here))
  have h5 := word_field (lo := 21) g hw (.up (.up (.up (.up (.up (.up (.here)))))))
  have h6 := word_field (lo := 17) q hw (.up (.up (.up (.up (.up (.here))))))
  have h7 := word_field (lo := 0) w hw (.here)
  refine decodeSlot_ok ?_ hb
  show parseV (word (pack [(2, w.toNat), (3, 0), (4, 0), (4, 0), (4, 0), (4, q.toNat), (4, g.toNat), (7, 20)])) = .ok (.vqclr g q w)
  generalize word (pack [(2, w.toNat), (3, 0), (4, 0), (4, 0), (4, 0), (4, q.toNat), (4, g.toNat), (7, 20)]) = W at h0 h1 h2 h3 h4 h5 h6 h7 ⊢
  rw [parseV_20 W h0, h1, h2, h3, h4, h5, h6, h7]
  rfl
theorem Encode.vloop (g : BitVec 4) (n : BitVec 4) (k : BitVec 16) : Encode.Statement (.vloop g n k) := by
  intro k hk hb
  cases hk
  have hw : Fits [(1, 0), (16, k.toNat), (4, n.toNat), (4, g.toNat), (7, 21)] 32 := .cons (by decide) (.cons (k.isLt) (.cons (n.isLt) (.cons (g.isLt) (.cons (by decide) (.nil)))))
  have h0 := word_field (lo := 25) 21#7 hw (.up (.up (.up (.up (.here)))))
  have h1 := word_field (lo := 0) 0#1 hw (.here)
  have h2 := word_field (lo := 21) g hw (.up (.up (.up (.here))))
  have h3 := word_field (lo := 17) n hw (.up (.up (.here)))
  have h4 := word_field (lo := 1) k hw (.up (.here))
  refine decodeSlot_ok ?_ hb
  show parseV (word (pack [(1, 0), (16, k.toNat), (4, n.toNat), (4, g.toNat), (7, 21)])) = .ok (.vloop g n k)
  generalize word (pack [(1, 0), (16, k.toNat), (4, n.toNat), (4, g.toNat), (7, 21)]) = W at h0 h1 h2 h3 h4 ⊢
  rw [parseV_21 W h0, h1, h2, h3, h4]
  rfl
theorem Encode.vsync (g : BitVec 4) (m : BitVec 16) : Encode.Statement (.vsync g m) := by
  intro k hk hb
  cases hk
  have hw : Fits [(4, 0), (1, 0), (16, m.toNat), (4, g.toNat), (7, 22)] 32 := .cons (by decide) (.cons (by decide) (.cons (m.isLt) (.cons (g.isLt) (.cons (by decide) (.nil)))))
  have h0 := word_field (lo := 25) 22#7 hw (.up (.up (.up (.up (.here)))))
  have h1 := word_field (lo := 4) 0#1 hw (.up (.here))
  have h2 := word_field (lo := 0) 0#4 hw (.here)
  have h3 := word_field (lo := 21) g hw (.up (.up (.up (.here))))
  have h4 := word_field (lo := 5) m hw (.up (.up (.here)))
  refine decodeSlot_ok ?_ hb
  show parseV (word (pack [(4, 0), (1, 0), (16, m.toNat), (4, g.toNat), (7, 22)])) = .ok (.vsync g m)
  generalize word (pack [(4, 0), (1, 0), (16, m.toNat), (4, g.toNat), (7, 22)]) = W at h0 h1 h2 h3 h4 ⊢
  rw [parseV_22 W h0, h1, h2, h3, h4]
  rfl
theorem Encode.vsyncT (g : BitVec 4) (m : BitVec 16) (h : BitVec 4) : Encode.Statement (.vsyncT g m h) := by
  intro k hk hb
  cases hk
  have hw : Fits [(4, h.toNat), (1, 1), (16, m.toNat), (4, g.toNat), (7, 22)] 32 := .cons (h.isLt) (.cons (by decide) (.cons (m.isLt) (.cons (g.isLt) (.cons (by decide) (.nil)))))
  have h0 := word_field (lo := 25) 22#7 hw (.up (.up (.up (.up (.here)))))
  have h1 := word_field (lo := 4) 1#1 hw (.up (.here))
  have h2 := word_field (lo := 21) g hw (.up (.up (.up (.here))))
  have h3 := word_field (lo := 5) m hw (.up (.up (.here)))
  have h4 := word_field (lo := 0) h hw (.here)
  refine decodeSlot_ok ?_ hb
  show parseV (word (pack [(4, h.toNat), (1, 1), (16, m.toNat), (4, g.toNat), (7, 22)])) = .ok (.vsyncT g m h)
  generalize word (pack [(4, h.toNat), (1, 1), (16, m.toNat), (4, g.toNat), (7, 22)]) = W at h0 h1 h2 h3 h4 ⊢
  rw [parseV_22 W h0, h1, h2, h3, h4]
  rfl
theorem Encode.chs (g : BitVec 4) (e : BitVec 4) (s : BitVec 4) (c : BitVec 4) : Encode.Statement (.chs g e s c) := by
  intro k hk hb
  cases hk
  have hw : Fits [(5, 0), (4, c.toNat), (4, 0), (4, s.toNat), (4, e.toNat), (4, g.toNat), (7, 32)] 32 := .cons (by decide) (.cons (c.isLt) (.cons (by decide) (.cons (s.isLt) (.cons (e.isLt) (.cons (g.isLt) (.cons (by decide) (.nil)))))))
  have h0 := word_field (lo := 25) 32#7 hw (.up (.up (.up (.up (.up (.up (.here)))))))
  have h1 := word_field (lo := 9) 0#4 hw (.up (.up (.here)))
  have h2 := word_field (lo := 0) 0#5 hw (.here)
  have h3 := word_field (lo := 21) g hw (.up (.up (.up (.up (.up (.here))))))
  have h4 := word_field (lo := 17) e hw (.up (.up (.up (.up (.here)))))
  have h5 := word_field (lo := 13) s hw (.up (.up (.up (.here))))
  have h6 := word_field (lo := 5) c hw (.up (.here))
  refine decodeSlot_ok ?_ hb
  show parseV (word (pack [(5, 0), (4, c.toNat), (4, 0), (4, s.toNat), (4, e.toNat), (4, g.toNat), (7, 32)])) = .ok (.chs g e s c)
  generalize word (pack [(5, 0), (4, c.toNat), (4, 0), (4, s.toNat), (4, e.toNat), (4, g.toNat), (7, 32)]) = W at h0 h1 h2 h3 h4 h5 h6 ⊢
  rw [parseV_32 W h0, h1, h2, h3, h4, h5, h6]
  rfl
theorem Encode.chv (g : BitVec 4) (d : BitVec 4) (e : BitVec 4) (c : BitVec 4) : Encode.Statement (.chv g d e c) := by
  intro k hk hb
  cases hk
  have hw : Fits [(5, 0), (4, c.toNat), (4, 0), (4, e.toNat), (4, d.toNat), (4, g.toNat), (7, 33)] 32 := .cons (by decide) (.cons (c.isLt) (.cons (by decide) (.cons (e.isLt) (.cons (d.isLt) (.cons (g.isLt) (.cons (by decide) (.nil)))))))
  have h0 := word_field (lo := 25) 33#7 hw (.up (.up (.up (.up (.up (.up (.here)))))))
  have h1 := word_field (lo := 9) 0#4 hw (.up (.up (.here)))
  have h2 := word_field (lo := 0) 0#5 hw (.here)
  have h3 := word_field (lo := 21) g hw (.up (.up (.up (.up (.up (.here))))))
  have h4 := word_field (lo := 17) d hw (.up (.up (.up (.up (.here)))))
  have h5 := word_field (lo := 13) e hw (.up (.up (.up (.here))))
  have h6 := word_field (lo := 5) c hw (.up (.here))
  refine decodeSlot_ok ?_ hb
  show parseV (word (pack [(5, 0), (4, c.toNat), (4, 0), (4, e.toNat), (4, d.toNat), (4, g.toNat), (7, 33)])) = .ok (.chv g d e c)
  generalize word (pack [(5, 0), (4, c.toNat), (4, 0), (4, e.toNat), (4, d.toNat), (4, g.toNat), (7, 33)]) = W at h0 h1 h2 h3 h4 h5 h6 ⊢
  rw [parseV_33 W h0, h1, h2, h3, h4, h5, h6]
  rfl
theorem Encode.mlease (g : BitVec 4) (n : BitVec 8) : Encode.Statement (.mlease g n) := by
  intro k hk hb
  cases hk
  have hw : Fits [(9, 0), (8, n.toNat), (4, 0), (4, g.toNat), (7, 1)] 32 := .cons (by decide) (.cons (n.isLt) (.cons (by decide) (.cons (g.isLt) (.cons (by decide) (.nil)))))
  have h0 := word_field (lo := 25) 1#7 hw (.up (.up (.up (.up (.here)))))
  have h1 := word_field (lo := 17) 0#4 hw (.up (.up (.here)))
  have h2 := word_field (lo := 0) 0#9 hw (.here)
  have h3 := word_field (lo := 21) g hw (.up (.up (.up (.here))))
  have h4 := word_field (lo := 9) n hw (.up (.here))
  refine decodeSlot_ok ?_ hb
  show parseM (word (pack [(9, 0), (8, n.toNat), (4, 0), (4, g.toNat), (7, 1)])) = .ok (.mlease g n)
  generalize word (pack [(9, 0), (8, n.toNat), (4, 0), (4, g.toNat), (7, 1)]) = W at h0 h1 h2 h3 h4 ⊢
  rw [parseM_1 W h0, h1, h2, h3, h4]
  rfl
theorem Encode.mfree (g : BitVec 4) : Encode.Statement (.mfree g) := by
  intro k hk hb
  cases hk
  have hw : Fits [(5, 0), (4, 0), (4, 0), (4, 0), (4, 0), (4, g.toNat), (7, 2)] 32 := .cons (by decide) (.cons (by decide) (.cons (by decide) (.cons (by decide) (.cons (by decide) (.cons (g.isLt) (.cons (by decide) (.nil)))))))
  have h0 := word_field (lo := 25) 2#7 hw (.up (.up (.up (.up (.up (.up (.here)))))))
  have h1 := word_field (lo := 17) 0#4 hw (.up (.up (.up (.up (.here)))))
  have h2 := word_field (lo := 13) 0#4 hw (.up (.up (.up (.here))))
  have h3 := word_field (lo := 9) 0#4 hw (.up (.up (.here)))
  have h4 := word_field (lo := 5) 0#4 hw (.up (.here))
  have h5 := word_field (lo := 0) 0#5 hw (.here)
  have h6 := word_field (lo := 21) g hw (.up (.up (.up (.up (.up (.here))))))
  refine decodeSlot_ok ?_ hb
  show parseM (word (pack [(5, 0), (4, 0), (4, 0), (4, 0), (4, 0), (4, g.toNat), (7, 2)])) = .ok (.mfree g)
  generalize word (pack [(5, 0), (4, 0), (4, 0), (4, 0), (4, 0), (4, g.toNat), (7, 2)]) = W at h0 h1 h2 h3 h4 h5 h6 ⊢
  rw [parseM_2 W h0, h1, h2, h3, h4, h5, h6]
  rfl
theorem Encode.mcfg (g : BitVec 4) (d : BitVec 4) (s : BitVec 2) (t : BitVec 3) : Encode.Statement (.mcfg g d s t) := by
  intro k hk hb
  cases hk
  have hw : Fits [(3, t.toNat), (2, s.toNat), (4, 0), (4, 0), (2, 0), (2, 0), (4, d.toNat), (4, g.toNat), (7, 3)] 32 := .cons (t.isLt) (.cons (s.isLt) (.cons (by decide) (.cons (by decide) (.cons (by decide) (.cons (by decide) (.cons (d.isLt) (.cons (g.isLt) (.cons (by decide) (.nil)))))))))
  have h0 := word_field (lo := 25) 3#7 hw (.up (.up (.up (.up (.up (.up (.up (.up (.here)))))))))
  have h1 := word_field (lo := 13) 0#2 hw (.up (.up (.up (.up (.here)))))
  have h2 := word_field (lo := 15) 0#2 hw (.up (.up (.up (.up (.up (.here))))))
  have h3 := word_field (lo := 9) 0#4 hw (.up (.up (.up (.here))))
  have h4 := word_field (lo := 5) 0#4 hw (.up (.up (.here)))
  have h5 := word_field (lo := 21) g hw (.up (.up (.up (.up (.up (.up (.up (.here))))))))
  have h6 := word_field (lo := 17) d hw (.up (.up (.up (.up (.up (.up (.here)))))))
  have h7 := word_field (lo := 3) s hw (.up (.here))
  have h8 := word_field (lo := 0) t hw (.here)
  refine decodeSlot_ok ?_ hb
  show parseM (word (pack [(3, t.toNat), (2, s.toNat), (4, 0), (4, 0), (2, 0), (2, 0), (4, d.toNat), (4, g.toNat), (7, 3)])) = .ok (.mcfg g d s t)
  generalize word (pack [(3, t.toNat), (2, s.toNat), (4, 0), (4, 0), (2, 0), (2, 0), (4, d.toNat), (4, g.toNat), (7, 3)]) = W at h0 h1 h2 h3 h4 h5 h6 h7 h8 ⊢
  rw [parseM_3 W h0, h1, h2, h3, h4, h5, h6, h7, h8]
  rfl
theorem Encode.mcfgLd (g : BitVec 4) (d : BitVec 4) (h : BitVec 4) (c : BitVec 4) (s : BitVec 2) (t : BitVec 3) : Encode.Statement (.mcfgLd g d h c s t) := by
  intro k hk hb
  cases hk
  have hw : Fits [(3, t.toNat), (2, s.toNat), (4, c.toNat), (4, h.toNat), (2, 1), (2, 0), (4, d.toNat), (4, g.toNat), (7, 3)] 32 := .cons (t.isLt) (.cons (s.isLt) (.cons (c.isLt) (.cons (h.isLt) (.cons (by decide) (.cons (by decide) (.cons (d.isLt) (.cons (g.isLt) (.cons (by decide) (.nil)))))))))
  have h0 := word_field (lo := 25) 3#7 hw (.up (.up (.up (.up (.up (.up (.up (.up (.here)))))))))
  have h1 := word_field (lo := 13) 1#2 hw (.up (.up (.up (.up (.here)))))
  have h2 := word_field (lo := 15) 0#2 hw (.up (.up (.up (.up (.up (.here))))))
  have h3 := word_field (lo := 21) g hw (.up (.up (.up (.up (.up (.up (.up (.here))))))))
  have h4 := word_field (lo := 17) d hw (.up (.up (.up (.up (.up (.up (.here)))))))
  have h5 := word_field (lo := 9) h hw (.up (.up (.up (.here))))
  have h6 := word_field (lo := 5) c hw (.up (.up (.here)))
  have h7 := word_field (lo := 3) s hw (.up (.here))
  have h8 := word_field (lo := 0) t hw (.here)
  refine decodeSlot_ok ?_ hb
  show parseM (word (pack [(3, t.toNat), (2, s.toNat), (4, c.toNat), (4, h.toNat), (2, 1), (2, 0), (4, d.toNat), (4, g.toNat), (7, 3)])) = .ok (.mcfgLd g d h c s t)
  generalize word (pack [(3, t.toNat), (2, s.toNat), (4, c.toNat), (4, h.toNat), (2, 1), (2, 0), (4, d.toNat), (4, g.toNat), (7, 3)]) = W at h0 h1 h2 h3 h4 h5 h6 h7 h8 ⊢
  rw [parseM_3 W h0, h1, h2, h3, h4, h5, h6, h7, h8]
  rfl
theorem Encode.mcfgAdd (g : BitVec 4) (d : BitVec 4) (h : BitVec 4) (c : BitVec 4) (s : BitVec 2) (t : BitVec 3) : Encode.Statement (.mcfgAdd g d h c s t) := by
  intro k hk hb
  cases hk
  have hw : Fits [(3, t.toNat), (2, s.toNat), (4, c.toNat), (4, h.toNat), (2, 2), (2, 0), (4, d.toNat), (4, g.toNat), (7, 3)] 32 := .cons (t.isLt) (.cons (s.isLt) (.cons (c.isLt) (.cons (h.isLt) (.cons (by decide) (.cons (by decide) (.cons (d.isLt) (.cons (g.isLt) (.cons (by decide) (.nil)))))))))
  have h0 := word_field (lo := 25) 3#7 hw (.up (.up (.up (.up (.up (.up (.up (.up (.here)))))))))
  have h1 := word_field (lo := 13) 2#2 hw (.up (.up (.up (.up (.here)))))
  have h2 := word_field (lo := 15) 0#2 hw (.up (.up (.up (.up (.up (.here))))))
  have h3 := word_field (lo := 21) g hw (.up (.up (.up (.up (.up (.up (.up (.here))))))))
  have h4 := word_field (lo := 17) d hw (.up (.up (.up (.up (.up (.up (.here)))))))
  have h5 := word_field (lo := 9) h hw (.up (.up (.up (.here))))
  have h6 := word_field (lo := 5) c hw (.up (.up (.here)))
  have h7 := word_field (lo := 3) s hw (.up (.here))
  have h8 := word_field (lo := 0) t hw (.here)
  refine decodeSlot_ok ?_ hb
  show parseM (word (pack [(3, t.toNat), (2, s.toNat), (4, c.toNat), (4, h.toNat), (2, 2), (2, 0), (4, d.toNat), (4, g.toNat), (7, 3)])) = .ok (.mcfgAdd g d h c s t)
  generalize word (pack [(3, t.toNat), (2, s.toNat), (4, c.toNat), (4, h.toNat), (2, 2), (2, 0), (4, d.toNat), (4, g.toNat), (7, 3)]) = W at h0 h1 h2 h3 h4 h5 h6 h7 h8 ⊢
  rw [parseM_3 W h0, h1, h2, h3, h4, h5, h6, h7, h8]
  rfl
theorem Encode.mgath (g : BitVec 4) (x : BitVec 1) (i : BitVec 4) (r : BitVec 4) (c : BitVec 4) : Encode.Statement (.mgath g x i r c) := by
  intro k hk hb
  cases hk
  have hw : Fits [(5, 0), (4, c.toNat), (4, r.toNat), (4, i.toNat), (1, x.toNat), (3, 0), (4, g.toNat), (7, 4)] 32 := .cons (by decide) (.cons (c.isLt) (.cons (r.isLt) (.cons (i.isLt) (.cons (x.isLt) (.cons (by decide) (.cons (g.isLt) (.cons (by decide) (.nil))))))))
  have h0 := word_field (lo := 25) 4#7 hw (.up (.up (.up (.up (.up (.up (.up (.here))))))))
  have h1 := word_field (lo := 18) 0#3 hw (.up (.up (.up (.up (.up (.here))))))
  have h2 := word_field (lo := 0) 0#5 hw (.here)
  have h3 := word_field (lo := 21) g hw (.up (.up (.up (.up (.up (.up (.here)))))))
  have h4 := word_field (lo := 17) x hw (.up (.up (.up (.up (.here)))))
  have h5 := word_field (lo := 13) i hw (.up (.up (.up (.here))))
  have h6 := word_field (lo := 9) r hw (.up (.up (.here)))
  have h7 := word_field (lo := 5) c hw (.up (.here))
  refine decodeSlot_ok ?_ hb
  show parseM (word (pack [(5, 0), (4, c.toNat), (4, r.toNat), (4, i.toNat), (1, x.toNat), (3, 0), (4, g.toNat), (7, 4)])) = .ok (.mgath g x i r c)
  generalize word (pack [(5, 0), (4, c.toNat), (4, r.toNat), (4, i.toNat), (1, x.toNat), (3, 0), (4, g.toNat), (7, 4)]) = W at h0 h1 h2 h3 h4 h5 h6 h7 ⊢
  rw [parseM_4 W h0, h1, h2, h3, h4, h5, h6, h7]
  rfl
theorem Encode.mlatb (g : BitVec 4) (y : BitVec 1) (b : BitVec 4) (c : BitVec 4) : Encode.Statement (.mlatb g y b c) := by
  intro k hk hb
  cases hk
  have hw : Fits [(5, 0), (4, c.toNat), (4, 0), (4, b.toNat), (1, y.toNat), (3, 0), (4, g.toNat), (7, 5)] 32 := .cons (by decide) (.cons (c.isLt) (.cons (by decide) (.cons (b.isLt) (.cons (y.isLt) (.cons (by decide) (.cons (g.isLt) (.cons (by decide) (.nil))))))))
  have h0 := word_field (lo := 25) 5#7 hw (.up (.up (.up (.up (.up (.up (.up (.here))))))))
  have h1 := word_field (lo := 18) 0#3 hw (.up (.up (.up (.up (.up (.here))))))
  have h2 := word_field (lo := 9) 0#4 hw (.up (.up (.here)))
  have h3 := word_field (lo := 0) 0#5 hw (.here)
  have h4 := word_field (lo := 21) g hw (.up (.up (.up (.up (.up (.up (.here)))))))
  have h5 := word_field (lo := 17) y hw (.up (.up (.up (.up (.here)))))
  have h6 := word_field (lo := 13) b hw (.up (.up (.up (.here))))
  have h7 := word_field (lo := 5) c hw (.up (.here))
  refine decodeSlot_ok ?_ hb
  show parseM (word (pack [(5, 0), (4, c.toNat), (4, 0), (4, b.toNat), (1, y.toNat), (3, 0), (4, g.toNat), (7, 5)])) = .ok (.mlatb g y b c)
  generalize word (pack [(5, 0), (4, c.toNat), (4, 0), (4, b.toNat), (1, y.toNat), (3, 0), (4, g.toNat), (7, 5)]) = W at h0 h1 h2 h3 h4 h5 h6 h7 ⊢
  rw [parseM_5 W h0, h1, h2, h3, h4, h5, h6, h7]
  rfl
theorem Encode.mma (g : BitVec 4) (d : BitVec 4) (m : BitVec 4) (k : BitVec 4) (y : BitVec 1) (x : BitVec 1) : Encode.Statement (.mma g d m k y x) := by
  intro k hk hb
  cases hk
  have hw : Fits [(1, x.toNat), (1, y.toNat), (3, 0), (4, 0), (4, k.toNat), (4, m.toNat), (4, d.toNat), (4, g.toNat), (7, 6)] 32 := .cons (x.isLt) (.cons (y.isLt) (.cons (by decide) (.cons (by decide) (.cons (k.isLt) (.cons (m.isLt) (.cons (d.isLt) (.cons (g.isLt) (.cons (by decide) (.nil)))))))))
  have h0 := word_field (lo := 25) 6#7 hw (.up (.up (.up (.up (.up (.up (.up (.up (.here)))))))))
  have h1 := word_field (lo := 5) 0#4 hw (.up (.up (.up (.here))))
  have h2 := word_field (lo := 2) 0#3 hw (.up (.up (.here)))
  have h3 := word_field (lo := 21) g hw (.up (.up (.up (.up (.up (.up (.up (.here))))))))
  have h4 := word_field (lo := 17) d hw (.up (.up (.up (.up (.up (.up (.here)))))))
  have h5 := word_field (lo := 13) m hw (.up (.up (.up (.up (.up (.here))))))
  have h6 := word_field (lo := 9) k hw (.up (.up (.up (.up (.here)))))
  have h7 := word_field (lo := 1) y hw (.up (.here))
  have h8 := word_field (lo := 0) x hw (.here)
  refine decodeSlot_ok ?_ hb
  show parseM (word (pack [(1, x.toNat), (1, y.toNat), (3, 0), (4, 0), (4, k.toNat), (4, m.toNat), (4, d.toNat), (4, g.toNat), (7, 6)])) = .ok (.mma g d m k y x)
  generalize word (pack [(1, x.toNat), (1, y.toNat), (3, 0), (4, 0), (4, k.toNat), (4, m.toNat), (4, d.toNat), (4, g.toNat), (7, 6)]) = W at h0 h1 h2 h3 h4 h5 h6 h7 h8 ⊢
  rw [parseM_6 W h0, h1, h2, h3, h4, h5, h6, h7, h8]
  rfl
theorem Encode.mmas (g : BitVec 4) (d : BitVec 4) (m : BitVec 4) (k : BitVec 4) (j : BitVec 2) (x : BitVec 1) : Encode.Statement (.mmas g d m k j x) := by
  intro k hk hb
  cases hk
  have hw : Fits [(1, x.toNat), (1, 0), (2, j.toNat), (1, 0), (4, 0), (4, k.toNat), (4, m.toNat), (4, d.toNat), (4, g.toNat), (7, 7)] 32 := .cons (x.isLt) (.cons (by decide) (.cons (j.isLt) (.cons (by decide) (.cons (by decide) (.cons (k.isLt) (.cons (m.isLt) (.cons (d.isLt) (.cons (g.isLt) (.cons (by decide) (.nil))))))))))
  have h0 := word_field (lo := 25) 7#7 hw (.up (.up (.up (.up (.up (.up (.up (.up (.up (.here))))))))))
  have h1 := word_field (lo := 5) 0#4 hw (.up (.up (.up (.up (.here)))))
  have h2 := word_field (lo := 4) 0#1 hw (.up (.up (.up (.here))))
  have h3 := word_field (lo := 1) 0#1 hw (.up (.here))
  have h4 := word_field (lo := 21) g hw (.up (.up (.up (.up (.up (.up (.up (.up (.here)))))))))
  have h5 := word_field (lo := 17) d hw (.up (.up (.up (.up (.up (.up (.up (.here))))))))
  have h6 := word_field (lo := 13) m hw (.up (.up (.up (.up (.up (.up (.here)))))))
  have h7 := word_field (lo := 9) k hw (.up (.up (.up (.up (.up (.here))))))
  have h8 := word_field (lo := 2) j hw (.up (.up (.here)))
  have h9 := word_field (lo := 0) x hw (.here)
  refine decodeSlot_ok ?_ hb
  show parseM (word (pack [(1, x.toNat), (1, 0), (2, j.toNat), (1, 0), (4, 0), (4, k.toNat), (4, m.toNat), (4, d.toNat), (4, g.toNat), (7, 7)])) = .ok (.mmas g d m k j x)
  generalize word (pack [(1, x.toNat), (1, 0), (2, j.toNat), (1, 0), (4, 0), (4, k.toNat), (4, m.toNat), (4, d.toNat), (4, g.toNat), (7, 7)]) = W at h0 h1 h2 h3 h4 h5 h6 h7 h8 h9 ⊢
  rw [parseM_7 W h0, h1, h2, h3, h4, h5, h6, h7, h8, h9]
  rfl
theorem Encode.mst (g : BitVec 4) (t : BitVec 4) (h : BitVec 4) (m : BitVec 4) (c : BitVec 4) : Encode.Statement (.mst g t h m c) := by
  intro k hk hb
  cases hk
  have hw : Fits [(2, 0), (3, 0), (4, c.toNat), (4, m.toNat), (4, h.toNat), (4, t.toNat), (4, g.toNat), (7, 8)] 32 := .cons (by decide) (.cons (by decide) (.cons (c.isLt) (.cons (m.isLt) (.cons (h.isLt) (.cons (t.isLt) (.cons (g.isLt) (.cons (by decide) (.nil))))))))
  have h0 := word_field (lo := 25) 8#7 hw (.up (.up (.up (.up (.up (.up (.up (.here))))))))
  have h1 := word_field (lo := 0) 0#2 hw (.here)
  have h2 := word_field (lo := 2) 0#3 hw (.up (.here))
  have h3 := word_field (lo := 21) g hw (.up (.up (.up (.up (.up (.up (.here)))))))
  have h4 := word_field (lo := 17) t hw (.up (.up (.up (.up (.up (.here))))))
  have h5 := word_field (lo := 13) h hw (.up (.up (.up (.up (.here)))))
  have h6 := word_field (lo := 9) m hw (.up (.up (.up (.here))))
  have h7 := word_field (lo := 5) c hw (.up (.up (.here)))
  refine decodeSlot_ok ?_ hb
  show parseM (word (pack [(2, 0), (3, 0), (4, c.toNat), (4, m.toNat), (4, h.toNat), (4, t.toNat), (4, g.toNat), (7, 8)])) = .ok (.mst g t h m c)
  generalize word (pack [(2, 0), (3, 0), (4, c.toNat), (4, m.toNat), (4, h.toNat), (4, t.toNat), (4, g.toNat), (7, 8)]) = W at h0 h1 h2 h3 h4 h5 h6 h7 ⊢
  rw [parseM_8 W h0, h1, h2, h3, h4, h5, h6, h7]
  rfl
theorem Encode.mstRaw (g : BitVec 4) (t : BitVec 4) (h : BitVec 4) (m : BitVec 4) (c : BitVec 4) : Encode.Statement (.mstRaw g t h m c) := by
  intro k hk hb
  cases hk
  have hw : Fits [(2, 1), (3, 0), (4, c.toNat), (4, m.toNat), (4, h.toNat), (4, t.toNat), (4, g.toNat), (7, 8)] 32 := .cons (by decide) (.cons (by decide) (.cons (c.isLt) (.cons (m.isLt) (.cons (h.isLt) (.cons (t.isLt) (.cons (g.isLt) (.cons (by decide) (.nil))))))))
  have h0 := word_field (lo := 25) 8#7 hw (.up (.up (.up (.up (.up (.up (.up (.here))))))))
  have h1 := word_field (lo := 0) 1#2 hw (.here)
  have h2 := word_field (lo := 2) 0#3 hw (.up (.here))
  have h3 := word_field (lo := 21) g hw (.up (.up (.up (.up (.up (.up (.here)))))))
  have h4 := word_field (lo := 17) t hw (.up (.up (.up (.up (.up (.here))))))
  have h5 := word_field (lo := 13) h hw (.up (.up (.up (.up (.here)))))
  have h6 := word_field (lo := 9) m hw (.up (.up (.up (.here))))
  have h7 := word_field (lo := 5) c hw (.up (.up (.here)))
  refine decodeSlot_ok ?_ hb
  show parseM (word (pack [(2, 1), (3, 0), (4, c.toNat), (4, m.toNat), (4, h.toNat), (4, t.toNat), (4, g.toNat), (7, 8)])) = .ok (.mstRaw g t h m c)
  generalize word (pack [(2, 1), (3, 0), (4, c.toNat), (4, m.toNat), (4, h.toNat), (4, t.toNat), (4, g.toNat), (7, 8)]) = W at h0 h1 h2 h3 h4 h5 h6 h7 ⊢
  rw [parseM_8 W h0, h1, h2, h3, h4, h5, h6, h7]
  rfl
theorem Encode.mstSt (g : BitVec 4) (t : BitVec 4) (h : BitVec 4) : Encode.Statement (.mstSt g t h) := by
  intro k hk hb
  cases hk
  have hw : Fits [(2, 2), (3, 0), (4, 0), (4, 0), (4, h.toNat), (4, t.toNat), (4, g.toNat), (7, 8)] 32 := .cons (by decide) (.cons (by decide) (.cons (by decide) (.cons (by decide) (.cons (h.isLt) (.cons (t.isLt) (.cons (g.isLt) (.cons (by decide) (.nil))))))))
  have h0 := word_field (lo := 25) 8#7 hw (.up (.up (.up (.up (.up (.up (.up (.here))))))))
  have h1 := word_field (lo := 0) 2#2 hw (.here)
  have h2 := word_field (lo := 9) 0#4 hw (.up (.up (.up (.here))))
  have h3 := word_field (lo := 5) 0#4 hw (.up (.up (.here)))
  have h4 := word_field (lo := 2) 0#3 hw (.up (.here))
  have h5 := word_field (lo := 21) g hw (.up (.up (.up (.up (.up (.up (.here)))))))
  have h6 := word_field (lo := 17) t hw (.up (.up (.up (.up (.up (.here))))))
  have h7 := word_field (lo := 13) h hw (.up (.up (.up (.up (.here)))))
  refine decodeSlot_ok ?_ hb
  show parseM (word (pack [(2, 2), (3, 0), (4, 0), (4, 0), (4, h.toNat), (4, t.toNat), (4, g.toNat), (7, 8)])) = .ok (.mstSt g t h)
  generalize word (pack [(2, 2), (3, 0), (4, 0), (4, 0), (4, h.toNat), (4, t.toNat), (4, g.toNat), (7, 8)]) = W at h0 h1 h2 h3 h4 h5 h6 h7 ⊢
  rw [parseM_8 W h0, h1, h2, h3, h4, h5, h6, h7]
  rfl
theorem Encode.mcomp (g : BitVec 4) (d : BitVec 4) (s : BitVec 4) (k : BitVec 2) (c : BitVec 4) : Encode.Statement (.mcomp g d s k c) := by
  intro k hk hb
  cases hk
  have hw : Fits [(5, 0), (4, c.toNat), (2, k.toNat), (2, 0), (4, s.toNat), (4, d.toNat), (4, g.toNat), (7, 9)] 32 := .cons (by decide) (.cons (c.isLt) (.cons (k.isLt) (.cons (by decide) (.cons (s.isLt) (.cons (d.isLt) (.cons (g.isLt) (.cons (by decide) (.nil))))))))
  have h0 := word_field (lo := 25) 9#7 hw (.up (.up (.up (.up (.up (.up (.up (.here))))))))
  have h1 := word_field (lo := 11) 0#2 hw (.up (.up (.up (.here))))
  have h2 := word_field (lo := 0) 0#5 hw (.here)
  have h3 := word_field (lo := 21) g hw (.up (.up (.up (.up (.up (.up (.here)))))))
  have h4 := word_field (lo := 17) d hw (.up (.up (.up (.up (.up (.here))))))
  have h5 := word_field (lo := 13) s hw (.up (.up (.up (.up (.here)))))
  have h6 := word_field (lo := 9) k hw (.up (.up (.here)))
  have h7 := word_field (lo := 5) c hw (.up (.here))
  refine decodeSlot_ok ?_ hb
  show parseM (word (pack [(5, 0), (4, c.toNat), (2, k.toNat), (2, 0), (4, s.toNat), (4, d.toNat), (4, g.toNat), (7, 9)])) = .ok (.mcomp g d s k c)
  generalize word (pack [(5, 0), (4, c.toNat), (2, k.toNat), (2, 0), (4, s.toNat), (4, d.toNat), (4, g.toNat), (7, 9)]) = W at h0 h1 h2 h3 h4 h5 h6 h7 ⊢
  rw [parseM_9 W h0, h1, h2, h3, h4, h5, h6, h7]
  rfl
theorem Encode.mtile (g : BitVec 4) (d : BitVec 4) (x : BitVec 4) (p : BitVec 4) (c : BitVec 4) (z : BitVec 1) (s : BitVec 1) : Encode.Statement (.mtile g d x p c z s) := by
  intro k hk hb
  cases hk
  have hw : Fits [(1, s.toNat), (1, z.toNat), (3, 0), (4, c.toNat), (4, p.toNat), (4, x.toNat), (4, d.toNat), (4, g.toNat), (7, 10)] 32 := .cons (s.isLt) (.cons (z.isLt) (.cons (by decide) (.cons (c.isLt) (.cons (p.isLt) (.cons (x.isLt) (.cons (d.isLt) (.cons (g.isLt) (.cons (by decide) (.nil)))))))))
  have h0 := word_field (lo := 25) 10#7 hw (.up (.up (.up (.up (.up (.up (.up (.up (.here)))))))))
  have h1 := word_field (lo := 2) 0#3 hw (.up (.up (.here)))
  have h2 := word_field (lo := 21) g hw (.up (.up (.up (.up (.up (.up (.up (.here))))))))
  have h3 := word_field (lo := 17) d hw (.up (.up (.up (.up (.up (.up (.here)))))))
  have h4 := word_field (lo := 13) x hw (.up (.up (.up (.up (.up (.here))))))
  have h5 := word_field (lo := 9) p hw (.up (.up (.up (.up (.here)))))
  have h6 := word_field (lo := 5) c hw (.up (.up (.up (.here))))
  have h7 := word_field (lo := 1) z hw (.up (.here))
  have h8 := word_field (lo := 0) s hw (.here)
  refine decodeSlot_ok ?_ hb
  show parseM (word (pack [(1, s.toNat), (1, z.toNat), (3, 0), (4, c.toNat), (4, p.toNat), (4, x.toNat), (4, d.toNat), (4, g.toNat), (7, 10)])) = .ok (.mtile g d x p c z s)
  generalize word (pack [(1, s.toNat), (1, z.toNat), (3, 0), (4, c.toNat), (4, p.toNat), (4, x.toNat), (4, d.toNat), (4, g.toNat), (7, 10)]) = W at h0 h1 h2 h3 h4 h5 h6 h7 h8 ⊢
  rw [parseM_10 W h0, h1, h2, h3, h4, h5, h6, h7, h8]
  rfl
theorem Encode.mwalk (g : BitVec 4) (d : BitVec 4) (x : BitVec 4) (p : BitVec 4) (c : BitVec 4) : Encode.Statement (.mwalk g d x p c) := by
  intro k hk hb
  cases hk
  have hw : Fits [(5, 0), (4, c.toNat), (4, p.toNat), (4, x.toNat), (4, d.toNat), (4, g.toNat), (7, 11)] 32 := .cons (by decide) (.cons (c.isLt) (.cons (p.isLt) (.cons (x.isLt) (.cons (d.isLt) (.cons (g.isLt) (.cons (by decide) (.nil)))))))
  have h0 := word_field (lo := 25) 11#7 hw (.up (.up (.up (.up (.up (.up (.here)))))))
  have h1 := word_field (lo := 0) 0#5 hw (.here)
  have h2 := word_field (lo := 21) g hw (.up (.up (.up (.up (.up (.here))))))
  have h3 := word_field (lo := 17) d hw (.up (.up (.up (.up (.here)))))
  have h4 := word_field (lo := 13) x hw (.up (.up (.up (.here))))
  have h5 := word_field (lo := 9) p hw (.up (.up (.here)))
  have h6 := word_field (lo := 5) c hw (.up (.here))
  refine decodeSlot_ok ?_ hb
  show parseM (word (pack [(5, 0), (4, c.toNat), (4, p.toNat), (4, x.toNat), (4, d.toNat), (4, g.toNat), (7, 11)])) = .ok (.mwalk g d x p c)
  generalize word (pack [(5, 0), (4, c.toNat), (4, p.toNat), (4, x.toNat), (4, d.toNat), (4, g.toNat), (7, 11)]) = W at h0 h1 h2 h3 h4 h5 h6 ⊢
  rw [parseM_11 W h0, h1, h2, h3, h4, h5, h6]
  rfl
theorem Encode.mdld (g : BitVec 4) (k : BitVec 2) (a : BitVec 4) (c : BitVec 4) : Encode.Statement (.mdld g k a c) := by
  intro k hk hb
  cases hk
  have hw : Fits [(5, 0), (4, c.toNat), (4, 0), (4, a.toNat), (2, k.toNat), (2, 0), (4, g.toNat), (7, 12)] 32 := .cons (by decide) (.cons (c.isLt) (.cons (by decide) (.cons (a.isLt) (.cons (k.isLt) (.cons (by decide) (.cons (g.isLt) (.cons (by decide) (.nil))))))))
  have h0 := word_field (lo := 25) 12#7 hw (.up (.up (.up (.up (.up (.up (.up (.here))))))))
  have h1 := word_field (lo := 19) 0#2 hw (.up (.up (.up (.up (.up (.here))))))
  have h2 := word_field (lo := 9) 0#4 hw (.up (.up (.here)))
  have h3 := word_field (lo := 0) 0#5 hw (.here)
  have h4 := word_field (lo := 21) g hw (.up (.up (.up (.up (.up (.up (.here)))))))
  have h5 := word_field (lo := 17) k hw (.up (.up (.up (.up (.here)))))
  have h6 := word_field (lo := 13) a hw (.up (.up (.up (.here))))
  have h7 := word_field (lo := 5) c hw (.up (.here))
  refine decodeSlot_ok ?_ hb
  show parseM (word (pack [(5, 0), (4, c.toNat), (4, 0), (4, a.toNat), (2, k.toNat), (2, 0), (4, g.toNat), (7, 12)])) = .ok (.mdld g k a c)
  generalize word (pack [(5, 0), (4, c.toNat), (4, 0), (4, a.toNat), (2, k.toNat), (2, 0), (4, g.toNat), (7, 12)]) = W at h0 h1 h2 h3 h4 h5 h6 h7 ⊢
  rw [parseM_12 W h0, h1, h2, h3, h4, h5, h6, h7]
  rfl
theorem Encode.mdst (g : BitVec 4) (k : BitVec 2) (a : BitVec 4) (c : BitVec 4) : Encode.Statement (.mdst g k a c) := by
  intro k hk hb
  cases hk
  have hw : Fits [(5, 0), (4, c.toNat), (4, 0), (4, a.toNat), (2, k.toNat), (2, 0), (4, g.toNat), (7, 13)] 32 := .cons (by decide) (.cons (c.isLt) (.cons (by decide) (.cons (a.isLt) (.cons (k.isLt) (.cons (by decide) (.cons (g.isLt) (.cons (by decide) (.nil))))))))
  have h0 := word_field (lo := 25) 13#7 hw (.up (.up (.up (.up (.up (.up (.up (.here))))))))
  have h1 := word_field (lo := 19) 0#2 hw (.up (.up (.up (.up (.up (.here))))))
  have h2 := word_field (lo := 9) 0#4 hw (.up (.up (.here)))
  have h3 := word_field (lo := 0) 0#5 hw (.here)
  have h4 := word_field (lo := 21) g hw (.up (.up (.up (.up (.up (.up (.here)))))))
  have h5 := word_field (lo := 17) k hw (.up (.up (.up (.up (.here)))))
  have h6 := word_field (lo := 13) a hw (.up (.up (.up (.here))))
  have h7 := word_field (lo := 5) c hw (.up (.here))
  refine decodeSlot_ok ?_ hb
  show parseM (word (pack [(5, 0), (4, c.toNat), (4, 0), (4, a.toNat), (2, k.toNat), (2, 0), (4, g.toNat), (7, 13)])) = .ok (.mdst g k a c)
  generalize word (pack [(5, 0), (4, c.toNat), (4, 0), (4, a.toNat), (2, k.toNat), (2, 0), (4, g.toNat), (7, 13)]) = W at h0 h1 h2 h3 h4 h5 h6 h7 ⊢
  rw [parseM_13 W h0, h1, h2, h3, h4, h5, h6, h7]
  rfl
theorem Encode.route (g : BitVec 4) (m : BitVec 4) (c : BitVec 4) : Encode.Statement (.route g m c) := by
  intro k hk hb
  cases hk
  have hw : Fits [(1, 0), (4, 0), (4, c.toNat), (4, 0), (4, m.toNat), (4, 0), (4, g.toNat), (7, 14)] 32 := .cons (by decide) (.cons (by decide) (.cons (c.isLt) (.cons (by decide) (.cons (m.isLt) (.cons (by decide) (.cons (g.isLt) (.cons (by decide) (.nil))))))))
  have h0 := word_field (lo := 25) 14#7 hw (.up (.up (.up (.up (.up (.up (.up (.here))))))))
  have h1 := word_field (lo := 0) 0#1 hw (.here)
  have h2 := word_field (lo := 17) 0#4 hw (.up (.up (.up (.up (.up (.here))))))
  have h3 := word_field (lo := 9) 0#4 hw (.up (.up (.up (.here))))
  have h4 := word_field (lo := 1) 0#4 hw (.up (.here))
  have h5 := word_field (lo := 21) g hw (.up (.up (.up (.up (.up (.up (.here)))))))
  have h6 := word_field (lo := 13) m hw (.up (.up (.up (.up (.here)))))
  have h7 := word_field (lo := 5) c hw (.up (.up (.here)))
  refine decodeSlot_ok ?_ hb
  show parseM (word (pack [(1, 0), (4, 0), (4, c.toNat), (4, 0), (4, m.toNat), (4, 0), (4, g.toNat), (7, 14)])) = .ok (.route g m c)
  generalize word (pack [(1, 0), (4, 0), (4, c.toNat), (4, 0), (4, m.toNat), (4, 0), (4, g.toNat), (7, 14)]) = W at h0 h1 h2 h3 h4 h5 h6 h7 ⊢
  rw [parseM_14 W h0, h1, h2, h3, h4, h5, h6, h7]
  rfl
theorem Encode.routeTx (g : BitVec 4) (m : BitVec 4) (c : BitVec 4) : Encode.Statement (.routeTx g m c) := by
  intro k hk hb
  cases hk
  have hw : Fits [(1, 1), (4, 0), (4, c.toNat), (4, 0), (4, m.toNat), (4, 0), (4, g.toNat), (7, 14)] 32 := .cons (by decide) (.cons (by decide) (.cons (c.isLt) (.cons (by decide) (.cons (m.isLt) (.cons (by decide) (.cons (g.isLt) (.cons (by decide) (.nil))))))))
  have h0 := word_field (lo := 25) 14#7 hw (.up (.up (.up (.up (.up (.up (.up (.here))))))))
  have h1 := word_field (lo := 0) 1#1 hw (.here)
  have h2 := word_field (lo := 17) 0#4 hw (.up (.up (.up (.up (.up (.here))))))
  have h3 := word_field (lo := 9) 0#4 hw (.up (.up (.up (.here))))
  have h4 := word_field (lo := 1) 0#4 hw (.up (.here))
  have h5 := word_field (lo := 21) g hw (.up (.up (.up (.up (.up (.up (.here)))))))
  have h6 := word_field (lo := 13) m hw (.up (.up (.up (.up (.here)))))
  have h7 := word_field (lo := 5) c hw (.up (.up (.here)))
  refine decodeSlot_ok ?_ hb
  show parseM (word (pack [(1, 1), (4, 0), (4, c.toNat), (4, 0), (4, m.toNat), (4, 0), (4, g.toNat), (7, 14)])) = .ok (.routeTx g m c)
  generalize word (pack [(1, 1), (4, 0), (4, c.toNat), (4, 0), (4, m.toNat), (4, 0), (4, g.toNat), (7, 14)]) = W at h0 h1 h2 h3 h4 h5 h6 h7 ⊢
  rw [parseM_14 W h0, h1, h2, h3, h4, h5, h6, h7]
  rfl
theorem Encode.mli (g : BitVec 4) (d : BitVec 5) (i : BitVec 16) : Encode.Statement (.mli g d i) := by
  intro k hk hb
  cases hk
  have hw : Fits [(16, i.toNat), (5, d.toNat), (4, g.toNat), (7, 16)] 32 := .cons (i.isLt) (.cons (d.isLt) (.cons (g.isLt) (.cons (by decide) (.nil))))
  have h0 := word_field (lo := 25) 16#7 hw (.up (.up (.up (.here))))
  have h1 := word_field (lo := 21) g hw (.up (.up (.here)))
  have h2 := word_field (lo := 16) d hw (.up (.here))
  have h3 := word_field (lo := 0) i hw (.here)
  refine decodeSlot_ok ?_ hb
  show parseM (word (pack [(16, i.toNat), (5, d.toNat), (4, g.toNat), (7, 16)])) = .ok (.mli g d i)
  generalize word (pack [(16, i.toNat), (5, d.toNat), (4, g.toNat), (7, 16)]) = W at h0 h1 h2 h3 ⊢
  rw [parseM_16 W h0, h1, h2, h3]
theorem Encode.mliu (g : BitVec 4) (d : BitVec 5) (i : BitVec 16) : Encode.Statement (.mliu g d i) := by
  intro k hk hb
  cases hk
  have hw : Fits [(16, i.toNat), (5, d.toNat), (4, g.toNat), (7, 17)] 32 := .cons (i.isLt) (.cons (d.isLt) (.cons (g.isLt) (.cons (by decide) (.nil))))
  have h0 := word_field (lo := 25) 17#7 hw (.up (.up (.up (.here))))
  have h1 := word_field (lo := 21) g hw (.up (.up (.here)))
  have h2 := word_field (lo := 16) d hw (.up (.here))
  have h3 := word_field (lo := 0) i hw (.here)
  refine decodeSlot_ok ?_ hb
  show parseM (word (pack [(16, i.toNat), (5, d.toNat), (4, g.toNat), (7, 17)])) = .ok (.mliu g d i)
  generalize word (pack [(16, i.toNat), (5, d.toNat), (4, g.toNat), (7, 17)]) = W at h0 h1 h2 h3 ⊢
  rw [parseM_17 W h0, h1, h2, h3]
theorem Encode.madd (g : BitVec 4) (d : BitVec 5) (a : BitVec 5) (b : BitVec 5) (f : BitVec 6) : Encode.Statement (.madd g d a b f) := by
  intro k hk hb
  cases hk
  have hw : Fits [(6, f.toNat), (5, b.toNat), (5, a.toNat), (5, d.toNat), (4, g.toNat), (7, 18)] 32 := .cons (f.isLt) (.cons (b.isLt) (.cons (a.isLt) (.cons (d.isLt) (.cons (g.isLt) (.cons (by decide) (.nil))))))
  have h0 := word_field (lo := 25) 18#7 hw (.up (.up (.up (.up (.up (.here))))))
  have h1 := word_field (lo := 21) g hw (.up (.up (.up (.up (.here)))))
  have h2 := word_field (lo := 16) d hw (.up (.up (.up (.here))))
  have h3 := word_field (lo := 11) a hw (.up (.up (.here)))
  have h4 := word_field (lo := 6) b hw (.up (.here))
  have h5 := word_field (lo := 0) f hw (.here)
  refine decodeSlot_ok ?_ hb
  show parseM (word (pack [(6, f.toNat), (5, b.toNat), (5, a.toNat), (5, d.toNat), (4, g.toNat), (7, 18)])) = .ok (.madd g d a b f)
  generalize word (pack [(6, f.toNat), (5, b.toNat), (5, a.toNat), (5, d.toNat), (4, g.toNat), (7, 18)]) = W at h0 h1 h2 h3 h4 h5 ⊢
  rw [parseM_18 W h0, h1, h2, h3, h4, h5]
theorem Encode.maddi (g : BitVec 4) (d : BitVec 5) (a : BitVec 5) (i : BitVec 11) : Encode.Statement (.maddi g d a i) := by
  intro k hk hb
  cases hk
  have hw : Fits [(11, i.toNat), (5, a.toNat), (5, d.toNat), (4, g.toNat), (7, 19)] 32 := .cons (i.isLt) (.cons (a.isLt) (.cons (d.isLt) (.cons (g.isLt) (.cons (by decide) (.nil)))))
  have h0 := word_field (lo := 25) 19#7 hw (.up (.up (.up (.up (.here)))))
  have h1 := word_field (lo := 21) g hw (.up (.up (.up (.here))))
  have h2 := word_field (lo := 16) d hw (.up (.up (.here)))
  have h3 := word_field (lo := 11) a hw (.up (.here))
  have h4 := word_field (lo := 0) i hw (.here)
  refine decodeSlot_ok ?_ hb
  show parseM (word (pack [(11, i.toNat), (5, a.toNat), (5, d.toNat), (4, g.toNat), (7, 19)])) = .ok (.maddi g d a i)
  generalize word (pack [(11, i.toNat), (5, a.toNat), (5, d.toNat), (4, g.toNat), (7, 19)]) = W at h0 h1 h2 h3 h4 ⊢
  rw [parseM_19 W h0, h1, h2, h3, h4]
theorem Encode.br (g : BitVec 4) (o : BitVec 21) : Encode.Statement (.br g o) := by
  intro k hk hb
  cases hk
  have hw : Fits [(21, o.toNat), (4, g.toNat), (7, 1)] 32 := .cons (o.isLt) (.cons (g.isLt) (.cons (by decide) (.nil)))
  have h0 := word_field (lo := 25) 1#7 hw (.up (.up (.here)))
  have h1 := word_field (lo := 21) g hw (.up (.here))
  have h2 := word_field (lo := 0) o hw (.here)
  refine decodeSlot_ok ?_ hb
  show parseC (word (pack [(21, o.toNat), (4, g.toNat), (7, 1)])) = .ok (.br g o)
  generalize word (pack [(21, o.toNat), (4, g.toNat), (7, 1)]) = W at h0 h1 h2 ⊢
  rw [parseC_1 W h0, h1, h2]
theorem Encode.brl (g : BitVec 4) (o : BitVec 21) : Encode.Statement (.brl g o) := by
  intro k hk hb
  cases hk
  have hw : Fits [(21, o.toNat), (4, g.toNat), (7, 2)] 32 := .cons (o.isLt) (.cons (g.isLt) (.cons (by decide) (.nil)))
  have h0 := word_field (lo := 25) 2#7 hw (.up (.up (.here)))
  have h1 := word_field (lo := 21) g hw (.up (.here))
  have h2 := word_field (lo := 0) o hw (.here)
  refine decodeSlot_ok ?_ hb
  show parseC (word (pack [(21, o.toNat), (4, g.toNat), (7, 2)])) = .ok (.brl g o)
  generalize word (pack [(21, o.toNat), (4, g.toNat), (7, 2)]) = W at h0 h1 h2 ⊢
  rw [parseC_2 W h0, h1, h2]
theorem Encode.brr (g : BitVec 4) (s : BitVec 5) : Encode.Statement (.brr g s) := by
  intro k hk hb
  cases hk
  have hw : Fits [(1, 0), (5, 0), (5, 0), (5, s.toNat), (5, 0), (4, g.toNat), (7, 3)] 32 := .cons (by decide) (.cons (by decide) (.cons (by decide) (.cons (s.isLt) (.cons (by decide) (.cons (g.isLt) (.cons (by decide) (.nil)))))))
  have h0 := word_field (lo := 25) 3#7 hw (.up (.up (.up (.up (.up (.up (.here)))))))
  have h1 := word_field (lo := 0) 0#1 hw (.here)
  have h2 := word_field (lo := 16) 0#5 hw (.up (.up (.up (.up (.here)))))
  have h3 := word_field (lo := 6) 0#5 hw (.up (.up (.here)))
  have h4 := word_field (lo := 1) 0#5 hw (.up (.here))
  have h5 := word_field (lo := 21) g hw (.up (.up (.up (.up (.up (.here))))))
  have h6 := word_field (lo := 11) s hw (.up (.up (.up (.here))))
  refine decodeSlot_ok ?_ hb
  show parseC (word (pack [(1, 0), (5, 0), (5, 0), (5, s.toNat), (5, 0), (4, g.toNat), (7, 3)])) = .ok (.brr g s)
  generalize word (pack [(1, 0), (5, 0), (5, 0), (5, s.toNat), (5, 0), (4, g.toNat), (7, 3)]) = W at h0 h1 h2 h3 h4 h5 h6 ⊢
  rw [parseC_3 W h0, h1, h2, h3, h4, h5, h6]
  rfl
theorem Encode.brrL (g : BitVec 4) (s : BitVec 5) : Encode.Statement (.brrL g s) := by
  intro k hk hb
  cases hk
  have hw : Fits [(1, 1), (5, 0), (5, 0), (5, s.toNat), (5, 0), (4, g.toNat), (7, 3)] 32 := .cons (by decide) (.cons (by decide) (.cons (by decide) (.cons (s.isLt) (.cons (by decide) (.cons (g.isLt) (.cons (by decide) (.nil)))))))
  have h0 := word_field (lo := 25) 3#7 hw (.up (.up (.up (.up (.up (.up (.here)))))))
  have h1 := word_field (lo := 0) 1#1 hw (.here)
  have h2 := word_field (lo := 16) 0#5 hw (.up (.up (.up (.up (.here)))))
  have h3 := word_field (lo := 6) 0#5 hw (.up (.up (.here)))
  have h4 := word_field (lo := 1) 0#5 hw (.up (.here))
  have h5 := word_field (lo := 21) g hw (.up (.up (.up (.up (.up (.here))))))
  have h6 := word_field (lo := 11) s hw (.up (.up (.up (.here))))
  refine decodeSlot_ok ?_ hb
  show parseC (word (pack [(1, 1), (5, 0), (5, 0), (5, s.toNat), (5, 0), (4, g.toNat), (7, 3)])) = .ok (.brrL g s)
  generalize word (pack [(1, 1), (5, 0), (5, 0), (5, s.toNat), (5, 0), (4, g.toNat), (7, 3)]) = W at h0 h1 h2 h3 h4 h5 h6 ⊢
  rw [parseC_3 W h0, h1, h2, h3, h4, h5, h6]
  rfl
theorem Encode.lset (g : BitVec 4) (l : BitVec 2) (i : BitVec 1) (k : BitVec 6) (e : BitVec 12) : Encode.Statement (.lset g l i k e) := by
  intro k hk hb
  cases hk
  have hw : Fits [(12, e.toNat), (6, k.toNat), (1, i.toNat), (2, l.toNat), (4, g.toNat), (7, 4)] 32 := .cons (e.isLt) (.cons (k.isLt) (.cons (i.isLt) (.cons (l.isLt) (.cons (g.isLt) (.cons (by decide) (.nil))))))
  have h0 := word_field (lo := 25) 4#7 hw (.up (.up (.up (.up (.up (.here))))))
  have h1 := word_field (lo := 21) g hw (.up (.up (.up (.up (.here)))))
  have h2 := word_field (lo := 19) l hw (.up (.up (.up (.here))))
  have h3 := word_field (lo := 18) i hw (.up (.up (.here)))
  have h4 := word_field (lo := 12) k hw (.up (.here))
  have h5 := word_field (lo := 0) e hw (.here)
  refine decodeSlot_ok ?_ hb
  show parseC (word (pack [(12, e.toNat), (6, k.toNat), (1, i.toNat), (2, l.toNat), (4, g.toNat), (7, 4)])) = .ok (.lset g l i k e)
  generalize word (pack [(12, e.toNat), (6, k.toNat), (1, i.toNat), (2, l.toNat), (4, g.toNat), (7, 4)]) = W at h0 h1 h2 h3 h4 h5 ⊢
  rw [parseC_4 W h0, h1, h2, h3, h4, h5]
theorem Encode.lupd (g : BitVec 4) (l : BitVec 2) (a : BitVec 4) (i : BitVec 1) (d : BitVec 14) : Encode.Statement (.lupd g l a i d) := by
  intro k hk hb
  cases hk
  have hw : Fits [(14, d.toNat), (1, i.toNat), (4, a.toNat), (2, l.toNat), (4, g.toNat), (7, 5)] 32 := .cons (d.isLt) (.cons (i.isLt) (.cons (a.isLt) (.cons (l.isLt) (.cons (g.isLt) (.cons (by decide) (.nil))))))
  have h0 := word_field (lo := 25) 5#7 hw (.up (.up (.up (.up (.up (.here))))))
  have h1 := word_field (lo := 21) g hw (.up (.up (.up (.up (.here)))))
  have h2 := word_field (lo := 19) l hw (.up (.up (.up (.here))))
  have h3 := word_field (lo := 15) a hw (.up (.up (.here)))
  have h4 := word_field (lo := 14) i hw (.up (.here))
  have h5 := word_field (lo := 0) d hw (.here)
  refine decodeSlot_ok ?_ hb
  show parseC (word (pack [(14, d.toNat), (1, i.toNat), (4, a.toNat), (2, l.toNat), (4, g.toNat), (7, 5)])) = .ok (.lupd g l a i d)
  generalize word (pack [(14, d.toNat), (1, i.toNat), (4, a.toNat), (2, l.toNat), (4, g.toNat), (7, 5)]) = W at h0 h1 h2 h3 h4 h5 ⊢
  rw [parseC_5 W h0, h1, h2, h3, h4, h5]
theorem Encode.ltrim (g : BitVec 4) (s : BitVec 5) (c : BitVec 4) : Encode.Statement (.ltrim g s c) := by
  intro k hk hb
  cases hk
  have hw : Fits [(4, c.toNat), (2, 0), (5, 0), (5, s.toNat), (5, 0), (4, g.toNat), (7, 6)] 32 := .cons (c.isLt) (.cons (by decide) (.cons (by decide) (.cons (s.isLt) (.cons (by decide) (.cons (g.isLt) (.cons (by decide) (.nil)))))))
  have h0 := word_field (lo := 25) 6#7 hw (.up (.up (.up (.up (.up (.up (.here)))))))
  have h1 := word_field (lo := 16) 0#5 hw (.up (.up (.up (.up (.here)))))
  have h2 := word_field (lo := 6) 0#5 hw (.up (.up (.here)))
  have h3 := word_field (lo := 4) 0#2 hw (.up (.here))
  have h4 := word_field (lo := 21) g hw (.up (.up (.up (.up (.up (.here))))))
  have h5 := word_field (lo := 11) s hw (.up (.up (.up (.here))))
  have h6 := word_field (lo := 0) c hw (.here)
  refine decodeSlot_ok ?_ hb
  show parseC (word (pack [(4, c.toNat), (2, 0), (5, 0), (5, s.toNat), (5, 0), (4, g.toNat), (7, 6)])) = .ok (.ltrim g s c)
  generalize word (pack [(4, c.toNat), (2, 0), (5, 0), (5, s.toNat), (5, 0), (4, g.toNat), (7, 6)]) = W at h0 h1 h2 h3 h4 h5 h6 ⊢
  rw [parseC_6 W h0, h1, h2, h3, h4, h5, h6]
  rfl
theorem Encode.halt (g : BitVec 4) : Encode.Statement (.halt g) := by
  intro k hk hb
  cases hk
  have hw : Fits [(6, 0), (5, 0), (5, 0), (5, 0), (4, g.toNat), (7, 7)] 32 := .cons (by decide) (.cons (by decide) (.cons (by decide) (.cons (by decide) (.cons (g.isLt) (.cons (by decide) (.nil))))))
  have h0 := word_field (lo := 25) 7#7 hw (.up (.up (.up (.up (.up (.here))))))
  have h1 := word_field (lo := 16) 0#5 hw (.up (.up (.up (.here))))
  have h2 := word_field (lo := 11) 0#5 hw (.up (.up (.here)))
  have h3 := word_field (lo := 6) 0#5 hw (.up (.here))
  have h4 := word_field (lo := 0) 0#6 hw (.here)
  have h5 := word_field (lo := 21) g hw (.up (.up (.up (.up (.here)))))
  refine decodeSlot_ok ?_ hb
  show parseC (word (pack [(6, 0), (5, 0), (5, 0), (5, 0), (4, g.toNat), (7, 7)])) = .ok (.halt g)
  generalize word (pack [(6, 0), (5, 0), (5, 0), (5, 0), (4, g.toNat), (7, 7)]) = W at h0 h1 h2 h3 h4 h5 ⊢
  rw [parseC_7 W h0, h1, h2, h3, h4, h5]
  rfl
theorem Encode.gop (g : BitVec 4) (d : BitVec 4) (a : BitVec 4) (b : BitVec 4) (f : BitVec 3) : Encode.Statement (.gop g d a b f) := by
  intro k hk hb
  cases hk
  have hw : Fits [(3, f.toNat), (3, 0), (4, b.toNat), (1, 0), (4, a.toNat), (1, 0), (4, d.toNat), (1, 0), (4, g.toNat), (7, 8)] 32 := .cons (f.isLt) (.cons (by decide) (.cons (b.isLt) (.cons (by decide) (.cons (a.isLt) (.cons (by decide) (.cons (d.isLt) (.cons (by decide) (.cons (g.isLt) (.cons (by decide) (.nil))))))))))
  have h0 := word_field (lo := 25) 8#7 hw (.up (.up (.up (.up (.up (.up (.up (.up (.up (.here))))))))))
  have h1 := word_field (lo := 20) 0#1 hw (.up (.up (.up (.up (.up (.up (.up (.here))))))))
  have h2 := word_field (lo := 15) 0#1 hw (.up (.up (.up (.up (.up (.here))))))
  have h3 := word_field (lo := 10) 0#1 hw (.up (.up (.up (.here))))
  have h4 := word_field (lo := 3) 0#3 hw (.up (.here))
  have h5 := word_field (lo := 21) g hw (.up (.up (.up (.up (.up (.up (.up (.up (.here)))))))))
  have h6 := word_field (lo := 16) d hw (.up (.up (.up (.up (.up (.up (.here)))))))
  have h7 := word_field (lo := 11) a hw (.up (.up (.up (.up (.here)))))
  have h8 := word_field (lo := 6) b hw (.up (.up (.here)))
  have h9 := word_field (lo := 0) f hw (.here)
  refine decodeSlot_ok ?_ hb
  show parseC (word (pack [(3, f.toNat), (3, 0), (4, b.toNat), (1, 0), (4, a.toNat), (1, 0), (4, d.toNat), (1, 0), (4, g.toNat), (7, 8)])) = .ok (.gop g d a b f)
  generalize word (pack [(3, f.toNat), (3, 0), (4, b.toNat), (1, 0), (4, a.toNat), (1, 0), (4, d.toNat), (1, 0), (4, g.toNat), (7, 8)]) = W at h0 h1 h2 h3 h4 h5 h6 h7 h8 h9 ⊢
  rw [parseC_8 W h0, h1, h2, h3, h4, h5, h6, h7, h8, h9]
  rfl
theorem Encode.cli (g : BitVec 4) (d : BitVec 5) (i : BitVec 16) : Encode.Statement (.cli g d i) := by
  intro k hk hb
  cases hk
  have hw : Fits [(16, i.toNat), (5, d.toNat), (4, g.toNat), (7, 9)] 32 := .cons (i.isLt) (.cons (d.isLt) (.cons (g.isLt) (.cons (by decide) (.nil))))
  have h0 := word_field (lo := 25) 9#7 hw (.up (.up (.up (.here))))
  have h1 := word_field (lo := 21) g hw (.up (.up (.here)))
  have h2 := word_field (lo := 16) d hw (.up (.here))
  have h3 := word_field (lo := 0) i hw (.here)
  refine decodeSlot_ok ?_ hb
  show parseC (word (pack [(16, i.toNat), (5, d.toNat), (4, g.toNat), (7, 9)])) = .ok (.cli g d i)
  generalize word (pack [(16, i.toNat), (5, d.toNat), (4, g.toNat), (7, 9)]) = W at h0 h1 h2 h3 ⊢
  rw [parseC_9 W h0, h1, h2, h3]
theorem Encode.cget (g : BitVec 4) (d : BitVec 5) (n : BitVec 12) : Encode.Statement (.cget g d n) := by
  intro k hk hb
  cases hk
  have hw : Fits [(4, 0), (12, n.toNat), (5, d.toNat), (4, g.toNat), (7, 10)] 32 := .cons (by decide) (.cons (n.isLt) (.cons (d.isLt) (.cons (g.isLt) (.cons (by decide) (.nil)))))
  have h0 := word_field (lo := 25) 10#7 hw (.up (.up (.up (.up (.here)))))
  have h1 := word_field (lo := 0) 0#4 hw (.here)
  have h2 := word_field (lo := 21) g hw (.up (.up (.up (.here))))
  have h3 := word_field (lo := 16) d hw (.up (.up (.here)))
  have h4 := word_field (lo := 4) n hw (.up (.here))
  refine decodeSlot_ok ?_ hb
  show parseC (word (pack [(4, 0), (12, n.toNat), (5, d.toNat), (4, g.toNat), (7, 10)])) = .ok (.cget g d n)
  generalize word (pack [(4, 0), (12, n.toNat), (5, d.toNat), (4, g.toNat), (7, 10)]) = W at h0 h1 h2 h3 h4 ⊢
  rw [parseC_10 W h0, h1, h2, h3, h4]
  rfl
theorem Encode.cset (g : BitVec 4) (s : BitVec 5) (n : BitVec 12) : Encode.Statement (.cset g s n) := by
  intro k hk hb
  cases hk
  have hw : Fits [(4, 0), (12, n.toNat), (5, s.toNat), (4, g.toNat), (7, 11)] 32 := .cons (by decide) (.cons (n.isLt) (.cons (s.isLt) (.cons (g.isLt) (.cons (by decide) (.nil)))))
  have h0 := word_field (lo := 25) 11#7 hw (.up (.up (.up (.up (.here)))))
  have h1 := word_field (lo := 0) 0#4 hw (.here)
  have h2 := word_field (lo := 21) g hw (.up (.up (.up (.here))))
  have h3 := word_field (lo := 16) s hw (.up (.up (.here)))
  have h4 := word_field (lo := 4) n hw (.up (.here))
  refine decodeSlot_ok ?_ hb
  show parseC (word (pack [(4, 0), (12, n.toNat), (5, s.toNat), (4, g.toNat), (7, 11)])) = .ok (.cset g s n)
  generalize word (pack [(4, 0), (12, n.toNat), (5, s.toNat), (4, g.toNat), (7, 11)]) = W at h0 h1 h2 h3 h4 ⊢
  rw [parseC_11 W h0, h1, h2, h3, h4]
  rfl
theorem Encode.spawn (g : BitVec 4) (k : BitVec 5) (e : BitVec 5) : Encode.Statement (.spawn g k e) := by
  intro k hk hb
  cases hk
  have hw : Fits [(6, 0), (5, 0), (5, e.toNat), (5, k.toNat), (4, g.toNat), (7, 12)] 32 := .cons (by decide) (.cons (by decide) (.cons (e.isLt) (.cons (k.isLt) (.cons (g.isLt) (.cons (by decide) (.nil))))))
  have h0 := word_field (lo := 25) 12#7 hw (.up (.up (.up (.up (.up (.here))))))
  have h1 := word_field (lo := 6) 0#5 hw (.up (.here))
  have h2 := word_field (lo := 0) 0#6 hw (.here)
  have h3 := word_field (lo := 21) g hw (.up (.up (.up (.up (.here)))))
  have h4 := word_field (lo := 16) k hw (.up (.up (.up (.here))))
  have h5 := word_field (lo := 11) e hw (.up (.up (.here)))
  refine decodeSlot_ok ?_ hb
  show parseC (word (pack [(6, 0), (5, 0), (5, e.toNat), (5, k.toNat), (4, g.toNat), (7, 12)])) = .ok (.spawn g k e)
  generalize word (pack [(6, 0), (5, 0), (5, e.toNat), (5, k.toNat), (4, g.toNat), (7, 12)]) = W at h0 h1 h2 h3 h4 h5 ⊢
  rw [parseC_12 W h0, h1, h2, h3, h4, h5]
  rfl
theorem Encode.join (g : BitVec 4) (d : BitVec 5) : Encode.Statement (.join g d) := by
  intro k hk hb
  cases hk
  have hw : Fits [(6, 0), (5, 0), (5, 0), (5, d.toNat), (4, g.toNat), (7, 13)] 32 := .cons (by decide) (.cons (by decide) (.cons (by decide) (.cons (d.isLt) (.cons (g.isLt) (.cons (by decide) (.nil))))))
  have h0 := word_field (lo := 25) 13#7 hw (.up (.up (.up (.up (.up (.here))))))
  have h1 := word_field (lo := 11) 0#5 hw (.up (.up (.here)))
  have h2 := word_field (lo := 6) 0#5 hw (.up (.here))
  have h3 := word_field (lo := 0) 0#6 hw (.here)
  have h4 := word_field (lo := 21) g hw (.up (.up (.up (.up (.here)))))
  have h5 := word_field (lo := 16) d hw (.up (.up (.up (.here))))
  refine decodeSlot_ok ?_ hb
  show parseC (word (pack [(6, 0), (5, 0), (5, 0), (5, d.toNat), (4, g.toNat), (7, 13)])) = .ok (.join g d)
  generalize word (pack [(6, 0), (5, 0), (5, 0), (5, d.toNat), (4, g.toNat), (7, 13)]) = W at h0 h1 h2 h3 h4 h5 ⊢
  rw [parseC_13 W h0, h1, h2, h3, h4, h5]
  rfl
theorem Encode.spawnS (g : BitVec 4) (h : BitVec 4) (e : BitVec 5) (a : BitVec 5) (m : BitVec 3) : Encode.Statement (.spawnS g h e a m) := by
  intro k hk hb
  cases hk
  have hw : Fits [(3, m.toNat), (3, 0), (5, a.toNat), (5, e.toNat), (4, h.toNat), (1, 0), (4, g.toNat), (7, 14)] 32 := .cons (m.isLt) (.cons (by decide) (.cons (a.isLt) (.cons (e.isLt) (.cons (h.isLt) (.cons (by decide) (.cons (g.isLt) (.cons (by decide) (.nil))))))))
  have h0 := word_field (lo := 25) 14#7 hw (.up (.up (.up (.up (.up (.up (.up (.here))))))))
  have h1 := word_field (lo := 20) 0#1 hw (.up (.up (.up (.up (.up (.here))))))
  have h2 := word_field (lo := 3) 0#3 hw (.up (.here))
  have h3 := word_field (lo := 21) g hw (.up (.up (.up (.up (.up (.up (.here)))))))
  have h4 := word_field (lo := 16) h hw (.up (.up (.up (.up (.here)))))
  have h5 := word_field (lo := 11) e hw (.up (.up (.up (.here))))
  have h6 := word_field (lo := 6) a hw (.up (.up (.here)))
  have h7 := word_field (lo := 0) m hw (.here)
  refine decodeSlot_ok ?_ hb
  show parseC (word (pack [(3, m.toNat), (3, 0), (5, a.toNat), (5, e.toNat), (4, h.toNat), (1, 0), (4, g.toNat), (7, 14)])) = .ok (.spawnS g h e a m)
  generalize word (pack [(3, m.toNat), (3, 0), (5, a.toNat), (5, e.toNat), (4, h.toNat), (1, 0), (4, g.toNat), (7, 14)]) = W at h0 h1 h2 h3 h4 h5 h6 h7 ⊢
  rw [parseC_14 W h0, h1, h2, h3, h4, h5, h6, h7]
  rfl
theorem Encode.trap (g : BitVec 4) (i : BitVec 16) : Encode.Statement (.trap g i) := by
  intro k hk hb
  cases hk
  have hw : Fits [(16, i.toNat), (5, 0), (4, g.toNat), (7, 15)] 32 := .cons (i.isLt) (.cons (by decide) (.cons (g.isLt) (.cons (by decide) (.nil))))
  have h0 := word_field (lo := 25) 15#7 hw (.up (.up (.up (.here))))
  have h1 := word_field (lo := 16) 0#5 hw (.up (.here))
  have h2 := word_field (lo := 21) g hw (.up (.up (.here)))
  have h3 := word_field (lo := 0) i hw (.here)
  refine decodeSlot_ok ?_ hb
  show parseC (word (pack [(16, i.toNat), (5, 0), (4, g.toNat), (7, 15)])) = .ok (.trap g i)
  generalize word (pack [(16, i.toNat), (5, 0), (4, g.toNat), (7, 15)]) = W at h0 h1 h2 h3 ⊢
  rw [parseC_15 W h0, h1, h2, h3]
  rfl
theorem Encode.chw (g : BitVec 4) (e : BitVec 5) (s : BitVec 5) : Encode.Statement (.chw g e s) := by
  intro k hk hb
  cases hk
  have hw : Fits [(1, 0), (5, 0), (5, s.toNat), (5, e.toNat), (5, 0), (4, g.toNat), (7, 16)] 32 := .cons (by decide) (.cons (by decide) (.cons (s.isLt) (.cons (e.isLt) (.cons (by decide) (.cons (g.isLt) (.cons (by decide) (.nil)))))))
  have h0 := word_field (lo := 25) 16#7 hw (.up (.up (.up (.up (.up (.up (.here)))))))
  have h1 := word_field (lo := 0) 0#1 hw (.here)
  have h2 := word_field (lo := 16) 0#5 hw (.up (.up (.up (.up (.here)))))
  have h3 := word_field (lo := 1) 0#5 hw (.up (.here))
  have h4 := word_field (lo := 21) g hw (.up (.up (.up (.up (.up (.here))))))
  have h5 := word_field (lo := 11) e hw (.up (.up (.up (.here))))
  have h6 := word_field (lo := 6) s hw (.up (.up (.here)))
  refine decodeSlot_ok ?_ hb
  show parseC (word (pack [(1, 0), (5, 0), (5, s.toNat), (5, e.toNat), (5, 0), (4, g.toNat), (7, 16)])) = .ok (.chw g e s)
  generalize word (pack [(1, 0), (5, 0), (5, s.toNat), (5, e.toNat), (5, 0), (4, g.toNat), (7, 16)]) = W at h0 h1 h2 h3 h4 h5 h6 ⊢
  rw [parseC_16 W h0, h1, h2, h3, h4, h5, h6]
  rfl
theorem Encode.chwRel (g : BitVec 4) (e : BitVec 5) (s : BitVec 5) : Encode.Statement (.chwRel g e s) := by
  intro k hk hb
  cases hk
  have hw : Fits [(1, 1), (5, 0), (5, s.toNat), (5, e.toNat), (5, 0), (4, g.toNat), (7, 16)] 32 := .cons (by decide) (.cons (by decide) (.cons (s.isLt) (.cons (e.isLt) (.cons (by decide) (.cons (g.isLt) (.cons (by decide) (.nil)))))))
  have h0 := word_field (lo := 25) 16#7 hw (.up (.up (.up (.up (.up (.up (.here)))))))
  have h1 := word_field (lo := 0) 1#1 hw (.here)
  have h2 := word_field (lo := 16) 0#5 hw (.up (.up (.up (.up (.here)))))
  have h3 := word_field (lo := 1) 0#5 hw (.up (.here))
  have h4 := word_field (lo := 21) g hw (.up (.up (.up (.up (.up (.here))))))
  have h5 := word_field (lo := 11) e hw (.up (.up (.up (.here))))
  have h6 := word_field (lo := 6) s hw (.up (.up (.here)))
  refine decodeSlot_ok ?_ hb
  show parseC (word (pack [(1, 1), (5, 0), (5, s.toNat), (5, e.toNat), (5, 0), (4, g.toNat), (7, 16)])) = .ok (.chwRel g e s)
  generalize word (pack [(1, 1), (5, 0), (5, s.toNat), (5, e.toNat), (5, 0), (4, g.toNat), (7, 16)]) = W at h0 h1 h2 h3 h4 h5 h6 ⊢
  rw [parseC_16 W h0, h1, h2, h3, h4, h5, h6]
  rfl
theorem Encode.chr (g : BitVec 4) (d : BitVec 5) (e : BitVec 5) : Encode.Statement (.chr g d e) := by
  intro k hk hb
  cases hk
  have hw : Fits [(1, 0), (5, 0), (5, 0), (5, e.toNat), (5, d.toNat), (4, g.toNat), (7, 17)] 32 := .cons (by decide) (.cons (by decide) (.cons (by decide) (.cons (e.isLt) (.cons (d.isLt) (.cons (g.isLt) (.cons (by decide) (.nil)))))))
  have h0 := word_field (lo := 25) 17#7 hw (.up (.up (.up (.up (.up (.up (.here)))))))
  have h1 := word_field (lo := 0) 0#1 hw (.here)
  have h2 := word_field (lo := 6) 0#5 hw (.up (.up (.here)))
  have h3 := word_field (lo := 1) 0#5 hw (.up (.here))
  have h4 := word_field (lo := 21) g hw (.up (.up (.up (.up (.up (.here))))))
  have h5 := word_field (lo := 16) d hw (.up (.up (.up (.up (.here)))))
  have h6 := word_field (lo := 11) e hw (.up (.up (.up (.here))))
  refine decodeSlot_ok ?_ hb
  show parseC (word (pack [(1, 0), (5, 0), (5, 0), (5, e.toNat), (5, d.toNat), (4, g.toNat), (7, 17)])) = .ok (.chr g d e)
  generalize word (pack [(1, 0), (5, 0), (5, 0), (5, e.toNat), (5, d.toNat), (4, g.toNat), (7, 17)]) = W at h0 h1 h2 h3 h4 h5 h6 ⊢
  rw [parseC_17 W h0, h1, h2, h3, h4, h5, h6]
  rfl
theorem Encode.chrAcq (g : BitVec 4) (d : BitVec 5) (e : BitVec 5) : Encode.Statement (.chrAcq g d e) := by
  intro k hk hb
  cases hk
  have hw : Fits [(1, 1), (5, 0), (5, 0), (5, e.toNat), (5, d.toNat), (4, g.toNat), (7, 17)] 32 := .cons (by decide) (.cons (by decide) (.cons (by decide) (.cons (e.isLt) (.cons (d.isLt) (.cons (g.isLt) (.cons (by decide) (.nil)))))))
  have h0 := word_field (lo := 25) 17#7 hw (.up (.up (.up (.up (.up (.up (.here)))))))
  have h1 := word_field (lo := 0) 1#1 hw (.here)
  have h2 := word_field (lo := 6) 0#5 hw (.up (.up (.here)))
  have h3 := word_field (lo := 1) 0#5 hw (.up (.here))
  have h4 := word_field (lo := 21) g hw (.up (.up (.up (.up (.up (.here))))))
  have h5 := word_field (lo := 16) d hw (.up (.up (.up (.up (.here)))))
  have h6 := word_field (lo := 11) e hw (.up (.up (.up (.here))))
  refine decodeSlot_ok ?_ hb
  show parseC (word (pack [(1, 1), (5, 0), (5, 0), (5, e.toNat), (5, d.toNat), (4, g.toNat), (7, 17)])) = .ok (.chrAcq g d e)
  generalize word (pack [(1, 1), (5, 0), (5, 0), (5, e.toNat), (5, d.toNat), (4, g.toNat), (7, 17)]) = W at h0 h1 h2 h3 h4 h5 h6 ⊢
  rw [parseC_17 W h0, h1, h2, h3, h4, h5, h6]
  rfl
theorem Encode.barSync (g : BitVec 4) (b : BitVec 4) (s : BitVec 3) : Encode.Statement (.barSync g b s) := by
  intro k hk hb
  cases hk
  have hw : Fits [(3, s.toNat), (2, 0), (1, 0), (5, 0), (5, 0), (4, b.toNat), (1, 0), (4, g.toNat), (7, 18)] 32 := .cons (s.isLt) (.cons (by decide) (.cons (by decide) (.cons (by decide) (.cons (by decide) (.cons (b.isLt) (.cons (by decide) (.cons (g.isLt) (.cons (by decide) (.nil)))))))))
  have h0 := word_field (lo := 25) 18#7 hw (.up (.up (.up (.up (.up (.up (.up (.up (.here)))))))))
  have h1 := word_field (lo := 3) 0#2 hw (.up (.here))
  have h2 := word_field (lo := 20) 0#1 hw (.up (.up (.up (.up (.up (.up (.here)))))))
  have h3 := word_field (lo := 11) 0#5 hw (.up (.up (.up (.up (.here)))))
  have h4 := word_field (lo := 6) 0#5 hw (.up (.up (.up (.here))))
  have h5 := word_field (lo := 5) 0#1 hw (.up (.up (.here)))
  have h6 := word_field (lo := 21) g hw (.up (.up (.up (.up (.up (.up (.up (.here))))))))
  have h7 := word_field (lo := 16) b hw (.up (.up (.up (.up (.up (.here))))))
  have h8 := word_field (lo := 0) s hw (.here)
  refine decodeSlot_ok ?_ hb
  show parseC (word (pack [(3, s.toNat), (2, 0), (1, 0), (5, 0), (5, 0), (4, b.toNat), (1, 0), (4, g.toNat), (7, 18)])) = .ok (.barSync g b s)
  generalize word (pack [(3, s.toNat), (2, 0), (1, 0), (5, 0), (5, 0), (4, b.toNat), (1, 0), (4, g.toNat), (7, 18)]) = W at h0 h1 h2 h3 h4 h5 h6 h7 h8 ⊢
  rw [parseC_18 W h0, h1, h2, h3, h4, h5, h6, h7, h8]
  rfl
theorem Encode.barArr (g : BitVec 4) (b : BitVec 4) (s : BitVec 3) : Encode.Statement (.barArr g b s) := by
  intro k hk hb
  cases hk
  have hw : Fits [(3, s.toNat), (2, 1), (1, 0), (5, 0), (5, 0), (4, b.toNat), (1, 0), (4, g.toNat), (7, 18)] 32 := .cons (s.isLt) (.cons (by decide) (.cons (by decide) (.cons (by decide) (.cons (by decide) (.cons (b.isLt) (.cons (by decide) (.cons (g.isLt) (.cons (by decide) (.nil)))))))))
  have h0 := word_field (lo := 25) 18#7 hw (.up (.up (.up (.up (.up (.up (.up (.up (.here)))))))))
  have h1 := word_field (lo := 3) 1#2 hw (.up (.here))
  have h2 := word_field (lo := 20) 0#1 hw (.up (.up (.up (.up (.up (.up (.here)))))))
  have h3 := word_field (lo := 11) 0#5 hw (.up (.up (.up (.up (.here)))))
  have h4 := word_field (lo := 6) 0#5 hw (.up (.up (.up (.here))))
  have h5 := word_field (lo := 5) 0#1 hw (.up (.up (.here)))
  have h6 := word_field (lo := 21) g hw (.up (.up (.up (.up (.up (.up (.up (.here))))))))
  have h7 := word_field (lo := 16) b hw (.up (.up (.up (.up (.up (.here))))))
  have h8 := word_field (lo := 0) s hw (.here)
  refine decodeSlot_ok ?_ hb
  show parseC (word (pack [(3, s.toNat), (2, 1), (1, 0), (5, 0), (5, 0), (4, b.toNat), (1, 0), (4, g.toNat), (7, 18)])) = .ok (.barArr g b s)
  generalize word (pack [(3, s.toNat), (2, 1), (1, 0), (5, 0), (5, 0), (4, b.toNat), (1, 0), (4, g.toNat), (7, 18)]) = W at h0 h1 h2 h3 h4 h5 h6 h7 h8 ⊢
  rw [parseC_18 W h0, h1, h2, h3, h4, h5, h6, h7, h8]
  rfl
theorem Encode.barWait (g : BitVec 4) (b : BitVec 4) (s : BitVec 3) : Encode.Statement (.barWait g b s) := by
  intro k hk hb
  cases hk
  have hw : Fits [(3, s.toNat), (2, 2), (1, 0), (5, 0), (5, 0), (4, b.toNat), (1, 0), (4, g.toNat), (7, 18)] 32 := .cons (s.isLt) (.cons (by decide) (.cons (by decide) (.cons (by decide) (.cons (by decide) (.cons (b.isLt) (.cons (by decide) (.cons (g.isLt) (.cons (by decide) (.nil)))))))))
  have h0 := word_field (lo := 25) 18#7 hw (.up (.up (.up (.up (.up (.up (.up (.up (.here)))))))))
  have h1 := word_field (lo := 3) 2#2 hw (.up (.here))
  have h2 := word_field (lo := 20) 0#1 hw (.up (.up (.up (.up (.up (.up (.here)))))))
  have h3 := word_field (lo := 11) 0#5 hw (.up (.up (.up (.up (.here)))))
  have h4 := word_field (lo := 6) 0#5 hw (.up (.up (.up (.here))))
  have h5 := word_field (lo := 5) 0#1 hw (.up (.up (.here)))
  have h6 := word_field (lo := 21) g hw (.up (.up (.up (.up (.up (.up (.up (.here))))))))
  have h7 := word_field (lo := 16) b hw (.up (.up (.up (.up (.up (.here))))))
  have h8 := word_field (lo := 0) s hw (.here)
  refine decodeSlot_ok ?_ hb
  show parseC (word (pack [(3, s.toNat), (2, 2), (1, 0), (5, 0), (5, 0), (4, b.toNat), (1, 0), (4, g.toNat), (7, 18)])) = .ok (.barWait g b s)
  generalize word (pack [(3, s.toNat), (2, 2), (1, 0), (5, 0), (5, 0), (4, b.toNat), (1, 0), (4, g.toNat), (7, 18)]) = W at h0 h1 h2 h3 h4 h5 h6 h7 h8 ⊢
  rw [parseC_18 W h0, h1, h2, h3, h4, h5, h6, h7, h8]
  rfl
theorem Encode.coll (g : BitVec 4) (d : BitVec 5) (s : BitVec 5) (n : BitVec 5) (p : BitVec 3) (o : BitVec 2) : Encode.Statement (.coll g d s n p o) := by
  intro k hk hb
  cases hk
  have hw : Fits [(2, o.toNat), (3, p.toNat), (1, 0), (5, n.toNat), (5, s.toNat), (5, d.toNat), (4, g.toNat), (7, 19)] 32 := .cons (o.isLt) (.cons (p.isLt) (.cons (by decide) (.cons (n.isLt) (.cons (s.isLt) (.cons (d.isLt) (.cons (g.isLt) (.cons (by decide) (.nil))))))))
  have h0 := word_field (lo := 25) 19#7 hw (.up (.up (.up (.up (.up (.up (.up (.here))))))))
  have h1 := word_field (lo := 5) 0#1 hw (.up (.up (.here)))
  have h2 := word_field (lo := 21) g hw (.up (.up (.up (.up (.up (.up (.here)))))))
  have h3 := word_field (lo := 16) d hw (.up (.up (.up (.up (.up (.here))))))
  have h4 := word_field (lo := 11) s hw (.up (.up (.up (.up (.here)))))
  have h5 := word_field (lo := 6) n hw (.up (.up (.up (.here))))
  have h6 := word_field (lo := 2) p hw (.up (.here))
  have h7 := word_field (lo := 0) o hw (.here)
  refine decodeSlot_ok ?_ hb
  show parseC (word (pack [(2, o.toNat), (3, p.toNat), (1, 0), (5, n.toNat), (5, s.toNat), (5, d.toNat), (4, g.toNat), (7, 19)])) = .ok (.coll g d s n p o)
  generalize word (pack [(2, o.toNat), (3, p.toNat), (1, 0), (5, n.toNat), (5, s.toNat), (5, d.toNat), (4, g.toNat), (7, 19)]) = W at h0 h1 h2 h3 h4 h5 h6 h7 ⊢
  rw [parseC_19 W h0, h1, h2, h3, h4, h5, h6, h7]
  rfl
theorem Encode.cmbxMax (g : BitVec 4) (p : BitVec 5) (h : BitVec 5) : Encode.Statement (.cmbxMax g p h) := by
  intro k hk hb
  cases hk
  have hw : Fits [(2, 0), (4, 0), (5, h.toNat), (5, p.toNat), (5, 0), (4, g.toNat), (7, 20)] 32 := .cons (by decide) (.cons (by decide) (.cons (h.isLt) (.cons (p.isLt) (.cons (by decide) (.cons (g.isLt) (.cons (by decide) (.nil)))))))
  have h0 := word_field (lo := 25) 20#7 hw (.up (.up (.up (.up (.up (.up (.here)))))))
  have h1 := word_field (lo := 0) 0#2 hw (.here)
  have h2 := word_field (lo := 16) 0#5 hw (.up (.up (.up (.up (.here)))))
  have h3 := word_field (lo := 2) 0#4 hw (.up (.here))
  have h4 := word_field (lo := 21) g hw (.up (.up (.up (.up (.up (.here))))))
  have h5 := word_field (lo := 11) p hw (.up (.up (.up (.here))))
  have h6 := word_field (lo := 6) h hw (.up (.up (.here)))
  refine decodeSlot_ok ?_ hb
  show parseC (word (pack [(2, 0), (4, 0), (5, h.toNat), (5, p.toNat), (5, 0), (4, g.toNat), (7, 20)])) = .ok (.cmbxMax g p h)
  generalize word (pack [(2, 0), (4, 0), (5, h.toNat), (5, p.toNat), (5, 0), (4, g.toNat), (7, 20)]) = W at h0 h1 h2 h3 h4 h5 h6 ⊢
  rw [parseC_20 W h0, h1, h2, h3, h4, h5, h6]
  rfl
theorem Encode.cmbxMerge (g : BitVec 4) (p : BitVec 5) (h : BitVec 5) : Encode.Statement (.cmbxMerge g p h) := by
  intro k hk hb
  cases hk
  have hw : Fits [(2, 1), (4, 0), (5, h.toNat), (5, p.toNat), (5, 0), (4, g.toNat), (7, 20)] 32 := .cons (by decide) (.cons (by decide) (.cons (h.isLt) (.cons (p.isLt) (.cons (by decide) (.cons (g.isLt) (.cons (by decide) (.nil)))))))
  have h0 := word_field (lo := 25) 20#7 hw (.up (.up (.up (.up (.up (.up (.here)))))))
  have h1 := word_field (lo := 0) 1#2 hw (.here)
  have h2 := word_field (lo := 16) 0#5 hw (.up (.up (.up (.up (.here)))))
  have h3 := word_field (lo := 2) 0#4 hw (.up (.here))
  have h4 := word_field (lo := 21) g hw (.up (.up (.up (.up (.up (.here))))))
  have h5 := word_field (lo := 11) p hw (.up (.up (.up (.here))))
  have h6 := word_field (lo := 6) h hw (.up (.up (.here)))
  refine decodeSlot_ok ?_ hb
  show parseC (word (pack [(2, 1), (4, 0), (5, h.toNat), (5, p.toNat), (5, 0), (4, g.toNat), (7, 20)])) = .ok (.cmbxMerge g p h)
  generalize word (pack [(2, 1), (4, 0), (5, h.toNat), (5, p.toNat), (5, 0), (4, g.toNat), (7, 20)]) = W at h0 h1 h2 h3 h4 h5 h6 ⊢
  rw [parseC_20 W h0, h1, h2, h3, h4, h5, h6]
  rfl
theorem Encode.cmbxArmmax (g : BitVec 4) (p : BitVec 5) (h : BitVec 5) : Encode.Statement (.cmbxArmmax g p h) := by
  intro k hk hb
  cases hk
  have hw : Fits [(2, 2), (4, 0), (5, h.toNat), (5, p.toNat), (5, 0), (4, g.toNat), (7, 20)] 32 := .cons (by decide) (.cons (by decide) (.cons (h.isLt) (.cons (p.isLt) (.cons (by decide) (.cons (g.isLt) (.cons (by decide) (.nil)))))))
  have h0 := word_field (lo := 25) 20#7 hw (.up (.up (.up (.up (.up (.up (.here)))))))
  have h1 := word_field (lo := 0) 2#2 hw (.here)
  have h2 := word_field (lo := 16) 0#5 hw (.up (.up (.up (.up (.here)))))
  have h3 := word_field (lo := 2) 0#4 hw (.up (.here))
  have h4 := word_field (lo := 21) g hw (.up (.up (.up (.up (.up (.here))))))
  have h5 := word_field (lo := 11) p hw (.up (.up (.up (.here))))
  have h6 := word_field (lo := 6) h hw (.up (.up (.here)))
  refine decodeSlot_ok ?_ hb
  show parseC (word (pack [(2, 2), (4, 0), (5, h.toNat), (5, p.toNat), (5, 0), (4, g.toNat), (7, 20)])) = .ok (.cmbxArmmax g p h)
  generalize word (pack [(2, 2), (4, 0), (5, h.toNat), (5, p.toNat), (5, 0), (4, g.toNat), (7, 20)]) = W at h0 h1 h2 h3 h4 h5 h6 ⊢
  rw [parseC_20 W h0, h1, h2, h3, h4, h5, h6]
  rfl
theorem Encode.cmbxArmmerge (g : BitVec 4) (p : BitVec 5) (h : BitVec 5) : Encode.Statement (.cmbxArmmerge g p h) := by
  intro k hk hb
  cases hk
  have hw : Fits [(2, 3), (4, 0), (5, h.toNat), (5, p.toNat), (5, 0), (4, g.toNat), (7, 20)] 32 := .cons (by decide) (.cons (by decide) (.cons (h.isLt) (.cons (p.isLt) (.cons (by decide) (.cons (g.isLt) (.cons (by decide) (.nil)))))))
  have h0 := word_field (lo := 25) 20#7 hw (.up (.up (.up (.up (.up (.up (.here)))))))
  have h1 := word_field (lo := 0) 3#2 hw (.here)
  have h2 := word_field (lo := 16) 0#5 hw (.up (.up (.up (.up (.here)))))
  have h3 := word_field (lo := 2) 0#4 hw (.up (.here))
  have h4 := word_field (lo := 21) g hw (.up (.up (.up (.up (.up (.here))))))
  have h5 := word_field (lo := 11) p hw (.up (.up (.up (.here))))
  have h6 := word_field (lo := 6) h hw (.up (.up (.here)))
  refine decodeSlot_ok ?_ hb
  show parseC (word (pack [(2, 3), (4, 0), (5, h.toNat), (5, p.toNat), (5, 0), (4, g.toNat), (7, 20)])) = .ok (.cmbxArmmerge g p h)
  generalize word (pack [(2, 3), (4, 0), (5, h.toNat), (5, p.toNat), (5, 0), (4, g.toNat), (7, 20)]) = W at h0 h1 h2 h3 h4 h5 h6 ⊢
  rw [parseC_20 W h0, h1, h2, h3, h4, h5, h6]
  rfl
theorem Encode.sqOpen (g : BitVec 4) (b : BitVec 5) (c : BitVec 4) : Encode.Statement (.sqOpen g b c) := by
  intro k hk hb
  cases hk
  have hw : Fits [(4, c.toNat), (2, 0), (5, 0), (5, b.toNat), (5, 0), (4, g.toNat), (7, 21)] 32 := .cons (c.isLt) (.cons (by decide) (.cons (by decide) (.cons (b.isLt) (.cons (by decide) (.cons (g.isLt) (.cons (by decide) (.nil)))))))
  have h0 := word_field (lo := 25) 21#7 hw (.up (.up (.up (.up (.up (.up (.here)))))))
  have h1 := word_field (lo := 16) 0#5 hw (.up (.up (.up (.up (.here)))))
  have h2 := word_field (lo := 6) 0#5 hw (.up (.up (.here)))
  have h3 := word_field (lo := 4) 0#2 hw (.up (.here))
  have h4 := word_field (lo := 21) g hw (.up (.up (.up (.up (.up (.here))))))
  have h5 := word_field (lo := 11) b hw (.up (.up (.up (.here))))
  have h6 := word_field (lo := 0) c hw (.here)
  refine decodeSlot_ok ?_ hb
  show parseC (word (pack [(4, c.toNat), (2, 0), (5, 0), (5, b.toNat), (5, 0), (4, g.toNat), (7, 21)])) = .ok (.sqOpen g b c)
  generalize word (pack [(4, c.toNat), (2, 0), (5, 0), (5, b.toNat), (5, 0), (4, g.toNat), (7, 21)]) = W at h0 h1 h2 h3 h4 h5 h6 ⊢
  rw [parseC_21 W h0, h1, h2, h3, h4, h5, h6]
  rfl
theorem Encode.sqFeed (g : BitVec 4) (b : BitVec 5) (c : BitVec 4) : Encode.Statement (.sqFeed g b c) := by
  intro k hk hb
  cases hk
  have hw : Fits [(4, c.toNat), (1, 0), (1, 0), (5, 0), (5, b.toNat), (5, 0), (4, g.toNat), (7, 22)] 32 := .cons (c.isLt) (.cons (by decide) (.cons (by decide) (.cons (by decide) (.cons (b.isLt) (.cons (by decide) (.cons (g.isLt) (.cons (by decide) (.nil))))))))
  have h0 := word_field (lo := 25) 22#7 hw (.up (.up (.up (.up (.up (.up (.up (.here))))))))
  have h1 := word_field (lo := 4) 0#1 hw (.up (.here))
  have h2 := word_field (lo := 16) 0#5 hw (.up (.up (.up (.up (.up (.here))))))
  have h3 := word_field (lo := 6) 0#5 hw (.up (.up (.up (.here))))
  have h4 := word_field (lo := 5) 0#1 hw (.up (.up (.here)))
  have h5 := word_field (lo := 21) g hw (.up (.up (.up (.up (.up (.up (.here)))))))
  have h6 := word_field (lo := 11) b hw (.up (.up (.up (.up (.here)))))
  have h7 := word_field (lo := 0) c hw (.here)
  refine decodeSlot_ok ?_ hb
  show parseC (word (pack [(4, c.toNat), (1, 0), (1, 0), (5, 0), (5, b.toNat), (5, 0), (4, g.toNat), (7, 22)])) = .ok (.sqFeed g b c)
  generalize word (pack [(4, c.toNat), (1, 0), (1, 0), (5, 0), (5, b.toNat), (5, 0), (4, g.toNat), (7, 22)]) = W at h0 h1 h2 h3 h4 h5 h6 h7 ⊢
  rw [parseC_22 W h0, h1, h2, h3, h4, h5, h6, h7]
  rfl
theorem Encode.sqFeedAcc (g : BitVec 4) (b : BitVec 5) (c : BitVec 4) : Encode.Statement (.sqFeedAcc g b c) := by
  intro k hk hb
  cases hk
  have hw : Fits [(4, c.toNat), (1, 1), (1, 0), (5, 0), (5, b.toNat), (5, 0), (4, g.toNat), (7, 22)] 32 := .cons (c.isLt) (.cons (by decide) (.cons (by decide) (.cons (by decide) (.cons (b.isLt) (.cons (by decide) (.cons (g.isLt) (.cons (by decide) (.nil))))))))
  have h0 := word_field (lo := 25) 22#7 hw (.up (.up (.up (.up (.up (.up (.up (.here))))))))
  have h1 := word_field (lo := 4) 1#1 hw (.up (.here))
  have h2 := word_field (lo := 16) 0#5 hw (.up (.up (.up (.up (.up (.here))))))
  have h3 := word_field (lo := 6) 0#5 hw (.up (.up (.up (.here))))
  have h4 := word_field (lo := 5) 0#1 hw (.up (.up (.here)))
  have h5 := word_field (lo := 21) g hw (.up (.up (.up (.up (.up (.up (.here)))))))
  have h6 := word_field (lo := 11) b hw (.up (.up (.up (.up (.here)))))
  have h7 := word_field (lo := 0) c hw (.here)
  refine decodeSlot_ok ?_ hb
  show parseC (word (pack [(4, c.toNat), (1, 1), (1, 0), (5, 0), (5, b.toNat), (5, 0), (4, g.toNat), (7, 22)])) = .ok (.sqFeedAcc g b c)
  generalize word (pack [(4, c.toNat), (1, 1), (1, 0), (5, 0), (5, b.toNat), (5, 0), (4, g.toNat), (7, 22)]) = W at h0 h1 h2 h3 h4 h5 h6 h7 ⊢
  rw [parseC_22 W h0, h1, h2, h3, h4, h5, h6, h7]
  rfl
theorem Encode.sqMask (g : BitVec 4) (b : BitVec 5) (c : BitVec 4) : Encode.Statement (.sqMask g b c) := by
  intro k hk hb
  cases hk
  have hw : Fits [(4, c.toNat), (2, 0), (5, 0), (5, b.toNat), (5, 0), (4, g.toNat), (7, 23)] 32 := .cons (c.isLt) (.cons (by decide) (.cons (by decide) (.cons (b.isLt) (.cons (by decide) (.cons (g.isLt) (.cons (by decide) (.nil)))))))
  have h0 := word_field (lo := 25) 23#7 hw (.up (.up (.up (.up (.up (.up (.here)))))))
  have h1 := word_field (lo := 16) 0#5 hw (.up (.up (.up (.up (.here)))))
  have h2 := word_field (lo := 6) 0#5 hw (.up (.up (.here)))
  have h3 := word_field (lo := 4) 0#2 hw (.up (.here))
  have h4 := word_field (lo := 21) g hw (.up (.up (.up (.up (.up (.here))))))
  have h5 := word_field (lo := 11) b hw (.up (.up (.up (.here))))
  have h6 := word_field (lo := 0) c hw (.here)
  refine decodeSlot_ok ?_ hb
  show parseC (word (pack [(4, c.toNat), (2, 0), (5, 0), (5, b.toNat), (5, 0), (4, g.toNat), (7, 23)])) = .ok (.sqMask g b c)
  generalize word (pack [(4, c.toNat), (2, 0), (5, 0), (5, b.toNat), (5, 0), (4, g.toNat), (7, 23)]) = W at h0 h1 h2 h3 h4 h5 h6 ⊢
  rw [parseC_23 W h0, h1, h2, h3, h4, h5, h6]
  rfl
theorem Encode.sqFork (g : BitVec 4) (b : BitVec 5) (c : BitVec 4) : Encode.Statement (.sqFork g b c) := by
  intro k hk hb
  cases hk
  have hw : Fits [(4, c.toNat), (2, 0), (5, 0), (5, b.toNat), (5, 0), (4, g.toNat), (7, 24)] 32 := .cons (c.isLt) (.cons (by decide) (.cons (by decide) (.cons (b.isLt) (.cons (by decide) (.cons (g.isLt) (.cons (by decide) (.nil)))))))
  have h0 := word_field (lo := 25) 24#7 hw (.up (.up (.up (.up (.up (.up (.here)))))))
  have h1 := word_field (lo := 16) 0#5 hw (.up (.up (.up (.up (.here)))))
  have h2 := word_field (lo := 6) 0#5 hw (.up (.up (.here)))
  have h3 := word_field (lo := 4) 0#2 hw (.up (.here))
  have h4 := word_field (lo := 21) g hw (.up (.up (.up (.up (.up (.here))))))
  have h5 := word_field (lo := 11) b hw (.up (.up (.up (.here))))
  have h6 := word_field (lo := 0) c hw (.here)
  refine decodeSlot_ok ?_ hb
  show parseC (word (pack [(4, c.toNat), (2, 0), (5, 0), (5, b.toNat), (5, 0), (4, g.toNat), (7, 24)])) = .ok (.sqFork g b c)
  generalize word (pack [(4, c.toNat), (2, 0), (5, 0), (5, b.toNat), (5, 0), (4, g.toNat), (7, 24)]) = W at h0 h1 h2 h3 h4 h5 h6 ⊢
  rw [parseC_24 W h0, h1, h2, h3, h4, h5, h6]
  rfl
theorem Encode.sqRoll (g : BitVec 4) (b : BitVec 5) (c : BitVec 4) : Encode.Statement (.sqRoll g b c) := by
  intro k hk hb
  cases hk
  have hw : Fits [(4, c.toNat), (2, 0), (5, 0), (5, b.toNat), (5, 0), (4, g.toNat), (7, 25)] 32 := .cons (c.isLt) (.cons (by decide) (.cons (by decide) (.cons (b.isLt) (.cons (by decide) (.cons (g.isLt) (.cons (by decide) (.nil)))))))
  have h0 := word_field (lo := 25) 25#7 hw (.up (.up (.up (.up (.up (.up (.here)))))))
  have h1 := word_field (lo := 16) 0#5 hw (.up (.up (.up (.up (.here)))))
  have h2 := word_field (lo := 6) 0#5 hw (.up (.up (.here)))
  have h3 := word_field (lo := 4) 0#2 hw (.up (.here))
  have h4 := word_field (lo := 21) g hw (.up (.up (.up (.up (.up (.here))))))
  have h5 := word_field (lo := 11) b hw (.up (.up (.up (.here))))
  have h6 := word_field (lo := 0) c hw (.here)
  refine decodeSlot_ok ?_ hb
  show parseC (word (pack [(4, c.toNat), (2, 0), (5, 0), (5, b.toNat), (5, 0), (4, g.toNat), (7, 25)])) = .ok (.sqRoll g b c)
  generalize word (pack [(4, c.toNat), (2, 0), (5, 0), (5, b.toNat), (5, 0), (4, g.toNat), (7, 25)]) = W at h0 h1 h2 h3 h4 h5 h6 ⊢
  rw [parseC_25 W h0, h1, h2, h3, h4, h5, h6]
  rfl
theorem Encode.sqSampG (g : BitVec 4) (b : BitVec 5) (c : BitVec 4) : Encode.Statement (.sqSampG g b c) := by
  intro k hk hb
  cases hk
  have hw : Fits [(4, c.toNat), (2, 0), (5, 0), (5, b.toNat), (5, 0), (4, g.toNat), (7, 26)] 32 := .cons (c.isLt) (.cons (by decide) (.cons (by decide) (.cons (b.isLt) (.cons (by decide) (.cons (g.isLt) (.cons (by decide) (.nil)))))))
  have h0 := word_field (lo := 25) 26#7 hw (.up (.up (.up (.up (.up (.up (.here)))))))
  have h1 := word_field (lo := 4) 0#2 hw (.up (.here))
  have h2 := word_field (lo := 16) 0#5 hw (.up (.up (.up (.up (.here)))))
  have h3 := word_field (lo := 6) 0#5 hw (.up (.up (.here)))
  have h4 := word_field (lo := 21) g hw (.up (.up (.up (.up (.up (.here))))))
  have h5 := word_field (lo := 11) b hw (.up (.up (.up (.here))))
  have h6 := word_field (lo := 0) c hw (.here)
  refine decodeSlot_ok ?_ hb
  show parseC (word (pack [(4, c.toNat), (2, 0), (5, 0), (5, b.toNat), (5, 0), (4, g.toNat), (7, 26)])) = .ok (.sqSampG g b c)
  generalize word (pack [(4, c.toNat), (2, 0), (5, 0), (5, b.toNat), (5, 0), (4, g.toNat), (7, 26)]) = W at h0 h1 h2 h3 h4 h5 h6 ⊢
  rw [parseC_26 W h0, h1, h2, h3, h4, h5, h6]
  rfl
theorem Encode.sqSampP (g : BitVec 4) (b : BitVec 5) (c : BitVec 4) : Encode.Statement (.sqSampP g b c) := by
  intro k hk hb
  cases hk
  have hw : Fits [(4, c.toNat), (2, 1), (5, 0), (5, b.toNat), (5, 0), (4, g.toNat), (7, 26)] 32 := .cons (c.isLt) (.cons (by decide) (.cons (by decide) (.cons (b.isLt) (.cons (by decide) (.cons (g.isLt) (.cons (by decide) (.nil)))))))
  have h0 := word_field (lo := 25) 26#7 hw (.up (.up (.up (.up (.up (.up (.here)))))))
  have h1 := word_field (lo := 4) 1#2 hw (.up (.here))
  have h2 := word_field (lo := 16) 0#5 hw (.up (.up (.up (.up (.here)))))
  have h3 := word_field (lo := 6) 0#5 hw (.up (.up (.here)))
  have h4 := word_field (lo := 21) g hw (.up (.up (.up (.up (.up (.here))))))
  have h5 := word_field (lo := 11) b hw (.up (.up (.up (.here))))
  have h6 := word_field (lo := 0) c hw (.here)
  refine decodeSlot_ok ?_ hb
  show parseC (word (pack [(4, c.toNat), (2, 1), (5, 0), (5, b.toNat), (5, 0), (4, g.toNat), (7, 26)])) = .ok (.sqSampP g b c)
  generalize word (pack [(4, c.toNat), (2, 1), (5, 0), (5, b.toNat), (5, 0), (4, g.toNat), (7, 26)]) = W at h0 h1 h2 h3 h4 h5 h6 ⊢
  rw [parseC_26 W h0, h1, h2, h3, h4, h5, h6]
  rfl
theorem Encode.sqSampFin (g : BitVec 4) (b : BitVec 5) (c : BitVec 4) : Encode.Statement (.sqSampFin g b c) := by
  intro k hk hb
  cases hk
  have hw : Fits [(4, c.toNat), (2, 2), (5, 0), (5, b.toNat), (5, 0), (4, g.toNat), (7, 26)] 32 := .cons (c.isLt) (.cons (by decide) (.cons (by decide) (.cons (b.isLt) (.cons (by decide) (.cons (g.isLt) (.cons (by decide) (.nil)))))))
  have h0 := word_field (lo := 25) 26#7 hw (.up (.up (.up (.up (.up (.up (.here)))))))
  have h1 := word_field (lo := 4) 2#2 hw (.up (.here))
  have h2 := word_field (lo := 16) 0#5 hw (.up (.up (.up (.up (.here)))))
  have h3 := word_field (lo := 6) 0#5 hw (.up (.up (.here)))
  have h4 := word_field (lo := 21) g hw (.up (.up (.up (.up (.up (.here))))))
  have h5 := word_field (lo := 11) b hw (.up (.up (.up (.here))))
  have h6 := word_field (lo := 0) c hw (.here)
  refine decodeSlot_ok ?_ hb
  show parseC (word (pack [(4, c.toNat), (2, 2), (5, 0), (5, b.toNat), (5, 0), (4, g.toNat), (7, 26)])) = .ok (.sqSampFin g b c)
  generalize word (pack [(4, c.toNat), (2, 2), (5, 0), (5, b.toNat), (5, 0), (4, g.toNat), (7, 26)]) = W at h0 h1 h2 h3 h4 h5 h6 ⊢
  rw [parseC_26 W h0, h1, h2, h3, h4, h5, h6]
  rfl
theorem Encode.sqCommit (g : BitVec 4) (b : BitVec 5) (c : BitVec 4) : Encode.Statement (.sqCommit g b c) := by
  intro k hk hb
  cases hk
  have hw : Fits [(4, c.toNat), (2, 0), (5, 0), (5, b.toNat), (5, 0), (4, g.toNat), (7, 27)] 32 := .cons (c.isLt) (.cons (by decide) (.cons (by decide) (.cons (b.isLt) (.cons (by decide) (.cons (g.isLt) (.cons (by decide) (.nil)))))))
  have h0 := word_field (lo := 25) 27#7 hw (.up (.up (.up (.up (.up (.up (.here)))))))
  have h1 := word_field (lo := 16) 0#5 hw (.up (.up (.up (.up (.here)))))
  have h2 := word_field (lo := 6) 0#5 hw (.up (.up (.here)))
  have h3 := word_field (lo := 4) 0#2 hw (.up (.here))
  have h4 := word_field (lo := 21) g hw (.up (.up (.up (.up (.up (.here))))))
  have h5 := word_field (lo := 11) b hw (.up (.up (.up (.here))))
  have h6 := word_field (lo := 0) c hw (.here)
  refine decodeSlot_ok ?_ hb
  show parseC (word (pack [(4, c.toNat), (2, 0), (5, 0), (5, b.toNat), (5, 0), (4, g.toNat), (7, 27)])) = .ok (.sqCommit g b c)
  generalize word (pack [(4, c.toNat), (2, 0), (5, 0), (5, b.toNat), (5, 0), (4, g.toNat), (7, 27)]) = W at h0 h1 h2 h3 h4 h5 h6 ⊢
  rw [parseC_27 W h0, h1, h2, h3, h4, h5, h6]
  rfl
theorem Encode.sqFree (g : BitVec 4) (b : BitVec 5) (c : BitVec 4) : Encode.Statement (.sqFree g b c) := by
  intro k hk hb
  cases hk
  have hw : Fits [(4, c.toNat), (1, 0), (1, 0), (5, 0), (5, b.toNat), (5, 0), (4, g.toNat), (7, 28)] 32 := .cons (c.isLt) (.cons (by decide) (.cons (by decide) (.cons (by decide) (.cons (b.isLt) (.cons (by decide) (.cons (g.isLt) (.cons (by decide) (.nil))))))))
  have h0 := word_field (lo := 25) 28#7 hw (.up (.up (.up (.up (.up (.up (.up (.here))))))))
  have h1 := word_field (lo := 4) 0#1 hw (.up (.here))
  have h2 := word_field (lo := 16) 0#5 hw (.up (.up (.up (.up (.up (.here))))))
  have h3 := word_field (lo := 6) 0#5 hw (.up (.up (.up (.here))))
  have h4 := word_field (lo := 5) 0#1 hw (.up (.up (.here)))
  have h5 := word_field (lo := 21) g hw (.up (.up (.up (.up (.up (.up (.here)))))))
  have h6 := word_field (lo := 11) b hw (.up (.up (.up (.up (.here)))))
  have h7 := word_field (lo := 0) c hw (.here)
  refine decodeSlot_ok ?_ hb
  show parseC (word (pack [(4, c.toNat), (1, 0), (1, 0), (5, 0), (5, b.toNat), (5, 0), (4, g.toNat), (7, 28)])) = .ok (.sqFree g b c)
  generalize word (pack [(4, c.toNat), (1, 0), (1, 0), (5, 0), (5, b.toNat), (5, 0), (4, g.toNat), (7, 28)]) = W at h0 h1 h2 h3 h4 h5 h6 h7 ⊢
  rw [parseC_28 W h0, h1, h2, h3, h4, h5, h6, h7]
  rfl
theorem Encode.sqFreeRec (g : BitVec 4) (b : BitVec 5) (c : BitVec 4) : Encode.Statement (.sqFreeRec g b c) := by
  intro k hk hb
  cases hk
  have hw : Fits [(4, c.toNat), (1, 1), (1, 0), (5, 0), (5, b.toNat), (5, 0), (4, g.toNat), (7, 28)] 32 := .cons (c.isLt) (.cons (by decide) (.cons (by decide) (.cons (by decide) (.cons (b.isLt) (.cons (by decide) (.cons (g.isLt) (.cons (by decide) (.nil))))))))
  have h0 := word_field (lo := 25) 28#7 hw (.up (.up (.up (.up (.up (.up (.up (.here))))))))
  have h1 := word_field (lo := 4) 1#1 hw (.up (.here))
  have h2 := word_field (lo := 16) 0#5 hw (.up (.up (.up (.up (.up (.here))))))
  have h3 := word_field (lo := 6) 0#5 hw (.up (.up (.up (.here))))
  have h4 := word_field (lo := 5) 0#1 hw (.up (.up (.here)))
  have h5 := word_field (lo := 21) g hw (.up (.up (.up (.up (.up (.up (.here)))))))
  have h6 := word_field (lo := 11) b hw (.up (.up (.up (.up (.here)))))
  have h7 := word_field (lo := 0) c hw (.here)
  refine decodeSlot_ok ?_ hb
  show parseC (word (pack [(4, c.toNat), (1, 1), (1, 0), (5, 0), (5, b.toNat), (5, 0), (4, g.toNat), (7, 28)])) = .ok (.sqFreeRec g b c)
  generalize word (pack [(4, c.toNat), (1, 1), (1, 0), (5, 0), (5, b.toNat), (5, 0), (4, g.toNat), (7, 28)]) = W at h0 h1 h2 h3 h4 h5 h6 h7 ⊢
  rw [parseC_28 W h0, h1, h2, h3, h4, h5, h6, h7]
  rfl
theorem Encode.mig (g : BitVec 4) (k : BitVec 5) : Encode.Statement (.mig g k) := by
  intro k hk hb
  cases hk
  have hw : Fits [(6, 0), (5, 0), (5, k.toNat), (5, 0), (4, g.toNat), (7, 32)] 32 := .cons (by decide) (.cons (by decide) (.cons (k.isLt) (.cons (by decide) (.cons (g.isLt) (.cons (by decide) (.nil))))))
  have h0 := word_field (lo := 25) 32#7 hw (.up (.up (.up (.up (.up (.here))))))
  have h1 := word_field (lo := 16) 0#5 hw (.up (.up (.up (.here))))
  have h2 := word_field (lo := 6) 0#5 hw (.up (.here))
  have h3 := word_field (lo := 0) 0#6 hw (.here)
  have h4 := word_field (lo := 21) g hw (.up (.up (.up (.up (.here)))))
  have h5 := word_field (lo := 11) k hw (.up (.up (.here)))
  refine decodeSlot_ok ?_ hb
  show parseC (word (pack [(6, 0), (5, 0), (5, k.toNat), (5, 0), (4, g.toNat), (7, 32)])) = .ok (.mig g k)
  generalize word (pack [(6, 0), (5, 0), (5, k.toNat), (5, 0), (4, g.toNat), (7, 32)]) = W at h0 h1 h2 h3 h4 h5 ⊢
  rw [parseC_32 W h0, h1, h2, h3, h4, h5]
  rfl
theorem Encode.yield (g : BitVec 4) : Encode.Statement (.yield g) := by
  intro k hk hb
  cases hk
  have hw : Fits [(6, 0), (5, 0), (5, 0), (5, 0), (4, g.toNat), (7, 33)] 32 := .cons (by decide) (.cons (by decide) (.cons (by decide) (.cons (by decide) (.cons (g.isLt) (.cons (by decide) (.nil))))))
  have h0 := word_field (lo := 25) 33#7 hw (.up (.up (.up (.up (.up (.here))))))
  have h1 := word_field (lo := 16) 0#5 hw (.up (.up (.up (.here))))
  have h2 := word_field (lo := 11) 0#5 hw (.up (.up (.here)))
  have h3 := word_field (lo := 6) 0#5 hw (.up (.here))
  have h4 := word_field (lo := 0) 0#6 hw (.here)
  have h5 := word_field (lo := 21) g hw (.up (.up (.up (.up (.here)))))
  refine decodeSlot_ok ?_ hb
  show parseC (word (pack [(6, 0), (5, 0), (5, 0), (5, 0), (4, g.toNat), (7, 33)])) = .ok (.yield g)
  generalize word (pack [(6, 0), (5, 0), (5, 0), (5, 0), (4, g.toNat), (7, 33)]) = W at h0 h1 h2 h3 h4 h5 ⊢
  rw [parseC_33 W h0, h1, h2, h3, h4, h5]
  rfl
theorem Encode.snooze (g : BitVec 4) (s : BitVec 5) : Encode.Statement (.snooze g s) := by
  intro k hk hb
  cases hk
  have hw : Fits [(1, 0), (5, 0), (5, 0), (5, s.toNat), (5, 0), (4, g.toNat), (7, 34)] 32 := .cons (by decide) (.cons (by decide) (.cons (by decide) (.cons (s.isLt) (.cons (by decide) (.cons (g.isLt) (.cons (by decide) (.nil)))))))
  have h0 := word_field (lo := 25) 34#7 hw (.up (.up (.up (.up (.up (.up (.here)))))))
  have h1 := word_field (lo := 0) 0#1 hw (.here)
  have h2 := word_field (lo := 16) 0#5 hw (.up (.up (.up (.up (.here)))))
  have h3 := word_field (lo := 6) 0#5 hw (.up (.up (.here)))
  have h4 := word_field (lo := 1) 0#5 hw (.up (.here))
  have h5 := word_field (lo := 21) g hw (.up (.up (.up (.up (.up (.here))))))
  have h6 := word_field (lo := 11) s hw (.up (.up (.up (.here))))
  refine decodeSlot_ok ?_ hb
  show parseC (word (pack [(1, 0), (5, 0), (5, 0), (5, s.toNat), (5, 0), (4, g.toNat), (7, 34)])) = .ok (.snooze g s)
  generalize word (pack [(1, 0), (5, 0), (5, 0), (5, s.toNat), (5, 0), (4, g.toNat), (7, 34)]) = W at h0 h1 h2 h3 h4 h5 h6 ⊢
  rw [parseC_34 W h0, h1, h2, h3, h4, h5, h6]
  rfl
theorem Encode.snoozeW (g : BitVec 4) (s : BitVec 5) : Encode.Statement (.snoozeW g s) := by
  intro k hk hb
  cases hk
  have hw : Fits [(1, 1), (5, 0), (5, 0), (5, s.toNat), (5, 0), (4, g.toNat), (7, 34)] 32 := .cons (by decide) (.cons (by decide) (.cons (by decide) (.cons (s.isLt) (.cons (by decide) (.cons (g.isLt) (.cons (by decide) (.nil)))))))
  have h0 := word_field (lo := 25) 34#7 hw (.up (.up (.up (.up (.up (.up (.here)))))))
  have h1 := word_field (lo := 0) 1#1 hw (.here)
  have h2 := word_field (lo := 16) 0#5 hw (.up (.up (.up (.up (.here)))))
  have h3 := word_field (lo := 6) 0#5 hw (.up (.up (.here)))
  have h4 := word_field (lo := 1) 0#5 hw (.up (.here))
  have h5 := word_field (lo := 21) g hw (.up (.up (.up (.up (.up (.here))))))
  have h6 := word_field (lo := 11) s hw (.up (.up (.up (.here))))
  refine decodeSlot_ok ?_ hb
  show parseC (word (pack [(1, 1), (5, 0), (5, 0), (5, s.toNat), (5, 0), (4, g.toNat), (7, 34)])) = .ok (.snoozeW g s)
  generalize word (pack [(1, 1), (5, 0), (5, 0), (5, s.toNat), (5, 0), (4, g.toNat), (7, 34)]) = W at h0 h1 h2 h3 h4 h5 h6 ⊢
  rw [parseC_34 W h0, h1, h2, h3, h4, h5, h6]
  rfl
theorem Encode.sexit (g : BitVec 4) : Encode.Statement (.sexit g) := by
  intro k hk hb
  cases hk
  have hw : Fits [(6, 0), (5, 0), (5, 0), (5, 0), (4, g.toNat), (7, 35)] 32 := .cons (by decide) (.cons (by decide) (.cons (by decide) (.cons (by decide) (.cons (g.isLt) (.cons (by decide) (.nil))))))
  have h0 := word_field (lo := 25) 35#7 hw (.up (.up (.up (.up (.up (.here))))))
  have h1 := word_field (lo := 16) 0#5 hw (.up (.up (.up (.here))))
  have h2 := word_field (lo := 11) 0#5 hw (.up (.up (.here)))
  have h3 := word_field (lo := 6) 0#5 hw (.up (.here))
  have h4 := word_field (lo := 0) 0#6 hw (.here)
  have h5 := word_field (lo := 21) g hw (.up (.up (.up (.up (.here)))))
  refine decodeSlot_ok ?_ hb
  show parseC (word (pack [(6, 0), (5, 0), (5, 0), (5, 0), (4, g.toNat), (7, 35)])) = .ok (.sexit g)
  generalize word (pack [(6, 0), (5, 0), (5, 0), (5, 0), (4, g.toNat), (7, 35)]) = W at h0 h1 h2 h3 h4 h5 ⊢
  rw [parseC_35 W h0, h1, h2, h3, h4, h5]
  rfl
theorem Encode.sail (g : BitVec 4) (l : BitVec 5) (s : BitVec 5) : Encode.Statement (.sail g l s) := by
  intro k hk hb
  cases hk
  have hw : Fits [(6, 0), (5, s.toNat), (5, l.toNat), (5, 0), (4, g.toNat), (7, 48)] 32 := .cons (by decide) (.cons (s.isLt) (.cons (l.isLt) (.cons (by decide) (.cons (g.isLt) (.cons (by decide) (.nil))))))
  have h0 := word_field (lo := 25) 48#7 hw (.up (.up (.up (.up (.up (.here))))))
  have h1 := word_field (lo := 16) 0#5 hw (.up (.up (.up (.here))))
  have h2 := word_field (lo := 0) 0#6 hw (.here)
  have h3 := word_field (lo := 21) g hw (.up (.up (.up (.up (.here)))))
  have h4 := word_field (lo := 11) l hw (.up (.up (.here)))
  have h5 := word_field (lo := 6) s hw (.up (.here))
  refine decodeSlot_ok ?_ hb
  show parseC (word (pack [(6, 0), (5, s.toNat), (5, l.toNat), (5, 0), (4, g.toNat), (7, 48)])) = .ok (.sail g l s)
  generalize word (pack [(6, 0), (5, s.toNat), (5, l.toNat), (5, 0), (4, g.toNat), (7, 48)]) = W at h0 h1 h2 h3 h4 h5 ⊢
  rw [parseC_48 W h0, h1, h2, h3, h4, h5]
  rfl
theorem Encode.swait (g : BitVec 4) (s : BitVec 5) : Encode.Statement (.swait g s) := by
  intro k hk hb
  cases hk
  have hw : Fits [(6, 0), (5, 0), (5, s.toNat), (5, 0), (4, g.toNat), (7, 49)] 32 := .cons (by decide) (.cons (by decide) (.cons (s.isLt) (.cons (by decide) (.cons (g.isLt) (.cons (by decide) (.nil))))))
  have h0 := word_field (lo := 25) 49#7 hw (.up (.up (.up (.up (.up (.here))))))
  have h1 := word_field (lo := 16) 0#5 hw (.up (.up (.up (.here))))
  have h2 := word_field (lo := 6) 0#5 hw (.up (.here))
  have h3 := word_field (lo := 0) 0#6 hw (.here)
  have h4 := word_field (lo := 21) g hw (.up (.up (.up (.up (.here)))))
  have h5 := word_field (lo := 11) s hw (.up (.up (.here)))
  refine decodeSlot_ok ?_ hb
  show parseC (word (pack [(6, 0), (5, 0), (5, s.toNat), (5, 0), (4, g.toNat), (7, 49)])) = .ok (.swait g s)
  generalize word (pack [(6, 0), (5, 0), (5, s.toNat), (5, 0), (4, g.toNat), (7, 49)]) = W at h0 h1 h2 h3 h4 h5 ⊢
  rw [parseC_49 W h0, h1, h2, h3, h4, h5]
  rfl
theorem Encode.preempt (g : BitVec 4) (s : BitVec 5) : Encode.Statement (.preempt g s) := by
  intro k hk hb
  cases hk
  have hw : Fits [(1, 0), (5, 0), (5, 0), (5, s.toNat), (5, 0), (4, g.toNat), (7, 50)] 32 := .cons (by decide) (.cons (by decide) (.cons (by decide) (.cons (s.isLt) (.cons (by decide) (.cons (g.isLt) (.cons (by decide) (.nil)))))))
  have h0 := word_field (lo := 25) 50#7 hw (.up (.up (.up (.up (.up (.up (.here)))))))
  have h1 := word_field (lo := 0) 0#1 hw (.here)
  have h2 := word_field (lo := 16) 0#5 hw (.up (.up (.up (.up (.here)))))
  have h3 := word_field (lo := 6) 0#5 hw (.up (.up (.here)))
  have h4 := word_field (lo := 1) 0#5 hw (.up (.here))
  have h5 := word_field (lo := 21) g hw (.up (.up (.up (.up (.up (.here))))))
  have h6 := word_field (lo := 11) s hw (.up (.up (.up (.here))))
  refine decodeSlot_ok ?_ hb
  show parseC (word (pack [(1, 0), (5, 0), (5, 0), (5, s.toNat), (5, 0), (4, g.toNat), (7, 50)])) = .ok (.preempt g s)
  generalize word (pack [(1, 0), (5, 0), (5, 0), (5, s.toNat), (5, 0), (4, g.toNat), (7, 50)]) = W at h0 h1 h2 h3 h4 h5 h6 ⊢
  rw [parseC_50 W h0, h1, h2, h3, h4, h5, h6]
  rfl
theorem Encode.preemptKill (g : BitVec 4) (s : BitVec 5) : Encode.Statement (.preemptKill g s) := by
  intro k hk hb
  cases hk
  have hw : Fits [(1, 1), (5, 0), (5, 0), (5, s.toNat), (5, 0), (4, g.toNat), (7, 50)] 32 := .cons (by decide) (.cons (by decide) (.cons (by decide) (.cons (s.isLt) (.cons (by decide) (.cons (g.isLt) (.cons (by decide) (.nil)))))))
  have h0 := word_field (lo := 25) 50#7 hw (.up (.up (.up (.up (.up (.up (.here)))))))
  have h1 := word_field (lo := 0) 1#1 hw (.here)
  have h2 := word_field (lo := 16) 0#5 hw (.up (.up (.up (.up (.here)))))
  have h3 := word_field (lo := 6) 0#5 hw (.up (.up (.here)))
  have h4 := word_field (lo := 1) 0#5 hw (.up (.here))
  have h5 := word_field (lo := 21) g hw (.up (.up (.up (.up (.up (.here))))))
  have h6 := word_field (lo := 11) s hw (.up (.up (.up (.here))))
  refine decodeSlot_ok ?_ hb
  show parseC (word (pack [(1, 1), (5, 0), (5, 0), (5, s.toNat), (5, 0), (4, g.toNat), (7, 50)])) = .ok (.preemptKill g s)
  generalize word (pack [(1, 1), (5, 0), (5, 0), (5, s.toNat), (5, 0), (4, g.toNat), (7, 50)]) = W at h0 h1 h2 h3 h4 h5 h6 ⊢
  rw [parseC_50 W h0, h1, h2, h3, h4, h5, h6]
  rfl
theorem Encode.ctxsv (g : BitVec 4) (s : BitVec 5) (n : BitVec 1) : Encode.Statement (.ctxsv g s n) := by
  intro k hk hb
  cases hk
  have hw : Fits [(1, n.toNat), (5, 0), (5, 0), (5, s.toNat), (5, 0), (4, g.toNat), (7, 51)] 32 := .cons (n.isLt) (.cons (by decide) (.cons (by decide) (.cons (s.isLt) (.cons (by decide) (.cons (g.isLt) (.cons (by decide) (.nil)))))))
  have h0 := word_field (lo := 25) 51#7 hw (.up (.up (.up (.up (.up (.up (.here)))))))
  have h1 := word_field (lo := 16) 0#5 hw (.up (.up (.up (.up (.here)))))
  have h2 := word_field (lo := 6) 0#5 hw (.up (.up (.here)))
  have h3 := word_field (lo := 1) 0#5 hw (.up (.here))
  have h4 := word_field (lo := 21) g hw (.up (.up (.up (.up (.up (.here))))))
  have h5 := word_field (lo := 11) s hw (.up (.up (.up (.here))))
  have h6 := word_field (lo := 0) n hw (.here)
  refine decodeSlot_ok ?_ hb
  show parseC (word (pack [(1, n.toNat), (5, 0), (5, 0), (5, s.toNat), (5, 0), (4, g.toNat), (7, 51)])) = .ok (.ctxsv g s n)
  generalize word (pack [(1, n.toNat), (5, 0), (5, 0), (5, s.toNat), (5, 0), (4, g.toNat), (7, 51)]) = W at h0 h1 h2 h3 h4 h5 h6 ⊢
  rw [parseC_51 W h0, h1, h2, h3, h4, h5, h6]
  rfl
theorem Encode.ctxld (g : BitVec 4) (s : BitVec 5) (n : BitVec 1) : Encode.Statement (.ctxld g s n) := by
  intro k hk hb
  cases hk
  have hw : Fits [(1, n.toNat), (5, 0), (5, 0), (5, s.toNat), (5, 0), (4, g.toNat), (7, 52)] 32 := .cons (n.isLt) (.cons (by decide) (.cons (by decide) (.cons (s.isLt) (.cons (by decide) (.cons (g.isLt) (.cons (by decide) (.nil)))))))
  have h0 := word_field (lo := 25) 52#7 hw (.up (.up (.up (.up (.up (.up (.here)))))))
  have h1 := word_field (lo := 16) 0#5 hw (.up (.up (.up (.up (.here)))))
  have h2 := word_field (lo := 6) 0#5 hw (.up (.up (.here)))
  have h3 := word_field (lo := 1) 0#5 hw (.up (.here))
  have h4 := word_field (lo := 21) g hw (.up (.up (.up (.up (.up (.here))))))
  have h5 := word_field (lo := 11) s hw (.up (.up (.up (.here))))
  have h6 := word_field (lo := 0) n hw (.here)
  refine decodeSlot_ok ?_ hb
  show parseC (word (pack [(1, n.toNat), (5, 0), (5, 0), (5, s.toNat), (5, 0), (4, g.toNat), (7, 52)])) = .ok (.ctxld g s n)
  generalize word (pack [(1, n.toNat), (5, 0), (5, 0), (5, s.toNat), (5, 0), (4, g.toNat), (7, 52)]) = W at h0 h1 h2 h3 h4 h5 h6 ⊢
  rw [parseC_52 W h0, h1, h2, h3, h4, h5, h6]
  rfl
theorem Encode.qpop (g : BitVec 4) (b : BitVec 5) : Encode.Statement (.qpop g b) := by
  intro k hk hb
  cases hk
  have hw : Fits [(6, 0), (5, 0), (5, b.toNat), (5, 0), (4, g.toNat), (7, 53)] 32 := .cons (by decide) (.cons (by decide) (.cons (b.isLt) (.cons (by decide) (.cons (g.isLt) (.cons (by decide) (.nil))))))
  have h0 := word_field (lo := 25) 53#7 hw (.up (.up (.up (.up (.up (.here))))))
  have h1 := word_field (lo := 16) 0#5 hw (.up (.up (.up (.here))))
  have h2 := word_field (lo := 6) 0#5 hw (.up (.here))
  have h3 := word_field (lo := 0) 0#6 hw (.here)
  have h4 := word_field (lo := 21) g hw (.up (.up (.up (.up (.here)))))
  have h5 := word_field (lo := 11) b hw (.up (.up (.here)))
  refine decodeSlot_ok ?_ hb
  show parseC (word (pack [(6, 0), (5, 0), (5, b.toNat), (5, 0), (4, g.toNat), (7, 53)])) = .ok (.qpop g b)
  generalize word (pack [(6, 0), (5, 0), (5, b.toNat), (5, 0), (4, g.toNat), (7, 53)]) = W at h0 h1 h2 h3 h4 h5 ⊢
  rw [parseC_53 W h0, h1, h2, h3, h4, h5]
  rfl
theorem Encode.qpush (g : BitVec 4) (q : BitVec 5) (b : BitVec 5) : Encode.Statement (.qpush g q b) := by
  intro k hk hb
  cases hk
  have hw : Fits [(1, 0), (5, 0), (5, b.toNat), (5, q.toNat), (5, 0), (4, g.toNat), (7, 54)] 32 := .cons (by decide) (.cons (by decide) (.cons (b.isLt) (.cons (q.isLt) (.cons (by decide) (.cons (g.isLt) (.cons (by decide) (.nil)))))))
  have h0 := word_field (lo := 25) 54#7 hw (.up (.up (.up (.up (.up (.up (.here)))))))
  have h1 := word_field (lo := 0) 0#1 hw (.here)
  have h2 := word_field (lo := 16) 0#5 hw (.up (.up (.up (.up (.here)))))
  have h3 := word_field (lo := 1) 0#5 hw (.up (.here))
  have h4 := word_field (lo := 21) g hw (.up (.up (.up (.up (.up (.here))))))
  have h5 := word_field (lo := 11) q hw (.up (.up (.up (.here))))
  have h6 := word_field (lo := 6) b hw (.up (.up (.here)))
  refine decodeSlot_ok ?_ hb
  show parseC (word (pack [(1, 0), (5, 0), (5, b.toNat), (5, q.toNat), (5, 0), (4, g.toNat), (7, 54)])) = .ok (.qpush g q b)
  generalize word (pack [(1, 0), (5, 0), (5, b.toNat), (5, q.toNat), (5, 0), (4, g.toNat), (7, 54)]) = W at h0 h1 h2 h3 h4 h5 h6 ⊢
  rw [parseC_54 W h0, h1, h2, h3, h4, h5, h6]
  rfl
theorem Encode.qpushCfg (g : BitVec 4) (q : BitVec 5) (b : BitVec 5) : Encode.Statement (.qpushCfg g q b) := by
  intro k hk hb
  cases hk
  have hw : Fits [(1, 1), (5, 0), (5, b.toNat), (5, q.toNat), (5, 0), (4, g.toNat), (7, 54)] 32 := .cons (by decide) (.cons (by decide) (.cons (b.isLt) (.cons (q.isLt) (.cons (by decide) (.cons (g.isLt) (.cons (by decide) (.nil)))))))
  have h0 := word_field (lo := 25) 54#7 hw (.up (.up (.up (.up (.up (.up (.here)))))))
  have h1 := word_field (lo := 0) 1#1 hw (.here)
  have h2 := word_field (lo := 16) 0#5 hw (.up (.up (.up (.up (.here)))))
  have h3 := word_field (lo := 1) 0#5 hw (.up (.here))
  have h4 := word_field (lo := 21) g hw (.up (.up (.up (.up (.up (.here))))))
  have h5 := word_field (lo := 11) q hw (.up (.up (.up (.here))))
  have h6 := word_field (lo := 6) b hw (.up (.up (.here)))
  refine decodeSlot_ok ?_ hb
  show parseC (word (pack [(1, 1), (5, 0), (5, b.toNat), (5, q.toNat), (5, 0), (4, g.toNat), (7, 54)])) = .ok (.qpushCfg g q b)
  generalize word (pack [(1, 1), (5, 0), (5, b.toNat), (5, q.toNat), (5, 0), (4, g.toNat), (7, 54)]) = W at h0 h1 h2 h3 h4 h5 h6 ⊢
  rw [parseC_54 W h0, h1, h2, h3, h4, h5, h6]
  rfl
theorem Encode.pgenCap (g : BitVec 4) (p : BitVec 5) (d : BitVec 5) : Encode.Statement (.pgenCap g p d) := by
  intro k hk hb
  cases hk
  have hw : Fits [(1, 0), (5, 0), (5, d.toNat), (5, p.toNat), (5, 0), (4, g.toNat), (7, 55)] 32 := .cons (by decide) (.cons (by decide) (.cons (d.isLt) (.cons (p.isLt) (.cons (by decide) (.cons (g.isLt) (.cons (by decide) (.nil)))))))
  have h0 := word_field (lo := 25) 55#7 hw (.up (.up (.up (.up (.up (.up (.here)))))))
  have h1 := word_field (lo := 0) 0#1 hw (.here)
  have h2 := word_field (lo := 16) 0#5 hw (.up (.up (.up (.up (.here)))))
  have h3 := word_field (lo := 1) 0#5 hw (.up (.here))
  have h4 := word_field (lo := 21) g hw (.up (.up (.up (.up (.up (.here))))))
  have h5 := word_field (lo := 11) p hw (.up (.up (.up (.here))))
  have h6 := word_field (lo := 6) d hw (.up (.up (.here)))
  refine decodeSlot_ok ?_ hb
  show parseC (word (pack [(1, 0), (5, 0), (5, d.toNat), (5, p.toNat), (5, 0), (4, g.toNat), (7, 55)])) = .ok (.pgenCap g p d)
  generalize word (pack [(1, 0), (5, 0), (5, d.toNat), (5, p.toNat), (5, 0), (4, g.toNat), (7, 55)]) = W at h0 h1 h2 h3 h4 h5 h6 ⊢
  rw [parseC_55 W h0, h1, h2, h3, h4, h5, h6]
  rfl
theorem Encode.pgenPub (g : BitVec 4) (p : BitVec 5) : Encode.Statement (.pgenPub g p) := by
  intro k hk hb
  cases hk
  have hw : Fits [(1, 1), (5, 0), (5, 0), (5, p.toNat), (5, 0), (4, g.toNat), (7, 55)] 32 := .cons (by decide) (.cons (by decide) (.cons (by decide) (.cons (p.isLt) (.cons (by decide) (.cons (g.isLt) (.cons (by decide) (.nil)))))))
  have h0 := word_field (lo := 25) 55#7 hw (.up (.up (.up (.up (.up (.up (.here)))))))
  have h1 := word_field (lo := 0) 1#1 hw (.here)
  have h2 := word_field (lo := 16) 0#5 hw (.up (.up (.up (.up (.here)))))
  have h3 := word_field (lo := 6) 0#5 hw (.up (.up (.here)))
  have h4 := word_field (lo := 1) 0#5 hw (.up (.here))
  have h5 := word_field (lo := 21) g hw (.up (.up (.up (.up (.up (.here))))))
  have h6 := word_field (lo := 11) p hw (.up (.up (.up (.here))))
  refine decodeSlot_ok ?_ hb
  show parseC (word (pack [(1, 1), (5, 0), (5, 0), (5, p.toNat), (5, 0), (4, g.toNat), (7, 55)])) = .ok (.pgenPub g p)
  generalize word (pack [(1, 1), (5, 0), (5, 0), (5, p.toNat), (5, 0), (4, g.toNat), (7, 55)]) = W at h0 h1 h2 h3 h4 h5 h6 ⊢
  rw [parseC_55 W h0, h1, h2, h3, h4, h5, h6]
  rfl
theorem Encode.tlbm (g : BitVec 4) (s : BitVec 5) (a : BitVec 5) : Encode.Statement (.tlbm g s a) := by
  intro k hk hb
  cases hk
  have hw : Fits [(6, 0), (5, a.toNat), (5, s.toNat), (5, 0), (4, g.toNat), (7, 56)] 32 := .cons (by decide) (.cons (a.isLt) (.cons (s.isLt) (.cons (by decide) (.cons (g.isLt) (.cons (by decide) (.nil))))))
  have h0 := word_field (lo := 25) 56#7 hw (.up (.up (.up (.up (.up (.here))))))
  have h1 := word_field (lo := 16) 0#5 hw (.up (.up (.up (.here))))
  have h2 := word_field (lo := 0) 0#6 hw (.here)
  have h3 := word_field (lo := 21) g hw (.up (.up (.up (.up (.here)))))
  have h4 := word_field (lo := 11) s hw (.up (.up (.here)))
  have h5 := word_field (lo := 6) a hw (.up (.here))
  refine decodeSlot_ok ?_ hb
  show parseC (word (pack [(6, 0), (5, a.toNat), (5, s.toNat), (5, 0), (4, g.toNat), (7, 56)])) = .ok (.tlbm g s a)
  generalize word (pack [(6, 0), (5, a.toNat), (5, s.toNat), (5, 0), (4, g.toNat), (7, 56)]) = W at h0 h1 h2 h3 h4 h5 ⊢
  rw [parseC_56 W h0, h1, h2, h3, h4, h5]
  rfl
theorem Encode.ovfld (g : BitVec 4) (v : BitVec 5) : Encode.Statement (.ovfld g v) := by
  intro k hk hb
  cases hk
  have hw : Fits [(1, 0), (5, 0), (5, 0), (5, v.toNat), (5, 0), (4, g.toNat), (7, 57)] 32 := .cons (by decide) (.cons (by decide) (.cons (by decide) (.cons (v.isLt) (.cons (by decide) (.cons (g.isLt) (.cons (by decide) (.nil)))))))
  have h0 := word_field (lo := 25) 57#7 hw (.up (.up (.up (.up (.up (.up (.here)))))))
  have h1 := word_field (lo := 0) 0#1 hw (.here)
  have h2 := word_field (lo := 16) 0#5 hw (.up (.up (.up (.up (.here)))))
  have h3 := word_field (lo := 6) 0#5 hw (.up (.up (.here)))
  have h4 := word_field (lo := 1) 0#5 hw (.up (.here))
  have h5 := word_field (lo := 21) g hw (.up (.up (.up (.up (.up (.here))))))
  have h6 := word_field (lo := 11) v hw (.up (.up (.up (.here))))
  refine decodeSlot_ok ?_ hb
  show parseC (word (pack [(1, 0), (5, 0), (5, 0), (5, v.toNat), (5, 0), (4, g.toNat), (7, 57)])) = .ok (.ovfld g v)
  generalize word (pack [(1, 0), (5, 0), (5, 0), (5, v.toNat), (5, 0), (4, g.toNat), (7, 57)]) = W at h0 h1 h2 h3 h4 h5 h6 ⊢
  rw [parseC_57 W h0, h1, h2, h3, h4, h5, h6]
  rfl
theorem Encode.ovfldSelf (g : BitVec 4) (v : BitVec 5) : Encode.Statement (.ovfldSelf g v) := by
  intro k hk hb
  cases hk
  have hw : Fits [(1, 1), (5, 0), (5, 0), (5, v.toNat), (5, 0), (4, g.toNat), (7, 57)] 32 := .cons (by decide) (.cons (by decide) (.cons (by decide) (.cons (v.isLt) (.cons (by decide) (.cons (g.isLt) (.cons (by decide) (.nil)))))))
  have h0 := word_field (lo := 25) 57#7 hw (.up (.up (.up (.up (.up (.up (.here)))))))
  have h1 := word_field (lo := 0) 1#1 hw (.here)
  have h2 := word_field (lo := 16) 0#5 hw (.up (.up (.up (.up (.here)))))
  have h3 := word_field (lo := 6) 0#5 hw (.up (.up (.here)))
  have h4 := word_field (lo := 1) 0#5 hw (.up (.here))
  have h5 := word_field (lo := 21) g hw (.up (.up (.up (.up (.up (.here))))))
  have h6 := word_field (lo := 11) v hw (.up (.up (.up (.here))))
  refine decodeSlot_ok ?_ hb
  show parseC (word (pack [(1, 1), (5, 0), (5, 0), (5, v.toNat), (5, 0), (4, g.toNat), (7, 57)])) = .ok (.ovfldSelf g v)
  generalize word (pack [(1, 1), (5, 0), (5, 0), (5, v.toNat), (5, 0), (4, g.toNat), (7, 57)]) = W at h0 h1 h2 h3 h4 h5 h6 ⊢
  rw [parseC_57 W h0, h1, h2, h3, h4, h5, h6]
  rfl
theorem Encode.landingOverdue (p : Nat) : Encode.Statement (.landingOverdue p) := by intro k hk; cases hk
theorem Encode.bundleSkip (p : Nat) : Encode.Statement (.bundleSkip p) := by intro k hk; cases hk
theorem Encode.stallEnd (p : Nat) : Encode.Statement (.stallEnd p) := by intro k hk; cases hk
theorem Encode.bundleIssue (p : Nat) : Encode.Statement (.bundleIssue p) := by intro k hk; cases hk
theorem Encode.debugStopTaken (p : Nat) : Encode.Statement (.debugStopTaken p) := by intro k hk; cases hk
theorem Encode.skiffPortRequest (p j : Nat) : Encode.Statement (.skiffPortRequest p j) := by intro k hk; cases hk
theorem Encode.skiffBarrelGrant (p : Nat) : Encode.Statement (.skiffBarrelGrant p) := by intro k hk; cases hk
theorem Encode.skiffFetch (p j : Nat) : Encode.Statement (.skiffFetch p j) := by intro k hk; cases hk
theorem Encode.skiffOpComplete (p j : Nat) : Encode.Statement (.skiffOpComplete p j) := by intro k hk; cases hk
theorem Encode.skiffCacheFill (p : Nat) : Encode.Statement (.skiffCacheFill p) := by intro k hk; cases hk
theorem Encode.skiffTlbWalkResult (p j : Nat) : Encode.Statement (.skiffTlbWalkResult p j) := by intro k hk; cases hk
theorem Encode.migrationPack (p j : Nat) : Encode.Statement (.migrationPack p j) := by intro k hk; cases hk
theorem Encode.migrationMessage (p : Nat) : Encode.Statement (.migrationMessage p) := by intro k hk; cases hk
theorem Encode.migrationResend (p : Nat) : Encode.Statement (.migrationResend p) := by intro k hk; cases hk
theorem Encode.corePartEnd (p : Nat) : Encode.Statement (.corePartEnd p) := by intro k hk; cases hk
theorem Encode.sfuRequestServe (p : Nat) : Encode.Statement (.sfuRequestServe p) := by intro k hk; cases hk
theorem Encode.vectorEntryStart (p : Nat) : Encode.Statement (.vectorEntryStart p) := by intro k hk; cases hk
theorem Encode.vectorEntryComplete (p : Nat) : Encode.Statement (.vectorEntryComplete p) := by intro k hk; cases hk
theorem Encode.streamPortRefill (p : Nat) : Encode.Statement (.streamPortRefill p) := by intro k hk; cases hk
theorem Encode.arrayCommandStart (q : Nat) : Encode.Statement (.arrayCommandStart q) := by intro k hk; cases hk
theorem Encode.macroKStep (q : Nat) : Encode.Statement (.macroKStep q) := by intro k hk; cases hk
theorem Encode.arrayCommandComplete (q : Nat) : Encode.Statement (.arrayCommandComplete q) := by intro k hk; cases hk
theorem Encode.leaseGrant (q : Nat) : Encode.Statement (.leaseGrant q) := by intro k hk; cases hk
theorem Encode.mdldWrite (p : Nat) : Encode.Statement (.mdldWrite p) := by intro k hk; cases hk
theorem Encode.mdstComplete (p : Nat) : Encode.Statement (.mdstComplete p) := by intro k hk; cases hk
theorem Encode.refillStart (p n : Nat) : Encode.Statement (.refillStart p n) := by intro k hk; cases hk
theorem Encode.watermarkAdvance (p n : Nat) : Encode.Statement (.watermarkAdvance p n) := by intro k hk; cases hk
theorem Encode.refillFault (p n : Nat) : Encode.Statement (.refillFault p n) := by intro k hk; cases hk
theorem Encode.lighterAccept (l : Nat) : Encode.Statement (.lighterAccept l) := by intro k hk; cases hk
theorem Encode.lighterStart (l : Nat) : Encode.Statement (.lighterStart l) := by intro k hk; cases hk
theorem Encode.lighterComplete (l : Nat) : Encode.Statement (.lighterComplete l) := by intro k hk; cases hk
theorem Encode.residueSlot (d : Nat) : Encode.Statement (.residueSlot d) := by intro k hk; cases hk
theorem Encode.remoteAccessPerform (p : Nat) : Encode.Statement (.remoteAccessPerform p) := by intro k hk; cases hk
theorem Encode.remoteReply (p : Nat) : Encode.Statement (.remoteReply p) := by intro k hk; cases hk
theorem Encode.tollPeriodBoundary (p : Nat) : Encode.Statement (.tollPeriodBoundary p) := by intro k hk; cases hk
theorem Encode.channelSlot (sn c : Nat) : Encode.Statement (.channelSlot sn c) := by intro k hk; cases hk
theorem Encode.flitDelivery (sn : Nat) : Encode.Statement (.flitDelivery sn) := by intro k hk; cases hk
theorem Encode.collectiveComplete (sn : Nat) : Encode.Statement (.collectiveComplete sn) := by intro k hk; cases hk
theorem Encode.combiningPacket (sn : Nat) : Encode.Statement (.combiningPacket sn) := by intro k hk; cases hk
theorem Encode.sqCommandComplete (d : Nat) : Encode.Statement (.sqCommandComplete d) := by intro k hk; cases hk
theorem Encode.routeComplete (d : Nat) : Encode.Statement (.routeComplete d) := by intro k hk; cases hk
theorem Encode.tokenRowArrival (d : Nat) : Encode.Statement (.tokenRowArrival d) := by intro k hk; cases hk
theorem Encode.preemptMark (p : Nat) : Encode.Statement (.preemptMark p) := by intro k hk; cases hk
theorem Encode.segmentMiss (p : Nat) : Encode.Statement (.segmentMiss p) := by intro k hk; cases hk
theorem Encode.segmentPrefetch (p : Nat) : Encode.Statement (.segmentPrefetch p) := by intro k hk; cases hk
theorem Encode.resultLanding (p : Nat) : Encode.Statement (.resultLanding p) := by intro k hk; cases hk
theorem Encode.lqFill (p : Nat) : Encode.Statement (.lqFill p) := by intro k hk; cases hk
theorem Encode.driftRecordDrain (p : Nat) : Encode.Statement (.driftRecordDrain p) := by intro k hk; cases hk
theorem Encode.pageWalk (d : Nat) : Encode.Statement (.pageWalk d) := by intro k hk; cases hk
theorem Encode.markerPass (d : Nat) : Encode.Statement (.markerPass d) := by intro k hk; cases hk
theorem Encode.dieShootdown (d : Nat) : Encode.Statement (.dieShootdown d) := by intro k hk; cases hk
theorem Encode.linkAlignment (latr hlat : Nat) : Encode.Statement (.linkAlignment latr hlat) := by intro k hk; cases hk
theorem Encode.flitResend (sn : Nat) : Encode.Statement (.flitResend sn) := by intro k hk; cases hk
theorem Encode.holdRequest (h : Nat) : Encode.Statement (.holdRequest h) := by intro k hk; cases hk
theorem Encode.holdFreeze : Encode.Statement (.holdFreeze) := by intro k hk; cases hk
theorem Encode.holdFreezeEnd : Encode.Statement (.holdFreezeEnd) := by intro k hk; cases hk
theorem Encode.powerLimit (k refill resv : Nat) : Encode.Statement (.powerLimit k refill resv) := by intro k hk; cases hk
theorem Encode.channelWordArrival (sn c : Nat) : Encode.Statement (.channelWordArrival sn c) := by intro k hk; cases hk
theorem Encode.creditReturn (sn c : Nat) : Encode.Statement (.creditReturn sn c) := by intro k hk; cases hk
theorem Encode.barrierArrival (sn : Nat) : Encode.Statement (.barrierArrival sn) := by intro k hk; cases hk
theorem Encode.barrierCompletion (sn : Nat) : Encode.Statement (.barrierCompletion sn) := by intro k hk; cases hk
theorem Encode.roslysFrame (k r : Nat) : Encode.Statement (.roslysFrame k r) := by intro k hk; cases hk
theorem Encode.portDown (k r : Nat) : Encode.Statement (.portDown k r) := by intro k hk; cases hk
theorem Encode.grammarStoreWrite (d o v : Nat) : Encode.Statement (.grammarStoreWrite d o v) := by intro k hk; cases hk
theorem Encode.sailingStart (sn : Nat) : Encode.Statement (.sailingStart sn) := by intro k hk; cases hk
theorem Encode.sailingDone (sn : Nat) : Encode.Statement (.sailingDone sn) := by intro k hk; cases hk
theorem Encode.stopCycle (sn : Nat) : Encode.Statement (.stopCycle sn) := by intro k hk; cases hk
theorem Encode.killComplete (sn : Nat) : Encode.Statement (.killComplete sn) := by intro k hk; cases hk
theorem Encode.budgetPeriodBoundary (d : Nat) : Encode.Statement (.budgetPeriodBoundary d) := by intro k hk; cases hk
theorem Encode.hostChannelWrite (u e v : Nat) : Encode.Statement (.hostChannelWrite u e v) := by intro k hk; cases hk
theorem Encode.hostOutboundRead (u e : Nat) : Encode.Statement (.hostOutboundRead u e) := by intro k hk; cases hk
theorem Encode.hostFaultPop (d : Nat) : Encode.Statement (.hostFaultPop d) := by intro k hk; cases hk
theorem Encode.mcfgWrite (p n v : Nat) : Encode.Statement (.mcfgWrite p n v) := by intro k hk; cases hk
theorem Encode.lmselWrite (d v : Nat) : Encode.Statement (.lmselWrite d v) := by intro k hk; cases hk
theorem Encode.wakectlWrite (d v : Nat) : Encode.Statement (.wakectlWrite d v) := by intro k hk; cases hk
theorem Encode.wakeDone (d : Nat) : Encode.Statement (.wakeDone d) := by intro k hk; cases hk
theorem Encode.dbgStop (p : Nat) : Encode.Statement (.dbgStop p) := by intro k hk; cases hk
theorem Encode.dbgGo (p : Nat) : Encode.Statement (.dbgGo p) := by intro k hk; cases hk
theorem Encode.dbgStep (p : Nat) : Encode.Statement (.dbgStep p) := by intro k hk; cases hk
theorem Encode.clkselWrite (k v : Nat) : Encode.Statement (.clkselWrite k v) := by intro k hk; cases hk
theorem Encode.clockChange : Encode.Statement (.clockChange) := by intro k hk; cases hk
theorem Encode.packageReset (k : Nat) : Encode.Statement (.packageReset k) := by intro k hk; cases hk
theorem Encode.reboot (k : Nat) : Encode.Statement (.reboot k) := by intro k hk; cases hk
theorem Encode.boot (k : Nat) : Encode.Statement (.boot k) := by intro k hk; cases hk
theorem Encode.attgoWrite (k v : Nat) : Encode.Statement (.attgoWrite k v) := by intro k hk; cases hk
theorem Encode.attestationSigned (k : Nat) : Encode.Statement (.attestationSigned k) := by intro k hk; cases hk
theorem Encode.controlRegisterWrite (o v : Nat) : Encode.Statement (.controlRegisterWrite o v) := by intro k hk; cases hk
theorem Encode.scrub (o b : Nat) : Encode.Statement (.scrub o b) := by intro k hk; cases hk
theorem Encode.hbmPatrolScrub (k : Nat) : Encode.Statement (.hbmPatrolScrub k) := by intro k hk; cases hk
theorem Encode.thermalShutdown (k : Nat) : Encode.Statement (.thermalShutdown k) := by intro k hk; cases hk
theorem Encode.hostMemoryWrite (k o v : Nat) : Encode.Statement (.hostMemoryWrite k o v) := by intro k hk; cases hk
theorem Encode.invalidationArrival (d : Nat) : Encode.Statement (.invalidationArrival d) := by intro k hk; cases hk

end Sys2Proof.Laws
end

