-- ==== Sys2Proof/Tests/Slice0.lean ====
section
/-! SUPPORT. Tests: ill-formed terms that the checks refuse, words written out from the spec's encodings, single steps on small states, and
for every statement states and operands that meet its hypotheses. Expected results are worked out from the rules that each test names. -/

namespace Sys2Proof.Tests
set_option Elab.async false
open Sys2Proof Sys2Proof.Machine Sys2Proof.Claims

/-! ### The field checks refuse what the spec does not list -/

theorem test_bad_functions : ¬ (Instr.addA 0 1 2 3 8).WellFormed ∧ ¬ (Instr.addX 0 1 2 3 14).WellFormed ∧ ¬ (Instr.bcnt 0 1 2 3).WellFormed ∧
    ¬ (Instr.mul 0 1 2 3 3).WellFormed ∧ ¬ (Instr.tcvt 0 1 2 3 0 0).WellFormed ∧ ¬ (Instr.cp 0 1 2 0 6).WellFormed := by decide

theorem test_bad_conditions : ¬ (Instr.cmpA 0 1 2 3 6).WellFormed ∧ ¬ (Instr.cmpiA 0 1 2 6 0).WellFormed ∧ ¬ (Instr.cmpX 0 1 2 3 7).WellFormed ∧
    ¬ (Instr.cmpiX 0 1 2 6 0).WellFormed := by decide

theorem test_bad_guards : ¬ (Instr.cmpA 0 0 2 3 0).WellFormed ∧ ¬ (Instr.tcmp 0 0 1 2 0 0).WellFormed ∧
    ¬ (Instr.facqT 0 0 1 1 0 0 1 0).WellFormed := by decide

theorem test_bad_scopes : ¬ (Instr.fenceOc 0 0 0).WellFormed ∧ ¬ (Instr.fenceOcAll 0 6 0).WellFormed ∧ ¬ (Instr.facqW 0 1 1 0 0 0 0).WellFormed ∧
    ¬ (Instr.frel 0 1 1 0 0 7 0).WellFormed ∧ ¬ (Instr.pub 0 0 0 0 0).WellFormed := by decide

theorem test_bad_operations : ¬ (Instr.amoW 0 10 1 2 3).WellFormed ∧ ¬ (Instr.amoD 0 9 1 3 2).WellFormed ∧ ¬ (Instr.samoW 0 10 1 2 3).WellFormed ∧
    ¬ (Instr.samoD 0 9 1 3 2).WellFormed := by decide

theorem test_bad_fields : ¬ (Instr.ext 0 1 2 31 40).WellFormed ∧ ¬ (Instr.ins 0 1 2 31 33).WellFormed ∧ ¬ (Instr.exts 0 1 2 1 63).WellFormed ∧
    ¬ (Instr.sbind 0 16 0 0 0).WellFormed ∧ ¬ (Instr.sbindU 0 0 0 0).WellFormed ∧ ¬ (Instr.mulw 0 3 1 2 0).WellFormed := by decide

/-! ### Words written out from the encodings (03 R88 to R90, R100) -/

theorem test_words_a : decodeSlot .a 0x08042006#32 0 = .ok (.liuA 0 4 0x2006) ∧ decodeSlot .a 0x05100805#32 0 = .ok (.addiA 8 16 1 5) ∧
    decodeSlot .a 0x1E001881#32 0 = .ok (.stD 0 0 3 1 1) ∧ decodeSlot .a 0xC4001840#32 0x00090004#32 = .ok (.frel 0 3 1 0 1 1 4) ∧
    decodeSlot .a 0x2C002800#32 0 = .ok (.lxsend 0 5) := by decide

theorem test_words_x_f : decodeSlot .x 0x021FF780#32 0 = .ok (.addX 0 31 30 30 0) ∧ decodeSlot .x 0x1C0110C2#32 0 = .ok (.mul 0 1 2 3 2) ∧
    decodeSlot .f 0x020110C1#32 0 = .ok (.fadd 0 1 2 3 1) ∧ decodeSlot .f 0x080110C8#32 0 = .ok (.fma 0 1 2 3 4 0) ∧
    decodeSlot .f 0x7F509000#32 0 = .ok (.cp 10 16 18 0 0) := by decide

theorem test_words_v : decodeSlot .v 0x24002028#32 0 = .ok (.vqaccS 0 0 1 1) ∧ decodeSlot .v 0x14062021#32 0 = .ok (.vred 0 3 1 1 0 1) := by decide

theorem test_words_m : decodeSlot .m 0x02000400#32 0 = .ok (.mlease 0 2) ∧ decodeSlot .m 0x06040019#32 0 = .ok (.mcfg 0 2 3 1) ∧
    decodeSlot .m 0x0C002400#32 0 = .ok (.mma 0 0 1 2 0 0) ∧ decodeSlot .m 0x1000A220#32 0 = .ok (.mst 0 0 5 1 1) ∧
    decodeSlot .m 0x18026020#32 0 = .ok (.mdld 0 1 3 1) ∧ decodeSlot .m 0x2001FFFF#32 0 = .ok (.mli 0 1 0xFFFF) := by decide

theorem test_words_c : decodeSlot .c 0x22013000#32 0 = .ok (.chr 0 1 6) ∧ decodeSlot .c 0x2C002811#32 0 = .ok (.sqFeedAcc 0 5 1) ∧
    decodeSlot .c 0x60000880#32 0 = .ok (.sail 0 1 2) ∧ decodeSlot .c 0x64001800#32 0 = .ok (.preempt 0 3) ∧
    decodeSlot .c 0x46000000#32 0 = .ok (.sexit 0) := by decide

theorem test_words_unlisted : decodeSlot .a 0#32 0 = .error .illegalOpcode ∧ decodeSlot .f 0x22000000#32 0 = .error .illegalOpcode ∧
    decodeSlot .m 0x1E000000#32 0 = .error .illegalOpcode ∧ decodeSlot .c 0x3A000000#32 0 = .error .illegalOpcode := by decide

/-! ### Small states -/

/-- A primary in cycle 10. -/
def prim : Core := { run := { live := true, t := 10 } }

/-- Core 0 executes a word in slot k. -/
def at0 (k : Nat) (c : Core) : State := { cores := [(0, c)], cur := { agent := .core 0, addr := 0x1000, size := 4, slot := k } }

/-- The first helm core executes a word in slot k. -/
def atHelm (k : Nat) (c : Core) : State := { cores := [(24576, c)], cur := { agent := .core 24576, addr := 0x1000, size := 4, slot := k } }

/-- A core whose context 1 runs. -/
def barrelOf (k : Skiff) : Core := { prim with barrel := { ctx := (Vector.replicate 8 {}).set 1 { k with occupied := true, pc := 0x2000 } } }

/-- Context 1 of core 0 executes a word in slot k. -/
def atSkiff (k : Nat) (c : Core) : State := { cores := [(0, c)], cur := { agent := .skiff 0 1, addr := 0x2000, size := 2, slot := k } }

/-- The state that an outcome goes on with. -/
def nextOf (o : Host.Outcome State Fault Refusal) : Option State := match o with | .next s => some s | _ => none

/-- An outcome goes on, with a state of which a check holds. -/
def chk (o : Host.Outcome State Fault Refusal) (f : State → Bool) : Bool := match o with | .next t => f t | _ => false

/-- What an outcome has in flight for core 0. -/
def inFlight (o : Host.Outcome State Fault Refusal) : Option (List (Nat × Dest × Word)) :=
  (nextOf o).map fun s => (s.core 0).pipe.pend.map fun r => (r.due, r.dest, r.val)

/-- The code of the fault record that an outcome has posted to the first die's host buffer. -/
def faultCode (o : Host.Outcome State Fault Refusal) : Option (List Nat) :=
  (nextOf o).map fun s => (s.die 0).faultBuf.map fun r => r.toNat % 256

/-! ### Register operations -/

/-- a1 is 7, a2 is 2^64 − 1. -/
def regs : Core := { prim with files := {
  a := ((Vector.replicate 32 0).set 1 7).set 2 (BitVec.allOnes 64), x := ((Vector.replicate 32 0).set 1 7).set 2 (BitVec.allOnes 64)
  f := ((Vector.replicate 32 0).set 1 0x3FF0000000000000).set 2 0x4000000000000000 } }

theorem witness_integer_a : CoreRuns (at0 0 regs) 0 0 (.addA 0 3 1 2 7) ∧ CoreRuns (at0 0 regs) 0 0 (.cmpA 0 15 1 2 5) ∧
    CoreRuns (at0 0 regs) 0 0 (.cmpiA 0 1 1 0 0x80) ∧ SkiffRuns (atSkiff 0 (barrelOf {})) 0 1 0 (.addA 0 3 1 2 0) := by
  unfold CoreRuns SkiffRuns; decide +kernel

theorem test_add_wraps : inFlight (exec (.addA 0 3 1 2 0) (at0 0 regs)) = some [(11, .a 3, 6)] ∧
    inFlight (exec (.addA 0 0 1 2 0) (at0 0 regs)) = some [] := by decide +kernel

theorem test_cmp_signed : inFlight (exec (.cmpA 0 5 2 1 2) (at0 0 regs)) = some [(11, .g 5, 1)] ∧
    inFlight (exec (.cmpA 0 5 2 1 4) (at0 0 regs)) = some [(11, .g 5, 0)] := by decide +kernel

theorem witness_encoding : (Instr.addA 0 3 1 2 7).slotClass = some .a ∧ (Instr.addA 0 3 1 2 7).badField = none ∧ (5#3).toNat ≤ 5 ∧
    decodeSlot .a 0x05100805#32 0 = .ok (.addiA 8 16 1 5) ∧ ¬ Listed .a (0x0E000000#32 |>.extractLsb' 25 7).toNat := by
  unfold Listed; decide

/-- x5 is bound to port 0, which holds one element of two; the load queue holds 9 and 8. -/
def fed : Core := { regs with
  queues := { lq := [{ id := 0, val := some 9 }, { id := 1, val := some 8 }], nextId := 2 }
  ports := (Vector.replicate 4 {}).set 0 { bound := true, file := .x, reg := 5, total := 2, buf := [6], at_ := 2 } }

theorem witness_integer_x : CoreRuns (at0 1 fed) 0 0 (.addX 0 31 30 30 1) ∧ CoreRuns (at0 1 fed) 0 0 (.mulw 0 28 1 2 0) ∧
    Takes (at0 1 fed) 0 .x 31 ∧ Takes (at0 1 fed) 0 .x 3 ∧ (fed.boundTo .x 28 = none ∧ fed.boundTo .x 29 = none) := by
  unfold CoreRuns Takes; decide +kernel

/-- x1 is plain, x30 pops the load queue, x5 pops its port. -/
theorem witness_reads : Reads .x 0 1 (at0 1 fed) 7 (at0 1 fed) ∧
    Reads .x 0 30 (at0 1 fed) 9 ((at0 1 fed).modCore 0 fun c => { c with queues := { c.queues with lq := [{ id := 1, val := some 8 }] } }) ∧
    ∃ t, Reads .x 0 5 (at0 1 fed) 6 t :=
  ⟨.plain _ (by unfold Plain; decide +kernel), .queue _ { id := 0, val := some 9 } _ _ rfl rfl rfl rfl,
    ⟨_, .port _ 0 _ _ _ (by decide) rfl (by decide) (by decide) rfl⟩⟩

theorem witness_reads_all : ReadsAll .x 0 [1, 2] (at0 1 regs) [7, BitVec.allOnes 64] (at0 1 regs) ∧ FormX (.addX 0 3 1 2 0)
    ⟨0, 3, [1, 2], 1, two fun x y r => Alu (0#6).toNat x y r⟩ :=
  ⟨.cons (.plain _ (by unfold Plain; decide +kernel)) (.cons (.plain _ (by unfold Plain; decide +kernel)) (.nil _)), .addX ..⟩

theorem test_sub_pops_twice : inFlight (exec (.addX 0 31 30 30 1) (at0 1 fed)) = some [(11, .sq 2, 1)] := by decide +kernel

theorem test_port_pops : chk (exec (.addiX 0 3 5 1) (at0 1 fed)) (fun t => (t.core 0).ports[0].popped == 1 && (t.core 0).ports[0].buf == [] &&
    (t.core 0).pipe.pend.map (·.val) == [7]) = true := by decide +kernel

theorem test_mulw_signed : inFlight (exec (.mulw 0 4 1 2 0) (at0 1 regs)) = some [(13, .x 4, -7), (13, .x 5, -1)] := by decide +kernel

theorem test_div_by_zero : inFlight (exec (.div 0 3 1 0 0) (at0 1 regs)) = some [(28, .x 3, -1)] ∧
    inFlight (exec (.div 0 3 1 0 3) (at0 1 regs)) = some [(28, .x 3, 7)] := by decide +kernel

theorem witness_float : CoreRuns (at0 2 regs) 0 0 (.fma 0 3 1 2 1 0) ∧ CoreRuns (at0 2 regs) 0 0 (.fcvt 0 3 1 0 1) ∧
    CoreRuns (at0 1 regs) 0 0 (.tcvt 0 3 1 0 1 0) ∧ CoreRuns (at0 2 regs) 0 0 (.fcmp 0 4 1 2 0 0) ∧ CoreRuns (at0 1 regs) 0 0 (.cmpX 0 4 1 2 0) ∧
    PrimaryRuns (at0 4 regs) 0 0 (.madd 0 1 2 3 6) := by
  unfold PrimaryRuns CoreRuns; decide +kernel

theorem test_fadd_double : inFlight (exec (.fadd 0 3 1 2 0) (at0 2 regs)) = some [(14, .f 3, 0x4008000000000000)] := by decide +kernel

theorem test_fcmp_less : inFlight (exec (.fcmp 0 4 1 2 1 0) (at0 2 regs)) = some [(11, .g 4, 1)] := by decide +kernel

theorem witness_copies : CoreRuns (at0 1 regs) 0 0 (.cp 0 3 1 0 0) ∧ CoreRuns (at0 3 prim) 0 0 (.cp 0 3 1 3 5) ∧ CoreRuns (at0 0 prim) 0 0 (.cp 0 3 2 0 1) ∧
    CoreRuns (at0 5 prim) 0 0 (.cp 0 3 2 0 2) ∧ CoreRuns (at0 2 prim) 0 0 (.cp 0 3 2 0 3) ∧ CoreRuns (at0 4 prim) 0 0 (.cp 0 3 2 0 4) ∧
    CoreRuns (at0 5 prim) 0 0 (.cli 0 13 0xFFFF) ∧ CoreRuns (at0 5 prim) 0 0 (.gop 0 15 1 2 7) := by
  unfold CoreRuns; decide +kernel

theorem test_cp_lands_in_its_file : inFlight (exec (.cp 0 3 1 0 0) (at0 1 regs)) = some [(12, .x 3, 7)] ∧
    inFlight (exec (.cp 0 3 1 0 0) (at0 5 regs)) = some [(12, .c 3, 7)] := by decide +kernel

theorem test_gop_and_cli : inFlight (exec (.cli 0 13 0x8000) (at0 5 prim)) = some [(11, .c 13, 0xFFFFFFFFFFFF8000)] ∧
    inFlight (exec (.gop 0 15 0 0 3) (at0 5 prim)) = some [(11, .g 15, 0)] := by decide +kernel

/-! ### Scratchpad accesses -/

/-- a1 addresses byte 64, a2 byte 64 of core 1, a3 bit 515, a4 nothing, a5 the last word; a6 and a7 are operands; the store queue holds a word. -/
def memCore : Core := { prim with
  ctl := { spwin := 2 ^ 38, qcount := 1 }
  files := { a := ((((((((Vector.replicate 32 0).set 1 64).set 2 (0x4000000000 + 0x800000 + 64)).set 3 515).set 4 0x4000000001000000).set 5 0x7FFFF8).set 6
    0xFFFFFFFF00000010).set 7 5).set 8 66 }
  queues := { sq := [{ id := 0, val := some 0x1122334455667788 }], nextId := 1 } }

/-- A core at issue in slot k; its scratchpad bytes 64 to 71 hold 1 to 8. -/
def atMem (k : Nat) (c : Core) : State := { at0 k c with mem := (List.range 8).map fun i => (spadBase 0 + 64 + i, BitVec.ofNat 8 (i + 1)) }

/-- The same for context 1, whose registers are those of c's a-file. -/
def skiffMem (k : Nat) (c : Core) : State :=
  { atSkiff k { barrelOf { s := Vector.ofFn fun i : Fin 16 => c.files.a[i.val] } with ctl := c.ctl } with mem := (atMem k c).mem }

theorem witness_loads : CoreRuns (atMem 0 memCore) 0 0 (.ldD 0 0 1 3 0) ∧ address (memCore.a 1) 0 8 % 8 = 0 ∧
    place (atMem 0 memCore) (address (memCore.a 1) 0 8) 8 = .own 64 ∧ Clear (atMem 0 memCore) 0 3 64 8 false ∧ Unwatched (atMem 0 memCore) 0 64 8 ∧
    CoreRuns (atMem 0 memCore) 0 0 (.ldB 0 9 5 3 7) ∧ place (atMem 0 memCore) (address (memCore.a 5) 7 1) 1 = .own 0x7FFFFF ∧
    LoadForm (.ldD 0 0 1 3 0) (0, 0, 1, 3, 0, 8) := by
  refine ⟨?_, ?_, ?_, ?_, ?_, ?_, ?_, .ldD ..⟩ <;> (try unfold CoreRuns) <;> (try unfold Clear) <;> (try unfold Unwatched) <;> decide +kernel

theorem test_load : nextOf (exec (.ldD 0 9 1 3 0) (atMem 0 memCore)) = some (toA (readDone (atMem 0 memCore) 0 64 8) 0 9 6 0x0807060504030201) ∧
    inFlight (exec (.ldW 0 0 1 3 1) (atMem 0 memCore)) = some [(16, .lq 1, 0x08070605)] := by decide +kernel

theorem witness_stores : CoreRuns (atMem 0 memCore) 0 0 (.stD 0 0 1 3 0) ∧ CoreRuns (atMem 0 memCore) 0 0 (.stB 0 6 5 3 7) ∧
    MemoryCanonical (atMem 0 memCore) ∧ Clear (atMem 0 memCore) 0 3 64 8 true ∧ StoreForm (.stD 0 0 1 3 0) (0, 0, 1, 3, 0, 8) ∧
    StoreData 0 0 (usePorts (atMem 0 memCore) 64 8) 0x1122334455667788
      ((usePorts (atMem 0 memCore) 64 8).modCore 0 fun c => { c with queues := { c.queues with sq := [] } }) ∧
    StoreData 0 6 (usePorts (atMem 0 memCore) 0x7FFFFF 1) (memCore.a 6) (usePorts (atMem 0 memCore) 0x7FFFFF 1) := by
  refine ⟨?_, ?_, ?_, ?_, .stD .., .queue _ { id := 0, val := some 0x1122334455667788 } [] _ rfl rfl rfl, .reg _ (by decide)⟩ <;>
    (try unfold CoreRuns) <;> (try unfold Clear) <;> (try unfold MemoryCanonical) <;> decide +kernel

theorem test_store : chk (exec (.stH 0 6 1 3 1) (atMem 0 memCore)) (fun t => t.mem.read (spadBase 0 + 64) 8 == 0x0807060500100201 &&
    t.mem.get (spadBase 0 + 72) == 0) = true := by decide +kernel

theorem test_store_from_queue : chk (exec (.stD 0 0 1 3 0) (atMem 0 memCore)) (fun t => t.mem.read (spadBase 0 + 64) 8 == 0x1122334455667788 &&
    (t.core 0).queues.sq == []) = true := by decide +kernel

theorem witness_bit_fields : PrimaryRuns (atMem 0 memCore) 0 0 (.ldb 0 9 3 3 1 31) ∧ PrimaryRuns (atMem 0 memCore) 0 0 (.stb 0 6 3 3 31) ∧
    memCore.inside (515 / 8) 5 = true ∧ Clear (atMem 0 memCore) 0 3 (515 / 8) 5 false ∧ Clear (atMem 0 memCore) 0 3 (515 / 8) 5 true ∧ Unwatched (atMem 0 memCore) 0 (515 / 8) 5 ∧
    ∀ k, k < 5 → (memCore.visible (515 / 8 + k)) = memCore.visible (515 / 8) + k := by
  refine ⟨?_, ?_, ?_, ?_, ?_, ?_⟩ <;> (try unfold PrimaryRuns CoreRuns) <;> (try unfold Clear) <;> (try unfold Unwatched) <;> decide +kernel

theorem test_bit_field : inFlight (exec (.ldb 0 9 3 3 0 8) (atMem 0 memCore)) = some [(16, .a 9, 0x40)] := by decide +kernel

theorem test_stb_crosses_bytes : chk (exec (.stb 0 6 3 3 7) (atMem 0 memCore)) (fun t => t.mem.read (spadBase 0 + 64) 2 == 0x0081) = true := by
  decide +kernel

theorem witness_atomics : CoreRuns (atMem 0 memCore) 0 0 (.amoD 0 9 1 6 3) ∧ (memCore.a 1).toNat % 8 = 0 ∧ AmoForm (.amoD 0 9 1 6 3) (0, 9, 1, 6, 3, 8) ∧
    Clear (atMem 0 memCore) 0 3 64 8 false ∧ Unwatched (atMem 0 memCore) 0 64 8 ∧ CoreRuns (atMem 0 memCore) 0 0 (.amoW 0 0 1 6 3) := by
  refine ⟨?_, ?_, .amoD .., ?_, ?_, ?_⟩ <;> (try unfold CoreRuns) <;> (try unfold Clear) <;> (try unfold Unwatched) <;> decide +kernel

theorem test_atomic_add : chk (exec (.amoW 0 1 1 6 3) (atMem 0 memCore)) (fun t => t.mem.read (spadBase 0 + 64) 8 == 0x0807060504030211 &&
    (t.core 0).pipe.pend.map (fun r => (r.due, r.val)) == [(18, 0x04030201)]) = true := by decide +kernel

theorem witness_remote : PrimaryRuns (atMem 0 memCore) 0 0 (.ldD 0 0 2 3 0) ∧ PrimaryRuns (atMem 0 memCore) 0 0 (.stD 0 6 2 3 0) ∧
    PrimaryRuns (atMem 0 memCore) 0 0 (.amoD 0 1 2 6 3) ∧ place (atMem 0 memCore) (address (memCore.a 2) 0 8) 8 = .remote 1 1 64 ∧
    ((atMem 0 memCore).core 1).inAlt 64 = false ∧ ((atMem 0 memCore).core 0).heldBack 0 3 (spadBase 1 + 64) (spadBase 1 + 64 + 8) true = false ∧
    armed (atMem 0 memCore) 1 1 64 1 = [] := by unfold PrimaryRuns CoreRuns; decide +kernel

theorem test_remote_load_waits : chk (exec (.ldD 0 0 2 3 0) (atMem 0 memCore)) (fun t =>
    (t.core 0).remotes.map (fun r => (r.pa, r.width, r.entry, r.result)) == [(spadBase 1 + 64, 8, some 1, none)] &&
    (t.core 0).queues.lq.map (·.val) == [none]) = true := by decide +kernel

theorem witness_bad_addresses : CoreRuns (atMem 0 memCore) 0 0 (.ldW 0 9 8 3 0) ∧ address (memCore.a 8) 0 4 % 4 ≠ 0 ∧
    CoreRuns (atMem 0 memCore) 0 0 (.stB 0 9 4 3 0) ∧ place (atMem 0 memCore) (address (memCore.a 4) 0 1) 1 = .bad := by
  unfold CoreRuns; decide +kernel

theorem test_misaligned_load : faultCode (exec (.ldW 0 9 8 3 0) (atMem 0 memCore)) = some [2] ∧
    faultCode (exec (.stB 0 9 4 3 0) (atMem 0 memCore)) = some [7] := by decide +kernel

theorem witness_skiff_accesses : SkiffRuns (skiffMem 0 memCore) 0 1 0 (.ldD 0 9 1 3 0) ∧ SkiffRuns (skiffMem 0 memCore) 0 1 0 (.stD 0 6 1 3 0) ∧
    SkiffRuns (skiffMem 0 memCore) 0 1 0 (.amoD 0 1 1 6 3) ∧ SkiffRuns (skiffMem 0 memCore) 0 1 0 (.sldD 0 9 4 3 0) ∧
    SkiffRuns (skiffMem 0 memCore) 0 1 0 (.sstD 0 6 4 3 0) ∧ SkiffRuns (skiffMem 0 memCore) 0 1 0 (.samoD 0 1 4 6 3) ∧
    place (skiffMem 0 memCore) (address (memCore.a 4) 0 8) 8 = .bad ∧ windowOf ((skiffMem 0 memCore).core 0) (skiffVa (memCore.a 4).toNat) = none := by
  unfold SkiffRuns; decide +kernel

theorem test_skiff_load_asks_for_its_port : chk (exec (.ldD 0 9 1 3 0) (skiffMem 0 memCore)) (fun t =>
    (t.skiff 0 1).wait == .port { kind := .load, addr := 64, width := 8, dst := 9 } 11) = true := by decide +kernel

theorem test_skiff_global_load_walks : chk (exec (.sldD 0 9 4 3 0) (skiffMem 0 memCore)) (fun t =>
    (t.skiff 0 1).wait == .walk .sld 0x4000000001000000 8 0 0 9) = true := by decide +kernel

/-- A copy command in flight that reads two bytes, 4 apart, and has read the first (09 R281). -/
def copyingElements (k : Nat) : Elements := { bit := 512, width := 8, dims := [(2, 32)], total := 2, done := k, parts := [(0, spadBase 0)] }
def copyingCore (k : Nat) : Core := { memCore with
  flight := [{ id := 0, engine := .lighter, oc := 3, reads := [(spadBase 0 + 64, spadBase 0 + 69)], writes := [], source := some (copyingElements k) }] }

theorem test_elements_hold_back : (copyingCore 0).heldBack 0 3 (spadBase 0 + 64) (spadBase 0 + 65) false = true ∧
    (copyingCore 1).heldBack 0 3 (spadBase 0 + 64) (spadBase 0 + 65) false = false ∧ (copyingCore 1).heldBack 0 3 (spadBase 0 + 65) (spadBase 0 + 68) true = false ∧
    (copyingCore 1).heldBack 0 3 (spadBase 0 + 68) (spadBase 0 + 69) false = true := by decide +kernel

/-- Entry 2 of a core's publication map shows half 1 of a handle of 64 bytes at byte 64. -/
def handleCore : Core := { memCore with pmap := memCore.pmap.set 2 { v := true, base := 1, alt := 9, len := 1, vis := true } }

theorem test_halves_stay : Halves.fix (atMem 0 handleCore) [] [(spadBase 0 + 100, spadBase 0 + 130)] = [(0, 2, true)] ∧
    handleCore.visible 65 = 577 ∧ (((atMem 0 handleCore).seen [(0, 2, false)]).core 0).visible 65 = 65 ∧
    (((atMem 0 handleCore).seen [(0, 2, false)]).core 0).shadow 65 = 577 := by decide +kernel


/-! ### Flags, fences and control -/

/-- A core with an earlier engine command in class 3, at level l. -/
def busyCore (l : Nat) : Core := { memCore with flight := [{ id := 0, engine := .vector, oc := 3, reads := [(spadBase 0 + 0x700000, spadBase 0 + 0x700008)], writes := [] }],
                                                ctl := { memCore.ctl with detl := BitVec.ofNat 64 l } }

theorem witness_fences : CoreRuns (atMem 0 (busyCore 0)) 0 0 (.fenceOc 0 1 0xFFF7) ∧ HasPerformed (busyCore 0) 0xFFF7 ∧ ¬ HasPerformed (busyCore 0) 8 ∧
    CoreRuns (atMem 0 memCore) 0 0 (.fenceOcAll 0 5 0) ∧ AllPerformed memCore ∧ ¬ AllPerformed (busyCore 0) ∧
    SkiffRuns (skiffMem 0 memCore) 0 1 0 (.fenceOcAll 0 1 0) := by
  unfold CoreRuns SkiffRuns HasPerformed AllPerformed; decide +kernel

theorem test_fence_waits : chk (exec (.fenceOc 0 1 8) (atMem 0 (busyCore 0))) (fun t => (t.core 0).run.stall == some ⟨4, 0x1000, 1⟩) = true ∧
    chk (exec (.fenceOc 0 1 0xFFF7) (atMem 0 (busyCore 0))) (fun t => (t.core 0).run.stall == none) = true := by decide +kernel

theorem witness_flags : CoreRuns (atMem 0 memCore) 0 0 (.facqW 0 1 5 0 1 1 0) ∧ flagWord (memCore.a 1) 0 % 8 = 0 ∧
    place (atMem 0 memCore) (flagWord (memCore.a 1) 0) 8 = .own 64 ∧ Clear (atMem 0 memCore) 0 16 64 8 false ∧ Clear (atMem 0 memCore) 0 16 64 8 true ∧ Unwatched (atMem 0 memCore) 0 64 8 ∧
    PrimaryRuns (atMem 0 memCore) 0 0 (.facqW 0 2 5 0 1 3 0) ∧ RemoteFlag (atMem 0 memCore) (flagWord (memCore.a 2) 0) 1 1 64 ∧
    CoreRuns (atMem 0 memCore) 0 0 (.facqT 0 4 1 5 0 1 1 0) ∧ CoreRuns (atMem 0 memCore) 0 0 (.frel 0 1 5 0 1 1 0xFFFF) ∧
    ¬ HasPerformed (busyCore 0) 0xFFFF ∧ HasPerformed memCore 0xFFFF ∧ CoreRuns (atMem 0 memCore) 0 0 (.frel 0 8 5 0 1 1 0) ∧
    flagWord (memCore.a 8) 0 % 8 ≠ 0 := by
  unfold PrimaryRuns CoreRuns RemoteFlag Clear Unwatched HasPerformed; and_intros <;> decide +kernel

/-- A core that has an answer, or none, to its read of a remote flag; one whose own write of that flag has yet to perform; a die that owes an
invalidation of core 0's write in class 3. -/
def askingCore (r : Option (Word × Option (Nat × Nat))) : Core := { memCore with run := { memCore.run with flag := r } }
def aheadCore : Core := { memCore with
  remotes := [{ oc := 16, pa := spadBase 1 + 64, width := 8, op := .flagWrite 5, entry := none, tag := none, due := 10 }] }
def owing : State := { atMem 0 memCore with dies := [(0, { invals := [{ line := 1, by_ := .core 0 3 }] })] }

theorem witness_remote_flags : PrimaryRuns (atMem 0 (askingCore (some (3, none)))) 0 0 (.facqW 0 2 3 0 1 3 0) ∧
    RemoteFlag (atMem 0 (askingCore (some (3, none)))) (flagWord (memCore.a 2) 0) 1 1 64 ∧ flagOperand memCore.a 3 1 = 3 ∧
    PrimaryRuns (atMem 0 (askingCore (some (0, some (4, 1))))) 0 0 (.facqW 0 2 3 0 1 3 0) ∧ PrimaryRuns (atMem 0 aheadCore) 0 0 (.facqW 0 2 3 0 1 3 0) ∧
    (∀ y ∈ aheadCore.remotes, y.op ≠ .flagRead) ∧ aheadCore.heldBack 0 16 (spadBase 1 + 64) (spadBase 1 + 64 + 8) false = true ∧
    memCore.heldBack 0 16 (spadBase 1 + 64) (spadBase 1 + 64 + 8) false = false ∧ PrimaryRuns (atMem 0 (askingCore (some (3, none)))) 0 0 (.facqT 0 4 2 3 0 1 3 0) ∧
    Owes owing 0 8 ∧ ¬ Owes owing 0 0xFFF7 ∧ CoreRuns owing 0 0 (.frel 0 1 5 0 1 1 8) ∧
    PrimaryRuns (atMem 0 memCore) 0 0 (.frel 0 2 5 0 1 3 0) ∧ ¬ Owes (atMem 0 memCore) 0 0 := by
  unfold PrimaryRuns CoreRuns RemoteFlag Owes; and_intros <;> decide +kernel

theorem test_remote_flags : chk (exec (.facqW 0 2 3 0 1 3 0) (atMem 0 (askingCore (some (3, none))))) (fun t => (t.core 0).run.flag == none &&
      (t.core 0).run.stall == none) = true ∧ faultCode (exec (.facqW 0 2 3 0 1 3 0) (atMem 0 (askingCore (some (0, some (4, 1)))))) = some [4] ∧
    chk (exec (.facqW 0 2 3 0 1 3 0) (atMem 0 aheadCore)) (fun t => (t.core 0).run.stall.map (·.cause) == some 4 && (t.core 0).remotes.length == 1) = true ∧
    chk (exec (.frel 0 1 5 0 1 1 8) owing) (fun t => (t.core 0).run.stall.map (·.cause) == some 4) = true ∧
    chk (exec (.frel 0 1 5 0 1 1 0xFFF7) owing) (fun t => (t.core 0).run.stall == none) = true := by decide +kernel

theorem witness_skiff_flags : SkiffRuns (skiffMem 0 memCore) 0 1 0 (.facqW 0 1 5 0 1 1 0) ∧ SkiffRuns (skiffMem 0 memCore) 0 1 0 (.facqT 0 3 1 5 0 1 1 0) ∧
    SkiffRuns (skiffMem 0 memCore) 0 1 0 (.frel 0 1 5 0 1 1 0) ∧ place (skiffMem 0 memCore) (flagWord (memCore.a 1) 0) 8 = .own 64 := by
  unfold SkiffRuns; decide +kernel

theorem test_release_writes : chk (exec (.frel 0 1 5 0 1 1 0xFFFF) (atMem 0 memCore)) (fun t => t.mem.read (spadBase 0 + 64) 8 == 5) = true ∧
    chk (exec (.frel 0 1 5 0 1 1 0xFFFF) (atMem 0 (busyCore 0))) (fun t => t.mem.read (spadBase 0 + 64) 8 == 0x0807060504030201 &&
      (t.core 0).run.stall.map (·.cause) == some 4) = true := by decide +kernel

theorem test_flag_test_is_a_guard : inFlight (exec (.facqT 0 4 1 6 0 0 1 0) (atMem 0 memCore)) = some [(11, .g 4, 0)] ∧
    faultCode (exec (.facqT 0 4 2 6 0 0 1 0) (atMem 0 (busyCore 1))) = some [6] := by decide +kernel

/-- c1 is 0x2000, c2 is 0, c3 is 64; one child has answered. -/
def ctlCore : Core := { prim with
  files := { c := (((Vector.replicate 16 0).set 1 0x2000).set 2 0).set 3 64 }
  run := { prim.run with children := [(1, some 5), (2, none)] } }

theorem witness_branches : CoreRuns (at0 5 ctlCore) 0 0 (.brl 0 0x1FFFFF) ∧ BranchForm (at0 5 ctlCore) (.brl 0 0x1FFFFF) (0, 0xFFC, true) ∧
    Legal (at0 5 ctlCore) 0 0xFFC ∧ InSegment (at0 5 ctlCore) 0 ∧ CoreRuns (at0 5 ctlCore) 0 0 (.brr 0 13) ∧ ¬ Legal (at0 5 ctlCore) 0 0x2002 ∧
    SkiffRuns (atSkiff 5 (barrelOf {})) 0 1 0 (.br 0 2) := by
  refine ⟨?_, .brl .., ?_, ?_, ?_, ?_, ?_⟩ <;> (try unfold CoreRuns) <;> (try unfold SkiffRuns) <;> (try unfold Legal) <;> (try unfold InSegment) <;>
    decide +kernel

/-- A core whose executing bundle is the last of a segment that goes on at 0x3000. -/
def lastCore : Core := { ctlCore with
  fetch := { half0 := some { addr := 0xFF0, next := 0x3000, stop := false, bundles := [{ addr := 0x1000, hdr := 0, words := [] }] } } }

theorem witness_bad_targets : SkiffRuns (atSkiff 5 (barrelOf { s := (Vector.replicate 16 0).set 3 0x2002 })) 0 1 0 (.brr 0 3) ∧
    BranchForm (atSkiff 5 (barrelOf { s := (Vector.replicate 16 0).set 3 0x2002 })) (.brr 0 3) (0, 0x2002, false) ∧
    ¬ Legal { at0 5 ctlCore with cur := { (at0 5 ctlCore).cur with addr := 0x1002 } } 0 (0x1002 + 4 * 4) := by
  refine ⟨?_, .brr .., ?_⟩ <;> (try unfold SkiffRuns) <;> (try unfold Legal) <;> decide +kernel

theorem witness_last_bundle : LastOfSegment (at0 5 lastCore) 0 0x3010 ∧ CoreRuns (at0 5 lastCore) 0 0 (.brl 0 4) ∧ Legal (at0 5 lastCore) 0 0x1010 ∧
    CoreRuns (at0 5 lastCore) 0 0 (.lset 0 3 1 63 4) := by unfold LastOfSegment CoreRuns Legal; decide +kernel

theorem test_branch_links : chk (exec (.brl 0 0x1FFFFF) (at0 5 ctlCore)) (fun t => (t.core 0).fetch.taken == some 0xFFC &&
    (t.core 0).pipe.pend.map (fun r => (r.dest, r.val)) == [(.c 13, 0x1010)]) = true := by decide +kernel

theorem witness_loops : CoreRuns (at0 5 ctlCore) 0 0 (.lset 0 3 1 63 4) ∧ CoreRuns (at0 5 ctlCore) 0 0 (.lset 0 0 0 2 4) ∧
    Legal (at0 5 ctlCore) 0 ((0x1000 + 4 * (4#12).toNat) % 2 ^ 48) ∧ CoreRuns (at0 5 ctlCore) 0 0 (.lupd 0 1 15 1 0x3FFF) ∧
    CoreRuns (at0 5 ctlCore) 0 0 (.halt 0) ∧ PrimaryRuns (at0 5 ctlCore) 0 0 (.ltrim 0 3 2) ∧ ctlCore.inside 64 32 = true ∧
    Clear (at0 5 ctlCore) 0 2 64 32 false ∧ Unwatched (at0 5 ctlCore) 0 64 32 := by
  unfold PrimaryRuns CoreRuns Legal Clear Unwatched; decide +kernel

theorem test_lset_zero_branches : chk (exec (.lset 0 0 0 2 4) (at0 5 ctlCore)) (fun t => (t.core 0).fetch.taken == some 0x1010) = true ∧
    chk (exec (.lset 0 3 1 63 4) (at0 5 ctlCore)) (fun t => (t.core 0).pipe.eoc == [.lset 3 62 0x1010]) = true := by decide +kernel

theorem test_lupd_extends : chk (exec (.lupd 0 1 15 1 0x3FFF) (at0 5 ctlCore)) (fun t => (t.core 0).pipe.eoc == [.lupd 1 15 0xFFFFFFFF]) = true := by
  decide +kernel

theorem witness_control : CoreRuns (at0 5 ctlCore) 0 0 (.cget 0 1 8) ∧ (8, BitVec.ofNat 64 ctlCore.ctl.landb) ∈ contextRegisters ctlCore ctlCore.counts ∧
    ¬ MonitorNumber 8 ∧ CoreRuns (at0 5 (busyCore 1)) 0 0 (.cget 0 1 0xFB) ∧ (0xFB, 0) ∈ driftAndMonitorRegisters (busyCore 1).obs ∧
    MonitorNumber 0xFB ∧ (busyCore 1).ctl.detl.extractLsb' 0 2 ≠ 0 ∧ CoreRuns (atHelm 5 ctlCore) 24576 0 (.cget 0 1 0x104) ∧
    (0x104, 0) ∈ helmRegisters (atHelm 5 ctlCore) 24576 ∧ CoreRuns (at0 5 ctlCore) 0 0 (.cget 0 1 0x6D) ∧ (0x6D, 0) ∈ residueRegisters ctlCore.counts ∧
    SkiffRuns (atSkiff 5 (barrelOf {})) 0 1 0 (.cget 0 1 0x17) ∧ (0x17, 1) ∈ contextRegisters (barrelOf {}) (barrelOf {}).barrel.before ∧
    SkiffRuns (atSkiff 5 (barrelOf {})) 0 1 0 (.cget 0 1 0x72) ∧
    (at0 5 ctlCore).cur.agent = .core 0 ∧ isHelm 0 = false ∧ (1#5).toNat < 16 ∧ (1#5) ≠ 14 := by
  unfold CoreRuns SkiffRuns MonitorNumber; and_intros <;> decide +kernel

/-- A skiff's cget of TOLLP answers what the core's purse held when the cycle began (03 R96). -/
theorem test_skiff_reads_the_cycle_before : chk (exec (.cget 0 3 9) (atSkiff 5 { barrelOf {} with ctl := { purse := 5 }, barrel := { (barrelOf {}).barrel with
      before := { purse := 9 } } })) (fun t => (t.skiff 0 1).landS == [(3, 9)] && (t.skiff 0 1).wait == .until 12) = true := by decide +kernel

theorem witness_control_writes : CoreRuns (at0 5 ctlCore) 0 0 (.cset 0 3 0x17) ∧ CoreRuns (at0 5 ctlCore) 0 0 (.cset 0 2 0xB) ∧
    (ctlCore.c 2).extractLsb' 2 14 = 0 ∧ (at0 5 ctlCore).cur.agent = .core 0 ∧ isHelm 0 = false ∧ (3#5).toNat < 16 ∧ (3#5) ≠ 14 ∧
    HelmRuns (atHelm 5 ctlCore) 24576 0 (.cset 0 3 0x117) ∧ HelmRuns (atHelm 5 ctlCore) 24576 0 (.cset 0 1 8) := by
  unfold HelmRuns CoreRuns; decide +kernel

theorem test_cget_monitor_at_level : faultCode (exec (.cget 0 1 0x85) (at0 5 (busyCore 1))) = some [6] ∧
    inFlight (exec (.cget 0 1 8) (at0 5 ctlCore)) = some [(12, .c 1, 0x1D4C0)] := by decide +kernel

theorem test_cset_privilege : faultCode (exec (.cset 1 3 0x117) (at0 5 ctlCore)) = some [3] ∧ faultCode (exec (.cset 0 3 8) (at0 5 ctlCore)) = some [2] ∧
    chk (exec (.cset 0 3 0x117) (atHelm 5 ctlCore)) (fun t => (t.core 24576).pipe.eoc == [.ctl 0x117 64]) = true := by decide +kernel

/-- A task-mode sailing of one quad. -/
def taskState : State := { at0 5 { ctlCore with run := { ctlCore.run with sailing := some 0 }, ctl := { qcount := 1 } } with
  sailings := [(0, { quads := [0], task := true, running := true, state := 1 })] }

theorem witness_tasks : PrimaryRuns taskState 0 0 (.spawn 0 0 1) ∧ (taskState.core 0).ctl.taskpath.extractLsb' 60 4 ≠ 11 ∧
    (∃ q, q ≠ 0 ∧ q = (taskState.sailing 0).coreAt (placement (childPath 0 0) % (4 * 1)) ∧ (taskState.core q).run.busy = false) ∧
    (∀ x ∈ taskState.cores, x.2.run.spawnAt = none) ∧ PrimaryRuns taskState 0 0 (.join 0 1) ∧
    CoreRuns taskState 0 0 (.trap 0 0xFFFF) ∧ SkiffRuns (atSkiff 5 (barrelOf {})) 0 1 0 (.trap 0 1) := by
  refine ⟨?_, ?_, ⟨_, ?_, rfl, ?_⟩, ?_, ?_, ?_, ?_⟩ <;> (try unfold PrimaryRuns) <;> (try unfold CoreRuns) <;>
    (try unfold SkiffRuns) <;> decide +kernel

/-- The same sailing, where the core that child 0 is placed on is busy, or REDIR is 1. -/
def placedTask : Nat := (taskState.sailing 0).coreAt (placement (childPath 0 0) % 4)
def crowdedTask (detl : Word) : State :=
  (taskState.modCore placedTask fun c => { c with run := { c.run with busy := true } }).modCore 0 fun c => { c with
    run := { c.run with busy := true }, ctl := { c.ctl with detl := detl } }

theorem witness_task_spawns : SpawnsOn taskState 0 0 0 placedTask ∧ placedTask ≠ 0 ∧ ((crowdedTask 4).core placedTask).run.busy = true ∧
    SpawnsOn (crowdedTask 4) 0 0 0 (((crowdedTask 4).sailing 0).coreAt 1) ∧ ((crowdedTask 4).sailing 0).coreAt 1 ≠ 0 ∧
    PrimaryRuns (crowdedTask 1) 0 0 (.spawn 0 0 1) ∧ ((crowdedTask 1).core 0).ctl.detl.extractLsb' 0 2 ≠ 0 ∧ ((crowdedTask 1).core 0).ctl.detl.getLsbD 2 = false := by
  refine ⟨.placed _ rfl (by decide +kernel) (fun x hx y => ?_), by decide +kernel, by decide +kernel,
    .redirected 1 (by decide +kernel) (by decide +kernel) (by decide +kernel) (by decide +kernel) (by decide +kernel), by decide +kernel, ?_, by decide +kernel, by decide +kernel⟩
  · have h : ∀ x ∈ taskState.cores, x.2.run.spawnAt = none := by decide +kernel
    simp [h x hx]
  · unfold PrimaryRuns CoreRuns; decide +kernel

theorem test_spawn_on_a_busy_core : faultCode (exec (.spawn 0 0 1) (crowdedTask 0)) = some [0x0A] ∧
    chk (exec (.spawn 0 0 1) (crowdedTask 1)) (fun t => (t.core 0).run.spawnAt == some (placedTask, 10) && (t.core 0).run.stall.map (·.cause) == some 21) = true ∧
    chk (exec (.spawn 0 0 1) (crowdedTask 4)) (fun t => (t.core 0).run.children.length == 3) = true := by decide +kernel

theorem test_join_takes_the_oldest : chk (exec (.join 0 1) taskState) (fun t => (t.core 0).run.children == [(2, none)] &&
    (t.core 0).pipe.pend.map (fun r => (r.due, r.dest, r.val)) == [(12, .c 1, 5)]) = true := by decide +kernel

theorem test_trap : chk (exec (.trap 0 0xFFFF) taskState) (fun t => (t.core 0).run.faulted &&
    (t.die 0).faultBuf.map (fun r => (r.toNat % 256, r.toNat / 2 ^ 192)) == [(12, 0xFFFF)]) = true := by decide +kernel

/-! ### Streams, copies, publication -/

/-- A stream descriptor of two 8-byte elements at 0x100, in class 5 (04 R133). -/
def descriptor : Nat := 0x100 + 3 * 2 ^ 24 + 5 * 2 ^ 28 + 8 * 2 ^ 32 + 2 * 2 ^ 128 + 2 ^ 144 + 2 ^ 160

/-- A copy record of 16 bytes from page 1 of global memory to page 2 (09 R277), and one to the ring at 0x4000. -/
def copyRecord : Nat := 0x10000 + 2 ^ 80 + 2 ^ 96 + 2 ^ 115 + 16 * 2 ^ 128 + 2 ^ 192 + 2 ^ 320 + 0x20000 * 2 ^ 448
def ringRecord : Nat := 0x10000 + 2 ^ 80 + 16 * 2 ^ 128 + 2 ^ 192 + 0x4000 * 2 ^ 448

/-- a1 names the descriptor, a2 and a3 the two records, a4 an entry to map, a5 handle 3 of core 0, a6 a tag, a7 no block; entry 3 is mapped, port 1
is bound to x5. -/
def streamCore : Core := { prim with
  files := { a := (((((((Vector.replicate 32 0).set 1 0x200).set 2 0x400).set 3 0x480).set 4 (0x100 + 0x110 * 2 ^ 17 + 4 * 2 ^ 34)).set 5 3).set 6
    0xFFFFFFFF).set 7 0x201 }
  ctl := { qcount := 1 }
  pmap := (Vector.replicate 16 {}).set 3 { v := true, base := 0x180, alt := 0x190, len := 2 }
  ports := (Vector.replicate 4 {}).set 1 { bound := true, file := .x, reg := 5, total := 1, desc := { counts := [1] } } }

def atStreams (k : Nat) (c : Core) : State :=
  { at0 k c with
    mem := ((Memory.write [] (spadBase 0 + 0x200) descriptor 32).write (spadBase 0 + 0x400) copyRecord 128).write (spadBase 0 + 0x480) ringRecord 128 }

theorem witness_streams : PrimaryRuns (atStreams 0 streamCore) 0 0 (.sbind 0 7 1 0 0) ∧ readSpad (atStreams 0 streamCore) 0 0x200 32 = descriptor ∧
    streamCore.inside 0x200 32 = true ∧ Clear (atStreams 0 streamCore) 0 (descriptor / 2 ^ 28 % 16) 0x200 32 false ∧
    Unwatched (atStreams 0 streamCore) 0 0x200 32 ∧ descriptorBad descriptor streamCore (Descriptor.of descriptor) = false ∧
    streamCore.ports[0].bound = false ∧ streamCore.boundTo (portFile 0) 7 = none ∧
    streamCore.hullOk (Descriptor.of descriptor).hull.1 (Descriptor.of descriptor).hull.2 = true ∧
    PrimaryRuns (atStreams 0 streamCore) 0 0 (.sbind 0 7 7 0 0) ∧ PrimaryRuns (atStreams 0 streamCore) 0 0 (.sbindU 0 5 0 1) ∧
    PrimaryRuns (atStreams 0 streamCore) 0 0 (.sbindU 0 5 0 0) := by
  unfold PrimaryRuns CoreRuns Clear Unwatched; and_intros <;> decide +kernel

theorem test_sbind : chk (exec (.sbind 0 7 1 0 0) (atStreams 0 streamCore)) (fun t => let q := (t.core 0).ports[0]
    q.bound && q.reg == 7 && q.total == 2 && q.desc.base == 0x100 && q.desc.width == 8 && q.desc.oc == 5 && q.desc.strides == [8, 0, 0]) = true := by
  decide +kernel

theorem test_sbind_unbinds : chk (exec (.sbindU 0 5 0 1) (atStreams 0 streamCore)) (fun t => (t.core 0).pipe.eoc == [.unbind 1] && (t.core 0).ports[1].bound) = true ∧
    faultCode (exec (.sbindU 0 5 0 0) (atStreams 0 streamCore)) = some [2] := by decide +kernel

theorem witness_copies_sent : PrimaryRuns (atStreams 0 streamCore) 0 0 (.lxsend 0 2) ∧ streamCore.inside 0x400 128 = true ∧
    Clear (atStreams 0 streamCore) 0 0 0x400 128 false ∧ Unwatched (atStreams 0 streamCore) 0 0x400 128 ∧
    PrimaryRuns (atStreams 0 streamCore) 0 0 (.lxsendCh 0 7 3) ∧ Clear (atStreams 0 streamCore) 0 0 0x480 128 false ∧
    ringBad streamCore 7 (Layout.of (BitVec.ofNat 1024 ringRecord)) (ringWidth streamCore (Layout.of (BitVec.ofNat 1024 ringRecord))) = false ∧
    PrimaryRuns (atStreams 0 streamCore) 0 0 (.lxsendCls 0 7) ∧ streamCore.refills[7] = [] := by
  unfold PrimaryRuns CoreRuns Clear Unwatched; and_intros <;> decide +kernel

theorem witness_good_records : GoodRecord (readDone (atStreams 0 streamCore) 0 0x400 128) 0 (BitVec.ofNat 1024 copyRecord) false ∧
    GoodRecord (readDone (atStreams 0 streamCore) 0 0x480 128) 0 (BitVec.ofNat 1024 ringRecord) true := by unfold GoodRecord; decide +kernel

/-- Eight copies of the core are under way, two refills wait on channel 7, and entry 3's first bytes are a copy's. -/
def copyingStreams : Core := { streamCore with
  flight := List.replicate 8 { id := 0, engine := .lighter, oc := 3, reads := [], writes := [(spadBase 0 + 0x6000, spadBase 0 + 0x6040)] }
  refills := (Vector.replicate 8 []).set 7 (List.replicate 2 (copyCommand (atStreams 0 streamCore) 0 (BitVec.ofNat 1024 ringRecord))) }

theorem witness_full_streams : PrimaryRuns (atStreams 0 copyingStreams) 0 0 (.lxsend 0 2) ∧ 8 ≤ (copyingStreams.flight.filter fun f => f.engine == .lighter).length ∧
    Clear (atStreams 0 copyingStreams) 0 0 0x400 128 false ∧ Unwatched (atStreams 0 copyingStreams) 0 0x400 128 ∧
    GoodRecord (readDone (atStreams 0 copyingStreams) 0 0x400 128) 0 (BitVec.ofNat 1024 copyRecord) false ∧ 2 ≤ copyingStreams.refills[7].length ∧
    copyingStreams.engineTouches 0 3 (entryRanges 0 copyingStreams.pmap[3]) = true ∧ PrimaryRuns (atStreams 0 copyingStreams) 0 0 (.pubUnmap 0 3) := by
  unfold PrimaryRuns CoreRuns Clear Unwatched GoodRecord; and_intros <;> decide +kernel

theorem test_full_streams : chk (exec (.lxsend 0 2) (atStreams 0 copyingStreams)) (fun t => (t.core 0).run.stall.map (·.cause) == some 12) = true ∧
    chk (exec (.pubUnmap 0 3) (atStreams 0 copyingStreams)) (fun t => (t.core 0).run.stall.map (·.cause) == some 4) = true := by decide +kernel

theorem test_lxsend : chk (exec (.lxsend 0 2) (atStreams 0 streamCore)) (fun t => (t.lighters.get [] (lighterOf 0)).map (·.rec_.toNat) == [copyRecord] &&
    (t.core 0).flight.map (fun f => (f.engine, f.oc)) == [(.lighter, 0)]) = true := by decide +kernel

theorem test_lxsend_ch : chk (exec (.lxsendCh 0 7 3) (atStreams 0 streamCore)) (fun t => (t.core 0).refills[7].map (·.rec_.toNat) == [ringRecord]) = true := by
  decide +kernel

theorem witness_publication : PrimaryRuns (atStreams 0 streamCore) 0 0 (.pubMap 0 15 4) ∧ mapBad streamCore 15 (streamCore.a 4) = false ∧
    streamCore.engineTouches 0 15 (entryRanges 0 (Pmap.ofWord (streamCore.a 4))) = false ∧ PrimaryRuns (atStreams 0 streamCore) 0 0 (.pubMap 0 3 4) ∧
    PrimaryRuns (atStreams 0 streamCore) 0 0 (.pubUnmap 0 3) ∧ streamCore.engineTouches 0 3 (entryRanges 0 streamCore.pmap[3]) = false ∧
    PrimaryRuns (atStreams 0 streamCore) 0 0 (.pubUnmap 0 15) ∧ PrimaryRuns (atStreams 0 streamCore) 0 0 (.pub 0 2 5 6 3) ∧
    (streamCore.a 5).toNat = streamCore.ctl.lid * 16 + (3#4).toNat ∧ (streamCore.a 6).toNat < 2 ^ 32 ∧ 2 ^ 32 ≤ (streamCore.a 4).toNat ∧
    PrimaryRuns (atStreams 0 streamCore) 0 0 (.expect 0 5 6) ∧ (streamCore.a 5).toNat / 16 < 4 * streamCore.ctl.qcount ∧
    PrimaryRuns (atStreams 0 streamCore) 0 0 (.expectC 0 5) ∧ 4 * streamCore.ctl.qcount ≤ (streamCore.a 2).toNat / 16 := by
  unfold PrimaryRuns CoreRuns; and_intros <;> decide +kernel

theorem test_publish : chk (exec (.pub 0 2 5 6 3) (atStreams 0 streamCore)) (fun t => (t.core 0).pipe.eoc == [.pub 3 0xFFFFFFFF]) = true ∧
    faultCode (exec (.pub 0 2 5 4 3) (atStreams 0 streamCore)) = some [2] ∧
    chk (exec (.expect 0 5 6) (atStreams 0 streamCore)) (fun t => (t.core 0).pipe.eoc == [.arm 3 0xFFFFFFFF]) = true := by decide +kernel

/-! ### The vector sequencer and the matrix array -/

/-- A dense packed record of n elements from an address (06 R194); one of rows of n elements, r of them st bytes apart. -/
def dense (a n : Nat) : BitVec 256 := BitVec.ofNat 256 (a + 2 ^ 29 + n * 2 ^ 64)
def rowsOf (a n r st : Nat) (pack : Bool) (e : Nat) : BitVec 256 :=
  BitVec.ofNat 256 (a + (if pack then 2 ^ 29 else 0) + 2 ^ 30 + e * 2 ^ 32 + n * 2 ^ 64 + r * 2 ^ 80 + st * 2 ^ 128)

/-- h1 to h3 are three dense records of one bank; h4 an index record in a bank of N32, h5 a row template, h6 a B record, h7 a store record in a
bank of F32, h8 a tile image, h9 and h10 the records of mcomp in a bank of format 0; m1 is 16, m5 selects four rows and columns, m2 and m3 name blocks, m4 and m6 are for macros. -/
def vecCore (l : Nat) : Core := { prim with
  run := { prim.run with lease := l, allow := 2 }
  ctl := { bfmt := (((Vector.replicate 8 1).set 1 5).set 2 0x11).set 3 0 }
  files := {
    h := ((((((((((Vector.replicate 16 0).set 1 (dense 0x1000 16)).set 2 (dense 0x2000 16)).set 3 (dense 0x3000 16)).set 4 (dense 0x100000 16)).set 5
      (dense 0x8000 16)).set 6 (rowsOf 0x9000 16 4 16 true 0)).set 7 (rowsOf 0x200000 4 4 64 false 4)).set 8 (rowsOf 0x210000 32 32 128 false 4)).set 9
      (rowsOf 0x300000 16 4 16 true 0)).set 10 (rowsOf 0x310000 8 4 8 true 0)
    m := ((((((Vector.replicate 16 0).set 5 0xF0000000F).set 1 16).set 2 0x5000).set 3 0x5001).set 4 (16 + 2 * 2 ^ 16)).set 6 (0x40000 + 4 * 2 ^ 32) } }

def vaddOp : Instr := .vadd 0 1 2 3 0 1
def vaddSpec : VSpec := (vspec vaddOp).getD {}


theorem witness_vector : VectorOp (.vadd 0 1 2 3 0 1) (0, vaddOp) ∧ vspec vaddOp = some vaddSpec ∧
    operandRecords vaddOp vaddSpec (vecCore 0) = (dense 0x1000 16, dense 0x2000 16, dense 0x3000 16) ∧
    PrimaryRuns (at0 3 (vecCore 0)) 0 0 (.vadd 0 1 2 3 0 1) ∧ (vectorFault (at0 3 (vecCore 0)) vaddOp vaddSpec (vecCore 0).capture
      (Shape.of (dense 0x1000 16)) (Shape.of (dense 0x2000 16)) (Shape.of (dense 0x3000 16)) 0 0 (vecCore 0).vec.quireWidth = none) ∧ (vecCore 0).vec.entries < 16 ∧
    PrimaryRuns (at0 3 (vecCore 0)) 0 0 (.vsync 0 0) ∧ PrimaryRuns (at0 3 (vecCore 0)) 0 0 (.vsyncT 0 0xFFFF 15) ∧
    (at0 3 (vecCore 0)).cur.agent = .core 0 ∧ isHelm 0 = false := by
  refine ⟨.vadd .., rfl, ?_, ?_, ?_, ?_, ?_, ?_, ?_, ?_⟩ <;> (try unfold PrimaryRuns) <;> (try unfold CoreRuns) <;> decide +kernel

theorem test_vadd_queues : chk (exec (.vadd 0 1 2 3 0 1) (at0 3 (vecCore 0))) (fun t => (t.core 0).vec.runs.map (fun r => (r.op, r.start, r.busy, r.rep)) ==
    [(vaddOp, 11, 1, 0)] && (t.core 0).vec.entries == 1) = true := by decide +kernel

/-- The state after one vadd has been pushed, in slot V. -/
def afterVadd : State := (nextOf (exec (.vadd 0 1 2 3 0 1) (at0 3 (vecCore 0)))).getD {}

theorem witness_vloop : PrimaryRuns afterVadd 0 0 (.vloop 0 0 3) ∧ (0#4).toNat < (afterVadd.core 0).vec.template.length ∧
    loopFault afterVadd ((afterVadd.core 0).vec.template.take 1).reverse 3 = none ∧ (afterVadd.core 0).vec.entries < 16 ∧
    ∃ r ∈ (afterVadd.core 0).vec.runs, (1#16).getLsbD r.oc = true := by
  unfold PrimaryRuns CoreRuns; and_intros <;> decide +kernel

theorem test_vloop_repeats : chk (exec (.vloop 0 0 3) afterVadd) (fun t => (t.core 0).vec.runs.map (·.rep) == [0, 1, 2, 3] &&
    (t.core 0).vec.entries == 2) = true ∧ faultCode (exec (.vloop 1 0 0) afterVadd) = some [2] ∧ chk (exec (.vsync 0 1) afterVadd) (fun t => (t.core 0).run.stall.map (·.cause) == some 9) = true := by
  decide +kernel

theorem witness_array : PrimaryRuns (at0 4 (vecCore 2)) 0 0 (.mcfgLd 0 0 8 1 0 1) ∧ PrimaryRuns (at0 4 (vecCore 2)) 0 0 (.mgath 0 0 4 5 3) ∧
    PrimaryRuns (at0 4 (vecCore 2)) 0 0 (.mlatb 0 0 6 3) ∧ PrimaryRuns (at0 4 (vecCore 2)) 0 0 (.mma 0 0 1 1 0 0) ∧
    PrimaryRuns (at0 4 (vecCore 2)) 0 0 (.mst 0 0 7 0 3) ∧ PrimaryRuns (at0 4 (vecCore 2)) 0 0 (.mcomp 0 10 9 0 3) ∧
    imageFault (Shape.of ((vecCore 2).h 8)) (vecCore 2) 2 1 0 = none ∧
    gatherFault (vecCore 2) (vecCore 2).ctl.bfmt (Shape.of ((vecCore 2).h 4)) (Shape.of ((vecCore 2).h 5)) 1 2 0 = none ∧
    latchFault (Shape.of ((vecCore 2).h 6)) (vecCore 2) (vecCore 2).ctl.bfmt 1 0 = none ∧
    sourceFormat (bankWord (vecCore 2).ctl.bfmt (Shape.of ((vecCore 2).h 6)).base) 1 = none ∧
    compressFault (Shape.of ((vecCore 2).h 10)) (Shape.of ((vecCore 2).h 9)) (vecCore 2) (vecCore 2).ctl.bfmt = none ∧
    unstarted (at0 4 (vecCore 2)) 0 < 32 := by
  unfold PrimaryRuns CoreRuns; and_intros <;> decide +kernel

theorem test_array_lease : faultCode (exec (.mma 0 0 1 1 0 0) (at0 4 (vecCore 0))) = some [8] ∧
    chk (exec (.mma 0 0 1 1 0 0) (at0 4 (vecCore 1))) (fun t => (t.core 0).run.stall.map (·.cause) == some 11) = true ∧
    chk (exec (.mma 0 0 1 1 0 0) (at0 4 (vecCore 2))) (fun t => (t.quad 0).cmds.map (fun x => (x.op, x.issued)) == [(.mma 0 0 1 1 0 0, 10)] &&
      (t.core 0).run.allow == 1) = true := by decide +kernel

/-- The quad's queue holds 32 commands; a move into metadata register 1 is under way. -/
def crowdedQuad (l : Nat) : State := { at0 4 (vecCore l) with
  quads := [(0, { cmds := List.replicate 32 { id := 0, core := 0, op := .vsync 0 0, issued := 0 } })] }
def movingCore (l : Nat) : Core := { vecCore l with moves := [{ id := 0, load := true, reg := 1, addr := 0, oc := 0, issued := 0, data := 0 }] }

theorem witness_array_waits : PrimaryRuns (crowdedQuad 1) 0 0 (.mma 0 0 1 1 0 0) ∧ 32 ≤ unstarted (crowdedQuad 1) 0 ∧ PrimaryRuns (crowdedQuad 2) 0 0 (.mma 0 0 1 1 0 0) ∧
    PrimaryRuns (at0 4 (movingCore 1)) 0 0 (.mmas 0 0 1 1 1 0) ∧ mdPending (at0 4 (movingCore 1)) 0 1 = true ∧
    PrimaryRuns (at0 4 (movingCore 2)) 0 0 (.mmas 0 0 1 1 1 0) ∧ PrimaryRuns (at0 4 (vecCore 1)) 0 0 (.mma 0 0 1 1 0 0) ∧ unstarted (at0 4 (vecCore 1)) 0 < 32 := by
  unfold PrimaryRuns CoreRuns; and_intros <;> decide +kernel

theorem test_array_waits : chk (exec (.mma 0 0 1 1 0 0) (crowdedQuad 1)) (fun t => (t.core 0).run.stall.map (·.cause) == some 10) = true ∧
    chk (exec (.mmas 0 0 1 1 1 0) (at0 4 (movingCore 1))) (fun t => (t.core 0).run.stall.map (·.cause) == some 4) = true := by decide +kernel

theorem witness_macros : PrimaryRuns (at0 4 (vecCore 2)) 0 0 (.mtile 0 0 4 4 3 0 1) ∧ PrimaryRuns (at0 4 (vecCore 2)) 0 0 (.mwalk 0 0 4 4 3) ∧
    GoodTable (vecCore 2) ((vecCore 2).m 6) := by
  unfold PrimaryRuns CoreRuns GoodTable; decide +kernel

theorem witness_good_macro : GoodMacro (at0 4 (vecCore 2)) 0 0 4 4 true 0x0A :=
  ⟨by decide +kernel, by decide +kernel, by decide +kernel, by decide +kernel, by
    intro k hk
    have h2 : k < 2 := Nat.lt_of_lt_of_eq hk (by decide +kernel)
    rcases k with _ | _ | k
    · exact ⟨_, rfl, by decide +kernel, by decide +kernel, by decide +kernel⟩
    · exact ⟨_, rfl, by decide +kernel, by decide +kernel, by decide +kernel⟩
    · omega, by decide +kernel, by decide +kernel, fun _ => by decide +kernel⟩

theorem test_mtile_queues : chk (exec (.mtile 0 0 4 4 3 0 1) (at0 4 (vecCore 2))) (fun t => (t.quad 0).cmds.length == 1 &&
    (t.core 0).plans.map (fun e => (e.kind, e.steps, e.entries)) == [(1, 2, 1)]) = true := by decide +kernel

theorem witness_macro_leases : PrimaryRuns (at0 4 (vecCore 0)) 0 0 (.mtile 0 0 4 4 3 0 1) ∧ PrimaryRuns (at0 4 (vecCore 1)) 0 0 (.mwalk 0 0 4 4 3) ∧
    PrimaryRuns (crowdedQuad 1) 0 0 (.mtile 0 0 4 4 3 0 1) ∧ PrimaryRuns (at0 4 (vecCore 2)) 0 0 (.mtile 0 0 4 2 3 0 1) ∧ ((vecCore 2).m 2).toNat / 2 ^ 16 = 0 ∧
    PrimaryRuns (crowdedQuad 2) 0 0 (.mwalk 0 0 4 4 3) := by
  unfold PrimaryRuns CoreRuns; and_intros <;> decide +kernel

theorem test_macro_leases : faultCode (exec (.mtile 0 0 4 4 3 0 1) (at0 4 (vecCore 0))) = some [8] ∧ faultCode (exec (.mwalk 0 0 4 2 3) (at0 4 (vecCore 2))) = some [2] ∧
    chk (exec (.mtile 0 0 4 4 3 0 1) (crowdedQuad 2)) (fun t => (t.core 0).run.stall.map (·.cause) == some 10) = true ∧
    chk (exec (.mwalk 0 0 4 4 3) (at0 4 (vecCore 1))) (fun t => (t.core 0).run.stall.map (·.cause) == some 11) = true := by decide +kernel

theorem witness_leases : PrimaryRuns (at0 4 (vecCore 0)) 0 0 (.mlease 0 64) ∧ PrimaryRuns (at0 4 (vecCore 1)) 0 0 (.mlease 0 1) ∧
    PrimaryRuns (at0 4 (vecCore 2)) 0 0 (.mfree 0) ∧ PrimaryRuns (at0 4 (vecCore 2)) 0 0 (.mdld 0 3 2 1) ∧
    PrimaryRuns (at0 4 (vecCore 2)) 0 0 (.mdst 0 3 2 1) ∧ PrimaryRuns (at0 4 (vecCore 2)) 0 0 (.mdld 0 3 3 1) ∧ ((vecCore 2).m 2).toNat % 64 = 0 ∧
    ((vecCore 2).m 3).toNat % 64 ≠ 0 ∧ (vecCore 2).blockFault ((vecCore 2).m 2).toNat 3072 = none ∧ mdPending (at0 4 (vecCore 2)) 0 3 = false := by
  unfold PrimaryRuns CoreRuns; and_intros <;> decide +kernel

theorem test_mfree : chk (exec (.mfree 0) (at0 4 (vecCore 2))) (fun t => (t.core 0).run.lease == 3) = true ∧
    chk (exec (.mfree 0) (at0 4 (vecCore 1))) (fun t => (t.core 0).run.lease == 0) = true := by decide +kernel

/-! ### Channels, barriers, collectives, combining, command blocks -/

/-- c1 names endpoint 2, c2 endpoint 63, c3 a group of owner 0 with one contribution in round 0, c4 a packet, c5 a result block, c6 a block of
collective data, c7 its destination, c8 one of class 2 with 16 elements of F32, c9 a command block, c10 a misaligned one, c11 is out of range. -/
def netFiles : Files := {
  c := (((((((((((Vector.replicate 16 0).set 1 2).set 2 63).set 3 (2 ^ 24 + 3 * 2 ^ 16)).set 4 (5 * 2 ^ 32 + 9)).set 5 0x7FFFF0).set 6 0x1000).set 7
    0x2000).set 8 (2 * 2 ^ 20 + 1 * 2 ^ 16 + 16)).set 9 0x3000).set 10 0x3001).set 11 (2 ^ 40)
  x := (Vector.replicate 32 0).set 4 77
  m := (((Vector.replicate 16 0).set 9 0x7FFFC0).set 10 0x3001).set 1 2 }

def netCore : Core := { prim with
  run := { prim.run with sailing := some 0 }
  ctl := { qcount := 1, bfmt := Vector.replicate 8 0x11 }
  files := netFiles }

/-- Channel 0 goes from endpoint 2 of core 0 to its own endpoint 3, channel 1 to its endpoint 63, with a word that arrived in cycle 9. -/
def netSailing : Sailing := { quads := [0], running := true, state := 1, t := 10, chans := [
  { wcore := 0, wep := 2, rcore := 0, rep := 3 },
  { wcore := 1, wep := 0, rcore := 0, rep := 63, recv := [(9, 5)] },
  { wcore := 0, wep := 63, rcore := 1, rep := 0, send := List.replicate 8 (0, 0) },
  { wcore := 1, wep := 1, rcore := 0, rep := 2, recv := [(10, 5)] }] }

def atNet (k : Nat) (c : Core) : State := { at0 k c with sailings := [(0, netSailing)] }

/-- The same with an engine command in flight. -/
def netBusy : Core := { netCore with flight := [{ id := 0, engine := .vector, oc := 3, reads := [(spadBase 0, spadBase 0 + 8)], writes := [] }] }

theorem witness_channels : PrimaryRuns (atNet 1 netCore) 0 0 (.chw 0 1 4) ∧ PrimaryRuns (atNet 1 netCore) 0 0 (.chwRel 0 2 4) ∧ AllPerformed netCore ∧
    ¬ AllPerformed netBusy ∧ PrimaryRuns (atNet 1 netBusy) 0 0 (.chwRel 0 1 4) ∧ ((atNet 1 netBusy).endpoint 0 true false 63).isSome = true ∧ (netCore.c 1).toNat < 64 ∧
    (atNet 1 netCore).endpoint 0 true false 2 = some (0, 0, { wcore := 0, wep := 2, rcore := 0, rep := 3 }) ∧
    (∃ c, (atNet 1 netCore).endpoint 0 true false 63 = some (0, 2, c) ∧ 8 ≤ c.send.length) ∧
    PrimaryRuns (atNet 1 netCore) 0 0 (.chr 0 5 2) ∧ PrimaryRuns (atNet 1 netCore) 0 0 (.chrAcq 0 29 1) ∧ Takes (atNet 1 netCore) 0 .x 5 ∧
    (∃ c, (atNet 1 netCore).endpoint 0 false false 63 = some (0, 1, c) ∧ c.recv = (9, 5) :: []) ∧
    (∃ c, (atNet 1 netCore).endpoint 0 false false 2 = some (0, 3, c) ∧ c.recv = (10, 5) :: []) ∧
    PrimaryRuns (atNet 1 netCore) 0 0 (.chr 0 5 12) ∧ (atNet 1 netCore).endpoint 0 false false (netCore.c 12).toNat = none ∧
    SendForm (.chwRel 0 2 4) (0, 2, 4, true) ∧ ReceiveForm (.chrAcq 0 29 1) (0, 29, 1) := by
  refine ⟨?_, ?_, ?_, ?_, ?_, ?_, ?_, ?_, ⟨_, rfl, ?_⟩, ?_, ?_, ?_, ⟨_, rfl, ?_⟩, ⟨_, rfl, ?_⟩, ?_, ?_, .chwRel .., .chrAcq ..⟩ <;>
    (try unfold PrimaryRuns CoreRuns) <;> (try unfold AllPerformed) <;> (try unfold Takes) <;> decide +kernel

theorem witness_channel_word : Reads .x 0 4 (atNet 1 netCore) 77 (atNet 1 netCore) ∧ Reads .x 0 4 (atNet 1 netBusy) 77 (atNet 1 netBusy) :=
  ⟨.plain _ (by unfold Plain; decide +kernel), .plain _ (by unfold Plain; decide +kernel)⟩

/-- Core 0's write in class 3 still owes an invalidation. -/
def netOwing (k : Nat) : State := { atNet k netCore with dies := [(0, { invals := [{ line := 1, by_ := .core 0 3 }] })] }

theorem witness_owing : PrimaryRuns (netOwing 1) 0 0 (.chwRel 0 1 4) ∧ Owes (netOwing 1) 0 0xFFFF ∧ Reads .x 0 4 (netOwing 1) 77 (netOwing 1) ∧
    PrimaryRuns (netOwing 5) 0 0 (.barArr 0 0 2) ∧ ((netOwing 5).sailing 0).task = false :=
  ⟨by unfold PrimaryRuns CoreRuns; decide +kernel, by unfold Owes; decide +kernel, .plain _ (by unfold Plain; decide +kernel),
    by unfold PrimaryRuns CoreRuns; decide +kernel, by decide +kernel⟩

theorem test_releases_wait : chk (exec (.chwRel 0 1 4) (netOwing 1)) (fun t => (t.core 0).run.stall.map (·.cause) == some 4) = true ∧
    chk (exec (.chw 0 1 4) (netOwing 1)) (fun t => (t.core 0).run.stall == none) = true ∧
    chk (exec (.barArr 0 0 2) (netOwing 5)) (fun t => (t.core 0).run.stall.map (·.cause) == some 4) = true := by decide +kernel

theorem test_chw : chk (exec (.chw 0 1 4) (atNet 1 netCore)) (fun t => (t.sailing 0).chans.map (fun c => c.send.length) == [1, 0, 8, 0]) = true ∧
    chk (exec (.chw 0 2 4) (atNet 1 netCore)) (fun t => (t.core 0).run.stall.map (·.cause) == some 13) = true := by decide +kernel

theorem test_chr : chk (exec (.chr 0 5 2) (atNet 1 netCore)) (fun t => (t.core 0).pipe.pend.map (fun r => (r.due, r.dest, r.val)) == [(12, .x 5, 5)] &&
    (t.sailing 0).chans.map (fun c => c.back) == [[], [11], [], []]) = true ∧
    chk (exec (.chr 0 5 1) (atNet 1 netCore)) (fun t => (t.core 0).run.stall.map (·.cause) == some 13) = true ∧
    faultCode (exec (.chr 0 5 12) (atNet 1 netCore)) = some [2] := by decide +kernel

/-- A helm core whose host channel 15 holds a word. -/
def atHostChannel : State := { atHelm 1 { prim with files := { c := (Vector.replicate 16 0).set 1 15 } } with
  helms := [(24576, { inbound := (Vector.replicate 16 []).set 15 [8, 9] })] }

/-- A helm core whose host channel 16 takes a word, which owes an invalidation or not. -/
def atOutbound (own : Bool) : State := { atHelm 1 { prim with files := { c := (Vector.replicate 16 0).set 1 16, x := (Vector.replicate 32 0).set 4 77 } } with
  dies := [(0, { invals := if own then [{ line := 1, by_ := .core 24576 16 }] else [] })] }

theorem witness_outbound : HelmRuns (atOutbound false) 24576 0 (.chw 0 1 4) ∧ ((atOutbound false).core 24576).c 1 = 16 ∧
    AllPerformed ((atOutbound false).core 24576) ∧ ¬ Owes (atOutbound false) 24576 0xFFFF ∧ Owes (atOutbound true) 24576 0xFFFF ∧
    ((atOutbound false).helm 24576).outbound.toList.getD 0 [] = [] ∧ Reads .x 24576 4 (atOutbound false) 77 (atOutbound false) :=
  ⟨by unfold HelmRuns CoreRuns; decide +kernel, by decide +kernel, by unfold AllPerformed; decide +kernel, by unfold Owes; decide +kernel,
    by unfold Owes; decide +kernel, by decide +kernel, .plain _ (by unfold Plain; decide +kernel)⟩

theorem test_outbound : chk (exec (.chw 0 1 4) (atOutbound false)) (fun t => (t.helm 24576).outbound.toList.getD 0 [] == [77]) = true ∧
    chk (exec (.chw 0 1 4) (atOutbound true)) (fun t => (t.core 24576).run.stall.map (·.cause) == some 4) = true := by decide +kernel

theorem witness_host_channel : HelmRuns atHostChannel 24576 0 (.chr 0 5 1) ∧ ((atHostChannel.core 24576).c 1).toNat = 15 ∧
    (atHostChannel.helm 24576).inbound.toList.getD 15 [] = [8, 9] ∧ Takes atHostChannel 24576 .x 5 := by
  refine ⟨?_, ?_, ?_, ?_⟩ <;> (try unfold HelmRuns CoreRuns) <;> (try unfold Takes) <;> decide +kernel

/-- A core whose barrier 15 of the package's scope has a round under way. -/
def barCore : Core := { netCore with bars := netCore.bars.set 63 (1, 0) }

theorem witness_barriers : (netCore.run.sailing = some 0) ∧ barrierOf (atNet 5 netCore) 0 2 0 = (0, 0) ∧ barrierOf (atNet 5 barCore) 0 5 15 = (1, 0) ∧
    PrimaryRuns (atNet 5 netCore) 0 0 (.barArr 0 0 2) ∧ PrimaryRuns (atNet 5 barCore) 0 0 (.barArr 0 15 5) ∧
    PrimaryRuns (atNet 5 netBusy) 0 0 (.barArr 0 0 2) ∧ PrimaryRuns (atNet 5 netCore) 0 0 (.barWait 0 0 3) ∧
    PrimaryRuns (atNet 5 barCore) 0 0 (.barWait 0 15 5) ∧ PrimaryRuns (atNet 5 netCore) 0 0 (.barSync 0 0 4) ∧
    PrimaryRuns (atNet 5 { barCore with run := { barCore.run with arrived := true } }) 0 0 (.barSync 0 15 5) ∧
    PrimaryRuns (atNet 5 { netCore with run := { netCore.run with arrived := true } }) 0 0 (.barSync 0 15 5) ∧
    PrimaryRuns { taskState with sailings := taskState.sailings } 0 0 (.barArr 0 0 2) ∧ (taskState.sailing 0).task = true := by
  unfold PrimaryRuns CoreRuns; and_intros <;> decide +kernel

theorem test_bar_arr : chk (exec (.barArr 0 0 5) (atNet 5 netCore)) (fun t => (t.sailing 0).arrivals.map (fun m => (m.due, m.scope, m.gen)) == [(82, 5, 0)] &&
    barrierOf t 0 5 0 == (1, 0)) = true ∧ chk (exec (.barWait 0 15 5) (atNet 5 barCore)) (fun t => (t.core 0).run.stall.map (·.cause) == some 14) = true ∧
    faultCode (exec (.barSync 0 0 2) taskState) = some [2] := by decide +kernel

theorem witness_collectives : PrimaryRuns (atNet 5 netCore) 0 0 (.coll 0 7 6 8 5 2) ∧ (netCore.c 7).toNat = 0x2000 ∧
    (netCore.c 8).toNat = 2 * 2 ^ 20 + 1 * 2 ^ 16 + 16 ∧
    (∃ w rs rd, collFault netCore 2 1 0x1000 0x2000 16 ((atNet 5 netCore).sailing 0 |>.participants 5 0).length = .ok (w, rs, rd)) := by
  refine ⟨?_, ?_, ?_, ⟨_, _, _, rfl⟩⟩ <;> (try unfold PrimaryRuns CoreRuns) <;> decide +kernel

theorem test_coll : chk (exec (.coll 0 7 6 8 5 2) (atNet 5 netCore)) (fun t => (t.sailing 0).colls.map (fun x => (x.scope, x.k, x.parts.map (·.n))) ==
    [(5, 0, [16])] && (t.core 0).flight.map (·.reads) == [[(spadBase 0 + 0x1000, spadBase 0 + 0x1000 + 64)]]) = true := by decide +kernel

theorem witness_combining : PrimaryRuns (atNet 5 netCore) 0 0 (.cmbxMax 0 4 3) ∧ PrimaryRuns (atNet 5 netCore) 0 0 (.cmbxMerge 0 4 9) ∧
    (netCore.c 3).toNat < 2 ^ 40 ∧ (netCore.c 3).toNat % 2 ^ 16 < 4 * netCore.ctl.qcount ∧ 4 * netCore.ctl.qcount ≤ (netCore.c 9).toNat % 2 ^ 16 ∧
    PrimaryRuns (atNet 5 netCore) 0 0 (.cmbxArmmax 0 5 3) ∧ netCore.blockFault (netCore.c 5).toNat 16 = none ∧
    (netCore.groups.toList.getD 3 {}).armed = none ∧ (netCore.groups.toList.getD 3 {}).nr = 0 ∧ (netCore.groups.toList.getD 3 {}).held = [] ∧
    PrimaryRuns (atNet 5 netCore) 0 0 (.cmbxArmmerge 0 6 3) ∧ netCore.blockFault (netCore.c 6).toNat 520 = none ∧
    PrimaryRuns (atNet 5 netCore) 0 0 (.cmbxArmmax 0 5 12) ∧ (netCore.c 12).toNat / 2 ^ 24 % 2 ^ 16 = 0 := by
  unfold PrimaryRuns CoreRuns; and_intros <;> decide +kernel

theorem test_combining : chk (exec (.cmbxMerge 0 4 3) (atNet 5 netCore)) (fun t => (t.sailing 0).packets.map (fun x => (x.owner, x.group, x.merge, x.items)) ==
    [(0, 3, true, [(5, 9)])]) = true ∧
    chk (exec (.cmbxArmmax 0 5 3) (atNet 5 netCore)) (fun t => ((t.core 0).groups.toList.getD 3 {}).armed == some (false, 1, 0x7FFFF0)) = true ∧
    faultCode (exec (.cmbxArmmax 0 5 12) (atNet 5 netCore)) = some [2] := by decide +kernel

theorem witness_command_blocks : PrimaryRuns (atNet 5 netCore) 0 0 (.sqOpen 0 9 2) ∧ GoodBlock netCore 0x3000 ∧ sqOutstanding (atNet 5 netCore) 0 < 8 ∧
    PrimaryRuns (atNet 5 netCore) 0 0 (.sqFreeRec 0 10 2) ∧ (netCore.c 10).toNat % 64 ≠ 0 ∧
    PrimaryRuns (atNet 4 netCore) 0 0 (.route 0 9 2) ∧ GoodBlock netCore 0x7FFFC0 ∧ pilotOutstanding (atNet 4 netCore) 0 < 4 ∧
    PrimaryRuns (atNet 4 netCore) 0 0 (.routeTx 0 10 2) := by
  refine ⟨?_, ⟨?_, ?_, ?_, ?_⟩, ?_, ?_, ?_, ?_, ⟨?_, ?_, ?_, ?_⟩, ?_, ?_⟩ <;> (try unfold PrimaryRuns CoreRuns) <;> decide +kernel

/-- Core 0 has n commands at each of the two engines. -/
def crowded (k n : Nat) : State := { atNet k netCore with dies := [(0, {
  sq := List.replicate n { id := 0, core := 0, sailing := some 0, lid := 0, op := 0x15, variant := 0, addr := 0, oc := 0, cap := {}, baddr := 0, word := 0 }
  pilot := List.replicate n { id := 0, core := 0, sailing := some 0, lid := 0, op := 0, variant := 0, addr := 0, oc := 0, cap := {}, baddr := 0, word := 0 } })] }

theorem witness_command_limits : PrimaryRuns (crowded 5 8) 0 0 (.sqOpen 0 9 2) ∧ 8 ≤ sqOutstanding (crowded 5 8) 0 ∧
    PrimaryRuns (crowded 4 4) 0 0 (.route 0 9 2) ∧ 4 ≤ pilotOutstanding (crowded 4 4) 0 := by
  unfold PrimaryRuns CoreRuns; and_intros <;> decide +kernel

theorem test_command_blocks : chk (exec (.sqOpen 0 9 2) (crowded 5 7)) (fun t => (t.die 0).sq.length == 8) = true ∧
    chk (exec (.sqOpen 0 9 2) (crowded 5 8)) (fun t => (t.core 0).run.stall.map (·.cause) == some 18) = true ∧
    chk (exec (.route 0 9 2) (crowded 4 4)) (fun t => (t.core 0).run.stall.map (·.cause) == some 19) = true ∧
    faultCode (exec (.routeTx 0 10 2) (atNet 4 netCore)) = some [2] := by decide +kernel

/-! ### Skiffs -/

/-- A context whose s1 addresses a command block, s2 names core 1, s3 a word of the scratchpad. -/
def busySkiff : Skiff := { s := ((((Vector.replicate 16 0).set 1 0x3000).set 2 1).set 3 0x40).set 4 0 }

def skiffNet (k : Nat) : State := { atSkiff k { barrelOf busySkiff with ctl := { qcount := 1 } } with sailings := [(0, netSailing)] }

theorem witness_skiff_commands : SkiffRuns (skiffNet 5) 0 1 0 (.sqSampP 0 1 2) ∧ GoodBlock ((skiffNet 5).core 0) 0x3000 ∧
    sqOutstanding (skiffNet 5) 0 < 8 ∧ SkiffRuns (skiffNet 5) 0 1 0 (.mig 0 2) ∧ ((skiffNet 5).skiff 0 1).reg 2 = 1 ∧
    SkiffRuns (skiffNet 5) 0 1 0 (.mig 0 4) ∧ SkiffRuns (skiffNet 5) 0 1 0 (.yield 0) ∧ SkiffRuns (skiffNet 5) 0 1 0 (.snooze 0 4) ∧
    SkiffRuns (skiffNet 5) 0 1 0 (.snoozeW 0 3) ∧ place (skiffNet 5) 0x40 8 = .own 0x40 ∧ SkiffRuns (skiffNet 5) 0 1 0 (.sexit 0) ∧
    ((skiffNet 5).core 0).barrel.inbox = [] := by
  refine ⟨?_, ⟨?_, ?_, ?_, ?_⟩, ?_, ?_, ?_, ?_, ?_, ?_, ?_, ?_, ?_, ?_⟩ <;> (try unfold SkiffRuns) <;> decide +kernel

theorem test_skiff_waits : chk (exec (.mig 0 2) (skiffNet 5)) (fun t => (t.skiff 0 1).wait == .migrate 1 false) = true ∧
    chk (exec (.snooze 0 4) (skiffNet 5)) (fun t => (t.skiff 0 1).wait == .snooze 11) = true ∧
    chk (exec (.snoozeW 0 3) (skiffNet 5)) (fun t => (t.skiff 0 1).wait == .snoozeWord 0x40 65546) = true ∧
    chk (exec (.sexit 0) (skiffNet 5)) (fun t => !(t.skiff 0 1).occupied) = true := by decide +kernel

/-- The primary has written the word that s3 names in this cycle. -/
def skiffWrote : State := (skiffNet 5).modCore 0 fun c => { c with run := { c.run with wrote := [(0x44, 0x45)] } }

theorem test_snooze_of_a_written_word : chk (exec (.snoozeW 0 3) skiffWrote) (fun t => (t.skiff 0 1).wait == .until 10) = true := by decide +kernel

/-- c1 is an entry, c2 an argument; the barrel is b. -/
def spawner (b : Barrel) : Core := { prim with files := { c := ((Vector.replicate 16 0).set 1 0x2000).set 2 9 }, barrel := b }
def fullBarrel : Barrel := { ctx := Vector.replicate 8 { occupied := true } }

theorem witness_spawns : PrimaryRuns (at0 5 (spawner {})) 0 0 (.spawnS 0 3 1 2 0) ∧ ((spawner {}).c 1).toNat < 2 ^ 48 ∧ ((spawner {}).c 1).toNat % 4 = 0 ∧
    ((at0 5 (spawner {})).skiff 0 0).occupied = false ∧ PrimaryRuns (at0 5 (spawner fullBarrel)) 0 0 (.spawnS 0 3 1 2 7) ∧
    (∀ j : BitVec 3, ((at0 5 (spawner fullBarrel)).skiff 0 j).occupied = true) ∧ PrimaryRuns (at0 5 (spawner {})) 0 0 (.spawnS 0 3 2 2 0) ∧
    ((spawner {}).c 2).toNat % 4 ≠ 0 := by
  unfold PrimaryRuns CoreRuns; and_intros <;> decide +kernel

theorem test_spawn_skiff : chk (exec (.spawnS 0 3 1 2 0) (at0 5 (spawner {}))) (fun t => (t.skiff 0 0).occupied && (t.skiff 0 0).reg 1 == 9 &&
    (t.skiff 0 0).pc == 0x2000 && (t.core 0).pipe.pend.map (fun r => (r.dest, r.val)) == [(.g 3, 1)]) = true ∧
    inFlight (exec (.spawnS 0 3 1 2 0) (at0 5 (spawner fullBarrel))) = some [(11, .g 3, 0)] ∧
    faultCode (exec (.spawnS 0 3 2 2 0) (at0 5 (spawner {}))) = some [2] := by decide +kernel

/-! ### Bundles and faults -/

/-- A core whose loop buffer holds one bundle of one A word, which issues next. -/
def oneWord (c : Core) (w : Code) : State := { cores := [(0, c.place (oneOpBundle .a w 0))], moves := [.bundleIssue 0] }

/-- add a3, a1, a2 (03 R88: opcode 1, guard 0, d 3, s1 1, s2 2). -/
def addWord : Code := 0x02030880
def addBundle : Bundle := oneOpBundle .a addWord 0

theorem witness_to_issue : ToIssue (oneWord regs addWord) 0 (.bundleIssue 0) false addBundle ∧ isHelm 0 = false ∧
    addBundle.slots = [(.a, addWord, 0)] ∧ addBundle.cost ≤ ((oneWord regs addWord).core 0).ctl.purse ∧
    ToIssue (oneWord { regs with fetch := {}, obs := {} } 0) 0 (.bundleIssue 0) false (oneOpBundle .a 0 0) := by
  unfold ToIssue IsNext; and_intros <;> decide +kernel

/-- The same core in the middle of a stall. -/
def stalledWord : State := (oneWord regs addWord).modCore 0 fun c => { c with run := { c.run with stall := some ⟨4, 0x10010, 2⟩ } }

theorem witness_issues_after_stall : ToIssue stalledWord 0 (.stallEnd 0) false addBundle := by unfold ToIssue IsNext; and_intros <;> decide +kernel

/-- The same bundle, with a toll that is more than its core's purse. -/
def dearBundle : Bundle := { addBundle with hdr := addBundle.hdr ||| BitVec.ofNat 32 (3 * 2 ^ (8 + 2 * slotNo .a)) }
def poorWord : State :=
  { cores := [(0, let c := regs.place dearBundle; { c with ctl := { c.ctl with purse := 0 } })], moves := [.bundleIssue 0] }

theorem witness_short_of_tolls : ToIssue poorWord 0 (.bundleIssue 0) false dearBundle ∧ (poorWord.core 0).ctl.purse < dearBundle.cost ∧
    ∃ t, SlotsRun (activeLend (poorWord.core 0) dearBundle) dearBundle.slots ((berthed poorWord 0 dearBundle).atBundle 0 dearBundle.addr dearBundle.size) t ∧
      t.own.queues.lq.length ≤ 32 ∧ t.own.queues.sq.length ≤ 32 := by
  refine ⟨?_, ?_, _, SlotsGo.runs .a addWord 0 [] (.addA 0 3 1 2 0) _ _ _ none none (by decide +kernel) (by decide +kernel) rfl (by decide +kernel) (.nil _ _),
    by decide +kernel, by decide +kernel⟩ <;> (try unfold ToIssue IsNext) <;> decide +kernel

theorem test_toll_stall : chk (step poorWord) (fun t => (t.core 0).run.stall == some ⟨16, 0x10010, 1⟩ && (t.core 0).pipe.pend == []) = true := by decide +kernel


theorem witness_slots_run : ∃ t, SlotsRun (activeLend ((oneWord regs addWord).core 0) addBundle) addBundle.slots
    ((berthed (oneWord regs addWord) 0 addBundle).atBundle 0 addBundle.addr addBundle.size) t ∧ t.own.queues.lq.length ≤ 32 ∧
    t.own.queues.sq.length ≤ 32 :=
  ⟨_, SlotsGo.runs .a addWord 0 [] (.addA 0 3 1 2 0) _ _ _ none none (by decide +kernel) (by decide +kernel) rfl (by decide +kernel) (.nil _ _), by decide +kernel,
    by decide +kernel⟩

theorem test_bundle_issues : chk (step (oneWord regs addWord)) (fun t => (t.core 0).pipe.pend.map (fun r => (r.due, r.dest, r.val)) == [(11, .a 3, 6)] &&
    (t.core 0).run.moved && (t.core 0).fetch.pc == 0x10018) = true ∧
    chk (step { stalledWord with moves := [.stallEnd 0] }) (fun t => (t.core 0).pipe.pend.map (·.val) == [6] && (t.core 0).run.stall == none) = true := by
  decide +kernel

theorem test_bundle_faults : faultCode (step (oneWord regs 0)) = some [1] ∧
    chk (step (oneWord regs 0)) (fun t => (t.core 0).run.halted && (t.core 0).pipe.pend == []) = true := by decide +kernel

/-- A bundle of a fence. -/
def fenceWord : Code := match encode (.fenceOc 0 1 8) with | w :: _ => w | [] => 0

theorem witness_fence_waits : ToIssue (oneWord (busyCore 0) fenceWord) 0 (.bundleIssue 0) false (oneOpBundle .a fenceWord 0) ∧
    decodeSlot .a fenceWord 0 = .ok (.fenceOc 0 1 8) ∧
    ∃ t act, SlotsGo (activeLend ((oneWord (busyCore 0) fenceWord).core 0) (oneOpBundle .a fenceWord 0)) [(.a, fenceWord, 0)]
      ((berthed (oneWord (busyCore 0) fenceWord) 0 (oneOpBundle .a fenceWord 0)).atBundle 0 0x10010 2) none t (some (4, act)) := by
  refine ⟨?_, ?_, _, _, SlotsGo.waits .a fenceWord 0 [] (.fenceOc 0 1 8) _ _ none _ 4 _ (by decide +kernel) (by decide +kernel) rfl (.nil _ _)⟩ <;>
    (try unfold ToIssue IsNext) <;> decide +kernel

/-- A landing that waits for a child of its task, at a true landing, when it is overdue (03 R109). -/
def joinWord : Code := match encode (.join 0 3) with | w :: _ => w | [] => 0
def joinBundle : Bundle := let b := oneOpBundle .c joinWord 0; { b with hdr := b.hdr ||| 64 }
def overdueWord : State := { cores := [(0, { regs with run := { regs.run with lcnt := 2000000, children := [(1, none)] } }.place joinBundle)], moves := [.bundleIssue 0] }

theorem witness_overdue_wait : IsNext overdueWord 0 (.bundleIssue 0) false joinBundle ∧ (overdueWord.core 0).overdue 0 = true ∧ joinBundle.land = true ∧
    (overdueWord.core 0).trueLanding = true ∧ ∃ t act, SlotsGo (activeLend (overdueWord.core 0) joinBundle) [(.c, joinWord, 0)]
      ((berthed overdueWord 0 joinBundle).atBundle 0 joinBundle.addr joinBundle.size) none t (some (7, act)) := by
  refine ⟨?_, ?_, ?_, ?_, _, _, SlotsGo.waits .c joinWord 0 [] (.join 0 3) _ _ none _ 7 _ (by decide +kernel) (by decide +kernel) rfl (.nil _ _)⟩ <;>
    (try unfold IsNext) <;> decide +kernel

theorem test_overdue_wait : faultCode (step overdueWord) = some [5] := by decide +kernel

theorem test_bundle_waits : chk (step (oneWord (busyCore 0) fenceWord)) (fun t => (t.core 0).run.stall == some ⟨4, 0x10010, 1⟩ &&
    (t.core 0).fetch.pc == 0x10010) = true := by decide +kernel

theorem witness_guards_and_agents : (8, 5) ∈ (Instr.addA 5 3 1 2 0).guardUse ∧ encodingFault (at0 0 regs) (.addA 5 3 1 2 0) = none ∧
    regs.g 5 = false ∧ encodingFault (atSkiff 0 (barrelOf {})) (.addA 2 3 1 2 0) = none ∧ ((atSkiff 0 (barrelOf {})).skiff 0 1).guard 2 = false ∧
    (Instr.mig 0 1).slotClass = some .c ∧ (Instr.mig 0 1).opcode = 0x20 ∧ (Instr.ovfldSelf 0 1).opcode = 0x39 ∧ (Instr.vsync 0 1).slotClass = some .v ∧
    (Instr.sldD 0 1 2 0 0).opcode = 0x43 ∧ (Instr.lset 0 0 0 0 0).opcode = 4 := by decide +kernel

theorem test_agents : faultCode (exec (.mig 0 1) (at0 5 regs)) = some [1] ∧ faultCode (exec (.sail 0 1 2) (at0 5 regs)) = some [3] ∧
    faultCode (exec (.vsync 0 1) (atHelm 3 prim)) = some [1] ∧ faultCode (exec (.lset 0 0 0 0 0) (atSkiff 5 (barrelOf {}))) = some [1] := by decide +kernel

theorem test_false_guard : inFlight (exec (.addA 5 3 1 2 0) (at0 0 regs)) = some [] := by decide +kernel

/-- A core and a context of a sailing at issue. -/
def inSailing : State := { at0 5 netCore with sailings := [(0, netSailing)] }
def skiffSailing : State := { atSkiff 5 (barrelOf {}) with
  cores := [(0, { barrelOf {} with run := { prim.run with sailing := some 0 } })], sailings := [(0, netSailing)] }

theorem witness_faults : inSailing.cur.agent = .core 0 ∧ (inSailing.core 0).run.sailing = some 0 ∧ MemoryCanonical inSailing ∧
    skiffSailing.cur.agent = .skiff 0 1 ∧ (skiffSailing.core 0).run.sailing = some 0 ∧ (skiffSailing.core 0).barrel.inbox = [] := by
  refine ⟨?_, ?_, ?_, ?_, ?_, ?_⟩ <;> (try unfold MemoryCanonical) <;> decide +kernel

theorem test_fault_halts : ((takeFault inSailing 0x0C 5).core 0).run.halted = true ∧ ((takeFault inSailing 0x0C 5).sailing 0).state = 6 ∧
    ((takeFault inSailing 0x0C 5).sailing 0).faults = 1 ∧ ((takeFault inSailing 0x0C 5).helm 24576).fhead = 1 ∧
    ((takeFault inSailing 0x0C 5).helm 24577).fhead = 1 := by decide +kernel

theorem test_skiff_fault : ((takeFault skiffSailing 0x0C 5).skiff 0 1).occupied = false ∧ ((takeFault skiffSailing 0x0C 5).core 0).run.halted = false ∧
    ((takeFault skiffSailing 0x0C 5).sailing 0).state = 1 ∧ ((takeFault skiffSailing 0x0C 5).die 0).faultBuf.map (fun r => r.toNat / 2 ^ 11 % 32) = [3] := by
  decide +kernel

/-! ### Steps -/

theorem witness_steps : (oneWord regs addWord).dead = false ∧ (oneWord regs addWord).moves = .bundleIssue 0 :: [] ∧
    (State.reset).moves = [] ∧ State.reset.dead = false := by decide +kernel

/-- The word placed for the next step of the reset state runs there (03 R88). -/
theorem test_step_runs_the_placed_word : decodeTableWord 32 0x02030880 = some (.addA 0 3 1 2 0) ∧
    chk (step (State.reset.withFetchWord 32 0x02030880)) (fun t => (t.core 0).pipe.pend.map (·.dest) == [.a 3]) = true := by decide +kernel

/-! ### Helm operations -/

/-- c1 addresses a launch record, c2 a status block, c3 to c8 further blocks of the helm's scratchpad, c9 is misaligned, c10 a queue number. -/
def helmFiles : Files := {
  c := ((((((((((((Vector.replicate 16 0).set 1 0x100).set 2 0x200).set 3 0x240).set 4 0x300).set 5 0x400).set 6 0x500).set 7 0x600).set 8 0x800).set 9
    0x108).set 10 63).set 11 64).set 12 (2 ^ 63) }

/-- A launch record of one quad with the entry 0x10000, image 0x2000, Timetable 0x3000, list 0x4000 (13 R369). -/
def launchWords : List Nat := [0x10000, 0, 0, 0x20000, 0x30000, 0x40000, 1, 0, 0, 0, 7]

/-- The memory with words at an address. -/
def putWords (m : Memory) (a : Nat) (ws : List Nat) : Memory := (ws.zipIdx).foldl (fun m x => m.write (a + 8 * x.2) x.1 8) m

/-- The helm has sailings 0 (in STATE st, at 0x200) and 1 (saved in slot 1, at 0x240); a parameter block of 64 bytes lies at 0x600. -/
def atHelmIn (st : Nat) : State := { atHelm 5 { prim with files := helmFiles } with
  sailings := [(0, { quads := [0], state := st, block := spadBase 24576 + 0x200, helm := 24576 }),
    (1, { quads := [1], state := 4, slot := some 1, block := spadBase 24576 + 0x240, helm := 24576, saved := [(4, prim)] })]
  nextSailing := 2
  wall := 1000
  mem := putWords (putWords (putWords (putWords [] (spadBase 24576 + 0x100) launchWords) (spadBase 24576 + 0x300) [3, 100, 5]) (spadBase 24576 + 0x200) [st])
    (spadBase 24576 + 0x600) [1, 64] }

theorem witness_launches : HelmRuns (atHelmIn 1) 24576 0 (.sail 0 1 4) ∧ InHelm 0x100 64 128 ∧ recordBad (recordWord (atHelmIn 1) 24576 0x100) = false ∧
    InHelm 0x300 64 64 ∧ HelmRuns (atHelmIn 1) 24576 0 (.sail 0 9 4) ∧ ¬ InHelm 0x108 64 128 ∧ HelmRuns (atHelmIn 1) 24576 0 (.swait 0 2) ∧
    recordWord (atHelmIn 1) 24576 0x200 0 % 256 ≤ 4 ∧ recordWord (atHelmIn 8) 24576 0x200 0 % 256 = 8 ∧ HelmRuns (atHelmIn 1) 24576 0 (.preempt 0 2) ∧
    (atHelmIn 1).findBlock 0x200 = some 0 ∧ ((atHelmIn 1).sailing 0).state = 1 := by
  unfold HelmRuns CoreRuns InHelm; and_intros <;> decide +kernel

theorem test_sail : chk (exec (.sail 0 1 4) (atHelmIn 1)) (fun t => (t.sailing 2).entry == 0x10000 && (t.sailing 2).nquads == 1 && t.nextSailing == 3 &&
    (t.sailing 2).image == 0x20000) = true ∧ faultCode (exec (.sail 0 9 4) (atHelmIn 1)) = some [2] := by decide +kernel

theorem test_preempt : chk (exec (.preempt 0 2) (atHelmIn 1)) (fun t => (t.sailing 0).state == 2 && t.mem.read (spadBase 24576 + 0x200) 1 == 2) = true ∧
    chk (exec (.swait 0 2) (atHelmIn 4)) (fun t => (t.core 24576).run.stall.map (·.cause) == some 22) = true := by decide +kernel

/-- The helm's bundle has stalled for 150 cycles. -/
def atHelmHeld (k : Nat) : State := (atHelmIn 3).modCore 24576 fun c => { c with run := { c.run with stall := some ⟨k, 0x1000, 150⟩ } }

theorem witness_saves : HelmRuns (atHelmIn 3) 24576 0 (.ctxsv 0 2 0) ∧ (atHelmIn 3).findBlock 0x200 = some 0 ∧ ((atHelmIn 3).sailing 0).state = 3 ∧
    slotUsed (atHelmIn 3) ((atHelmIn 3).sailing 0) 0 = false ∧ ((atHelmIn 3).sailing 0).stopW + 150 ≤ (atHelmIn 3).wall ∧
    HelmRuns (atHelmIn 8) 24576 0 (.ctxsv 0 2 0) ∧ HelmRuns (atHelmIn 1) 24576 0 (.ctxsv 0 2 0) ∧ HelmRuns (atHelmIn 2) 24576 0 (.ctxsv 0 2 1) ∧
    slotUsed (atHelmIn 1) ((atHelmIn 1).sailing 1) 1 = true ∧ HelmRuns (atHelmIn 3) 24576 0 (.ctxsv 0 3 1) := by
  unfold HelmRuns CoreRuns; and_intros <;> decide +kernel

theorem witness_restores : HelmRuns (atHelmHeld 23) 24576 0 (.ctxld 0 3 1) ∧ (atHelmHeld 23).findBlock 0x240 = some 1 ∧
    ((atHelmHeld 23).sailing 1).state = 4 ∧ ((atHelmHeld 23).sailing 1).slot = some 1 ∧
    quadsTaken (atHelmHeld 23) 1 ((atHelmHeld 23).sailing 1).quads = false ∧ lanesTaken (atHelmHeld 23) 1 ((atHelmHeld 23).sailing 1).lanes = false ∧
    (((atHelmHeld 23).sailing 1).saved.map Prod.fst).Nodup ∧ HelmRuns (atHelmHeld 23) 24576 0 (.ctxld 0 3 0) ∧
    HelmRuns (atHelmHeld 23) 24576 0 (.preemptKill 0 2) ∧ HelmRuns (atHelmIn 7) 24576 0 (.preemptKill 0 2) := by
  unfold HelmRuns CoreRuns; and_intros <;> decide +kernel

theorem test_save_and_restore : chk (exec (.ctxsv 0 2 0) (atHelmIn 3)) (fun t => (t.sailing 0).state == 4 && (t.sailing 0).slot == some 0 &&
    (t.sailing 0).saved.map (·.1) == [0, 1, 2, 3]) = true ∧
    chk (exec (.ctxld 0 3 1) (atHelmHeld 23)) (fun t => (t.sailing 1).state == 1 && (t.core 4).run.live && (t.sailing 1).loaded) = true ∧
    faultCode (exec (.ctxld 0 3 0) (atHelmHeld 23)) = some [2] ∧ faultCode (exec (.ctxsv 0 3 1) (atHelmIn 3)) = some [2] := by decide +kernel

theorem test_kill : chk (exec (.preemptKill 0 2) (atHelmIn 2)) (fun t => (t.sailing 0).killed && !(t.sailing 0).running) = true ∧
    chk (exec (.preemptKill 0 2) (atHelmIn 8)) (fun t => !(t.sailing 0).killed) = true := by decide +kernel

/-- Queue 63 of the die is configured and holds a request that is late; queue 5, of the same tier, one that is due later. -/
def queues : Die := {
  queues := ((Vector.replicate 64 {}).set 63 { attr := { conf := true, tier := 1, deadline := 50 }, fifo := [(7, 8, 900)] }).set 5
    { attr := { conf := true, tier := 1, deadline := 9 }, fifo := [(1, 2, 2000)] } }

def atQueues : State := { atHelmIn 1 with dies := [(dieOf 24576, queues)] }

theorem witness_queues : HelmRuns (atHelmIn 1) 24576 0 (.qpushCfg 0 10 4) ∧ ((atHelmIn 1).core 24576 |>.c 10).toNat = 63 ∧
    (∀ i, i < 4 → recordWord (atHelmIn 1) 24576 0x300 i = [3, 100, 5, 0].getD i 0) ∧ HelmRuns (atHelmIn 1) 24576 0 (.qpushCfg 0 11 4) ∧
    HelmRuns (atHelmIn 1) 24576 0 (.qpushCfg 0 10 9) ∧ HelmRuns atQueues 24576 0 (.qpush 0 10 4) ∧ (queueOf (atQueues.die 0) 63).attr.conf = true ∧
    (queueOf (atQueues.die 0) 63).fifo.length < 32 ∧ HelmRuns (atHelmIn 1) 24576 0 (.qpush 0 10 4) ∧
    (queueOf ((atHelmIn 1).die 0) 63).attr.conf = false ∧ HelmRuns atQueues 24576 0 (.qpop 0 4) := by
  unfold HelmRuns CoreRuns; and_intros <;> decide +kernel

theorem witness_quiet : (∀ j, j < 64 → j ≠ 63 → j ≠ 5 → (queueOf (atQueues.die 0) j).fifo = []) ∧
    (queueOf (atQueues.die 0) 63).fifo = (7, 8, 900) :: [] ∧ (∀ k, k < 64 → (queueOf ((atHelmIn 1).die 0) k).fifo = []) := by
  and_intros <;> decide +kernel

theorem witness_policy (j : Nat) (hj : j < 64) (ne : j ≠ 63) (h : (queueOf (atQueues.die 0) j).fifo ≠ []) : Ahead (atQueues.die 0) 1000 63 j := by
  by_cases e : j = 5
  · subst e
    exact .inr ⟨by decide +kernel, by decide +kernel, .inr ⟨by decide +kernel, .inl (by decide +kernel)⟩⟩
  · exact absurd (witness_quiet.1 j hj ne e) h

theorem test_queues : chk (exec (.qpop 0 4) atQueues) (fun t => t.mem.read (spadBase 24576 + 0x300) 8 == 7 && t.mem.read (spadBase 24576 + 0x308) 8 == 8 &&
    t.mem.read (spadBase 24576 + 0x310) 8 == 900 && t.mem.read (spadBase 24576 + 0x318) 8 == 0x823F && (t.die 0).lastq == 63) = true ∧
    chk (exec (.qpush 0 10 4) atQueues) (fun t => (queueOf (t.die 0) 63).fifo == [(7, 8, 900), (3, 100, 1050)]) = true ∧
    chk (exec (.qpushCfg 0 10 4) (atHelmIn 1)) (fun t => (queueOf (t.die 0) 63).attr.tier == 3 && (queueOf (t.die 0) 63).attr.budget == 5) = true := by
  decide +kernel

theorem witness_generations : HelmRuns (atHelmHeld 22) 24576 0 (.pgenCap 0 7 8) ∧ paramLen (atHelmHeld 22) 0x600 = some 64 ∧ InHelm 0x800 64 128 ∧
    HelmRuns (atHelmHeld 22) 24576 0 (.pgenPub 0 7) ∧ ((atHelmHeld 22).core 24576).run.stall = some ⟨22, 0x1000, 150⟩ ∧
    HelmRuns (atHelmIn 1) 24576 0 (.pgenPub 0 7) ∧ ((atHelmIn 1).core 24576).run.stall = none ∧ HelmRuns (atHelmIn 1) 24576 0 (.tlbm 0 2 12) ∧
    HelmRuns (atHelmIn 1) 24576 0 (.tlbm 0 3 12) ∧ HelmRuns (atHelmIn 8) 24576 0 (.tlbm 0 2 13) ∧
    HelmRuns (atHelmIn 8) 24576 0 (.ovfld 0 13) ∧ ovfGood 0 = true ∧ HelmRuns (atHelmIn 8) 24576 0 (.ovfldSelf 0 13) := by
  unfold HelmRuns CoreRuns InHelm; and_intros <;> decide +kernel

theorem test_generations : chk (exec (.pgenCap 0 7 8) (atHelmHeld 22)) (fun t => t.mem.read (spadBase 24576 + 0x808) 1 == 64) = true ∧
    chk (exec (.pgenPub 0 7) (atHelmHeld 22)) (fun t => t.mem.read (spadBase 24576 + 0x600) 8 == 2) = true := by decide +kernel

theorem test_shootdowns : chk (exec (.tlbm 0 2 12) (atHelmIn 1)) (fun t => (t.sailing 0).shoots.length == 1) = true ∧
    chk (exec (.tlbm 0 3 12) (atHelmIn 1)) (fun t => (t.sailing 1).tlbc == 1) = true ∧
    chk (exec (.ovfld 0 13) (atHelmIn 8)) (fun t => (t.core 24576).pipe.eoc == [.ctl 0x102 0]) = true := by decide +kernel

/-! ### A core's cycle -/

/-- Results in flight: x3 gets 5 over an earlier 4, c15 its low bits but bit 0, g4 a true, an entry of the load queue 9; a later result stays. -/
def landCore : Core := { prim with
  queues := { lq := [{ id := 7, val := none }], nextId := 8 }
  pipe := { pend := [⟨9, 8, 1, .x 3, 4⟩, ⟨10, 9, 1, .x 3, 5⟩, ⟨10, 9, 5, .c 15, 0xFFFF⟩, ⟨10, 9, 0, .g 4, 1⟩, ⟨10, 5, 0, .lq 7, 9⟩, ⟨11, 9, 0, .a 2, 1⟩] } }

theorem witness_landings : EndsWith (at0 0 landCore) 0 none [] ∧ landing landCore (.x 3) = some 5 ∧ landing landCore (.a 2) = none := by
  unfold EndsWith; decide +kernel

theorem test_landings : chk (exec (.resultLanding 0) (at0 0 landCore)) (fun t => (t.core 0).files.x[3] == 5 && (t.core 0).files.c[15] == 0xFE &&
    (t.core 0).files.g[4] && (t.core 0).pipe.pend.map (·.dest) == [.lq 7, .a 2] && (t.core 0).pipe.sk1 == 0xFE) = true ∧
    chk (exec (.lqFill 0) (at0 0 landCore)) (fun t => (t.core 0).queues.lq.map (·.val) == [some 9] && (t.core 0).pipe.pend.length == 5) = true := by
  decide +kernel

/-- The body of level n ends, with LC and EC as given; a5 gains −1 by the level's table; g8 is 1. -/
def loopCore (n : BitVec 2) (lc ec : Word) : Core := { prim with
  fetch := { pc := 0x500 }
  files := { c := ((Vector.replicate 16 0).set 12 ec).setIfInBounds (8 + n.toNat) lc, g := (Vector.replicate 16 false).set 8 true }
  pipe := { back := some n, loops := (Vector.replicate 4 { start := 0x400, active := true, upd := (Vector.replicate 16 0).set 5 0xFFFFFFFF }) } }

theorem witness_loop_back : EndsWith (at0 0 (loopCore 0 2 3)) 0 (some 0) [] ∧ EndsWith (at0 0 (loopCore 3 1 0)) 0 (some 3) [] ∧
    EndsWith (at0 0 (loopCore 0 0 2)) 0 (some 0) [] ∧ EndsWith (at0 0 (loopCore 0 0 1)) 0 (some 0) [] ∧ EndsWith (at0 0 (loopCore 0 0 0)) 0 (some 0) [] := by
  unfold EndsWith; decide +kernel

theorem test_loop_back : chk (exec (.resultLanding 0) (at0 0 (loopCore 0 2 3))) (fun t => (t.core 0).files.c[8] == 1 && (t.core 0).fetch.pc == 0x400 &&
    (t.core 0).files.a[5] == BitVec.allOnes 64 && (t.core 0).pipe.xb == 1 && (t.core 0).files.g[9] && (t.core 0).files.g[8]) = true ∧
    chk (exec (.resultLanding 0) (at0 0 (loopCore 3 1 0))) (fun t => (t.core 0).files.c[11] == 0 && (t.core 0).pipe.xb == 0) = true := by decide +kernel

theorem test_drain : chk (exec (.resultLanding 0) (at0 0 (loopCore 0 0 2))) (fun t => (t.core 0).files.c[12] == 1 && (t.core 0).fetch.pc == 0x400 &&
    (t.core 0).files.g[9] && !(t.core 0).files.g[8] && (t.core 0).pipe.loops[0].active) = true ∧
    chk (exec (.resultLanding 0) (at0 0 (loopCore 0 0 1))) (fun t => (t.core 0).files.c[12] == 0 && (t.core 0).fetch.pc == 0x500 &&
      (t.core 0).pipe.ab == 1 && !(t.core 0).pipe.loops[0].active) = true ∧
    chk (exec (.resultLanding 0) (at0 0 (loopCore 0 0 0))) (fun t => (t.core 0).files.c[12] == 0 && (t.core 0).pipe.ab == 0 &&
      !(t.core 0).pipe.loops[0].active) = true := by decide +kernel

/-- A core that has one deferred write. -/
def deferred (e : EndAct) : Core := { prim with pipe := { eoc := [e] } }

/-- A task that has halted and gone quiet; core 1 is its parent. -/
def doneTask (parent : Option Nat) : State := { at0 0 { prim with
    run := { prim.run with halted := true, busy := true, parent := parent, sailing := some 0 }
    files := { x := (Vector.replicate 32 0).set 1 99 } } with
  cores := [(0, { prim with
    run := { prim.run with halted := true, busy := true, parent := parent, sailing := some 0 }
    files := { x := (Vector.replicate 32 0).set 1 99 } }), (1, { prim with run := { prim.run with children := [(2, none), (0, none)] } })] }

theorem witness_deferred : EndsWith (at0 0 (deferred (.lset 3 63 0x2000))) 0 none [.lset 3 63 0x2000] ∧ ((doneTask (some 1)).core 0).run.halted = true ∧
    ((doneTask (some 1)).core 0).run.faulted = false ∧ ((doneTask (some 1)).core 0).run.busy = true ∧ ((doneTask none).core 0).run.parent = none ∧
    ((doneTask none).core 0).run.sailing = some 0 ∧ ((doneTask none).core 0).flight = [] ∧ ((doneTask none).core 0).remotes = [] := by
  unfold EndsWith; decide +kernel

theorem test_deferred : chk (exec (.resultLanding 0) (at0 0 (deferred (.lset 3 63 0x2000)))) (fun t => (t.core 0).files.c[11] == 63 &&
    (t.core 0).pipe.loops[3].start == 0x2000 && (t.core 0).pipe.loops[3].active) = true ∧
    chk (exec (.resultLanding 0) (at0 0 (deferred (.ctl 0x17 5)))) (fun t => (t.core 0).ctl.bfmt[7] == 5) = true ∧
    chk (exec (.resultLanding 0) (at0 0 (deferred (.pub 15 9)))) (fun t => (t.core 0).pmap[15].vis && (t.core 0).pmap[15].tag == 9) = true := by
  decide +kernel

theorem test_task_end : chk (exec (.resultLanding 0) (doneTask (some 1))) (fun t => (t.core 1).run.children == [(2, none), (0, some 99)] &&
    !(t.core 0).run.busy) = true ∧ chk (exec (.resultLanding 0) (doneTask none)) (fun t => (t.sailing 0).retval == 99) = true := by decide +kernel

/-- A core whose next bundle has the skip bit 3, which is set; and one whose landing is overdue. -/
def skipCore : Core := (({ prim with pipe := { sk2 := 8 } } : Core).place { oneOpBundle .a addWord 0 with hdr := 0x300001 })
def lateCore : Core := (({ prim with run := { prim.run with lcnt := 0x1D4C0 } } : Core).place addBundle)

/-- A core whose issuing segment names the next one at 0x400 of its own scratchpad, in the window at 2^38. -/
def segCore : Core := { prim with
  run := { prim.run with sailing := some 0, stall := some ⟨1, 2 ^ 38 + 0x410, 1⟩ }
  ctl := { spwin := 2 ^ 38, qcount := 1 }
  fetch := { half0 := some { addr := 0x10000, next := 2 ^ 38 + 0x400, stop := false, len := 2, bundles := [addBundle] }, pc := 2 ^ 38 + 0x410 } }

/-- A segment of one bundle of one word (03 R83), in the scratchpad of core 0. -/
def atSegment (c : Core) : State := { at0 0 c with
  sailings := [(0, { quads := [0], running := true, state := 1 })]
  mem := putWords [] (spadBase 0 + 0x400) [2 * 2 ^ 48, 1, 0x0203088000000001] }

theorem witness_skips : (skipCore).due = true ∧ skipCore.nextBundle = .bundle false { oneOpBundle .a addWord 0 with hdr := 0x300001 } ∧
    skipCore.skips { oneOpBundle .a addWord 0 with hdr := 0x300001 } = true ∧ headerCause { oneOpBundle .a addWord 0 with hdr := 0x300001 } = none ∧
    lateCore.due = true ∧ lateCore.overdue 0 = true ∧ lateCore.nextBundle = .bundle false addBundle ∧ addBundle.land = false := by decide +kernel

theorem test_skips : chk (exec (.bundleSkip 0) (at0 0 skipCore)) (fun t => (t.core 0).fetch.pc == 0x10018 && (t.core 0).pipe.pend == [] &&
    (t.core 0).run.moved && (t.core 0).barrel.berths == 7) = true ∧ faultCode (exec (.landingOverdue 0) (at0 0 lateCore)) = some [5] := by decide +kernel

theorem witness_segments : halfOf segCore false = some { addr := 0x10000, next := 2 ^ 38 + 0x400, stop := false, len := 2, bundles := [addBundle] } ∧
    halfOf segCore true = none ∧ segCore.nextBundle = .miss ∧ segCore.fetch.next = .ok (2 ^ 38 + 0x410) ∧
    segCore.run.stall = some ⟨1, 2 ^ 38 + 0x410, 1⟩ ∧
    (readSegment (atSegment segCore) 0 (2 ^ 38 + 0x400)).bundles = [⟨2 ^ 38 + 0x410, 1, [addWord], false, none⟩] := by decide +kernel

theorem test_segments : chk (exec (.segmentPrefetch 0) (atSegment segCore)) (fun t => ((t.core 0).fetch.half1.map (·.bundles.length)) == some 1) = true ∧
    chk (exec (.segmentMiss 0) (atSegment segCore)) (fun t => ((t.core 0).fetch.half1.map (·.stop)) == some true) = true ∧
    chk (exec (.segmentMiss 0) (atSegment { segCore with run := { segCore.run with stall := none } }))
      (fun t => ((t.core 0).fetch.half1.map (·.stop)) == none) = true := by decide +kernel

/-- A core in cycle 1,023 of its sailing, with a purse near its limit. -/
def tollCore : Core := { prim with run := { prim.run with t := 1023, sailing := some 0 }, ctl := { purse := 0xFFFFFF } }

theorem witness_tolls : ((atSegment tollCore).core 0).run.sailing = some 0 ∧ ((atSegment tollCore).sailing 0).running = true ∧
    (((atSegment tollCore).core 0).run.t + 1) % 1024 = 0 := by decide +kernel

theorem test_tolls : chk (exec (.tollPeriodBoundary 0) (atSegment tollCore)) (fun t => (t.core 0).ctl.purse == 0xFFFFFF &&
    (t.core 0).ctl.tolls == 0x20000 - 0x18000) = true := by decide +kernel

/-! ### The barrel -/

/-- Context 1 is ready with add s3, s1, s2, whose berth is open. -/
def readyCore : Core := { prim with
  run := { prim.run with moved := true }
  barrel := { berths := 1, ctx := (Vector.replicate 8 {}).set 1 { occupied := true, pc := 0x2000, cmask := 7, s := ((Vector.replicate 16 0).set 1 3).set 2 4,
                                                                  buf := some { addBundle with addr := 0x2000 } } } }

theorem witness_grants : ReadySkiff (at0 0 readyCore) 0 1 { addBundle with addr := 0x2000 } .a addWord 0 ∧ BerthOpen (at0 0 readyCore) 0 .a ∧
    ({ addBundle with addr := 0x2000 } : Bundle).cost ≤ ((at0 0 readyCore).core 0).ctl.tolls ∧
    (∀ i : BitVec 3, i ≠ 1 → ((at0 0 readyCore).skiff 0 i).ready = none) := by
  unfold ReadySkiff BerthOpen; decide +kernel

theorem test_grant : chk (exec (.skiffBarrelGrant 0) (at0 0 readyCore)) (fun t => (t.skiff 0 1).pc == 0x2008 && (t.skiff 0 1).landS == [(3, 7)] &&
    (t.skiff 0 1).buf == none && (t.skiff 0 1).wait != .none) = true := by decide +kernel

/-- Context 1 waits as given, with results on their way; the core's scratchpad holds 1 to 8 from byte 64. -/
def waiting (w : SkWait) : State := atMem 0 { barrelOf { wait := w, landS := [(0, 1), (3, 7)], last := some addBundle } with
  run := { prim.run with used := [2], sailing := some 0 } }

def loadRequest (a : Nat) : SkAccess := { kind := .load, addr := a, width := 8, dst := 9 }
def storeRequest : SkAccess := { kind := .store, addr := 64, width := 1, val := 0x55 }

theorem witness_port_requests : ((waiting (.until 10)).skiff 0 1).wait = .until 10 ∧ PortFree (waiting (.port (loadRequest 64) 10)) 0 (loadRequest 64) ∧
    PortFree (waiting (.port storeRequest 10)) 0 storeRequest ∧
    (portsOf (((waiting (.port (loadRequest 0x80) 10)).core 0).visible 0x80) 8).any ((waiting (.port (loadRequest 0x80) 10)).core 0).run.used.contains = true := by
  refine ⟨?_, ⟨?_, ?_, ?_⟩, ⟨?_, ?_, ?_⟩, ?_⟩ <;> decide +kernel

/-- The other requests of a port, each of bytes 64 and on; a flag of scope .quad that reads what it waits for, and one that does not. -/
def request (k : SkKind) (v : Word) : SkAccess := { kind := k, addr := 64, width := 8, dst := 9, val := v, scope := 2 }

theorem test_other_port_requests : (fun t => (t.skiff 0 1).landS == [(0, 1), (3, 7), (9, 0x0807060504030201)] && t.mem.read (spadBase 0 + 64) 8 == 0x0807060504030202) <$>
      nextOf (exec (.skiffPortRequest 0 1) (waiting (.port (request (.amo 1) 1) 10))) = some true ∧
    (fun t => (t.skiff 0 1).landG == [(1, true)] && (t.skiff 0 1).wait == .until 11) <$>
      nextOf (exec (.skiffPortRequest 0 1) (waiting (.port { request .facqT 0x0807060504030201 with dst := 1 } 10))) = some true ∧
    (fun t => (t.skiff 0 1).buf == some addBundle && (t.core 0).barrel.forfeit == 0) <$>
      nextOf (exec (.skiffPortRequest 0 1) (waiting (.port (request .facqW 5) 10))) = some true := by decide +kernel

/-- Contexts 1 and 2 are both ready: 2 is owed, so it goes first; of two that are owed alike the rotation decides, whose pointer is 10 mod 8. -/
def rivals (o1 o2 : Bool) : State := at0 0 { readyCore with barrel := { readyCore.barrel with
  ctx := (readyCore.barrel.ctx.set 1 { readyCore.barrel.ctx[1] with owed := o1 }).set 2 { readyCore.barrel.ctx[1] with owed := o2 } } }

theorem witness_goes_first : GoesFirst (rivals false true) 0 2 1 ∧ GoesFirst (rivals false false) 0 2 1 ∧
    ReadySkiff (rivals false true) 0 1 { addBundle with addr := 0x2000 } .a addWord 0 ∧ ReadySkiff (rivals false true) 0 2 { addBundle with addr := 0x2000 } .a addWord 0 := by
  unfold GoesFirst ReadySkiff; and_intros <;> decide +kernel

theorem test_owed_first : chk (exec (.skiffBarrelGrant 0) (rivals true false)) (fun t => (t.skiff 0 1).buf == none && (t.skiff 0 2).owed) = true ∧
    chk (exec (.skiffBarrelGrant 0) (rivals false false)) (fun t => (t.skiff 0 2).buf == none && (t.skiff 0 1).owed) = true := by decide +kernel

theorem test_skiff_completes : chk (exec (.skiffOpComplete 0 1) (waiting (.until 10))) (fun t => (t.skiff 0 1).wait == .none && (t.skiff 0 1).s[3] == 7 &&
    (t.skiff 0 1).s[0] == 0 && (t.skiff 0 1).landS == []) = true := by decide +kernel

theorem test_port_requests : chk (exec (.skiffPortRequest 0 1) (waiting (.port (loadRequest 64) 10))) (fun t => (t.skiff 0 1).wait == .until 15 &&
    (t.skiff 0 1).landS.getLast? == some (9, 0x0807060504030201)) = true ∧
    chk (exec (.skiffPortRequest 0 1) (waiting (.port storeRequest 10))) (fun t => t.mem.read (spadBase 0 + 64) 2 == 0x0255 &&
      (t.skiff 0 1).wait == .until 10) = true ∧
    chk (exec (.skiffPortRequest 0 1) (waiting (.port (loadRequest 0x80) 10))) (fun t => (t.skiff 0 1).buf == some addBundle &&
      (t.core 0).barrel.forfeit == 1) = true := by decide +kernel

/-! ### Engines -/

/-- Core 0 in cycle t. -/
def tick (s : State) (t : Nat) : State := s.modCore 0 fun c => { c with run := { c.run with t := t } }

/-- The state after an event or an instruction. -/
def after (i : Instr) (s : State) : State := (nextOf (exec i s)).getD {}

/-- One vadd is queued. -/
def noRun : VRun := { id := 0, entry := 0, rate := 1, last := true, op := .vsync 0 0, hd := 0, h1 := 0, h2 := 0, cap := {}, rep := 0, baddr := 0, word := 0, oc := 0, reads := [],
                      writes := [], tags := [], start := 0, busy := 0, depth := 0 }
def oneRun (s : State) : VRun := (s.core 0).vec.runs.headD noRun
def vecStarted : State := after (.vectorEntryStart 0) (tick afterVadd 11)

theorem witness_vector_start : Steps (tick afterVadd 11) 0 (oneRun afterVadd) [] ∧ isExchange (oneRun afterVadd).op = false ∧
    (oneRun afterVadd).pace < (oneRun afterVadd).busy + (oneRun afterVadd).depth ∧ (oneRun afterVadd).faultAt (tick afterVadd 11) 0 = none ∧
    NoEntries (tick afterVadd 11) 0 ∧ Steps (tick vecStarted 12) 0 (oneRun vecStarted) [] ∧ (oneRun vecStarted).started = some 11 := by
  unfold Steps NoEntries; decide +kernel

/-- An add of one element of F32, 1 and 2, to 0x200000; after n cycles of its execution; its first source lies in a ring whose refill has failed. -/
def oneAdd : State := { at0 3 { vecCore 0 with files := { (vecCore 0).files with
    h := (((Vector.replicate 16 0).set 1 (dense 0x200000 1)).set 2 (dense 0x200100 1)).set 3 (dense 0x200200 1) } } with
  mem := [(spadBase 0 + 0x200102, 0x80), (spadBase 0 + 0x200103, 0x3F), (spadBase 0 + 0x200203, 0x40)] }
def addedFor (n : Nat) : State := (List.range n).foldl (fun s i => after (.vectorEntryStart 0) (tick s (11 + i))) (after (.vadd 0 1 2 3 0 1) oneAdd)
def addFault : State := (tick (addedFor 0) 11).modCore 0 fun c => { c with
  wmc := (Vector.replicate 8 {}).set 0 { act := true, rbase := 0x200100, rlen := 64, flt := true, faddr := 0x77 } }

theorem witness_vector_write : Steps (tick (addedFor 6) 17) 0 (oneRun (addedFor 6)) [] ∧ (oneRun (addedFor 6)).started.isSome = true ∧
    (oneRun (addedFor 6)).readsAt (oneRun (addedFor 6)).pace = [] ∧ (oneRun (addedFor 6)).writesAt (oneRun (addedFor 6)).pace = [0] ∧
    (oneRun (addedFor 6)).put = [] ∧ ((addedFor 6).core 0).run.used = [] := by unfold Steps; decide +kernel

theorem witness_vector_fault : Steps addFault 0 (oneRun addFault) [] ∧ (oneRun addFault).faultAt addFault 0 = some (0, 0x07, 0x77) := by
  unfold Steps; decide +kernel

theorem witness_vector_end : ((addedFor 7).core 0).vec.runs = [oneRun (addedFor 7)] ∧ (oneRun (addedFor 7)).started.isSome = true ∧
    isExchange (oneRun (addedFor 7)).op = false ∧ (oneRun (addedFor 7)).busy + (oneRun (addedFor 7)).depth ≤ (oneRun (addedFor 7)).pace := by
  decide +kernel

/-- The write performs in the cycle 17 = 11 + 1 − 1 + 6 of 06 R190, and 1 + 2 is 3. -/
theorem test_vector_runs : (addedFor 6).mem.read (spadBase 0 + 0x200000) 4 = 0 ∧ (addedFor 7).mem.read (spadBase 0 + 0x200000) 4 = 0x40400000 ∧
    chk (exec (.vectorEntryComplete 0) (addedFor 7)) (fun t => (t.core 0).vec.runs.length == 0 && (t.core 0).flight.length == 0) = true ∧
    faultCode (exec (.vectorEntryStart 0) addFault) = some [7] := by decide +kernel

/-- A quire register gains its value as its execution leaves: vqclr of width 2 sets it to 32 bytes. -/
def clearing : State := at0 3 { prim with vec := { runs := [{ noRun with op := .vqclr 0 1 2, started := some 9, busy := 1, depth := 1, pace := 2 }] } }

theorem witness_quire_leaves : (noRun.leaves = none) ∧ ((clearing.core 0).vec.runs.map fun r => r.leaves) = [some (1, { n := 32 })] := by decide +kernel

theorem test_quire_leaves : chk (exec (.vectorEntryComplete 0) clearing) (fun t => (t.core 0).vec.vq[1].n == 32 && (t.core 0).vec.runs == []) = true := by
  decide +kernel

/-- Bulk channels 0 and 1 of core 0: it sends flits on endpoint 2, without room, and receives on endpoint 3, where none has arrived. -/
def exchanging (op : Instr) (room : Bool) : State :=
  let run : VRun := { noRun with op := op, started := some 9, busy := 2, depth := 1, h1 := dense 2 1, hd := dense 0x1000 1 }
  let run := match op with | .chs _ _ _ _ => { run with hd := dense 2 1, h1 := dense 0x1000 1 } | _ => { run with h1 := dense 3 1 }
  { at0 3 { netCore with vec := { runs := [run] } } with
    sailings := [(0, { netSailing with chans := [
      { wcore := 0, wep := 2, rcore := 1, rep := 0, bulk := true, width := 8, send := if room then [] else List.replicate 8 (0, 0) },
      { wcore := 1, wep := 2, rcore := 0, rep := 3, bulk := true, width := 8 }] })] }

theorem witness_exchanges : ((exchanging (.chs 0 0 0 0) false).core 0).vec.runs = [oneRun (exchanging (.chs 0 0 0 0) false)] ∧
    (runChannel (exchanging (.chs 0 0 0 0) false) 0 (oneRun (exchanging (.chs 0 0 0 0) false))).any (fun x => !x.2.2.hasRoom) = true ∧
    (oneRun (exchanging (.chs 0 0 0 0) false)).faultAt (exchanging (.chs 0 0 0 0) false) 0 = none ∧
    (runChannel (exchanging (.chv 0 0 0 0) true) 0 (oneRun (exchanging (.chv 0 0 0 0) true))).any (fun x => (x.2.2.head 10).isNone) = true ∧
    (oneRun (exchanging (.chv 0 0 0 0) true)).flits.length ≤ (oneRun (exchanging (.chv 0 0 0 0) true)).pace := by decide +kernel

theorem test_exchanges : chk (exec (.vectorEntryStart 0) (exchanging (.chs 0 0 0 0) true)) (fun t => (t.sailing 0).chans.map (·.send.length) == [1, 0] &&
      (t.core 0).vec.runs.map (·.pace) == [1]) = true ∧
    chk (exec (.vectorEntryStart 0) (exchanging (.chs 0 0 0 0) false)) (fun t => (t.core 0).vec.runs.map (·.pace) == [0]) = true := by decide +kernel

/-- A special-function request of context 2 for exp of 1.0, to be answered at 0x800. -/
def sfuCore : Core := { prim with sfu := [⟨some 2, true, 0, 0x800, 0x3F800000, 0⟩] }

theorem witness_sfu : ((at0 0 sfuCore).core 0).sfu = ⟨some 2, true, 0, 0x800, 0x3F800000, 0⟩ :: [] ∧ ((at0 0 sfuCore).core 0).sfuTaken = false := by
  decide +kernel

theorem test_sfu : chk (exec (.sfuRequestServe 0) (at0 0 sfuCore)) (fun t => (t.core 0).sfu == [] &&
    t.mem.read (spadBase 0 + 0x800) 8 / 2 ^ 63 == 1) = true := by decide +kernel

/-- Cores 0 and 2 of quad 0 ask for the lease, which core 0 held last. -/
def asking (c : Core) : Core := { c with run := { c.run with lease := 1 } }
def leases : State := { cores := [(0, asking prim), (2, asking prim)], quads := [(0, { last := 0 })] }
def heldLease : State := { cores := [(0, asking prim), (2, vecCore 2)] }

theorem witness_lease_grant : (∀ i, i < 4 → (leases.core i).run.lease ≠ 2 ∧ (leases.core i).run.lease ≠ 3) ∧ (leases.core 1).run.lease = 0 ∧
    (leases.core 2).run.lease = 1 ∧ (heldLease.core 2).run.lease = 2 := by decide +kernel

/-- Core 2's lease has ended. -/
def endedLease : State := { cores := [(0, asking prim), (2, vecCore 3)] }

theorem test_lease_ends : chk (exec (.leaseGrant 0) endedLease) (fun t => (t.core 2).run.lease == 0 && (t.core 0).run.lease == 2) = true := by decide +kernel

theorem test_lease_grant : chk (exec (.leaseGrant 0) leases) (fun t => (t.core 2).run.lease == 2 && (t.quad 0).last == 2 && (t.core 0).run.lease == 1) = true ∧
    chk (exec (.leaseGrant 0) heldLease) (fun t => (t.core 0).run.lease == 1) = true := by decide +kernel

/-- An array command or macro command of core 0 is queued; tile 0 is of the integer type. -/
def queuedArray (i : Instr) : State := (after i (at0 4 (vecCore 2))).modQuad 0 fun q =>
  { q with tiles := q.tiles.map fun t => if t.first = 0 then { t with type := 1 } else t }
def oneCmd (s : State) : ACmd := (s.quad 0).cmds.headD { id := 0, core := 0, op := .vsync 0 0, issued := 0 }
def began (i : Instr) : State := after (.arrayCommandStart 0) (tick (queuedArray i) 12)

theorem witness_array_start : ((queuedArray (.mma 0 0 1 1 0 0)).quad 0).cmds = [] ++ oneCmd (queuedArray (.mma 0 0 1 1 0 0)) :: [] ∧
    mayBegin (tick (queuedArray (.mma 0 0 1 1 0 0)) 12) ((queuedArray (.mma 0 0 1 1 0 0)).quad 0) [] (oneCmd (queuedArray (.mma 0 0 1 1 0 0))) 12 = true ∧
    (oneCmd (queuedArray (.mma 0 0 1 1 0 0))).tags = [] ∧
    (∃ u y, beginCmd (tick (queuedArray (.mma 0 0 1 1 0 0)) 12) 0 (oneCmd (queuedArray (.mma 0 0 1 1 0 0))) = .ok u y) ∧
    beginCmd (tick (after (.mma 0 0 1 1 0 0) (at0 4 (vecCore 2))) 12) 0 (oneCmd (after (.mma 0 0 1 1 0 0) (at0 4 (vecCore 2)))) = .fault 0x02 4 := by
  refine ⟨?_, ?_, ?_, ⟨_, _, rfl⟩, ?_⟩ <;> decide +kernel

/-- A B record lies in a ring whose refill has written nothing yet, or has failed. -/
def latching (flt : Bool) : State := (tick (queuedArray (.mlatb 0 0 6 3)) 12).modCore 0 fun c => { c with
  wmc := (Vector.replicate 8 {}).set 0 { act := true, rbase := 0x9000, rlen := 4096, flt := flt, faddr := 0x77 } }

/-- What becomes of a start or a step: a number of its own for each outcome. -/
def kindOf (b : Began) : Nat := match b with | .wait => 0 | .fault code _ => code | .ok _ _ => 0x100 | .later _ _ => 0x200

/-- An earlier command, which has started, is to write all of the scratchpad. -/
def behind : State := (latching false).modQuad 0 fun q =>
  { q with cmds := { (oneCmd (latching false)) with id := 99, started := some 1, writes := [(spadBase 0, spadBase 1)] } :: q.cmds }

theorem witness_array_wait : kindOf (beginCmd (latching false) 0 (oneCmd (latching false))) = 0x200 ∧ kindOf (beginCmd (latching true) 0 (oneCmd (latching true))) = 7 ∧
    mayBegin (latching false) ((latching false).quad 0) [] (oneCmd (latching false)) 12 = true ∧
    kindOf (beginCmd behind 0 (oneCmd (latching false))) = 0 := by decide +kernel

theorem test_array_faults : faultCode (exec (.arrayCommandStart 0) (latching true)) = some [7] ∧
    chk (exec (.arrayCommandStart 0) (latching true)) (fun t => (t.quad 0).cmds == []) = true := by decide +kernel

theorem witness_array_end : (oneCmd (began (.mma 0 0 1 1 0 0))).started = some 12 ∧ ((began (.mma 0 0 1 1 0 0)).quad 0).cmds = [oneCmd (began (.mma 0 0 1 1 0 0))] ∧
    ((oneCmd (began (.mma 0 0 1 1 0 0))).done.any fun e => decide (e ≤ now (tick (began (.mma 0 0 1 1 0 0)) 40) 0)) = true := by decide +kernel

/-- A store of tile 0 to 0x210000 whose writes are due. -/
def stored : State := tick (began (.mst 0 0 7 5 3)) 60

theorem witness_array_puts : ((stored.quad 0).cmds.map fun x => x.staging) = [false] ∧ (oneCmd stored).puts ≠ [] ∧
    (∀ y ∈ (oneCmd stored).puts, y.due ≤ now stored 0) ∧ ((oneCmd stored).done.any fun e => decide (e ≤ now stored 0)) = true := by decide +kernel

theorem test_array_ends : chk (exec (.arrayCommandComplete 0) (tick (began (.mma 0 0 1 1 0 0)) 40)) (fun t => (t.quad 0).cmds.length == 0 &&
    (t.core 0).flight.length == 0) = true := by decide +kernel

def macroOp : Instr := .mtile 0 0 4 4 3 0 1

theorem witness_k_step : ((tick (began macroOp) 12).quad 0).cmds.find? (·.running) = some (oneCmd (began macroOp)) ∧ (oneCmd (began macroOp)).at_ ≤ 12 ∧
    (oneCmd (began macroOp)).step < ((((oneCmd (began macroOp)).ms.getD 0 0)).extractLsb' 16 16).toNat ∧ (oneCmd (began macroOp)).current.isSome = true := by
  decide +kernel

/-- The macro command after its first step, in a core whose purse holds n tolls. -/
def stepped (n : Nat) : State := (tick (after (.macroKStep 0) (tick (began macroOp) 12)) 60).modCore 0 fun c => { c with ctl := { c.ctl with purse := n } }

theorem witness_next_k_step : (oneCmd (stepped 15)).step = 1 ∧ ((stepped 15).quad 0).cmds.find? (·.running) = some (oneCmd (stepped 15)) ∧
    (oneCmd (stepped 15)).at_ ≤ now (stepped 15) 0 ∧ ((stepped 15).core 0).run.stopped ≠ 1 ∧ ((stepped 15).core 0).ctl.purse < 16 ∧
    16 ≤ ((stepped 16).core 0).ctl.purse := by decide +kernel

theorem test_k_steps_pay : chk (exec (.macroKStep 0) (stepped 16)) (fun t => (t.core 0).ctl.purse == 0 && (oneCmd t).step == 2) = true ∧
    chk (exec (.macroKStep 0) (stepped 15)) (fun t => (oneCmd t).step == 1) = true := by decide +kernel

/-- The macro command has taken both steps: its store is next. -/
def storing : State := (tick (after (.macroKStep 0) (stepped 16)) 200).modCore 0 fun c => { c with ctl := { c.ctl with purse := 16 } }

theorem witness_macro_outcomes : kindOf (macroStep ((stepped 16).seen (oneCmd (stepped 16)).halves) 0 (oneCmd (stepped 16))) = 0x100 ∧
    (oneCmd storing).steps ≤ (oneCmd storing).step ∧ ((storing.quad 0).cmds.find? (·.running)) = some (oneCmd storing) ∧
    kindOf (macroStore storing 0 (oneCmd storing)) = 0x100 := by decide +kernel

theorem test_macro_stores : chk (exec (.macroKStep 0) storing) (fun t => (oneCmd t).done.isSome && !(oneCmd t).puts.isEmpty && (t.core 0).ctl.purse == 0) = true := by
  decide +kernel

/-- The first and the last chunk of a move between m3 and byte 0 of the scratchpad, whose bytes 64 to 71 hold 1 to 8. -/
def moving (load : Bool) (d : Nat) : State := atMem 4 { prim with moves := [{ id := 0, load := load, reg := 3, addr := 64, oc := 1, issued := 9 - d, done := d,
                                                                              data := BitVec.ofNat 24576 (5 * 2 ^ (512 * d)) }] }

theorem witness_moves : ((moving true 0).core 0).blocked 0 0 1 .metadata [(spadBase 0 + 64, spadBase 0 + 64 + 3072)] [] = false ∧
    readGate ((moving true 0).core 0) 64 64 = .go ∧ ((moving false 9).core 0).blocked 0 0 1 .metadata [] [(spadBase 0 + 64, spadBase 0 + 64 + 3072)] = false := by
  decide +kernel

theorem test_moves : chk (exec (.mdldWrite 0) (moving true 0)) (fun t => (t.core 0).moves.map (fun x => (x.done, x.data)) == [(1, 0x0807060504030205)]) = true ∧
    chk (exec (.mdstComplete 0) (moving false 9)) (fun t => t.mem.read (spadBase 0 + 64 + 64 * 9) 8 == 5 && (t.core 0).moves.map (·.done) == [10]) = true := by
  decide +kernel

/-! ### Streams, copies, walkers, markers, blocks -/

/-- Port 2 walks two bytes from byte 64. -/
def portCore : Core := { prim with
  ports := (Vector.replicate 4 {}).set 2 { bound := true, reg := 5, desc := { base := 64, width := 1, sx := true, strides := [1], counts := [2] }, total := 2,
                                           fetched := 1, buf := [1], at_ := 9 } }

theorem witness_port_refill : (portCore.run.used = [] ∧ portCore.ports[2].fault = none) ∧ portCore.ports[2].desc.at_ 1 = 65 ∧ portCore.blocked 0 0 0 .stream [(spadBase 0 + 65, spadBase 0 + 66)] [] = false ∧
    readGate portCore 65 1 = .go ∧ (∀ k : BitVec 2, k ≠ 2 → portCore.ports[k.toNat].bound = false) := by decide +kernel

theorem test_port_refill : chk (exec (.streamPortRefill 0) (atMem 0 portCore)) (fun t => (t.core 0).ports[2].buf == [1, 2] &&
    (t.core 0).ports[2].fetched == 2) = true := by decide +kernel

/-- A copy command with a record; ptroot is the table at 0x40000. -/
def copyOf (r : Nat) (started : Bool) (done : Nat) : CopyCmd :=
  { id := 0, core := 0, sailing := none, rec_ := BitVec.ofNat 1024 r, cap := {}, ptroot := 0x40000, spwin := 2 ^ 38, baddr := 0, word := 0, tags := [], marks := 0,
    accepted := started, started := started, done := done }

/-- Page 0 of 2^44 bytes is mapped to itself through two tables (01 R20). -/
def pages : Memory := putWords (putWords [] 0x40000 [0x60001]) 0x60000 [31]

/-- The translation of page 0. -/
def page : TlbEntry := ⟨0, 0, 44, true, true, true, false⟩

/-- A walk of page 0 that has failed. -/
def noPage : TlbEntry := { page with rd := false, w := false, x := false }

/-- Channel 7 has a refill under way, or not started. -/
def refillCore (x : CopyCmd) : Core := { prim with
  refills := (Vector.replicate 8 []).set 7 [x]
  wmc := (Vector.replicate 8 {}).set 7 { act := true, rbase := 0x4000, rlen := 16 } }
def refillState (x : CopyCmd) : State := { at0 0 (refillCore x) with mem := pages }

theorem witness_refills : (copyOf ringRecord false 0).started = false ∧
    ((refillState { copyOf ringRecord true 0 with trs := [page] }).core 0).blocked 0 0 (Layout.of (BitVec.ofNat 1024 ringRecord)).oc .stream [] [] = false ∧
    (copyOf ringRecord true 0).done < (Layout.of (BitVec.ofNat 1024 ringRecord)).total := by decide +kernel

/-- The refill as it starts, and one of a record with a reserved bit. -/
def beginning : CopyCmd := { copyOf ringRecord true 0 with bfs := (copyOf ringRecord false 0).formats (refillState (copyOf ringRecord false 0)) (Layout.of (BitVec.ofNat 1024 ringRecord)) }

theorem witness_refill_start : beginning.fault (refillState (copyOf ringRecord false 0)) (Layout.of (BitVec.ofNat 1024 ringRecord)) true = none ∧
    { copyOf ringRecord true 0 with trs := [page], way := { there := true } }.carried (refillState { copyOf ringRecord true 0 with trs := [page], way := { there := true } }) true = true ∧
    ((refillState (copyOf ringRecord true 0)).core 0).cycleElements 8 ≠ 0 := by decide +kernel

theorem witness_live : Live (refillState (copyOf ringRecord true 0)) none 0 := ⟨by decide +kernel, fun _ h => by cases h⟩

/-- The refill at its first element, and what becomes of that. -/
def carrying : State := { refillState { copyOf ringRecord true 0 with trs := [page] } with freeIx := 1 }
def firstElement : List Elt × List Wr × Nat :=
  match copyElement carrying { copyOf ringRecord true 0 with trs := [page] } (Layout.of (BitVec.ofNat 1024 ringRecord)) true 0 with | .ok r => r | .error _ => ([], [], 0)

theorem witness_refill_element :
    copyElement carrying { copyOf ringRecord true 0 with trs := [page] } (Layout.of (BitVec.ofNat 1024 ringRecord)) true 0 = .ok firstElement ∧
    samePort (sourceNeed carrying { copyOf ringRecord true 0 with trs := [page] } (Layout.of (BitVec.ofNat 1024 ringRecord)) true 0) (writeNeed firstElement.2.1) = false ∧
    PortsFor carrying (sourceNeed carrying { copyOf ringRecord true 0 with trs := [page] } (Layout.of (BitVec.ofNat 1024 ringRecord)) true 0 ++ writeNeed firstElement.2.1) := by
  unfold PortsFor; and_intros <;> decide +kernel

theorem witness_refill_fault : copyElement (refillState { copyOf ringRecord true 3 with trs := [noPage] }) { copyOf ringRecord true 3 with trs := [noPage] }
      (Layout.of (BitVec.ofNat 1024 ringRecord)) true 3 = .error (.badSrc 0x10003) ∧
    elementHeld (refillState { copyOf ringRecord true 3 with trs := [noPage] }) { copyOf ringRecord true 3 with trs := [noPage] }
      (Layout.of (BitVec.ofNat 1024 ringRecord)) true 3 = false ∧
    elementHeld { refillState { copyOf ringRecord true 0 with trs := [page] } with freeIx := 1 } { copyOf ringRecord true 0 with trs := [page] }
      (Layout.of (BitVec.ofNat 1024 ringRecord)) true 0 = false := by decide +kernel

theorem test_refills : chk (exec (.refillStart 0 7) (refillState (copyOf ringRecord false 0))) (fun t => (t.core 0).refills[7].map (·.started) == [true] &&
    (t.core 0).wmc[7].rbase == 0x4000 && (t.core 0).wmc[7].rlen == 16) = true ∧
    chk (exec (.refillFault 0 7) (refillState { copyOf ringRecord true 3 with trs := [noPage] })) (fun t => (t.core 0).wmc[7].flt &&
      (t.core 0).wmc[7].faddr == 0x10003 && (t.core 0).refills[7].length == 0) = true := by decide +kernel

/-- A Lighter with one copy. -/
def lighter (x : CopyCmd) : State := { at0 0 { prim with flight := [{ id := 0, engine := .lighter, oc := 0, reads := [], writes := [] }] } with
  lighters := [(0, [x])], mem := pages }

theorem witness_lighter : ((lighter (copyOf copyRecord false 0)).lighters.get [] 0).filter (!·.accepted) = [copyOf copyRecord false 0] ∧
    (Layout.of (BitVec.ofNat 1024 copyRecord)).dkind = true ∧ (Layout.of (BitVec.ofNat 1024 copyRecord)).apub = false ∧
    (Layout.of (BitVec.ofNat 1024 copyRecord)).total = 16 ∧ ((lighter (copyOf copyRecord true 16)).core 0).blocked 0 0 0 .lighter [] [] = false ∧
    (copyOf copyRecord true 0).need (lighter (copyOf copyRecord true 0)) false = some (.read, 0x10000) ∧
    walkFrom ((lighter (copyOf copyRecord true 0)).pteFor 0 0 0) 0x10000 4 0x40000 = some page := by decide +kernel

theorem test_lighter : chk (exec (.lighterStart 0) (lighter { copyOf copyRecord false 0 with accepted := true })) (fun t => (t.lighters.get [] 0).map (·.started) == [true]) = true ∧
    chk (exec (.pageWalk 0) (lighter { copyOf copyRecord true 0 with way := { there := true } })) (fun t => (t.lighters.get [] 0).map (·.trs) == [[page]]) = true := by
  decide +kernel

/-- The copy as it starts; a record with a reserved bit set; one to handle 3 of core 0, which is mapped or not. -/
def lighterOn (x : CopyCmd) : CopyCmd := { x with started := true, bfs := x.formats (lighter x) (Layout.of x.rec_) }
def handleRecord : Nat := 0x10000 + 2 ^ 80 + 16 * 2 ^ 128 + 2 ^ 192 + 2 ^ 320 + (3 * 2 ^ 24) * 2 ^ 448
def toHandle (mapped : Bool) : State :=
  let x : CopyCmd := { copyOf handleRecord false 0 with accepted := true, cap := { qcount := 1 } }
  { lighter x with cores := [(0, { prim with
    ctl := { qcount := 1 }
    pmap := (Vector.replicate 16 {}).set 3 { v := mapped, base := 0x180, alt := 0x190, len := 2 }
    flight := [{ id := 0, engine := .lighter, oc := 0, reads := [], writes := [] }] })] }
def resolved (mapped : Bool) : Except (Nat × Nat) HandleDest :=
  let x := ((toHandle mapped).lighters.get [] 0).headD (copyOf handleRecord false 0)
  resolveHandle (toHandle mapped) { x with started := true, bfs := x.formats (toHandle mapped) (Layout.of x.rec_) } (Layout.of x.rec_)

theorem witness_lighter_start : (lighterOn { copyOf copyRecord false 0 with accepted := true }).fault
      (lighter { copyOf copyRecord false 0 with accepted := true }) (Layout.of (BitVec.ofNat 1024 copyRecord)) false = none ∧
    ((lighterOn { copyOf (copyRecord + 2 ^ 1000) false 0 with accepted := true }).fault
      (lighter { copyOf (copyRecord + 2 ^ 1000) false 0 with accepted := true }) (Layout.of (BitVec.ofNat 1024 (copyRecord + 2 ^ 1000))) false).isSome = true ∧
    (Layout.of (BitVec.ofNat 1024 handleRecord)).dkind = false ∧ (resolved true).toOption = some ⟨0, 3, 0x190 * 64, 0x180 * 64, 128, true⟩ ∧
    (match resolved false with | .error e => e | .ok _ => (0, 0)) = (0x02, 6) := by decide +kernel

theorem test_lighter_starts : chk (exec (.lighterStart 0) (toHandle true)) (fun t => (t.lighters.get [] 0).map (fun x => (x.started, x.dest.isSome)) == [(true, true)]) = true ∧
    faultCode (exec (.lighterStart 0) (toHandle false)) = some [2] := by decide +kernel

/-- A marker of die 0 stands, of the die's own or of a sailing's shootdown; the die retains lines. -/
def marked (shoots : List Shoot) (own : Option Nat) : State := {
  sailings := [(0, { quads := [0], state := 1, shoots := shoots, block := spadBase 24576 })]
  dies := [(0, { marks := 3, shoot := own })]
  kept := [{ line := 1, data := 0, at_ := 5, marks := [(0, 2)] }, { line := 2, data := 0, at_ := 5, marks := [(0, 3)] }] }

theorem witness_markers : aheadOf (marked [] (some 2)) 0 2 = false ∧ ((marked [] (some 2)).die 0).shoot = some 2 ∧
    ((marked [⟨[(0, 2)], [0]⟩] none).sailing 0).shoots = [⟨[(0, 2)], [0]⟩] ∧ ((marked [⟨[(0, 2)], [0]⟩] none).die 0).shoot = none := by decide +kernel

theorem test_markers : chk (exec (.markerPass 0) (marked [] (some 2))) (fun t => (t.die 0).shoot == none && (t.kept.filter fun k => !k.gone.contains 0).map (·.line) == [2]) = true ∧
    chk (exec (.markerPass 0) (marked [⟨[(0, 2)], [0]⟩] none)) (fun t => (t.sailing 0).tlbc == 1 && (t.sailing 0).shoots == [] &&
      (t.kept.filter fun k => !k.gone.contains 0).map (·.line) == [2]) = true := by decide +kernel

/-- Consecutive numbers have no repeats to erase. -/
theorem eraseDups_range' (a n : Nat) : (List.range' a n).eraseDups = List.range' a n := by
  induction n generalizing a with
  | zero => rfl
  | succ n ih =>
    have h : (List.range' (a + 1) n).filter (fun b => !b == a) = List.range' (a + 1) n :=
      List.filter_eq_self.2 fun b hb => by have := List.mem_range'_1.1 hb; simp; omega
    rw [List.range'_succ, List.eraseDups_cons, h, ih]

/-- Every die retains n lines. -/
def retaining (n : Nat) : State := { kept := (List.range' 0 n).map fun i => { line := i, data := 0, at_ := 5 } }

theorem retained_lines (n d : Nat) : (retaining n).retainedLines d = n := by
  have h : ((retaining n).kept.filter fun k => !k.gone.contains d).map (·.line) = List.range' 0 n := by
    simp [retaining, List.filter_map, Function.comp_def]
  rw [State.retainedLines, h, eraseDups_range', List.length_range']

theorem witness_retained_limit : (retaining 4096).retainedLines 0 = 4096 ∧ ((retaining 4096).die 0).shoot = none ∧ (retaining 4096).sailings = [] :=
  ⟨retained_lines 4096 0, rfl, rfl⟩

theorem test_retained_limit : chk (exec (.dieShootdown 0) (retaining 4)) (fun t => (t.die 0).marks == 0) = true ∧
    chk (exec (.pageWalk 0) (lighter { copyOf copyRecord true 0 with way := { there := true } })) (fun t => t.kept == []) = true := by decide +kernel

/-- A walk for a command that was sent before the write of a line sees what was there before; one sent after it the line as it stands (09 R294). -/
def rewritten : State := { lighter (copyOf copyRecord true 0) with kept := [{ line := 0x40000 / 64, data := 0, at_ := 5 }] }

theorem test_retained_tables : rewritten.pteFor 0 0 4 0x40000 = some 0 ∧ rewritten.pteFor 0 0 6 0x40000 = some 0x60001 := by decide +kernel

/-- A command of the sequence engine, or of the Pilot, whose block at 0x3000 holds ticket 9 and names no record. -/
def blockCmd (op : Nat) : SqCmd := { id := 0, core := 0, sailing := none, lid := 0, op := op, variant := 0, addr := 0x3000, oc := 0, cap := {}, baddr := 0, word := 0 }
def blocks : State := { at0 0 prim with
  dies := [(0, { sq := [blockCmd 0x16], pilot := [blockCmd 0] })]
  mem := putWords [] (spadBase 0 + 0x3000) [0, 0, 9, 7] }

theorem witness_blocks : (blocks.die 0).sq = [blockCmd 0x16] ∧ (blocks.die 0).pilot = [blockCmd 0] ∧ sqGate blocks (blockCmd 0x16) true = .go ∧
    sqGate blocks (blockCmd 0) true = .go ∧ (∀ e ∈ (blocks.core 0).pmap, e.v = false) ∧ MemoryCanonical blocks := by
  refine ⟨?_, ?_, ?_, ?_, ?_, ?_⟩ <;> (try unfold MemoryCanonical) <;> decide +kernel

theorem test_blocks : (sqExecute blocks 0 (blockCmd 0x16)).mem.read (spadBase 0 + 0x3000) 8 = 9 ∧
    (sqExecute blocks 0 (blockCmd 0x16)).mem.read (spadBase 0 + 0x3008) 8 = 1 ∧
    (pilotExecute blocks 0 (blockCmd 0)).mem.read (spadBase 0 + 0x3000) 8 = 9 := by decide +kernel

theorem test_grammar_store : chk (exec (.grammarStoreWrite 0 8 5) (at0 0 prim)) (fun t => t.mem.read (dieBase 0 + 8) 8 == 5) = true ∧
    chk (exec (.grammarStoreWrite 0 4 5) (at0 0 prim)) (fun t => t.mem == []) = true := by decide +kernel

/-- The header of a row whose 56 upper bits are h. -/
def rowHeader (h : Nat) : Nat := h * 2 ^ 8 + crcBits h 56 0

/-- A row of 16 bytes for 0x1000 of core 0; the block at 0x2000 counts rows of round r. -/
def arriving (r h : Nat) : State := { at0 0 prim with
  dies := [(0, { rows := [{ sailing := none, core := 0, addr := 0x1000, bytes := (List.range 16).map fun i => BitVec.ofNat 8 (h / 2 ^ (8 * i)), block := 0x2000, ways := [{ there := true }, { there := true }] }] })]
  mem := putWords [] (spadBase 0 + 0x2000) [r * 2 ^ 56 + 7, 4] }

theorem witness_rows : ((arriving 3 0).die 0).rows.map (fun x => x.ways.all (·.there)) = [true] ∧ bitField (rowHeader (3 * 2 ^ 17)) 8 8 = 0 ∧ bitField (rowHeader (3 * 2 ^ 17)) 25 32 = 3 ∧
    bitField ((arriving 3 0).mem.read (spadBase 0 + 0x2000) 8) 56 63 = 3 := by decide +kernel

/-- What the row's arrival leaves. -/
def arrival (r h : Nat) : Memory := match ((arriving r h).die 0).rows with | x :: _ => (arriveRow (arriving r h) x).mem | [] => []

theorem test_rows : (arrival 3 (rowHeader (3 * 2 ^ 17))).read (spadBase 0 + 0x2000) 8 = 3 * 2 ^ 56 + 8 ∧
    (arrival 3 (rowHeader (3 * 2 ^ 17))).read (spadBase 0 + 0x1000) 8 = rowHeader (3 * 2 ^ 17) ∧
    (arrival 2 (rowHeader (3 * 2 ^ 17))).read (spadBase 0 + 0x2008) 8 = 2 ^ 32 + 4 ∧ (arrival 2 (rowHeader (3 * 2 ^ 17))).read (spadBase 0 + 0x1000) 8 = 0 := by
  decide +kernel

/-! ### The fabric -/

/-- A sailing of quad 0 whose clock stands at 10, with channels, barrier messages, collectives and packets as given, and cores 0 to 3. -/
def running (g : Sailing) (c : Core) : State := { cores := [(0, { c with run := { c.run with sailing := some 0 } })],
                                                  sailings := [(0, { g with quads := [0], running := true, state := 1, t := 10 })] }

/-- Nine words wait with seven credits, one of them put in this cycle; one word's route has ended, one credit is back. -/
def channel : Chan := { wcore := 0, wep := 0, rcore := 1, rep := 0, route := 5, slots := [0], send := List.replicate 8 (9, 1) ++ [(10, 2)], credits := 7,
                        air := [(10, 3), (11, 4)], back := [10, 11] }
def fabric : State := running { chans := [channel] } prim

theorem witness_channel_events : ChannelIs fabric 0 0 channel ∧ channel.slots.count ((fabric.sailing 0).t % (fabric.sailing 0).period) = 1 := by
  unfold ChannelIs; decide +kernel

theorem test_channel_events : chk (exec (.channelSlot 0 0) fabric) (fun t => (t.sailing 0).chans.map (fun c => (c.send.length, c.credits, c.air.length)) == [(2, 0, 9)]) = true ∧
    chk (exec (.channelWordArrival 0 0) fabric) (fun t => (t.sailing 0).chans.map (fun c => (c.recv, c.air)) == [([(10, 3)], [(11, 4)])]) = true ∧
    chk (exec (.creditReturn 0 0) fabric) (fun t => (t.sailing 0).chans.map (fun c => (c.credits, c.back)) == [(8, [11])]) = true ∧
    chk (exec (.flitDelivery 0) fabric) (fun t => (t.sailing 0).chans.map (·.recv.length) == [1]) = true := by decide +kernel

/-- Three of the four cores of quad 0 have arrived at barrier 5 of its scope, for round 2. -/
def arrivalAt (gen count : Nat) : State := running { nodes := [⟨2, 0, 5, 2, count⟩], arrivals := [⟨10, 2, 0, 5, gen, 0⟩], completions := [⟨10, 2, 0, 5, 65535, 0⟩] } prim

theorem witness_barrier_nodes : ((arrivalAt 2 3).sailing 0).node ⟨10, 2, 0, 5, 2, 0⟩ = ⟨2, 0, 5, 2, 3⟩ ∧ ((arrivalAt 2 3).sailing 0).participants 2 0 = [0, 1, 2, 3] ∧
    barIndex 2 5 < ((arrivalAt 2 3).core 0).bars.toList.length ∧ ((arrivalAt 2 3).core 0).run.stopped = 0 := by decide +kernel

theorem test_barrier_nodes : chk (exec (.barrierArrival 0) (arrivalAt 2 3)) (fun t => (t.sailing 0).nodes == [⟨2, 0, 5, 3, 0⟩] && (t.sailing 0).completions.length == 5 &&
    (t.sailing 0).arrivals == []) = true ∧
    chk (exec (.barrierArrival 0) (arrivalAt 2 2)) (fun t => (t.sailing 0).nodes == [⟨2, 0, 5, 2, 3⟩] && (t.sailing 0).completions.length == 1) = true ∧
    chk (exec (.barrierArrival 0) (arrivalAt 1 3)) (fun t => (t.die 0).bardrop == 1 && (t.sailing 0).nodes == [⟨2, 0, 5, 2, 3⟩]) = true ∧
    chk (exec (.barrierCompletion 0) (arrivalAt 2 3)) (fun t => doneOf t 0 ⟨10, 2, 0, 5, 65535, 0⟩ == 0 && (t.sailing 0).completions == []) = true := by decide +kernel

/-- Every core of quad 0 has issued a sum of two words of unsigned 32-bit integers; core 3 asks for op instead. -/
def part (p op : Nat) : CollPart := { core := p, id := 0, op := op, n := 2, comp := 2, src := 0x100, dst := 0x200, oc := 1, cap := { bfmt := Vector.replicate 8 5 },
                                      baddr := 0, word := 0, ways := [{ there := true }] }
def flying (p : Nat) : Nat × Core := (p, { prim with
  run := { prim.run with sailing := some 0 }
  ctl := { lid := p }
  flight := [{ id := 0, engine := .collective, oc := 1, reads := [(spadBase p + 0x100, spadBase p + 0x108)], writes := [(spadBase p + 0x200, spadBase p + 0x208)] }] })
def collective (op : Nat) : State := { running { colls := [⟨2, 0, 0, [part 0 0, part 1 0, part 2 0, part 3 op]⟩] } prim with
  cores := (List.range 4).map flying
  mem := (List.range 4).map fun p => (spadBase p + 0x100, BitVec.ofNat 8 (p + 1)) }

theorem witness_collective : collReady (collective 0) ((collective 0).sailing 0) ⟨2, 0, 0, [part 0 0, part 1 0, part 2 0, part 3 0]⟩ = (true, none) ∧
    (⟨2, 0, 0, [part 0 0, part 1 0, part 2 0, part 3 0]⟩ : Coll).ranked (collective 0) = part 0 0 :: [part 1 0, part 2 0, part 3 0] ∧
    collReady (collective 1) ((collective 1).sailing 0) ⟨2, 0, 0, [part 0 0, part 1 0, part 2 0, part 3 1]⟩ = (true, none) := by decide +kernel

theorem test_collective : chk (exec (.collectiveComplete 0) (collective 0)) (fun t => t.mem.read (spadBase 3 + 0x200) 4 == 10 && (t.core 0).flight.length == 0 &&
    (t.sailing 0).colls == []) = true ∧
    chk (exec (.collectiveComplete 0) (collective 1)) (fun t => (t.core 2).run.faulted && t.mem.read (spadBase 3 + 0x200) 4 == 0) = true := by decide +kernel

/-- A packet of round r for group 15 of core 0, which is armed or not. -/
def packet (r : Nat) : Packet := { owner := 0, group := 15, round := r, merge := false, n := 1, items := [(7, 9)], way := { there := true } }
def combining (r : Nat) (armed : Option (Bool × Nat × Nat)) : State :=
  running { packets := [packet r] } { prim with groups := (Vector.replicate 16 {}).set 15 { nr := 15, armed := armed } }

theorem witness_packets : ((combining 15 none).sailing 0).coreAt 0 = 0 ∧ (((combining 15 none).core 0).groups.toList.getD 15 {}).held = [] ∧
    (((combining 3 none).core 0).groups.toList.getD 15 {}).nr = 15 ∧ (3 ≠ (15 + 1) % 16) ∧ MemoryCanonical (combining 15 (some (false, 1, 0x400))) ∧
    Unmapped (combining 15 (some (false, 1, 0x400))) 0 := by
  refine ⟨?_, ?_, ?_, ?_, ?_, ?_⟩ <;> (try unfold MemoryCanonical) <;> (try unfold Unmapped) <;> decide +kernel

theorem test_packets : ((deliverPacket (combining 15 none) 0 (packet 15)).core 0).groups.toList.getD 15 {} = { nr := 15, held := [packet 15] } ∧
    ((deliverPacket (combining 3 none) 0 (packet 3)).die 0).cmbdrop = 1 ∧
    (deliverPacket (combining 15 (some (false, 1, 0x400))) 0 (packet 15)).mem.read (spadBase 0 + 0x400) 8 = 7 * 2 ^ 32 + 9 ∧
    (deliverPacket (combining 15 (some (false, 1, 0x400))) 0 (packet 15)).mem.read (spadBase 0 + 0x408) 8 = 1 ∧
    ((deliverPacket (combining 15 (some (false, 1, 0x400))) 0 (packet 15)).core 0).groups.toList.getD 15 {} = { nr := 0 } := by decide +kernel

theorem witness_alignment : (∀ x ∈ ({} : State).sailings, 5 ≤ x.2.state) ∧ (∃ x ∈ fabric.sailings, x.2.state ≤ 4) := by decide +kernel

theorem test_alignment : chk (exec (.linkAlignment 2048 65528) {}) (fun t => t.pod.latr == 2048 && t.pod.hlat == 65528) = true ∧
    chk (exec (.linkAlignment 2056 8) {}) (fun t => t.pod.latr == 64) = true ∧ chk (exec (.linkAlignment 72 8) fabric) (fun t => t.pod.latr == 64) = true := by
  decide +kernel

/-- A link of die 2 of package 1 with a slack slot in phase 0 of its lane, for whose flit of channel 0 a retry has been asked. -/
def garbled : Retry := { key := 2 ^ 26 + 2 * 2 ^ 24, lane := 0, chan := 0, flit := 5, since := 4, due := 9, asked := true }
def slack : State := running { links := [{ key := 2 ^ 26 + 2 * 2 ^ 24, lanes := [[2 ^ 15]] }], retries := [garbled] } prim

theorem witness_slack : (slack.sailing 0).resent = [garbled] ∧ garbled.key / 2 ^ 26 % 64 * 4 + garbled.key / 2 ^ 24 % 4 = 6 := by decide +kernel

theorem test_resend : chk (exec (.flitResend 0) slack) (fun t => (t.die 6).lretry == 1) = true ∧ crcBad (withCrc garbled.flit) = false ∧
    crcBad (withCrc garbled.flit ^^^ 1) = true := by decide +kernel

/-- A word under way that a retry is awaited for does not arrive (10 R304). -/
theorem test_awaited : there { t := 10, retries := [garbled] } 0 (9, 3) = false ∧ there { t := 10, retries := [garbled] } 1 (9, 3) = true := by decide

/-- A hold is requested for cycle u, or the pod is frozen up to WALL cycle b. -/
def holding (u : Nat) : State := { fabric with wall := 100, pod := { tt := 20, holds := [(u, 64)] } }
def frozen (b : Nat) : State := { fabric with wall := 100, pod := { freeze := some (90, b) } }

theorem test_holds : chk (exec (.holdRequest 4096) fabric) (fun t => t.pod.holds == [(8, 4096)]) = true ∧
    chk (exec (.holdRequest 64) (frozen 100)) (fun t => t.pod.freeze == some (90, 164)) = true ∧
    chk (exec .holdFreeze (holding 20)) (fun t => t.pod.freeze == some (101, 164)) = true ∧
    chk (exec .holdFreeze (holding 21)) (fun t => t.pod.freeze == none) = true := by decide +kernel

theorem test_freeze_ends : chk (exec .holdFreezeEnd (frozen 100)) (fun t => t.pod.freeze == none && (t.core 0).obs.holdn == 1 && (t.core 0).obs.holdcyc == 11) = true ∧
    chk (exec .holdFreezeEnd (frozen 101)) (fun t => t.pod.freeze == some (90, 101)) = true ∧
    chk (exec (.holdRequest 100) fabric) (fun t => t.pod.holds == []) = true := by decide +kernel

/-- Two remote accesses of core 0 wait for a residue slot, the second the older. -/
def remoteLoad (due : Nat) : Remote := { oc := 0, pa := spadBase 1 + 64, width := 8, op := .load, entry := some 0, tag := none, due := due }
/-- Of core 0's injection link lane 1 alone has a slot in this cycle, e; the flit of the first access has been garbled on a lane, or not. -/
def waitingAccesses (e : Nat) (lost : Option Nat) : State := { running { period := 1, links := [{ key := 0, lanes := [[3 * 2 ^ 14], [e]] ++ List.replicate 6 [3 * 2 ^ 14] }] }
  { prim with remotes := [{ remoteLoad 12 with way := { at_ := 12, lost := lost } }, { remoteLoad 11 with way := { at_ := 11 } }] } with wall := 50 }
def flitOf (i u : Nat) (lost : Option Nat) : Waiting := { flit := .remote 0 i, way := { at_ := u, lost := lost }, links := [coreLink 0 0, coreLink 1 1], rank := 1 }

theorem witness_residue : waitingFlits (waitingAccesses 0 none) 0 = [flitOf 1 11 none, flitOf 0 12 none] ∧ GoesBefore (flitOf 1 11 none) (flitOf 0 12 none) ∧
    wayOf (waitingAccesses 0 none) (.remote 0 1) = some { at_ := 11 } ∧ (flitOf 1 11 none).at_ = coreLink 0 0 ∧
    OneLane (waitingAccesses 0 none) (coreLink 0 0) 1 ∧ laneSlot (waitingAccesses 0 none) (coreLink 0 0) 1 = .residue ∧
    laneSlot (waitingAccesses (2 ^ 15) none) (coreLink 0 0) 1 = .slack ∧ waitingFlits fabric 0 = [] := by
  unfold OneLane; refine ⟨?_, .inr ⟨rfl, .inl ?_⟩, ?_, ?_, ⟨?_, ?_⟩, ?_, ?_, ?_⟩ <;> decide +kernel

theorem test_residue : slotTaker (waitingAccesses 0 none) (coreLink 0 0) 1 (waitingFlits (waitingAccesses 0 none) 0) = some (flitOf 1 11 none) ∧
    slotTaker (waitingAccesses (2 ^ 15) (some 1)) (coreLink 0 0) 1 (waitingFlits (waitingAccesses (2 ^ 15) (some 1)) 0) = some (flitOf 0 12 (some 1)) ∧
    slotTaker (waitingAccesses 0 none) (coreLink 0 0) 0 (waitingFlits (waitingAccesses 0 none) 0) = none ∧
    chk (exec (.powerLimit 3 0x1000020 0x20) {}) (fun t => (t.pkg 3).cap == some (0x20, 0x20)) = true := by decide +kernel

/-- Port 23 of package 0 is up towards port 5 of package 1. -/
def linked : State := { pkgs := [(0, { ports := (Vector.replicate 24 {}).set 23 { up := true, peer := 1, peerPort := 5, seq := 7 } }),
  (1, { ports := (Vector.replicate 24 {}).set 5 { up := true, peer := 0, peerPort := 23, seq := 4 } })] }

theorem witness_frames : ((linked.pkg 0).ports.toList.getD 23 {}).up = true ∧ (linked.pkg 1).ports.toList.getD 5 {} = { up := true, peer := 0, peerPort := 23, seq := 4 } := by decide +kernel

theorem test_frames : chk (exec (.roslysFrame 0 23) linked) (fun t =>
    ((fun x : RPort => (x.up, x.peer, x.peerPort, x.seq, x.ack)) ((t.pkg 0).ports.toList.getD 23 {})) == (true, 1, 5, 8, 4)) = true := by decide +kernel

/-! ### The platform -/

/-- A remote access that is over its way. -/
def taken (op : RemoteOp) : Remote := { remoteLoad 5 with op := op, way := { there := true } }
def performing (r : Remote) : State := { running {} { prim with remotes := [r] } with mem := (List.range 8).map fun i => (spadBase 1 + 64 + i, BitVec.ofNat 8 (i + 1)) }
def replied : Remote := { taken .load with result := some 9 }
def replying (r : Remote) : State := running {} { prim with remotes := [r], queues := { lq := [{ id := 0, val := none }, { id := 1, val := none }], nextId := 2 } }

theorem witness_remote_performs : ToPerform (performing (taken (.store 5))) 0 (taken (.store 5)) ∧ spadOwner (spadBase 1 + 64) = some 1 ∧
    remoteGate (performing (taken .load)) 1 64 (taken .load) = none ∧ ToPerform (performing (taken (.amo 1 1 0))) 0 (taken (.amo 1 1 0)) ∧
    spadOwner 0x10000 = none ∧ isControl 0x10000 = false ∧ (performing { taken (.store 5) with pa := 0x10000 }).poisoned 0x10000 = false ∧
    retainFull (performing { taken (.store 5) with pa := 0x10000 }) 0x10000 = false ∧ MemoryCanonical (performing (taken (.store 5))) ∧
    ToPerform (performing { taken .load with tag := some (16, 3) }) 0 { taken .load with tag := some (16, 3) } ∧
    ((replying replied).core 0).remotes = [replied] := by
  refine ⟨?_, ?_, ?_, ?_, ?_, ?_, ?_, ?_, ?_, ?_, ?_⟩ <;> (try unfold ToPerform) <;> (try unfold MemoryCanonical) <;> decide +kernel

/-- Core 1 has used the port that a word there needs in this cycle; a ring of core 1 whose refill has failed, or has written nothing, holds the word. -/
def portTaken (r : Remote) : State := { performing r with cores := (performing r).cores ++ [(1, { prim with run := { prim.run with sailing := some 0, used := [1] } })] }
def ringed (flt : Bool) (r : Remote) : State := { performing r with
  cores := (performing r).cores ++ [(1, { prim with wmc := (Vector.replicate 8 {}).set 0 { act := true, rbase := 64, rlen := 64, flt := flt, faddr := 0x77 } })] }

theorem witness_remote_waits : ToPerform (portTaken (taken .load)) 0 (taken .load) ∧ PortsFree (performing (taken .load)) 1 ∧
    (∃ n ∈ portsOf (((portTaken (taken .load)).core 1).visible 64) 8, n ∈ ((portTaken (taken .load)).core 1).run.used) ∧
    ((portTaken (taken .load)).core 1).run.sailing.isSome = true ∧ ToPerform (ringed false (taken .flagRead)) 0 (taken .flagRead) ∧
    ((ringed false (taken .flagRead)).core 1).halfFault 64 8 = none ∧ ((ringed false (taken .flagRead)).core 1).watermark 64 8 = some none ∧
    ((ringed true (taken .flagRead)).core 1).watermark 64 8 = some (some 0x77) := by
  unfold ToPerform PortsFree; decide +kernel

theorem test_remote_waits : ((performRemote (portTaken (taken .load)) 0 0 (taken .load)).core 0).remotes = [{ taken .load with asked := some 0 }] ∧
    ((performRemote (ringed false (taken .flagRead)) 0 0 (taken .flagRead)).core 0).remotes = [{ taken .flagRead with asked := some 0 }] ∧
    ((performRemote (ringed true (taken .flagRead)) 0 0 (taken .flagRead)).core 0).remotes.map (·.bad) = [some (7, 0x77)] ∧
    ((performRemote (performing (taken .flagRead)) 0 0 (taken .flagRead)).core 0).remotes.map (·.result) = [some 0x0807060504030201] := by
  decide +kernel

theorem test_remote_performs : (performRemote (performing (taken (.store 5))) 0 0 (taken (.store 5))).mem.read (spadBase 1 + 64) 8 = 5 ∧
    (performRemote (performing (taken (.amo 1 1 0))) 0 0 (taken (.amo 1 1 0))).mem.read (spadBase 1 + 64) 8 = 0x0807060504030202 ∧
    ((performRemote (performing (taken (.amo 1 1 0))) 0 0 (taken (.amo 1 1 0))).core 0).remotes.map (·.result) = [some 0x0807060504030201] ∧
    ((performRemote (performing { taken .load with tag := some (16, 3) }) 0 0 { taken .load with tag := some (16, 3) }).core 0).remotes.map (fun r =>
      r.bad.map (·.1)) = [some 4] := by decide +kernel

theorem test_remote_replies : (((replying replied).core 0).reply 0 replied 9).queues.lq.map (·.val) = [some 9, none] ∧
    (((replying replied).core 0).reply 0 { replied with op := .flagRead } 9).run.flag = some (9, none) ∧
    (performRemote (performing { taken (.store 5) with pa := 0x10000 }) 0 0 { taken (.store 5) with pa := 0x10000 }).mem.read 0x10000 8 = 5 := by
  decide +kernel

/-- A core with a drift record queued, a ring of 4 at 0x20000, and its monitors. -/
def driftCore : Core := { prim with obs := { queue := [7], drbase := 0x20000, drlen := 4, drdrn := 5, way := { there := true } } }

theorem test_drift : chk (exec (.driftRecordDrain 0) (at0 0 driftCore)) (fun t => t.mem.read 0x20008 8 == 7 && (t.core 0).obs.queue == [] &&
    (t.core 0).obs.drdrn == 6) = true ∧ chk (exec (.driftRecordDrain 0) (at0 0 prim)) (fun t => t.mem == []) = true := by decide +kernel

/-- The core's sailing does not run. -/
def driftHeld : State := { at0 0 { driftCore with run := { prim.run with sailing := some 0 } } with sailings := [(0, { quads := [0], state := 3 })] }

theorem test_drift_waits : chk (exec (.driftRecordDrain 0) driftHeld) (fun t => t.mem == [] && (t.core 0).obs.queue == [7]) = true := by decide +kernel

theorem test_monitors : chk (exec (.mcfgWrite 0 3 0xFFFFFFFFFFFFFFF6) (at0 0 prim)) (fun t =>
      ((t.core 0).obs.monitors.toList.getD 3 {}).cfg == 0x0000FFFFFFFFF1F6) = true ∧
    chk (exec (.mcfgWrite 0 3 7) { fabric with wall := 5 }) (fun t => (t.core 0).pipe.eoc == [.ctl 0xF0 0]) = true ∧
    chk (exec (.lmselWrite 0 0xFFFFFFFFFFFFFFFF) fabric) (fun t => (t.die 0).lmsel == 0xFF00FFFF00 && dieRegister t (t.die 0) 0xA8 == 0) = true := by
  decide +kernel

/-- A die's wake recorder follows sailing 0 from cycle 5. -/
def recording (start : Nat) (g : Sailing) : State := { fabric with sailings := [(0, g)], dies := [(0, { wake := { start := start, arm := true, sailing := some 0 } })] }

theorem test_wake : chk (exec (.wakectlWrite 0 (5 * 2 ^ 32 + 0x100 + 3)) fabric) (fun t => (t.die 0).wake.start == 5 && (t.die 0).wake.arm && (t.die 0).wake.quad == 3) = true ∧
    chk (exec (.wakeDone 0) (recording 5 { state := 5 })) (fun t => (t.die 0).wake.done && !(t.die 0).wake.arm) = true ∧
    chk (exec (.wakeDone 0) (recording 5 { state := 1, running := true, t := 65540 })) (fun t => (t.die 0).wake.done) = true ∧
    chk (exec (.wakeDone 0) (recording 5 { state := 1, running := true, t := 65539 })) (fun t => !(t.die 0).wake.done) = true := by decide +kernel

/-- Core 0 is to issue addBundle under a debug module. -/
def debugged (d : Debug) : State := { cores := [(0, { ({ prim with dbg := d } : Core).place addBundle with dbg := d })] }

theorem witness_debug : ((debugged { brk1 := 0x10011 }).core 0).due = true ∧ ((debugged { brk1 := 0x10011 }).core 0).nextBaddr / 4 = 0x10011 / 4 ∧
    ((debugged { brk1 := 0x10011 }).die ((debugged {}).recordDie 0)).faultBuf.length < 64 := by decide +kernel

theorem test_debug_stops : chk (exec (.debugStopTaken 0) (debugged { brk1 := 0x10011 })) (fun t => (t.core 0).run.stopped == 2 && (t.core 0).dbg.reason == 2 &&
    (t.die 0).faultBuf.map (fun r => r.toNat % 256) == [0x0D]) = true ∧
    chk (exec (.debugStopTaken 0) (debugged { stop := true, brk0 := 0x10011 })) (fun t => (t.core 0).dbg.reason == 0 && (t.core 0).run.stopped == 2) = true ∧
    chk (exec (.debugStopTaken 0) (debugged { stepping := true })) (fun t => (t.core 0).dbg.reason == 3) = true ∧
    chk (exec (.debugStopTaken 0) (debugged { stop := true, go := true })) (fun t => (t.core 0).run.stopped == 0 && !(t.core 0).dbg.go) = true := by decide +kernel

/-- A core that a debug stop holds. -/
def heldCore : Core := { prim with run := { prim.run with stopped := 2 } }

theorem test_debug_goes : chk (exec (.dbgGo 0) (at0 0 heldCore)) (fun t => (t.core 0).run.stopped == 0 && !(t.core 0).dbg.stepping) = true ∧
    chk (exec (.dbgStep 0) (at0 0 heldCore)) (fun t => (t.core 0).run.stopped == 0 && (t.core 0).dbg.stepping) = true ∧
    chk (exec (.dbgStop 0) (at0 0 prim)) (fun t => (t.core 0).dbg.stop && (t.core 0).run.stopped == 0) = true ∧
    chk (exec (.dbgGo 0) (at0 0 prim)) (fun t => (t.core 0).dbg.go && (t.core 0).run.stopped == 0) = true := by decide +kernel

/-- Inbound endpoint 15 of the last helm holds n words. -/
def inbound (n : Nat) : State := { helms := [(helmBase + 511, { inbound := (Vector.replicate 16 []).set 15 (List.replicate n 1),
                                                                outbound := (Vector.replicate 16 []).set 15 [4, 5] })] }

theorem test_host_channels : ((hostGo [.word 511 15 9] { inbound 63 with hostWay := { there := true } }).helm (helmBase + 511)).inbound[15].length = 64 ∧
    ((hostGo [.word 511 15 9] { inbound 64 with hostWay := { there := true } }).die (dieOf (helmBase + 511))).hchdrop = 1 ∧
    chk (exec (.hostOutboundRead 511 31) (inbound 0)) (fun t => (t.helm (helmBase + 511)).outbound.toList.getD 15 [] == [5]) = true := by decide +kernel

theorem witness_host_writes : retainFull {} (pkgBase 63 + 8) = false ∧ (8 + 8 ≤ 0xB2D05E0000) ∧ isControl (dieBase 255 + 0x17FFFF8) = true ∧ isControl 0 = false ∧
    populated (spadBase 5) = true ∧ spadOwner (spadBase 5) = some 5 ∧ populated 0x40 = true := by decide +kernel

/-- The host's write to line 5 of package 0 waits: every die retains 4,096 other lines. -/
def hostWaits (n : Nat) : State := { retaining n with hostWrites := [.mem (64 * 5000) 1] }

theorem witness_host_waits : retainFull (hostWaits 4096) (64 * 5000) = true := by
  have h (n : Nat) : (hostWaits n).retainedLines 7 = n := retained_lines n 7
  have h' (n k : Nat) (hk : n ≤ k) : (hostWaits n).retains 7 k = false := by simp [State.retains, hostWaits, retaining]; omega
  have hl (n : Nat) : (hostWaits n).kept.length = n := by simp [hostWaits, retaining]
  simp only [retainFull, Bool.and_eq_true, List.any_eq_true, List.mem_range, decide_eq_true_eq, Bool.not_eq_true']
  exact ⟨⟨by decide, Nat.le_of_eq (hl 4096).symm⟩, 7, by decide, Nat.le_of_eq (h 4096).symm, h' 4096 5000 (by decide)⟩

theorem test_host_writes : (hostGo [.mem (pkgBase 63 + 8) 5] { hostWay := { there := true } }).mem.read (pkgBase 63 + 8) 8 = 5 ∧
    chk (exec (.hostMemoryWrite 0 0xB2D05DFFFF 5) {}) (fun t => t.mem == []) = true ∧
    chk (exec (.controlRegisterWrite (dieBase 255 + 0x17FFFF8) 5) {}) (fun t => t.mem.read (dieBase 255 + 0x17FFFF8) 8 == 5) = true ∧
    chk (exec (.controlRegisterWrite (dieBase 1 + 0x4000408 + 0x20000 * 95) 0x10013) {}) (fun t => (t.core 191).dbg.brk0 == 0x10011) = true := by decide +kernel

theorem test_scrub : chk (exec (.scrub 0x40 1) {}) (fun t => (t.die (hbmDie 0x40)).ceHbm == 1 && t.poison == []) = true ∧
    chk (exec (.scrub 0x44 2) {}) (fun t => (t.die (hbmDie 0x40)).ueHbm == 1 && t.poisoned 0x40 && !t.poisoned 0x48) = true ∧
    chk (exec (.scrub (spadBase 5) 2) {}) (fun t => (t.die 0).ueSram == 1 && t.poisoned (spadBase 5)) = true := by decide +kernel

/-- Package 1 has a core, a byte of scratchpad, a byte of HBM, and port 23 up towards port 5 of package 2. -/
def powered : State := { cores := [(384, prim)], mem := [(pkgBase 1 + 0x40, 1), (spadBase 384, 2)]
                         pkgs := [(1, { code := 0, ports := (Vector.replicate 24 {}).set 23 { up := true, peer := 2, peerPort := 5, seq := 7 } }),
                                  (2, { ports := (Vector.replicate 24 {}).set 5 { up := true, peer := 1, peerPort := 23, seq := 4 } })]
                         sailings := [(0, { quads := [96, 192], state := 1, running := true }), (1, { quads := [96], state := 1, running := true })] }

theorem test_package_resets : chk (exec (.packageReset 1) powered) (fun t => t.mem == [(pkgBase 1 + 0x40, 1)] && (t.core 384).run.live == false) = true ∧
    chk (exec (.thermalShutdown 1) powered) (fun t => (t.pkg 1).off && !(portOf t 2 5).up) = true ∧
    chk (exec (.reboot 1) powered) (fun t => (t.pkg 1).code == 0xFF && (t.core 384).run.live) = true := by decide +kernel

theorem witness_spans : Spans (powered.sailing 0) 1 2 ∧ ¬ Spans (powered.sailing 1) 1 2 ∧ (portOf powered 1 23).up = true ∧ (portOf powered 1 22).up = false := by
  unfold Spans; decide +kernel

theorem test_port_down : chk (exec (.portDown 1 23) powered) (fun t => (t.sailing 0).killed && !(t.sailing 1).killed && !(portOf t 2 5).up) = true ∧
    chk (exec (.portDown 1 22) powered) (fun t => !(t.sailing 0).killed) = true := by decide +kernel

theorem test_boot_refused : chk (exec (.boot 0) {}) (fun t => (t.pkg 0).code == 1 && t.cores == []) = true ∧
    chk (exec (.boot 1) powered) (fun t => (t.pkg 1).code == 0) = true := by decide +kernel

theorem test_attestation : chk (exec (.attgoWrite 0 1) {}) (fun t => (t.pkg 0).signing == some 0) = true ∧
    chk (exec (.attgoWrite 0 2) {}) (fun t => (t.pkg 0).signing == none) = true := by decide +kernel

/-- A clock change is pending for the sailings from number 1 on; sailing 0 is in a STATE. -/
def changing (st : Nat) : State := { sailings := [(0, { state := st })], nextSailing := 1, pod := { change := some (1, 1) } }

theorem test_clock : chk (exec (.clkselWrite 0 5) fabric) (fun t => t.pod.change == some (1, 0)) = true ∧
    chk (exec .clockChange (changing 5)) (fun t => t.pod.clk == 1 && t.pod.change == none && t.pod.latr == 64) = true ∧
    chk (exec .clockChange (changing 4)) (fun t => t.pod.clk == 0 && t.pod.change == some (1, 1)) = true := by decide +kernel

/-! ### The life of a sailing -/

/-- A launch of quad 5 with its images: page 0 is mapped to itself, the entry segment lies at 0x10000, the Timetable has a period of 1. -/
def launching (conf : Bool) : State := {
  wall := 1000
  nextSailing := 1
  dies := [(0, { queues := (Vector.replicate 64 {}).set 63 { attr := { conf := conf } } })]
  sailings := [(0, { helm := 24576, block := spadBase 24576 + 0x200, queue := 63, state := 0, entry := 0x10000, ptroot := 0x40000, spwin := 2 ^ 38,
                     image := 0x20000, ttbl := 0x30000, qlist := 0x50000, nquads := 1, landb := 77, seed := 5, hlat := 8, latr := 64 })]
  mem := putWords (putWords (putWords (putWords pages 0x10000 [2 * 2 ^ 48, 1, 0x0203088000000001]) 0x20000 [0x15]) 0x30000 [1, 64 + 8 * 2 ^ 16]) 0x50000 [5] }

theorem witness_launch_refused : Launching (launching false) 0 ∧ refusal (launching false) 0 ((launching false).sailing 0) = some 5 := by
  unfold Launching; decide +kernel

theorem witness_launch : Launching (launching true) 0 ∧ refusal (launching true) 0 ((launching true).sailing 0) = none ∧ EntryGood (launching true) 0 ∧
    quadsAsked (launching true) 0 = [5] := by
  unfold Launching EntryGood; and_intros <;> decide +kernel

theorem test_launch : chk (exec (.sailingStart 0) (launching true)) (fun t => (t.sailing 0).loaded && (t.core 23).ctl.lid == 3 && (t.core 20).ctl.bfmt[0] == 0x15 &&
    (t.core 20).fetch.pc == 0x10010 && (t.core 20).ctl.landb == 77) = true := by decide +kernel

theorem test_launch_refused : chk (exec (.sailingStart 0) (launching false)) (fun t => (t.sailing 0).state == 7 && (t.sailing 0).cause == 5 &&
    t.mem.read (spadBase 24576 + 0x200) 2 == 0x507) = true := by decide +kernel

/-- A sailing of quad 0 in a STATE, killed or not, each of whose cores has the run state given; its deadline has passed. -/
def ending (st : Nat) (killed : Bool) (r : Run) : State := {
  wall := 1000
  cores := (List.range 4).map fun p => (p, { run := { r with sailing := some 0 } })
  sailings := [(0, { quads := [0], helm := 24576, block := spadBase 24576 + 0x200, state := st, running := !killed, killed := killed, t := 90, deadline := 999,
                     arrivals := if killed then [⟨10, 5, 0, 5, 2, 0⟩] else [] })] }

theorem witness_ends : sailingEnded (ending 1 false { ended := true, halted := true }) 0 ((ending 1 false { ended := true, halted := true }).sailing 0) = true ∧
    sailingEnded (ending 2 false {}) 0 ((ending 2 false {}).sailing 0) = false ∧ ((ending 2 false {}).core 3).run.sailing = some 0 ∧
    (∀ i, i < 4 → ((ending 2 false { stopped := 1 }).core i).run.stopped = 1 ∧ ((ending 2 false { stopped := 1 }).core i).note.iss = false) ∧
    (ending 8 true {}).engineWork 0 = false ∧ ((ending 2 true {}).sailing 0).killed = true := by decide +kernel

theorem test_sailing_ends : chk (exec (.sailingDone 0) (ending 1 false { ended := true, halted := true })) (fun t => (t.sailing 0).state == 5 && (t.sailing 0).late &&
    (t.sailing 0).scyc == 90 && t.mem.read (spadBase 24576 + 0x210) 8 == 1000) = true ∧
    chk (exec (.sailingDone 0) (ending 1 false {})) (fun t => (t.sailing 0).state == 1) = true ∧
    chk (exec (.killComplete 0) (ending 2 true {})) (fun t => (t.sailing 0).state == 8 && (t.core 3).run.sailing == none) = true := by decide +kernel

theorem test_preemption : chk (exec (.preemptMark 3) (ending 2 false {})) (fun t => (t.core 3).run.preempt) = true ∧
    chk (exec (.stopCycle 0) (ending 2 false { stopped := 1 })) (fun t => (t.sailing 0).state == 3 && (t.sailing 0).stopW == 1000) = true ∧
    chk (exec (.preemptMark 3) (ending 1 false {})) (fun t => !(t.core 3).run.preempt) = true := by decide +kernel

/-- A die with a queue that has used cycles, in WALL cycle w. -/
def used (w : Nat) : State := { wall := w, dies := [(0, { queues := (Vector.replicate 64 {}).set 63 { used := 9 } })] }

theorem test_budget_period : chk (exec (.budgetPeriodBoundary 0) (used 12000000)) (fun t => (queueOf (t.die 0) 63).used == 0) = true ∧
    chk (exec (.budgetPeriodBoundary 0) (used 12000001)) (fun t => (queueOf (t.die 0) 63).used == 9) = true := by decide +kernel

/-! ### Memory and encoding -/

theorem witness_canonical : MemoryCanonical State.reset ∧ MemoryCanonical (launching true) ∧ (∃ t, step State.reset = .next t) := by
  refine ⟨?_, ?_, ⟨_, rfl⟩⟩ <;> (try unfold MemoryCanonical) <;> decide +kernel

theorem witness_encodes : (Instr.frel 0 3 1 0 1 1 4).WellFormed ∧ (Instr.addA 15 31 31 31 7).WellFormed ∧
    encode (.frel 0 3 1 0 1 1 4) = [0xC4001840, 0x00090004] := by decide

/-! ### Skiffs fetch, move and end (05 R163, R174 to R183); the canonical tree (06 R208) -/

/-- Core 0, whose context 1 stands at 0x2000 with nothing in its fetch buffer; the skiff cache holds the line there, with an add of s1 and s2. -/
def fetching (k : Skiff) (b : Barrel) : State := { at0 0 { barrelOf k with
    ctl := { ptroot := 0x40000, qcount := 1, spwin := 2 ^ 40 }
    run := { prim.run with sailing := some 0 }
    barrel := { b with ctx := (Vector.replicate 8 {}).set 1 { k with occupied := true, pc := 0x2000 } } } with
  sailings := [(0, netSailing)]
  mem := pages }

def codeLine : Line := ⟨0x80, BitVec.ofNat 512 (1 + addWord.toNat * 2 ^ 32), BitVec.allOnes 64, 0, 0⟩
def fetchReady : State := fetching {} { tlb := [page], cache := [codeLine] }
def fetchCold : State := fetching { fetchWait := some (true, 0x2000), fetchWay := { there := true } } {}
def fetchOutside : State := fetching {} { tlb := [{ page with x := false }] }
def filling : State := fetching {} { fills := [0x80] }
def leavingCore : State := fetching { wait := .migrate 2 false, s := (Vector.replicate 16 0).set 3 9 } { cache := [{ codeLine with dirty := 1 }] }

theorem witness_fetch : skiffBundle fetchReady 0 0x2000 = .ok { addr := 0x2000, hdr := 1, words := [addWord] } ∧
    (fetchReady.skiff 0 1).fetchAt ≤ (fetchReady.core 0).run.t ∧ skiffBundle fetchOutside 0 0x2000 = .error (.bad 0x2000) := by decide +kernel

theorem test_fetch : chk (exec (.skiffFetch 0 1) fetchReady) (fun t => (t.skiff 0 1).buf == some { addr := 0x2000, hdr := 1, words := [addWord] }) = true ∧
    faultCode (exec (.skiffFetch 0 1) fetchOutside) = some [0x0B] := by decide +kernel

theorem witness_fill : (filling.core 0).barrel.fills = [0x80] ∧ (∀ j : BitVec 3, (filling.skiff 0 j).wait = .none) ∧
    (filledLine filling 0 0x80).valid = BitVec.allOnes 64 ∧ (filling.core 0).barrel.line (64 * 0x80) = none := by decide +kernel

theorem witness_walk : fetchCold.walk (fetchCold.core 0).ctl.ptroot 0x2000 = some page ∧ (fetchCold.skiff 0 1).wait = .none := by decide +kernel

theorem test_walk : chk (exec (.skiffTlbWalkResult 0 1) fetchCold) (fun t => (t.core 0).barrel.tlb == [page] && (t.skiff 0 1).fetchWait == none &&
    (t.skiff 0 1).fetchAt == 10) = true := by decide +kernel

theorem witness_pack : (leavingCore.skiff 0 1).wait = .migrate 2 false ∧ (leavingCore.core 0).barrel.out.length < 8 ∧ (leavingCore.core 0).sfu = [] ∧
    (leavingCore.core 0).barrel.inbox = [] := by decide +kernel

theorem test_pack : chk (exec (.migrationPack 0 1) leavingCore) (fun t => !(t.skiff 0 1).occupied && (t.core 0).barrel.migOut == 1 &&
    (t.core 0).barrel.out.map (fun m => (m.target, m.source, (Skiff.ofImage m.image).s[3], (Skiff.ofImage m.image).migs)) == [(2, 0, 9, 1)] && (t.core 0).barrel.cache.map (·.dirty) == [0]) = true := by
  decide +kernel

/-- The message of a skiff for core 2, all of whose flits residue slots have taken. -/
def image : Message := { Message.of 2 0 ({ s := (Vector.replicate 16 0).set 3 9, pc := 0x2000 } : Skiff).image with ways := List.replicate 3 { there := true } }

/-- Core 0 with every outbound slot full. -/
def leavingFull : State := leavingCore.modBarrel 0 fun b => { b with out := List.replicate 8 image }

theorem witness_pack_waits : (leavingFull.skiff 0 1).wait = .migrate 2 false ∧ 8 ≤ (leavingFull.core 0).barrel.out.length ∧
    (leavingFull.core 0).barrel.cache.map (·.dirty) = [1] := by decide +kernel

theorem test_pack_waits : chk (exec (.migrationPack 0 1) leavingFull) (fun t => (t.skiff 0 1).occupied && (t.skiff 0 1).wait == .migrate 2 true &&
    (t.core 0).barrel.cache.map (·.dirty) == [0] && (t.core 0).barrel.out.length == 8) = true := by decide +kernel

/-- The fields of an image and of a message at the places that 05 R177 and R178 give them: PC, CMASK, MIGS, HOME; TARGET, SOURCE, KIND. -/
theorem test_image_places : (({ home := 0x1234, migs := 0x56, cmask := 5, pc := 0x2000 } : Skiff).image.toNat / 2 ^ 1024) =
      0x2000 + 5 * 2 ^ 69 + 0x56 * 2 ^ 104 + 0x1234 * 2 ^ 112 ∧
    (Message.of 2 3 0).bits.toNat = 2 + 3 * 2 ^ 16 + 2 ^ 32 := by decide +kernel

/-- An image of core 0 under way to core 2, which has free contexts or none, and images in its inbox. -/
def underWay (b : Barrel) (m : Message) : State := let s := fetching {} { out := [m] }; { s with cores := s.cores ++ [(2, { prim with barrel := b })] }

theorem witness_messages : ((underWay {} image).core 0).barrel.out = [image] ∧ (underWay {} image).coreAt 0 image.target = 2 ∧
    ((underWay {} image).core 2).barrel.freeSlot = some 0 ∧ ((underWay fullBarrel image).core 2).barrel.freeSlot = none ∧
    4 ≤ ((underWay { fullBarrel with inbox := List.replicate 4 0 } image).core 2).barrel.inbox.length := by decide +kernel

theorem test_messages : ((deliver (underWay {} image) 0 2 0 image).skiff 2 0).s[3] = 9 ∧ image.refusedAt = none ∧ image.ways.all (·.there) = true ∧
    ((deliver (underWay fullBarrel image) 0 2 0 image).core 2).barrel.inbox = [image.image] ∧
    ((deliver (underWay { fullBarrel with inbox := List.replicate 4 0 } image) 0 2 0 image).core 0).barrel.out.map (·.refusedAt) = [some 10] ∧
    chk (exec (.migrationResend 0) (tick (underWay {} { image with refusedAt := some 10 }) 74)) (fun t =>
      (t.core 0).barrel.out.map (fun m => m.ways.map (·.there)) == [[false, false, false]]) = true ∧
    chk (exec (.migrationResend 0) (tick (underWay {} { image with refusedAt := some 10 }) 73)) (fun t =>
      (t.core 0).barrel.out.map (fun m => m.ways.map (·.there)) == [[true, true, true]]) = true := by
  decide +kernel

/-- Core 0 has halted with a dirty line in its skiff cache. -/
def halted : State := (fetching {} {}).modCore 0 fun c => { c with
  run := { c.run with halted := true }
  barrel := { cache := [{ codeLine with dirty := 1 }] } }

theorem witness_part_end : (halted.core 0).run.sailing = some 0 ∧ (halted.core 0).finished (halted.sailing 0).task = true ∧
    (halted.core 0).barrel.empty = true ∧ (halted.core 0).run.ended = false := by decide +kernel

theorem test_part_end : chk (exec (.corePartEnd 0) halted) (fun t => (t.core 0).run.ended && (t.core 0).barrel.cache.map (·.dirty) == [0] &&
    t.mem.read 0x2000 1 == 1) = true := by decide +kernel

theorem witness_tree : ([1, 2] : List Nat).length = 2 ^ 1 ∧ ([3] : List Nat) ≠ [] ∧ ([3] : List Nat).length ≤ 2 ^ 1 ∧ 6 < (List.range 7).length ∧
    6 + 1 = 6 + 2 ^ 0 ∧ 6 % 2 ^ (0 + 1) = 0 := by decide

theorem test_tree : reduceAll (· ++ · ++ ")") "" ["a", "b", "c", "d", "e"] = "ab)cd))e)" ∧
    scanAt (· ++ · ++ ")") "" ["a", "b", "c", "d", "e", "f", "g"] 6 = "ab)cd))ef))g)" := by decide +kernel

theorem test_layouts : decodeSlot .c 0x1E010007#32 0 = .error (.operand 0) ∧ decodeSlot .c 0x1E000007#32 0 = .ok (.trap 0 7) ∧
    decodeSlot .c 0x10000000#32 0 = .error (.operand 0) ∧ decodeSlot .c 0x12030005#32 0 = .ok (.cli 0 3 5) ∧
    faultCode (exec (.cli 0 14 5) (at0 5 prim)) = some [0x02] := by decide +kernel

def atBadOvf : State := atHelm 5 { prim with files := { c := (Vector.replicate 16 0).set 1 (BitVec.allOnes 64) } }

theorem witness_bad_ovf : HelmRuns atBadOvf 24576 0 (.ovfld 0 1) ∧ HelmRuns atBadOvf 24576 0 (.ovfldSelf 0 1) ∧
    ovfGood ((atBadOvf.core 24576).c ((1 : BitVec 5).truncate 4)) = false := by
  unfold HelmRuns CoreRuns; decide +kernel

theorem test_field_checks : decodeSlot .c 0x0A080010#32 0 = .error (.operand 0) ∧ decodeSlot .c 0x0A08C010#32 0 = .ok (.lupd 0 1 1 1 0x10) ∧
    decodeSlot .c 0x0A088010#32 0 = .error (.operand 5) ∧ decodeSlot .m 0x04000001#32 0 = .error (.operand 4) ∧
    decodeSlot .m 0x04000000#32 0 = .ok (.mfree 0) := by decide +kernel


/-! ### Sources, results and accesses that are not there -/

/-- A core whose load-queue head is e, whose port 0 is q, bound to x5, and whose store queue is full. -/
def lackingCore (e : List QEntry) (q : Port) : Core := { regs with
  queues := { lq := e, sq := List.replicate 32 { id := 0, val := some 1 }, nextId := 40 }
  ports := (Vector.replicate 4 {}).set 0 { q with bound := true, reg := 5, at_ := 1 } }
def lacking (e : List QEntry) (q : Port) : State := at0 1 (lackingCore e q)

theorem witness_lacking_sources : FormOf (.addX 0 3 30 5 0) (.x, 0, [30, 5], some 3) ∧ CoreRuns (lacking [] {}) 0 0 (.addX 0 3 30 5 0) ∧
    Lacks .x 0 30 0 (lacking [] {}) 2 ∧ Lacks .x 0 30 0 (lacking [{ id := 0, val := none }] {}) 2 ∧
    Lacks .x 0 5 0 (lacking [] { total := 3 }) 2 ∧ Fails .x 0 30 (lacking [{ id := 0, val := some 4, bad := some (7, 9) }] {}) 7 9 ∧
    Fails .x 0 5 (lacking [] { total := 3, popped := 3 }) 0x0E (15 * 256 + 11) ∧ Fails .x 0 5 (lacking [] { total := 3, fault := some (4, 1) }) 4 1 ∧
    ReadsAll .x 0 [1] (lacking [] {}) [7] (lacking [] {}) ∧ ((lacking [] {}).core 0).queues.sq.length = 32 ∧ ((lacking [] {}).core 0).boundTo .x 5 ≠ none ∧
    CoreRuns (lacking [] {}) 0 0 (.addX 0 31 1 1 0) ∧ CoreRuns (lacking [] {}) 0 0 (.addX 0 5 1 1 0) := by
  refine ⟨.x _ _ (.addX ..), ?_, .queue _ rfl (by decide +kernel), .queue _ rfl (by decide +kernel), ?_,
    .queue _ { id := 0, val := some 4, bad := some (7, 9) } [] 7 9 rfl rfl (by decide) rfl,
    .over _ 0 { bound := true, reg := 5, at_ := 1, total := 3, popped := 3 } (by decide) (by decide +kernel) (by decide),
    .element _ 0 { bound := true, reg := 5, at_ := 1, total := 3, fault := some (4, 1) } 4 1 (by decide) (by decide +kernel) (by decide) (by decide +kernel) rfl rfl,
    .cons (.plain _ ?_) (.nil _), by decide +kernel, by decide +kernel, ?_, ?_⟩
  · unfold CoreRuns; decide +kernel
  · exact .port (lacking [] { total := 3 }) 0 { bound := true, reg := 5, at_ := 1, total := 3 } (by decide) (by decide +kernel) (by decide) (.inr ⟨by decide, rfl⟩)
  · unfold Plain; decide +kernel
  · unfold CoreRuns; decide +kernel
  · unfold CoreRuns; decide +kernel

/-- The cause of the stall that an outcome leaves core 0 in. -/
def stallCause (o : Host.Outcome State Fault Refusal) : Option Nat := (nextOf o).bind fun t => (t.core 0).run.stall.map (·.cause)

theorem test_lacking_sources : stallCause (exec (.addX 0 3 1 30 0) (lacking [] {})) = some 2 ∧ stallCause (exec (.addX 0 3 5 1 0) (lacking [] { total := 3 })) = some 2 ∧
    faultCode (exec (.addX 0 3 1 30 0) (lacking [{ id := 0, val := some 4, bad := some (7, 9) }] {})) = some [7] ∧
    faultCode (exec (.addX 0 3 5 1 0) (lacking [] { total := 3, popped := 3 })) = some [14] ∧ stallCause (exec (.addX 0 31 1 1 0) (lacking [] {})) = some 2 ∧
    faultCode (exec (.addX 0 5 1 1 0) (lacking [] {})) = some [2] := by decide +kernel

/-- An entry that maps bytes 64 to 127, its half 1 at 576, with tag 6. -/
def mapped : Pmap := { v := true, base := 1, alt := 9, len := 1, tag := 6 }
def mappedCore (e : Pmap) (xs : List (Nat × Nat)) : Core := { memCore with
  pmap := memCore.pmap.set 2 e, expects := xs, files := { memCore.files with a := memCore.files.a.set 9 576, c := (Vector.replicate 16 0).set 3 64 } }
/-- A ring at bytes 64 to 127, filled to none, faulted or not. -/
def ringCore (flt : Bool) : Core := { mappedCore {} [] with wmc := (Vector.replicate 8 {}).set 1 { act := true, rbase := 64, rlen := 64, flt := flt, faddr := 0x77 } }
/-- A command in flight writes the bytes in class 3. -/
def writingCore : Core := { mappedCore {} [] with
  flight := [{ id := 0, engine := .vector, oc := 3, reads := [], writes := [(spadBase 0 + 64, spadBase 0 + 72)] }] }

theorem witness_reads_of_the_own_scratchpad (c : Core) (hc : c = mappedCore mapped [(2, 6)] ∨ c = mappedCore mapped [(2, 5)] ∨ c = ringCore true ∨ c = ringCore false ∨ c = writingCore) :
    OwnRead (atMem 0 c) 0 (.ldD 0 0 1 3 0) (3, 64, 8) ∧ OwnRead (atMem 0 c) 0 (.ldb 0 9 3 3 1 31) (3, 515 / 8, 5) ∧ OwnRead (atMem 0 c) 0 (.amoD 0 1 1 6 3) (3, 64, 8) ∧
    OwnRead (atMem 0 c) 0 (.facqW 0 1 5 0 1 1 0) (16, 64, 8) ∧ OwnRead (atMem 0 c) 0 (.facqT 0 4 1 5 0 1 1 0) (16, 64, 8) ∧ OwnRead (atMem 5 c) 0 (.ltrim 0 3 3) (3, 64, 32) := by
  rcases hc with rfl | rfl | rfl | rfl | rfl <;>
  exact ⟨.load _ 0 0 1 3 0 8 64 (.ldD ..) (by unfold CoreRuns; decide +kernel) (by decide +kernel) (by decide +kernel),
    .bits 0 9 3 3 1 31 515 (by unfold PrimaryRuns CoreRuns; decide +kernel) (by decide +kernel) (by decide) (by decide +kernel),
    .atomic _ 0 1 1 6 3 8 64 (.amoD ..) (by unfold CoreRuns; decide +kernel) (by decide +kernel) (by decide +kernel),
    .wait 0 1 5 0 1 1 0 64 (by unfold CoreRuns; decide +kernel) (by decide +kernel) (by decide +kernel),
    .test 0 4 1 5 0 1 1 0 64 (by unfold CoreRuns; decide +kernel) (by decide +kernel) (by decide +kernel) (.inl (by decide +kernel)),
    .trim 0 3 3 64 (by unfold PrimaryRuns CoreRuns; decide +kernel) (by decide +kernel) (by decide) (by decide +kernel)⟩

theorem witness_reads_that_do_not_perform : OwnRead (atMem 0 (mappedCore mapped [])) 0 (.ldD 0 0 9 3 0) (3, 576, 8) ∧ (mappedCore mapped []).spanAlt 576 8 = true ∧
    (mappedCore mapped [(2, 5)]).spanAlt 64 8 = false ∧ armed (atMem 0 (mappedCore mapped [(2, 5)])) 0 0 64 8 = [(2, 5, 6)] ∧
    Unwatched (atMem 0 (mappedCore mapped [(2, 6)])) 0 64 8 ∧ (armed (atMem 0 (mappedCore mapped [(2, 6)])) 0 0 64 8) ≠ [] ∧
    (mappedCore { mapped with f0 := true, faddr0 := 0x99 } []).halfFault 64 8 = some 0x99 ∧ ChecksHold (atMem 0 (mappedCore { mapped with f0 := true, faddr0 := 0x99 } [])) 0 64 8 ∧
    (ringCore true).watermark 64 8 = some (some 0x77) ∧ (ringCore false).watermark 64 8 = some none ∧ (ringCore false).halfFault 64 8 = none ∧
    writingCore.heldBack 0 3 (spadBase 0 + 64) (spadBase 0 + 72) false = true ∧ writingCore.watermark 64 8 = none := by
  refine ⟨.load _ 0 0 9 3 0 8 576 (.ldD ..) (by unfold CoreRuns; decide +kernel) (by decide +kernel) (by decide +kernel), ?_⟩
  unfold Unwatched; and_intros <;> decide +kernel

theorem test_reads_that_do_not_perform : faultCode (exec (.ldD 0 9 9 3 0) (atMem 0 (mappedCore mapped []))) = some [2] ∧
    faultCode (exec (.ldD 0 9 1 3 0) (atMem 0 (mappedCore mapped [(2, 5)]))) = some [4] ∧
    chk (exec (.ldD 0 9 1 3 0) (atMem 0 (mappedCore mapped [(2, 6)]))) (fun t => (t.core 0).expects == [] && (t.core 0).pipe.pend.length == 1) = true ∧
    faultCode (exec (.ldD 0 9 1 3 0) (atMem 0 (mappedCore { mapped with f0 := true } []))) = some [7] ∧ faultCode (exec (.amoD 0 1 1 6 3) (atMem 0 (ringCore true))) = some [7] ∧
    stallCause (exec (.ldb 0 9 3 3 1 31) (atMem 0 (ringCore false))) = some 3 ∧ stallCause (exec (.ldD 0 9 1 3 0) (atMem 0 writingCore)) = some 4 := by decide +kernel

/-- A core whose store queue is empty. -/
def drained (c : Core) : Core := { c with queues := { c.queues with sq := [] } }

theorem witness_stores_that_do_not_perform : CoreRuns (atMem 0 (mappedCore mapped [])) 0 0 (.stD 0 6 9 3 0) ∧ (mappedCore mapped []).inAlt 576 = true ∧
    place (atMem 0 (mappedCore mapped [])) (address ((mappedCore mapped []).a 9) 0 8) 8 = .own 576 ∧ CoreRuns (atMem 0 (drained memCore)) 0 0 (.stD 0 0 1 3 0) ∧
    (drained memCore).queues.sq = [] ∧ writingCore.heldBack 0 3 (spadBase 0 + 64) (spadBase 0 + 72) true = true ∧ CoreRuns (atMem 0 writingCore) 0 0 (.stD 0 6 1 3 0) ∧
    PrimaryRuns (atMem 0 writingCore) 0 0 (.stb 0 6 3 3 31) ∧ writingCore.heldBack 0 3 (spadBase 0 + 515 / 8) (spadBase 0 + 515 / 8 + 5) true = true ∧
    PrimaryRuns (atMem 0 memCore) 0 0 (.stb 0 6 4 3 31) ∧ 2 ^ 26 < (memCore.a 4).toNat := by
  unfold PrimaryRuns CoreRuns; and_intros <;> decide +kernel

theorem test_stores_that_do_not_perform : faultCode (exec (.stD 0 6 9 3 0) (atMem 0 (mappedCore mapped []))) = some [2] ∧
    stallCause (exec (.stD 0 0 1 3 0) (atMem 0 (drained memCore))) = some 2 ∧ stallCause (exec (.stb 0 6 3 3 31) (atMem 0 writingCore)) = some 4 ∧
    faultCode (exec (.ldb 0 9 4 3 1 31) (atMem 0 memCore)) = some [2] := by decide +kernel

/-- A core with a full load queue; the helm core whose a1 is a control word, and a2 its second half. -/
def fullCore : Core := { memCore with queues := { memCore.queues with lq := List.replicate 32 { id := 0, val := some 1 } } }
def farCore : Core := { prim with
  files := { a := ((Vector.replicate 32 0).set 1 0x80003F0000000000).set 2 0x80003F0000000004 } }
def shadowed : State := { atMem 0 memCore with cores := [(0, memCore), (1, { prim with pmap := prim.pmap.set 0 { v := true, base := 4, alt := 1, len := 1 } })] }

theorem witness_full_queue : CoreRuns (atMem 0 fullCore) 0 0 (.ldD 0 0 1 3 0) ∧ fullCore.queues.lq.length = 32 ∧ Unwatched (atMem 0 fullCore) 0 64 8 := by
  unfold CoreRuns Unwatched; and_intros <;> decide +kernel

theorem test_full_queue : stallCause (exec (.ldD 0 0 1 3 0) (atMem 0 fullCore)) = some 2 ∧ chk (exec (.ldD 0 9 1 3 0) (atMem 0 fullCore)) (fun t =>
    (t.core 0).pipe.pend.length == 1) = true := by decide +kernel

theorem witness_far_accesses : Away (atMem 0 memCore) (address (memCore.a 2) 0 8) 8 (spadBase 1 + 64) (armed (atMem 0 memCore) 1 1 64 1).head? ∧
    Barred shadowed (address (memCore.a 2) 0 8) 8 ∧ CoreRuns shadowed 0 0 (.ldD 0 0 2 3 0) ∧
    Away (atHelm 0 farCore) (address (farCore.a 1) 0 8) 8 0x3F0000000000 none ∧ CoreRuns (atHelm 0 farCore) 24576 0 (.ldD 0 0 1 3 0) ∧
    Barred (atHelm 0 farCore) (address (farCore.a 2) 0 4) 4 ∧ CoreRuns (atHelm 0 farCore) 24576 0 (.stW 0 6 2 3 0) ∧
    (AmoForm (.amoW 0 0 4 6 3) (0, 0, 4, 6, 3, 4) ∧ CoreRuns (atMem 0 memCore) 0 0 (.amoW 0 0 4 6 3) ∧ place (atMem 0 memCore) (memCore.a 4).toNat 4 = .bad) ∧
    memCore.heldBack 0 3 (spadBase 1 + 64) (spadBase 1 + 72) true = false ∧ aheadCore.heldBack 0 3 (spadBase 1 + 64) (spadBase 1 + 72) true = true := by
  refine ⟨.core 1 1 64 (by decide +kernel) (by decide +kernel), .half 1 1 64 (by decide +kernel) (by decide +kernel), ?_,
    .memory _ (by decide +kernel) (by decide), ?_, .control 0x3F0000000004 (by decide +kernel) (by decide +kernel) (by decide), ?_, ⟨.amoW .., ?_, by decide +kernel⟩,
    by decide +kernel, by decide +kernel⟩ <;> unfold CoreRuns <;> decide +kernel

theorem test_far_accesses : faultCode (exec (.ldD 0 0 2 3 0) shadowed) = some [2] ∧ faultCode (exec (.ldD 0 9 2 3 0) (atMem 0 memCore)) = some [2] ∧
    faultCode (exec (.stW 0 6 2 3 0) (atHelm 0 farCore)) = some [2] ∧ faultCode (exec (.amoW 0 0 4 6 3) (atMem 0 memCore)) = some [7] ∧
    chk (exec (.ldD 0 0 1 3 0) (atHelm 0 farCore)) (fun t => (t.core 24576).remotes.map (fun r => (r.pa, r.oc)) == [(0x3F0000000000, 3)]) = true ∧
    stallCause (exec (.stD 0 6 2 3 0) (atMem 0 aheadCore)) = some 4 := by decide +kernel

theorem witness_flags_that_lead_nowhere : CoreRuns (atMem 0 memCore) 0 0 (.facqW 0 8 5 0 1 1 0) ∧ NoFlag (atMem 0 memCore) (flagWord (memCore.a 8) 0) ∧
    CoreRuns (atMem 0 memCore) 0 0 (.frel 0 4 5 0 1 1 0) ∧ NoFlag (atMem 0 memCore) (flagWord (memCore.a 4) 0) ∧
    CoreRuns (atHelm 0 farCore) 24576 0 (.facqT 0 4 1 5 0 1 1 0) ∧ NoFlag (atHelm 0 farCore) (flagWord (farCore.a 1) 0) ∧
    CoreRuns shadowed 0 0 (.facqW 0 2 5 0 1 3 0) ∧ place shadowed (flagWord (memCore.a 2) 0) 8 = .remote 1 1 64 ∧ (shadowed.core 1).inAlt 64 = true ∧
    SkiffRuns (skiffMem 0 memCore) 0 1 0 (.frel 0 8 5 0 1 1 0) ∧ NoFlag (skiffMem 0 memCore) (flagWord (memCore.a 8) 0) ∧
    SkiffRuns (skiffMem 0 memCore) 0 1 0 (.facqW 0 2 5 0 1 3 0) ∧ place (skiffMem 0 memCore) (flagWord (memCore.a 2) 0) 8 = .remote 1 1 64 ∧
    ¬ Owes (skiffMem 0 memCore) 0 0 := by
  refine ⟨?_, .inl (by decide +kernel), ?_, .inr (.inl (by decide +kernel)), ?_, .inr (.inr ⟨0x3F0000000000, by decide +kernel⟩), ?_, by decide +kernel, by decide +kernel, ?_,
    .inl (by decide +kernel), ?_, by decide +kernel, ?_⟩ <;> (try unfold CoreRuns) <;> (try unfold SkiffRuns) <;> (try unfold Owes) <;> decide +kernel

theorem test_flags_that_lead_nowhere : faultCode (exec (.facqW 0 4 5 0 1 1 0) (atMem 0 memCore)) = some [2] ∧ faultCode (exec (.facqW 0 2 5 0 1 3 0) shadowed) = some [2] ∧
    faultCode (exec (.facqT 0 4 1 5 0 1 1 0) (atHelm 0 farCore)) = some [2] ∧
    chk (exec (.facqW 0 2 5 0 1 3 0) (skiffMem 0 memCore)) (fun t => (t.skiff 0 1).wait == .migrate 1 false) = true := by decide +kernel

/-! ### Rounding, trees, and statements that were widened -/

theorem witness_floats : FloatIs (precision 0) 0x3FF8000000000000 (3 / 2) ∧ FloatIs (precision 0) 0x8000000000000000 0 ∧ f16 ∈ [f64, f32, f16, bf16, e4m3, e5m2] := by
  have h : precision 0 = f64 := rfl
  refine ⟨⟨by decide, ?_⟩, ⟨by decide, ?_⟩, by decide⟩ <;> norm_num [magnitude, h, f64]

theorem test_magnitudes : magnitude f16 1 = 2 ^ (-24 : Int) ∧ magnitude f16 0x3E00 = 3 / 2 ∧ magnitude f16 0x7C00 = 65536 ∧ magnitude e4m3 0x7F = 480 := by
  norm_num [magnitude, f16, e4m3]

/-- 2,049 lies half-way between two binary16 values, and goes to the even code (02 R61). -/
theorem test_rounds_to_even : NearestCode f16 (2049 < ·) (2049 = ·) 0x6800 ∧ encodeFloat f16 0 0 0 (.fin false 2049 0) = 0x6800 := by
  refine ⟨⟨.inr ⟨?_, by decide⟩, fun k hk => ?_⟩, by decide⟩
  · norm_num [magnitude, f16]
  · obtain rfl : k = 0x67FF := by omega
    norm_num [magnitude, f16]

theorem witness_trees : TreeOf Val.add [Val.ofInt 1, Val.ofInt 2, Val.ofInt 3] ((Val.add (Val.ofInt 1) (Val.ofInt 2)).add (Val.ofInt 3)) ∧
    ScanOf Val.add [Val.ofInt 1, Val.ofInt 2, Val.ofInt 3] 2 ((Val.add (Val.ofInt 1) (Val.ofInt 2)).add (Val.ofInt 3)) ∧
    ([{ raw := 0, val := .zero false }] : List Elt) ≠ [] ∧ (Shape.of (dense 0x1000 16)).total ≠ 0 :=
  ⟨.cut 1 [Val.ofInt 1, Val.ofInt 2] [Val.ofInt 3] _ _ rfl (by decide) (by decide) (.cut 0 [_] [_] _ _ rfl (by decide) (by decide) (.one _) (.one _)) (.one _),
    .more 2 0 2 _ _ rfl (by decide) (by decide) (.whole 1 1 _ rfl (.cut 0 [_] [_] _ _ rfl (by decide) (by decide) (.one _) (.one _))) (.one _), by decide, by decide⟩

theorem witness_handover : (endedLease.core 2).run.lease = 3 ∧ (endedLease.core (0 + ((endedLease.quad 0).last + 1 + 0) % 4)).run.lease = 1 ∧
    (∀ i, i < 4 → (endedLease.core i).run.lease ≠ 2) := by decide +kernel

/-- A write of CARVE5 waits for the end of its cycle on a helm. -/
def carving : State := { atHelm 5 { prim with pipe := { prim.pipe with eoc := [.ctl 0x115 7] } } with cores := [(24576, { prim with pipe := { prim.pipe with eoc := [.ctl 0x115 7] } })] }

theorem witness_carve : EndsWith carving 24576 none [.ctl 0x115 7] ∧ (carving.core 24576).pipe.pend = [] := by
  unfold EndsWith; and_intros <;> (first | rfl | decide +kernel)

theorem test_carve : chk (exec (.resultLanding 24576) carving) (fun t => (t.helm 24576).carve[5] == 7) = true := by decide +kernel

/-- Record 0 of die 0 is open, for core 0 of no sailing; its node 0 is its tip. -/
def opened : SeqRec := { nodes := { st := 2 } :: List.replicate 63 {} }
def withRecord (op v : Nat) : State := { blocks with dies := [(0, { sq := [{ blockCmd op with variant := v }], records := [(0, opened)] })] }
def viewOf (op v : Nat) : SqView := sqView (withRecord op v) 0 { blockCmd op with variant := v }

theorem witness_sequence : PlainTarget 0 ∧ ¬ PlainTarget (2 ^ 13) ∧ (viewOf 0x19 0).record 0 = some opened ∧ Owned (viewOf 0x19 0) 0 0 opened ∧
    (viewOf 0x19 0).checks 0 0 = 0 ∧ (viewOf 0x1C 1).checks 0 0 = 0 ∧ (opened.node (viewOf 0x19 0).n).st = 2 ∧
    (∃ u, Served (withRecord 0x19 0) (({ blockCmd 0x19 with variant := 0 } : SqCmd).words (withRecord 0x19 0) false) 0 u) ∧
    selected [] 0 = [] := by
  refine ⟨?_, ?_, ?_, ⟨?_, ?_, ?_, ?_, ?_, ?_⟩, ?_, ?_, ?_, ⟨_, _, rfl, ?_⟩, ?_⟩ <;> (try unfold PlainTarget) <;> decide +kernel

/-- The header of a row with a wrong CRC. -/
theorem witness_bad_row : rowHeader 0 % 256 = crcBits (rowHeader 0 / 2 ^ 8) 56 0 ∧ (rowHeader 0 + 1) % 256 ≠ crcBits ((rowHeader 0 + 1) / 2 ^ 8) 56 0 := by decide +kernel

theorem test_bad_row : (arrival 3 (rowHeader (3 * 2 ^ 17) + 1)).read (spadBase 0 + 0x1000) 8 = 0 := by decide +kernel

/-- A loaded sailing begins; one that runs goes on. -/
def starting (running : Bool) : State := { ending 0 false {} with sailings := [(0, { (ending 0 false {}).sailing 0 with loaded := !running, running := running, t := 0, start := 3 })] }

theorem witness_begins : (starting false).sailings.map Prod.fst = [0] ∧ ((starting false).sailing 0).loaded = true ∧ ((starting false).sailing 0).running = false ∧
    ((starting true).sailing 0).loaded = false ∧ ((starting true).sailing 0).running = true := by decide +kernel

theorem test_begins : ((advanceSailings (starting false)).sailing 0).state = 1 ∧ ((advanceSailings (starting false)).sailing 0).start = 1000 ∧
    ((advanceSailings (starting false)).core 3).run.t = 0 ∧ ((advanceSailings (starting true)).core 3).run.t = 1 := by decide +kernel

/-- The launch in task mode, whose root task has its arguments at 0x400 of the helm. -/
def taskLaunch : State := { launching true with sailings := [(0, { (launching true).sailing 0 with task := true, rootarg := 0x400 })]
                                                mem := putWords (launching true).mem (spadBase 24576 + 0x400) [11, 22] }

theorem witness_task_launch : Launching taskLaunch 0 ∧ refusal taskLaunch 0 (taskLaunch.sailing 0) = none ∧ EntryGood taskLaunch 0 ∧ quadsAsked taskLaunch 0 = [5] := by
  unfold Launching EntryGood; and_intros <;> decide +kernel

theorem test_task_launch : chk (exec (.sailingStart 0) taskLaunch) (fun t => (t.core 20).x 1 == 11 && (t.core 20).x 2 == 22 && (t.core 20).run.live && !(t.core 21).run.live) = true := by
  decide +kernel

/-- A helm's access to control space, and a primary's to HBM of which its die has a replica. -/
def helmAccess (pa : Nat) (op : RemoteOp) : State := { cores := [(24576, { prim with remotes := [{ taken op with pa := pa }] })] }
def replicated : State := { performing { taken .load with pa := 0x10000 } with dies := [(0, { replicas := [(0x10000 / 64, 5)] })] }

theorem witness_control_space : ToPerform (helmAccess (dieBase 1 + 8) (.store 5)) 24576 { taken (.store 5) with pa := dieBase 1 + 8 } ∧ isHelm 24576 = true ∧
    spadOwner (dieBase 1 + 8) = none ∧ ToPerform (helmAccess (dieBase 1 + 0x5000040) .load) 24576 { taken .load with pa := dieBase 1 + 0x5000040 } ∧
    ToPerform replicated 0 { taken .load with pa := 0x10000 } ∧ (replicated.die 0).replicas = [(0x10000 / 64, 5)] := by
  refine ⟨⟨rfl, rfl, rfl, .inl rfl, rfl, fun n h => by cases h⟩, by decide, by decide, ⟨rfl, rfl, rfl, .inl rfl, rfl, fun n h => by cases h⟩,
    ⟨rfl, rfl, rfl, .inl rfl, rfl, fun n h => ?_⟩, rfl⟩
  obtain rfl : n = 0 := by injection h with h; exact h.symm
  rfl

theorem test_control_space : (performRemote (helmAccess (dieBase 1 + 8) (.store 5)) 24576 0 { taken (.store 5) with pa := dieBase 1 + 8 }).mem.read (dieBase 1 + 8) 8 = 5 ∧
    replicated.readVia 0 0x10000 8 = 5 := by decide +kernel

/-- A word of HBM, or of core 5's scratchpad, has an error of n bits from cycle 0. -/
def erring (pa n : Nat) : State := { wall := 2 ^ 28, upsets := [{ word := pa / 8, bits := n, at_ := 0 }] }

theorem witness_upsets : (erring 0x40 1).upsets = [{ word := 8, bits := 1, at_ := 0 }] ∧ spadOwner (8 * (spadBase 5 / 8)) = some 5 ∧
    0 + 2 ^ 28 ≤ (erring (spadBase 5) 1).wall + 1 := by decide +kernel

theorem test_upsets : chk (exec (.hbmPatrolScrub 0) (erring 0x40 2)) (fun t => t.upsets == [] && t.poisoned 0x40 && (t.die (hbmDie 0x40)).ueHbm == 1) = true ∧
    chk (exec (.hbmPatrolScrub 1) (erring 0x40 2)) (fun t => t.upsets.length == 1) = true ∧
    ((scrub (erring (spadBase 5) 1)).die 0).ceSram = 1 ∧ (scrub (erring (spadBase 5) 1)).upsets = [] := by decide +kernel

end Sys2Proof.Tests
end

section
/-! SUPPORT. What the executing agent reads and writes, and what an operation that issues by itself comes to (03 R90 to R97, R120). -/

namespace Sys2Proof.Proofs
open Sys2Proof Sys2Proof.Machine Sys2Proof.Claims

/-! ### The executing agent's own record -/

theorem me_of_core {s : State} {p : Nat} (h : s.cur.agent = .core p) : s.me = p := by
  simp [State.me, h, Agent.home]

theorem own_of_core {s : State} {p : Nat} (h : s.cur.agent = .core p) : s.own = s.core p := by
  rw [State.own, me_of_core h]

theorem modOwn_of_core {s : State} {p : Nat} (h : s.cur.agent = .core p) (f : Core → Core) : s.modOwn f = s.modCore p f := by
  rw [State.modOwn, me_of_core h]

theorem guard_of_core {s : State} {p : Nat} (h : s.cur.agent = .core p) (g : BitVec 4) : s.guard g = (s.core p).g g := by
  simp [State.guard, h]

theorem guard_of_skiff {s : State} {p : Nat} {j : BitVec 3} (h : s.cur.agent = .skiff p j) (g : BitVec 4) :
    s.guard g = (s.skiff p j).guard g := by
  simp [State.guard, h]

theorem srcA_of_core {s : State} {p : Nat} (h : s.cur.agent = .core p) (r : BitVec 5) : srcA r s = (s.core p).a r := by
  simp [srcA, h]

theorem srcC_of_core {s : State} {p : Nat} (h : s.cur.agent = .core p) (r : BitVec 5) : srcC r s = (s.core p).c (r.truncate 4) := by
  simp [srcC, h]

theorem noResult_of_core {s : State} {p : Nat} (h : s.cur.agent = .core p) (lat : Nat) : noResult lat s = s := by
  simp [noResult, h]

theorem noResult_of_skiff {s : State} {p : Nat} {j : BitVec 3} (h : s.cur.agent = .skiff p j) (lat : Nat) :
    noResult lat s = skiffResult s p j lat [] [] := by
  simp [noResult, h]

/-! ### Results in flight -/

theorem writeA_of_core {s : State} {p : Nat} (h : s.cur.agent = .core p) (d : BitVec 5) (lat : Nat) (v : Word) :
    writeA d lat v s = .ok (toA s p d lat v) := by
  simp only [writeA, h, toA]
  split <;> rfl

theorem writeC_of_core {s : State} {p : Nat} (h : s.cur.agent = .core p) (d : BitVec 5) (lat : Nat) (v : Word) :
    writeC d lat v s = .ok (toC s p d lat v) := by
  simp only [writeC, h, toC]

theorem writeG_of_core {s : State} {p : Nat} (h : s.cur.agent = .core p) (d : BitVec 4) (v : Bool) :
    writeG d v s = .ok (toG s p d v) := by
  simp only [writeG, h, toG]

/-- The store queue takes a new entry, which the result fills (04 R127). -/
theorem reserveSq_land {s : State} {p : Nat} (h : s.cur.agent = .core p) (lat : Nat) (v : Word) :
    (reserveSq s fun e t => .ok (t.modCore p fun c => c.land t.cur.slot lat (.sq e) v)) = .ok (toSq s p lat v) := by
  simp only [reserveSq, own_of_core h, modOwn_of_core h, State.modCore_cur, toSq]
  rfl

theorem writeX_of_core {s : State} {p : Nat} (h : s.cur.agent = .core p) {d : BitVec 5} (ht : Takes s p .x d) (lat : Nat) (v : Word) :
    writeX d lat v s = .ok (putX s p d lat v) := by
  by_cases hd : d = 31
  · simpa only [writeX, writeReg, h, putX, if_pos hd] using reserveSq_land h lat v
  · simp only [writeX, writeReg, h, putX, if_neg hd, ht.2 hd, toX, reduceCtorEq, if_false]
    split <;> rfl

theorem writeF_of_core {s : State} {p : Nat} (h : s.cur.agent = .core p) {d : BitVec 5} (ht : Takes s p .f d) (lat : Nat) (v : Word) :
    writeF d lat v s = .ok (putF s p d lat v) := by
  by_cases hd : d = 31
  · simpa only [writeF, writeReg, h, putF, if_pos hd] using reserveSq_land h lat v
  · simp only [writeF, writeReg, h, putF, if_neg hd, ht.2 hd, toF, if_true]

/-! ### What a result in flight leaves of the queues -/

@[simp] theorem queues_toA (s : State) (p : Nat) (d : BitVec 5) (lat : Nat) (v : Word) :
    ((toA s p d lat v).core p).queues = (s.core p).queues := by
  unfold toA; split <;> simp

@[simp] theorem queues_toX (s : State) (p : Nat) (d : BitVec 5) (lat : Nat) (v : Word) :
    ((toX s p d lat v).core p).queues = (s.core p).queues := by
  unfold toX; split <;> simp

@[simp] theorem queues_toF (s : State) (p : Nat) (d : BitVec 5) (lat : Nat) (v : Word) :
    ((toF s p d lat v).core p).queues = (s.core p).queues := by simp [toF]

@[simp] theorem queues_toM (s : State) (p : Nat) (d : BitVec 5) (lat : Nat) (v : Word) :
    ((toM s p d lat v).core p).queues = (s.core p).queues := by simp [toM]

@[simp] theorem queues_toC (s : State) (p : Nat) (d : BitVec 5) (lat : Nat) (v : Word) :
    ((toC s p d lat v).core p).queues = (s.core p).queues := by simp [toC]

@[simp] theorem queues_toG (s : State) (p : Nat) (h : BitVec 4) (v : Bool) :
    ((toG s p h v).core p).queues = (s.core p).queues := by simp [toG]

@[simp] theorem queues_later (s : State) (p : Nat) (e : EndAct) : ((later s p e).core p).queues = (s.core p).queues := by
  simp [later]

@[simp] theorem lq_toSq (s : State) (p lat : Nat) (v : Word) : ((toSq s p lat v).core p).queues.lq = (s.core p).queues.lq := by
  simp [toSq]

@[simp] theorem sq_length_toSq (s : State) (p lat : Nat) (v : Word) :
    ((toSq s p lat v).core p).queues.sq.length = (s.core p).queues.sq.length + 1 := by
  simp [toSq]

@[simp] theorem cur_toA (s : State) (p : Nat) (d : BitVec 5) (lat : Nat) (v : Word) : (toA s p d lat v).cur = s.cur := by
  unfold toA; split <;> rfl

@[simp] theorem cur_putX (s : State) (p : Nat) (d : BitVec 5) (lat : Nat) (v : Word) : (putX s p d lat v).cur = s.cur := by
  unfold putX toX; split_ifs <;> rfl

@[simp] theorem cur_putF (s : State) (p : Nat) (d : BitVec 5) (lat : Nat) (v : Word) : (putF s p d lat v).cur = s.cur := by
  unfold putF; split <;> rfl

/-! ### Room in the queues -/

/-- The queues of core p hold no more than they can (04 R127). -/
def Roomy (s : State) (p : Nat) : Prop := (s.core p).queues.lq.length ≤ 32 ∧ (s.core p).queues.sq.length ≤ 32

theorem Roomy.of_queues {s t : State} {p : Nat} (h : Roomy s p) (hq : (t.core p).queues = (s.core p).queues) : Roomy t p := by
  unfold Roomy; rw [hq]; exact h

theorem Roomy.toSq {s : State} {p : Nat} (h : Roomy s p) (hs : (s.core p).queues.sq.length < 32) (lat : Nat) (v : Word) :
    Roomy (toSq s p lat v) p :=
  ⟨by rw [lq_toSq]; exact h.1, by rw [sq_length_toSq]; exact hs⟩

theorem Roomy.putX {s : State} {p : Nat} (h : Roomy s p) {d : BitVec 5} (ht : Takes s p .x d) (lat : Nat) (v : Word) :
    Roomy (putX s p d lat v) p := by
  unfold Claims.putX
  split
  · next hd => exact h.toSq (ht.1 hd) lat v
  · exact h.of_queues (queues_toX ..)

theorem Roomy.putF {s : State} {p : Nat} (h : Roomy s p) {d : BitVec 5} (ht : Takes s p .f d) (lat : Nat) (v : Word) :
    Roomy (putF s p d lat v) p := by
  unfold Claims.putF
  split
  · next hd => exact h.toSq (ht.1 hd) lat v
  · exact h.of_queues (queues_toF ..)

/-! ### Reads of the X and F files -/

/-- A read that succeeds goes on with its value, in the state after it (04 R128, R136). -/
theorem withReg_of_reads {file : FileId} {p : Nat} {r : BitVec 5} {s t : State} {v : Word} (h : Reads file p r s v t)
    (ha : s.cur.agent = .core p) (k : Word → State → Res) : withReg file r s k = k v t := by
  cases h with
  | plain h =>
    obtain ⟨hr, -, hb⟩ := h
    simp only [withReg, ha, if_neg hr, hb]
  | queue e rest _ hr hq hv hb =>
    obtain ⟨id, val, bad⟩ := e
    obtain rfl : val = some v := hv
    obtain rfl : bad = none := hb
    simp only [withReg, ha, if_pos hr, popLq, own_of_core ha, modOwn_of_core ha, hq]
  | port i q _ rest hr hp ht hn hb =>
    simp only [withReg, ha, if_neg hr, hp, popPort, own_of_core ha, modOwn_of_core ha, if_neg (Nat.not_le.mpr hn),
      if_neg (Nat.not_lt.mpr ht), hb]

theorem cur_of_reads {file : FileId} {p : Nat} {r : BitVec 5} {s t : State} {v : Word} (h : Reads file p r s v t) : t.cur = s.cur := by
  cases h <;> rfl

/-- A read takes at most an entry of the load queue. -/
theorem roomy_of_reads {file : FileId} {p : Nat} {r : BitVec 5} {s t : State} {v : Word} (h : Reads file p r s v t) (hs : Roomy s p) :
    Roomy t p := by
  cases h with
  | plain => exact hs
  | queue e rest _ hr hq =>
    obtain ⟨hl, hsq⟩ := hs
    rw [hq, List.length_cons] at hl
    exact ⟨by simp; omega, by simpa using hsq⟩
  | port => exact hs.of_queues (by simp)

/-! ### Operations at issue -/

theorem roomy_of_coreRuns {s : State} {p : Nat} {g : BitVec 4} {i : Instr} (h : CoreRuns s p g i) : Roomy s p := h.2.2.2

/-- Where the queues have room, an effect of an operation by itself is its next state. -/
theorem finish_queueLimit_ok {s t : State} {p : Nat} (ht : t.cur.agent = .core p) (hr : Roomy t p) :
    finish s (queueLimit (.ok t)) = .next t := by
  rw [queueLimit_ok (by rw [own_of_core ht]; exact hr.1) (by rw [own_of_core ht]; exact hr.2), finish_ok]

/-- An operation that runs, and takes effect, completes. -/
theorem completes_of_coreRuns {s t : State} {p : Nat} {g : BitVec 4} {i : Instr} {body : State → Res} (h : CoreRuns s p g i)
    (he : exec i s = finish s (queueLimit (issue i g body s))) (hb : body s = .ok t) (hc : t.cur = s.cur) (hr : Roomy t p) :
    Completes i s t := by
  obtain ⟨ha, hf, hg, -⟩ := h
  unfold Completes
  rw [he, issue_good hf (guard_of_core ha g ▸ hg), hb, Res.lowest_ok, finish_queueLimit_ok (hc ▸ ha) hr]

/-- An operation that runs, and faults, leaves the state in which its fault is taken. -/
theorem faults_of_coreRuns {s : State} {p code detail : Nat} {g : BitVec 4} {i : Instr} {body : State → Res} (h : CoreRuns s p g i)
    (he : exec i s = finish s (queueLimit (issue i g body s))) (hb : body s = .fault code detail) :
    Completes i s (takeFault s code detail) := by
  obtain ⟨ha, hf, hg, -⟩ := h
  unfold Completes
  rw [he, issue_good hf (guard_of_core ha g ▸ hg), hb, Res.lowest_fault, queueLimit_fault, finish_fault]

/-- An operation whose encoding is good has good fields. -/
theorem badField_of_encodingFault {s : State} {i : Instr} (h : encodingFault s i = none) : i.badField = none := by
  cases hb : i.badField with
  | none => rfl
  | some n =>
    unfold encodingFault at h
    dsimp only at h
    split at h
    · cases h
    · cases hg : badGuard s i.guardUse <;> simp [hg, hb] at h

/-! ### Slot instructions -/

/-- A slot instruction by itself does what it does in its slot. -/
theorem exec_of_slotClass {i : Instr} {k : SlotClass} (h : i.slotClass = some k) (s : State) :
    exec i s = finish s (queueLimit (slotRes i s)) := by
  cases i <;> cases h <;> rfl

/-- A slot instruction issues under one guard, which is the guard of its guard field where it has one among its operands. -/
theorem slotRes_issues {i : Instr} {k : SlotClass} (h : i.slotClass = some k) :
    ∃ g body, (∀ s, slotRes i s = issue i g body s) ∧ ∀ g', (8, g') ∈ i.guardUse → g' = g := by
  cases i <;> cases h <;> exact ⟨_, _, fun _ => rfl, by simp [Instr.guardUse]⟩

/-- An event names no guard. -/
theorem guardUse_of_event {i : Instr} (h : i.slotClass = none) : i.guardUse = [] := by
  cases i <;> cases h <;> rfl

/-- An instruction with a guard field is a slot instruction, and issues under that guard. -/
theorem slotRes_of_guardUse {i : Instr} {g : BitVec 4} (h : (8, g) ∈ i.guardUse) :
    ∃ k body, i.slotClass = some k ∧ ∀ s, slotRes i s = issue i g body s := by
  cases hk : i.slotClass with
  | none => rw [guardUse_of_event hk] at h; cases h
  | some k =>
    obtain ⟨g', body, hb, hg⟩ := slotRes_issues hk
    obtain rfl := hg g h
    exact ⟨k, body, rfl, hb⟩

/-- An instruction that is no cp stands in its own class. -/
theorem slotClassIn_of_slotClass {i : Instr} {k : SlotClass} (h : i.slotClass = some k) (hcp : k = .a → i.opcode ≠ 63) (s : State) :
    slotClassIn s i = k := by
  unfold slotClassIn
  split
  · cases h; exact absurd rfl (hcp rfl)
  · rw [h]; rfl

/-- A word that is not for its agent has that fault, before any other of its encoding (03 R101). -/
theorem encodingFault_of_agentFault {s : State} {i : Instr} {f : Nat × Nat} (h : agentFault s (slotClassIn s i) i.opcode = some f) :
    encodingFault s i = some f := by
  simp [encodingFault, h]

/-- The lease replaces an illegal operand alone (07 R225). -/
theorem leaseFirst_of_ne {s : State} {k : SlotClass} {op : Nat} {g : BitVec 4} {f : Nat × Nat} (h : f.1 ≠ 0x02) : leaseFirst s k op g f = f := by
  simp [leaseFirst, h]

/-- A slot instruction that is not for its agent raises the fault of that. -/
theorem slotRes_of_agentFault {s : State} {i : Instr} {k : SlotClass} {code detail : Nat} (h : i.slotClass = some k)
    (hcp : k = .a → i.opcode ≠ 63) (hf : agentFault s k i.opcode = some (code, detail)) (hc : code ≠ 0x02) :
    slotRes i s = .fault code detail := by
  obtain ⟨g, body, hb, -⟩ := slotRes_issues h
  rw [← slotClassIn_of_slotClass h hcp s] at hf
  rw [hb, issue_bad (encodingFault_of_agentFault hf), leaseFirst_of_ne hc]

/-- By itself it takes that fault. -/
theorem exec_of_agentFault {s : State} {i : Instr} {k : SlotClass} {code detail : Nat} (h : i.slotClass = some k)
    (hcp : k = .a → i.opcode ≠ 63) (hf : agentFault s k i.opcode = some (code, detail)) (hc : code ≠ 0x02) :
    exec i s = .next (takeFault s code detail) := by
  rw [exec_of_slotClass h, slotRes_of_agentFault h hcp hf hc, queueLimit_fault, finish_fault]

end Sys2Proof.Proofs
end

section
/-! SUPPORT. A false guard leaves no effect, and a word that is not for its agent faults (03 R91, R101; 05 R168; 13 R364). -/

namespace Sys2Proof.Proofs
open Sys2Proof Sys2Proof.Machine Sys2Proof.Claims

theorem exec_of_false_guard_core {s : State} {p : Nat} {i : Instr} {g : BitVec 4} (hi : (8, g) ∈ i.guardUse)
    (ha : s.cur.agent = .core p) (hf : encodingFault s i = none) (hg : (s.core p).g g = false) (hr : Roomy s p) : exec i s = .next s := by
  obtain ⟨k, body, hk, hb⟩ := slotRes_of_guardUse hi
  rw [exec_of_slotClass hk, hb, issue_skip hf (by rw [guard_of_core ha, hg]), noResult_of_core ha, finish_queueLimit_ok ha hr]

theorem slotRes_of_false_guard_skiff {s : State} {p : Nat} {j : BitVec 3} {i : Instr} {g : BitVec 4} (hi : (8, g) ∈ i.guardUse)
    (ha : s.cur.agent = .skiff p j) (hf : encodingFault s i = none) (hg : (s.skiff p j).guard g = false) :
    slotRes i s = .ok (skiffResult s p j 0 [] []) := by
  obtain ⟨k, body, -, hb⟩ := slotRes_of_guardUse hi
  rw [hb, issue_skip hf (by rw [guard_of_skiff ha, hg]), noResult_of_skiff ha]

/-! ### The agents of an opcode, as the rules list them -/

theorem agentFault_skiffOnly {s : State} {p n : Nat} {k : SlotClass} (ha : s.cur.agent = .core p)
    (h : (k = .a ∧ 0x40 ≤ n ∧ n ≤ 0x49) ∨ (k = .c ∧ 0x20 ≤ n ∧ n ≤ 0x23)) : agentFault s k n = some (0x01, 9) := by
  have hs : skiffOnly k n = true := by
    rcases h with ⟨rfl, h⟩ | ⟨rfl, h⟩ <;> simp [skiffOnly, h]
  simp [agentFault, ha, hs]

theorem agentFault_helmOnly_core {s : State} {p n : Nat} (ha : s.cur.agent = .core p) (hp : isHelm p = false)
    (h1 : 0x30 ≤ n) (h2 : n ≤ 0x39) : agentFault s .c n = some (0x03, 0x500 + n) := by
  have hs : skiffOnly .c n = false := by simp [skiffOnly]; omega
  simp [agentFault, ha, hp, hs, helmOnly, h1, h2, slotNo]

theorem agentFault_notHelm {s : State} {p n : Nat} {k : SlotClass} (ha : s.cur.agent = .core p) (hp : isHelm p = true)
    (h : k = .v ∨ k = .m ∨ (k = .a ∧ 0x15 ≤ n ∧ n ≤ 0x18) ∨ (k = .c ∧ (n = 6 ∨ (0x0C ≤ n ∧ n ≤ 0x0E) ∨ (0x12 ≤ n ∧ n ≤ 0x1C)))) :
    agentFault s k n = some (0x01, 9) := by
  have hn : notHelm k n = true := by
    rcases h with rfl | rfl | ⟨rfl, h⟩ | ⟨rfl, h⟩
    · rfl
    · rfl
    · simp [notHelm, h]
    · simp [notHelm]; omega
  simp [agentFault, ha, hp, hn]

theorem agentFault_helmOnly_skiff {s : State} {p n : Nat} {j : BitVec 3} (ha : s.cur.agent = .skiff p j)
    (h1 : 0x30 ≤ n) (h2 : n ≤ 0x39) : agentFault s .c n = some (0x03, 0x500 + n) := by
  simp [agentFault, ha, helmOnly, h1, h2, slotNo]

theorem agentFault_notSkiff {s : State} {p n : Nat} {j : BitVec 3} {k : SlotClass} (ha : s.cur.agent = .skiff p j)
    (h : k = .f ∨ k = .v ∨ k = .m ∨ (k = .a ∧ 0x15 ≤ n ∧ n ≤ 0x18) ∨
      (k = .c ∧ ((4 ≤ n ∧ n ≤ 7) ∨ (0x0B ≤ n ∧ n ≤ 0x0E) ∨ (0x10 ≤ n ∧ n ≤ 0x13)))) : agentFault s k n = some (0x01, 9) := by
  have hh : helmOnly k n = false := by
    rcases h with rfl | rfl | rfl | ⟨rfl, h⟩ | ⟨rfl, h⟩
    · rfl
    · rfl
    · rfl
    · rfl
    · simp [helmOnly]; omega
  have hn : notSkiff k n = true := by
    rcases h with rfl | rfl | rfl | ⟨rfl, h⟩ | ⟨rfl, h⟩
    · rfl
    · rfl
    · rfl
    · simp [notSkiff, h]
    · simp [notSkiff]; omega
  simp [agentFault, ha, hh, hn]

/-- Settles O38: a false guard leaves issue without its meaning, and the agent of a word is checked before all else. -/
theorem guardsAndAgents : Obligations.GuardsAndAgents := by
  refine ⟨fun s p i g hi ha hf hg hl hs => exec_of_false_guard_core hi ha hf hg ⟨hl, hs⟩,
    fun s p j i g => slotRes_of_false_guard_skiff, fun s p n i k hk ha hn => ⟨?_, ?_, ?_⟩, fun s p n j i k hk ha hn => ⟨?_, ?_⟩⟩ <;> subst hn
  · intro h
    exact exec_of_agentFault hk (by rintro rfl; simp at h; omega) (agentFault_skiffOnly ha h) (by decide)
  · rintro hp rfl h1 h2
    exact exec_of_agentFault hk nofun (agentFault_helmOnly_core ha hp h1 h2) (by decide)
  · intro hp h
    exact exec_of_agentFault hk (by rintro rfl; simp at h; omega) (agentFault_notHelm ha hp h) (by decide)
  · rintro rfl h1 h2
    exact slotRes_of_agentFault hk nofun (agentFault_helmOnly_skiff ha h1 h2) (by decide)
  · intro h
    exact slotRes_of_agentFault hk (by rintro rfl; simp at h; omega) (agentFault_notSkiff ha h) (by decide)

end Sys2Proof.Proofs
end

section
/-! SUPPORT. cp, cli and gop, and the words of cli and gop (03 R90, R94, R102, R113, R114). -/

namespace Sys2Proof.Proofs
open Sys2Proof Sys2Proof.Machine Sys2Proof.Claims Sys2Proof.Laws

/-! ### Fields of a word -/

/-- A field of m + n bits is below 2^m where its n high bits are zero. -/
theorem extractLsb'_lt_two_pow_iff {w : Nat} (x : BitVec w) (lo m n : Nat) :
    (x.extractLsb' lo (m + n)).toNat < 2 ^ m ↔ x.extractLsb' (lo + m) n = 0 := by
  rw [← Nat.div_eq_zero_iff_lt (Nat.two_pow_pos m), ← BitVec.toNat_inj, BitVec.extractLsb'_toNat, BitVec.extractLsb'_toNat,
    Nat.shiftRight_eq_div_pow, Nat.shiftRight_eq_div_pow, Nat.pow_add 2 m n, Nat.mod_mul_right_div_self, Nat.div_div_eq_div_mul, ← Nat.pow_add]
  rfl

theorem decodeSlot_error {k : SlotClass} {w e : Code} {b : Bad} (h : parseSlot k w e = .error b) : decodeSlot k w e = .error b := by
  unfold decodeSlot; rw [h]

theorem decodeSlot_cli {w : Code} (e : Code) (h : w.extractLsb' 25 7 = 9) (hd : w.extractLsb' 20 1 = 0) :
    decodeSlot .c w e = .ok (.cli (w.extractLsb' 21 4) (w.extractLsb' 16 5) (w.extractLsb' 0 16)) := by
  have hd : (w.extractLsb' 16 5).toNat < 2 ^ 4 := (extractLsb'_lt_two_pow_iff w 16 4 1).mpr hd
  exact decodeSlot_ok (parseC_9 w h) (if_neg (by omega))

theorem decodeSlot_gop {w : Code} (e : Code) (h : w.extractLsb' 25 7 = 8) (h0 : w.extractLsb' 20 1 = 0) (h1 : w.extractLsb' 15 1 = 0)
    (h2 : w.extractLsb' 10 1 = 0) (h4 : w.extractLsb' 3 3 = 0) (hd : w.extractLsb' 16 4 ≠ 0) : decodeSlot .c w e =
      .ok (.gop (w.extractLsb' 21 4) (w.extractLsb' 16 4) (w.extractLsb' 11 4) (w.extractLsb' 6 4) (w.extractLsb' 0 3)) := by
  have hp := parseC_8 w h
  rw [h0, h1, h2, h4] at hp
  exact decodeSlot_ok hp (if_neg hd)

/-- A gop with a reserved bit set, or with g0 as its destination, is refused by the operand's number. -/
theorem decodeSlot_gop_refused {w : Code} (e : Code) (h : w.extractLsb' 25 7 = 8) (hbad : w.extractLsb' 20 1 ≠ 0 ∨ w.extractLsb' 15 1 ≠ 0 ∨
    w.extractLsb' 10 1 ≠ 0 ∨ w.extractLsb' 3 3 ≠ 0 ∨ w.extractLsb' 16 4 = 0) : ∃ n, decodeSlot .c w e = .error (.operand n) := by
  have hp : parseSlot .c w e = _ := parseC_8 w h
  by_cases h0 : w.extractLsb' 20 1 ≠ 0
  · rw [if_pos h0] at hp
    exact ⟨0, decodeSlot_error hp⟩
  by_cases h1 : w.extractLsb' 15 1 ≠ 0
  · rw [if_neg h0, if_pos h1] at hp
    exact ⟨1, decodeSlot_error hp⟩
  by_cases h2 : w.extractLsb' 10 1 ≠ 0
  · rw [if_neg h0, if_neg h1, if_pos h2] at hp
    exact ⟨2, decodeSlot_error hp⟩
  by_cases h4 : w.extractLsb' 3 3 ≠ 0
  · rw [if_neg h0, if_neg h1, if_neg h2, if_pos h4] at hp
    exact ⟨4, decodeSlot_error hp⟩
  · have hd : w.extractLsb' 16 4 = 0 := by tauto
    rw [if_neg h0, if_neg h1, if_neg h2, if_neg h4] at hp
    exact ⟨0, decodeSlot_bad hp (if_pos hd)⟩

/-! ### cli and gop -/

/-- Where the other checks pass, a special register decides (03 R90). -/
theorem encodingFault_of_badSpecial {s : State} {i : Instr} {n : Nat} (ha : agentFault s (slotClassIn s i) i.opcode = none)
    (hg : badGuard s i.guardUse = none) (hf : i.badField = none) (hr : badReg s (slotClassIn s i) i.regUse = none)
    (hs : badSpecial s (slotClassIn s i) i = some n) : encodingFault s i = some (0x02, n) := by
  simp [encodingFault, ha, hg, hf, hr, hs]

/-- A cli of c14 is an illegal operand in a core, whatever its guard reads (03 R93). -/
theorem encodingFault_cli_c14 {s : State} {p : Nat} (ha : s.cur.agent = .core p) (g : BitVec 4) (v : BitVec 16) :
    encodingFault s (.cli g 14 v) = some (0x02, 0) := by
  have hagent : agentFault s .c 9 = none := by simp [agentFault, ha, skiffOnly, helmOnly, notHelm]
  have hguard : badGuard s [(8, g)] = none := by simp [badGuard, ha]
  have hreg : badReg s .c [⟨true, 0, 14⟩] = none := by simp [badReg, ha]
  have hspecial : badSpecial s .c (.cli g 14 v) = some 0 := by simp only [badSpecial, ha]; rfl
  exact encodingFault_of_badSpecial hagent hguard rfl hreg hspecial

theorem exec_cli_c14 {s : State} {p : Nat} (ha : s.cur.agent = .core p) (g : BitVec 4) (v : BitVec 16) :
    Completes (.cli g 14 v) s (takeFault s 0x02 0) := by
  have hi : slotRes (.cli g 14 v) s = .fault 0x02 0 := by
    show issue (.cli g 14 v) g _ s = _
    rw [issue_bad (encodingFault_cli_c14 ha g v)]
    rfl
  unfold Completes
  rw [exec_of_slotClass rfl, hi, queueLimit_fault, finish_fault]

theorem guardFn_eq {f : BitVec 3} {x y r : Bool}
    (h : (f = 0 → r = (x && y)) ∧ (f = 1 → r = (x || y)) ∧ (f = 2 → r = (x != y)) ∧ (f = 3 → r = (x && !y)) ∧ (f = 4 → r = (x || !y)) ∧
      (f = 5 → r = !x) ∧ (f = 6 → r = true) ∧ (f = 7 → r = false)) : guardFn f x y = r := by
  obtain ⟨h0, h1, h2, h3, h4, h5, h6, h7⟩ := h
  have hf : f = 0 ∨ f = 1 ∨ f = 2 ∨ f = 3 ∨ f = 4 ∨ f = 5 ∨ f = 6 ∨ f = 7 := by clear * - f; revert f; decide
  rcases hf with rfl | rfl | rfl | rfl | rfl | rfl | rfl | rfl
  · exact (h0 rfl).symm
  · exact (h1 rfl).symm
  · exact (h2 rfl).symm
  · exact (h3 rfl).symm
  · exact (h4 rfl).symm
  · exact (h5 rfl).symm
  · exact (h6 rfl).symm
  · exact (h7 rfl).symm

theorem constantsAndGuardLogic : ConstantsAndGuardLogic := by
  refine ⟨fun s p g d v h => ?_, fun s p g d a b f r h hr => ?_, fun s p g v ha => exec_cli_c14 ha g v, fun w e => decodeSlot_cli e,
    fun w e h => ⟨decodeSlot_gop e h, decodeSlot_gop_refused e h⟩⟩
  · exact completes_of_coreRuns h rfl (writeC_of_core h.1 ..) rfl ((roomy_of_coreRuns h).of_queues (queues_toC ..))
  · have hb : bodyGop d a b f s = .ok (toG s p d r) := by
      rw [bodyGop, guard_of_core h.1, guard_of_core h.1, guardFn_eq (hr _ _ rfl rfl), writeG_of_core h.1]
    exact completes_of_coreRuns h rfl hb rfl ((roomy_of_coreRuns h).of_queues (queues_toG ..))

/-! ### cp -/

/-- The value that a cp reads, and the state after it (03 R102): registers of the A, M, C and H files are read as they stand. -/
def CpReads (p : Nat) (f : BitVec 3) (r : BitVec 5) (q : BitVec 2) (s : State) (v : Word) (t : State) : Prop :=
  (f = 0 → v = (s.core p).a r ∧ t = s) ∧ (f = 1 → Reads .x p r s v t) ∧ (f = 2 → Reads .f p r s v t) ∧
    (f = 3 → v = (s.core p).m (r.truncate 4) ∧ t = s) ∧ (f = 4 → v = (s.core p).c (r.truncate 4) ∧ t = s) ∧
    (f = 5 → v = ((s.core p).h (r.truncate 4)).extractLsb' (64 * q.toNat) 64 ∧ t = s)

/-- A cp whose fields are good names one of the six files. -/
theorem file_of_cp {g : BitVec 4} {d r : BitVec 5} {q : BitVec 2} {f : BitVec 3} (h : (Instr.cp g d r q f).badField = none) : f.toNat ≤ 5 := by
  by_contra hf
  have hbad : (Instr.cp g d r q f).badField = some 4 := if_pos (by omega)
  rw [h] at hbad
  cases hbad

/-- A good cp goes on with what it reads; its cursor and the room in its queues stay. -/
theorem cpSource_of_cpReads {p : Nat} {f : BitVec 3} {r : BitVec 5} {q : BitVec 2} {s t : State} {v : Word} (hf : f.toNat ≤ 5)
    (ha : s.cur.agent = .core p) (h : CpReads p f r q s v t) :
    (∀ k, cpSource f r q s k = k v t) ∧ t.cur = s.cur ∧ (Roomy s p → Roomy t p) := by
  obtain ⟨h0, h1, h2, h3, h4, h5⟩ := h
  have hf' : f = 0 ∨ f = 1 ∨ f = 2 ∨ f = 3 ∨ f = 4 ∨ f = 5 := by clear * - f hf; revert f; decide
  rcases hf' with rfl | rfl | rfl | rfl | rfl | rfl
  · obtain ⟨rfl, rfl⟩ := h0 rfl
    exact ⟨fun k => congrArg (k · t) (srcA_of_core ha r), rfl, id⟩
  · exact ⟨withReg_of_reads (h1 rfl) ha, cur_of_reads (h1 rfl), roomy_of_reads (h1 rfl)⟩
  · exact ⟨withReg_of_reads (h2 rfl) ha, cur_of_reads (h2 rfl), roomy_of_reads (h2 rfl)⟩
  · obtain ⟨rfl, rfl⟩ := h3 rfl
    exact ⟨fun k => congrArg (fun c : Core => k (c.m (r.truncate 4)) t) (own_of_core ha), rfl, id⟩
  · obtain ⟨rfl, rfl⟩ := h4 rfl
    exact ⟨fun k => congrArg (fun c : Core => k (c.c (r.truncate 4)) t) (own_of_core ha), rfl, id⟩
  · obtain ⟨rfl, rfl⟩ := h5 rfl
    exact ⟨fun k => congrArg (fun c : Core => k ((c.h (r.truncate 4)).extractLsb' (64 * q.toNat) 64) t) (own_of_core ha), rfl, id⟩

theorem copyBetweenFiles : CopyBetweenFiles := by
  intro s t p g d r q f v hrun hslot h0 h1 h2 h3 h4 h5 hx hf
  have hf5 : f.toNat ≤ 5 := file_of_cp (badField_of_encodingFault hrun.2.1)
  obtain ⟨hsrc, hcur, hroom⟩ := cpSource_of_cpReads hf5 hrun.1 ⟨h0, h1, h2, h3, h4, h5⟩
  have ha : t.cur.agent = .core p := hcur ▸ hrun.1
  have hr : Roomy t p := hroom (roomy_of_coreRuns hrun)
  have done (u : State) (hu : cpDest (slotAt s.cur.slot) d q v t = .ok u) (hc : u.cur = t.cur) (hu' : Roomy u p) :
      Completes (.cp g d r q f) s u :=
    completes_of_coreRuns hrun rfl ((hsrc _).trans (hcur ▸ hu)) (hc.trans hcur) hu'
  generalize hn : s.cur.slot = n at *
  obtain rfl | rfl | rfl | rfl | rfl | rfl : n = 0 ∨ n = 1 ∨ n = 2 ∨ n = 3 ∨ n = 4 ∨ n = 5 := by omega
  · exact done (toA t p d 2 v) (writeA_of_core ha ..) (cur_toA ..) (hr.of_queues (queues_toA ..))
  · exact done (putX t p d 2 v) (writeX_of_core ha (hx rfl) ..) (cur_putX ..) (hr.putX (hx rfl) ..)
  · exact done (putF t p d 2 v) (writeF_of_core ha (hf rfl) ..) (cur_putF ..) (hr.putF (hf rfl) ..)
  · exact done (t.modCore p fun c => c.land 3 2 (.h (d.truncate 4) q) v) (congrArg Res.ok (modOwn_of_core ha _)) rfl (hr.of_queues (by simp))
  · exact done (toM t p d 2 v) (congrArg Res.ok (modOwn_of_core ha _)) rfl (hr.of_queues (queues_toM ..))
  · exact done (toC t p d 2 v) (writeC_of_core ha ..) rfl (hr.of_queues (queues_toC ..))

/-- Settles O9: cp by its source file and then by its slot, cli and gop by their one result. -/
theorem copiesConstantsAndGuards : Obligations.CopiesConstantsAndGuards := ⟨copyBetweenFiles, constantsAndGuardLogic⟩

end Sys2Proof.Proofs
end

section
/-! SUPPORT. Branches to an address, the loop instructions, the trim block and halt (03 R84, R103, R104, R107, R111, R112). -/

namespace Sys2Proof.Proofs
open Sys2Proof Sys2Proof.Machine Sys2Proof.Claims Sys2Proof.Laws

/-! ### Branches of a core -/

theorem branchTo_of_legal {s : State} {p target : Nat} (ha : s.cur.agent = .core p) (h : Legal s p target) :
    branchTo target s = .ok (jumps s p target) := by
  obtain ⟨h4, hlt, hmid⟩ := h
  rw [branchTo, if_neg (by omega)]
  simp only [ha, hmid, jumps]
  rfl

theorem branchTo_of_not_legal {s : State} {p target : Nat} (ha : s.cur.agent = .core p) (h : ¬ Legal s p target) :
    branchTo target s = .fault 0x01 6 := by
  unfold branchTo
  split
  · rfl
  · next hgood =>
    have hmid : (s.core p).fetch.midBundle target = true := by
      by_contra hmid
      exact h ⟨by tauto, by omega, by simpa using hmid⟩
    simp [ha, hmid]

@[simp] theorem queues_jumps (s : State) (p target : Nat) : ((jumps s p target).core p).queues = (s.core p).queues := by simp [jumps]

/-- Inside its segment a bundle is followed by the words behind its own (03 R84). -/
theorem nextAddr_of_inSegment {s : State} {p : Nat} (ha : s.cur.agent = .core p) (h : InSegment s p) : s.nextAddr = nextBundleAddr s := by
  unfold InSegment at h
  simp only [State.nextAddr, ha, h, nextBundleAddr, Option.getD_none]

/-! ### lset, lupd and halt -/

/-- The count of an lset: its immediate, or its c-register. -/
theorem lset_count {s : State} {p : Nat} (ha : s.cur.agent = .core p) (v : BitVec 1) (k : BitVec 6) :
    (if v = 1 then k.zeroExtend 64 else srcC (k.truncate 5) s) = if v = 1 then k.zeroExtend 64 else (s.core p).c (k.truncate 4) := by
  have hk : (k.truncate 5 : BitVec 5).truncate 4 = k.truncate 4 := BitVec.setWidth_setWidth_of_le k (by decide)
  rw [srcC_of_core ha, hk]

/-- The exit address of an lset. -/
theorem wrapTo_natCast (w a e : Nat) : wrapTo w ((a : Int) + 4 * e) = (a + 4 * e) % 2 ^ w := by
  exact Int.toNat_natCast ((a + 4 * e) % 2 ^ w)

theorem bodyLset_of_core {s : State} {p : Nat} (ha : s.cur.agent = .core p) (l : BitVec 2) (v : BitVec 1) (k : BitVec 6) (e : BitVec 12)
    {n : Word} (hn : n = if v = 1 then k.zeroExtend 64 else (s.core p).c (k.truncate 4)) :
    bodyLset l v k e s = if n = 0 then branchTo ((s.cur.addr + 4 * e.toNat) % 2 ^ 48) s else .ok (later s p (.lset l (n - 1) s.nextAddr)) := by
  simp only [bodyLset, lset_count ha, ← hn, wrapTo_natCast, modOwn_of_core ha, later]

theorem bodyLupd_of_core {s : State} {p : Nat} (ha : s.cur.agent = .core p) (l : BitVec 2) (a : BitVec 4) (v : BitVec 1) (d : BitVec 14) :
    bodyLupd l a v d s =
      .ok (later s p (.lupd l a (if v = 1 then d.signExtend 32 else ((s.core p).c (d.truncate 4)).truncate 32))) := by
  have hd : (d.truncate 5 : BitVec 5).truncate 4 = d.truncate 4 := BitVec.setWidth_setWidth_of_le d (by decide)
  simp only [bodyLupd, srcC_of_core ha, hd, modOwn_of_core ha, later]

/-! ### The words of lupd -/

theorem decodeSlot_lupd {w : Code} (e : Code) (h : w.extractLsb' 25 7 = 5) (ha : w.extractLsb' 15 4 ≠ 0)
    (hd : w.extractLsb' 14 1 = 1 ∨ w.extractLsb' 4 10 = 0) : decodeSlot .c w e =
      .ok (.lupd (w.extractLsb' 21 4) (w.extractLsb' 19 2) (w.extractLsb' 15 4) (w.extractLsb' 14 1) (w.extractLsb' 0 14)) := by
  have hf : ¬ (w.extractLsb' 14 1 = 0 ∧ 15 < (w.extractLsb' 0 14).toNat) := by
    rintro ⟨hi, hlt⟩
    rcases hd with hd | hd
    · rw [hi] at hd; exact absurd hd (by decide)
    · have hd : (w.extractLsb' 0 14).toNat < 2 ^ 4 := (extractLsb'_lt_two_pow_iff w 0 4 10).mpr hd
      omega
  exact decodeSlot_ok (parseC_5 w h) ((if_neg ha).trans (if_neg hf))

theorem decodeSlot_lupd_a0 {w : Code} (e : Code) (h : w.extractLsb' 25 7 = 5) (ha : w.extractLsb' 15 4 = 0) :
    decodeSlot .c w e = .error (.operand 0) :=
  decodeSlot_bad (parseC_5 w h) (if_pos ha)

theorem decodeSlot_lupd_past_c15 {w : Code} (e : Code) (h : w.extractLsb' 25 7 = 5) (ha : w.extractLsb' 15 4 ≠ 0) (hi : w.extractLsb' 14 1 = 0)
    (hd : w.extractLsb' 4 10 ≠ 0) : decodeSlot .c w e = .error (.operand 5) := by
  have hlt : 15 < (w.extractLsb' 0 14).toNat := by
    have : ¬ (w.extractLsb' 0 14).toNat < 2 ^ 4 := fun hlt => hd ((extractLsb'_lt_two_pow_iff w 0 4 10).mp hlt)
    omega
  exact decodeSlot_bad (parseC_5 w h) ((if_neg ha).trans (if_pos ⟨hi, hlt⟩))

theorem loopsAndHalt : LoopsAndHalt := by
  refine ⟨fun s p g l v k e n h hn => ?_, fun s p g l a v d h => ?_, fun w e h => ⟨decodeSlot_lupd e h, decodeSlot_lupd_a0 e h,
    decodeSlot_lupd_past_c15 e h⟩, fun s p g h => ?_⟩
  · have hb := bodyLset_of_core h.1 l v k e hn
    refine ⟨fun h0 hseg => ?_, fun h0 hl => ?_, fun h0 hl => ?_⟩
    · rw [if_neg h0, nextAddr_of_inSegment h.1 hseg] at hb
      exact completes_of_coreRuns h rfl hb rfl ((roomy_of_coreRuns h).of_queues (queues_later ..))
    · rw [if_pos h0, branchTo_of_legal h.1 hl] at hb
      exact completes_of_coreRuns h rfl hb rfl ((roomy_of_coreRuns h).of_queues (queues_jumps ..))
    · rw [if_pos h0, branchTo_of_not_legal h.1 hl] at hb
      exact faults_of_coreRuns h rfl hb
  · exact completes_of_coreRuns h rfl (bodyLupd_of_core h.1 l a v d) rfl ((roomy_of_coreRuns h).of_queues (queues_later ..))
  · exact completes_of_coreRuns h rfl (congrArg Res.ok (modOwn_of_core h.1 _)) rfl ((roomy_of_coreRuns h).of_queues (by simp))

/-! ### A read of the own scratchpad -/

/-- What a read of core p's own scratchpad changes: the checks that it consumes, and the ports that are taken; memory stays, and reads the same. -/
structure ReadFrame (s t : State) (p : Nat) : Prop where
  core : ∃ e u, t.core p = { s.core p with expects := e, run := { (s.core p).run with used := u } }
  mem : t.mem = s.mem
  poison : t.poison = s.poison
  cur : t.cur = s.cur

theorem ReadFrame.trans {s t u : State} {p : Nat} (h : ReadFrame s t p) (k : ReadFrame t u p) : ReadFrame s u p where
  core := by
    obtain ⟨_, _, hc⟩ := h.core
    obtain ⟨e, u, kc⟩ := k.core
    exact ⟨e, u, by rw [kc, hc]⟩
  mem := k.mem.trans h.mem
  poison := k.poison.trans h.poison
  cur := k.cur.trans h.cur

theorem disarm_frame {s : State} {p : Nat} (ha : s.cur.agent = .core p) (xs : List (Nat × Nat × Nat)) : ReadFrame s (disarm s xs) p := by
  unfold disarm
  split
  · exact ⟨⟨_, _, rfl⟩, rfl, rfl, rfl⟩
  · rw [modOwn_of_core ha]
    exact ⟨⟨_, _, State.core_modCore ..⟩, rfl, rfl, rfl⟩

theorem countPoison_frame (s : State) (p q a n : Nat) : ReadFrame s (countPoison s q a n) p := by
  unfold countPoison
  dsimp only
  split
  · exact ⟨⟨_, _, rfl⟩, rfl, rfl, rfl⟩
  · exact ⟨⟨_, _, rfl⟩, rfl, rfl, rfl⟩

theorem usePorts_frame {s : State} {p : Nat} (ha : s.cur.agent = .core p) (a n : Nat) : ReadFrame s (usePorts s a n) p := by
  unfold usePorts
  rw [modOwn_of_core ha]
  exact ⟨⟨_, _, State.core_modCore ..⟩, rfl, rfl, rfl⟩

theorem readDone_frame {s : State} {p : Nat} (ha : s.cur.agent = .core p) (a n : Nat) : ReadFrame s (readDone s p a n) p := by
  have h := (disarm_frame ha (armed s (s.core p).ctl.lid p a n)).trans (countPoison_frame _ p p a n)
  exact h.trans (usePorts_frame (h.cur ▸ ha) _ _)

theorem ReadFrame.roomy {s t : State} {p : Nat} (h : ReadFrame s t p) (hs : Roomy s p) : Roomy t p := by
  obtain ⟨_, _, hc⟩ := h.core
  exact hs.of_queues (by rw [hc])

/-- Bytes read the same where memory, its poison and the visible halves are the same. -/
theorem readSpad_congr {s t : State} {p : Nat} (hm : t.mem = s.mem) (hp : t.poison = s.poison)
    (hv : ∀ a, (t.core p).visible a = (s.core p).visible a) (a n : Nat) : readSpad t p a n = readSpad s p a n := by
  have hbyte (a : Nat) : readByte t p a = readByte s p a := by
    unfold readByte State.poisoned
    rw [hm, hp, hv]
  induction n generalizing a with
  | zero => rfl
  | succ n ih => rw [readSpad, readSpad, hbyte, ih]

theorem ReadFrame.readSpad_eq {s t : State} {p : Nat} (h : ReadFrame s t p) (a n : Nat) : readSpad t p a n = readSpad s p a n := by
  obtain ⟨_, _, hc⟩ := h.core
  exact readSpad_congr h.mem h.poison (fun a => by rw [hc]; rfl) a n

/-- A read of the own scratchpad that nothing holds back performs (04 R129; 09 R273, R287 to R292). -/
theorem ownRead_of_clear {s : State} {p oc a n : Nat} (ha : s.cur.agent = .core p) (hc : Clear s p oc a n false) (hu : Unwatched s p a n)
    (k : State → Res) : ownRead s oc a n k = k (readDone s p a n) := by
  obtain ⟨halt, hheld⟩ := hc
  obtain ⟨hchecks, hhalf, hwater⟩ := hu
  have hfind : (armed s (s.core p).ctl.lid p a n).find? (fun x => x.2.1 ≠ x.2.2) = none := by
    rw [List.find?_eq_none]
    intro x hx
    simpa using hchecks x hx
  have hme : (disarm s (armed s (s.core p).ctl.lid p a n)).me = p := me_of_core ((disarm_frame ha _).cur ▸ ha)
  simp only [ownRead, own_of_core ha, me_of_core ha, halt, hfind, hme, hhalf, hwater, hheld, readDone, Bool.false_eq_true, if_false]

/-! ### The results of a trim block -/

/-- A core with further results in flight. -/
def withPend (c : Core) (l : List Pend) : Core := { c with pipe := { c.pipe with pend := c.pipe.pend ++ l } }

@[simp] theorem withPend_nil (c : Core) : withPend c [] = c := by simp [withPend]

theorem withPend_append (c : Core) (l m : List Pend) : withPend c (l ++ m) = withPend (withPend c l) m := by simp [withPend]

theorem land_eq_withPend (c : Core) (slot lat : Nat) (d : Dest) (v : Word) :
    c.land slot lat d v = withPend c [⟨c.run.t + lat, c.run.t, slot, d, v⟩] := rfl

/-- Results of one cycle that land where a condition holds, in the order of their numbers; nothing else changes. -/
theorem foldl_land_where {s : State} {p : Nat} (ha : s.cur.agent = .core p) (slot lat : Nat) (P : Nat → Prop) [DecidablePred P]
    (dest : Nat → Dest) (val : Nat → Word) (l : List Nat) :
    ∃ t, l.foldl (fun s n => if P n then s.modOwn fun c => c.land slot lat (dest n) (val n) else s) s = t ∧
      t.core p = withPend (s.core p)
        ((l.filter P).map fun n => ⟨(s.core p).run.t + lat, (s.core p).run.t, slot, dest n, val n⟩) ∧
      t.mem = s.mem ∧ t.cur = s.cur := by
  induction l generalizing s with
  | nil => exact ⟨s, rfl, by simp, rfl, rfl⟩
  | cons n l ih =>
    by_cases hn : P n
    · obtain ⟨t, ht, hc, hm, hcur⟩ := ih (s := s.modOwn fun c => c.land slot lat (dest n) (val n)) ha
      refine ⟨t, by rw [List.foldl_cons, if_pos hn, ht], ?_, hm, hcur⟩
      rw [hc, modOwn_of_core ha, State.core_modCore, List.filter_cons_of_pos (by simpa using hn), List.map_cons, ← List.singleton_append,
        withPend_append, land_eq_withPend]
      rfl
    · obtain ⟨t, ht, hc, hm, hcur⟩ := ih ha
      exact ⟨t, by rw [List.foldl_cons, if_neg hn, ht], by rw [hc, List.filter_cons_of_neg (by simpa using hn)], hm, hcur⟩

/-- The loop counts of trim block b, read in cycle t, that its LMASK selects (03 R107). -/
def trimCounts (t b : Nat) : List Pend :=
  ((List.range 4).filter fun n => (b / 2 ^ 136).testBit n).map fun n =>
    { due := t + 6, issue := t, slot := 5, dest := .c (BitVec.ofNat 4 (8 + n)), val := BitVec.ofNat 64 (b / 2 ^ (32 * n) % 2 ^ 32) }

/-- Its skip bits. -/
def trimSkips (t b : Nat) : Pend := { due := t + 6, issue := t, slot := 5, dest := .c 15, val := BitVec.ofNat 64 (b / 2 ^ 128 % 256) }

/-- LMASK has a bit for each of the four levels. -/
theorem filter_lmask (b : Nat) :
    (List.range 4).filter (fun n => bitsOf b 143 136 / 2 ^ n % 2 = 1) = (List.range 4).filter fun n => (b / 2 ^ 136).testBit n := by
  refine List.filter_congr fun n hn => ?_
  rw [← Nat.testBit_eq_decide_div_mod_eq, bitsOf, Nat.testBit_mod_two_pow]
  have : n < 8 := by have := List.mem_range.mp hn; omega
  simp [this]

theorem landTrim_core {s : State} {p : Nat} (ha : s.cur.agent = .core p) (b : Nat) :
    (landTrim s b).core p = withPend (s.core p) (trimCounts (s.core p).run.t b ++ [trimSkips (s.core p).run.t b]) ∧
    (landTrim s b).mem = s.mem ∧ (landTrim s b).cur = s.cur := by
  obtain ⟨t, ht, hc, hm, hcur⟩ := foldl_land_where ha 5 6 (fun n => bitsOf b 143 136 / 2 ^ n % 2 = 1) (fun n => .c (BitVec.ofNat 4 (8 + n)))
    (fun n => BitVec.ofNat 64 (bitsOf b (32 * n + 31) (32 * n))) (List.range 4)
  have hval (n : Nat) : bitsOf b (32 * n + 31) (32 * n) = b / 2 ^ (32 * n) % 2 ^ 32 := by
    rw [bitsOf, show 32 * n + 31 + 1 - 32 * n = 32 by omega]
  have hl : landTrim s b = t.modOwn fun c => c.land 5 6 (.c 15) (BitVec.ofNat 64 (bitsOf b 135 128)) := by
    unfold landTrim; dsimp only; rw [ht]
  simp only [filter_lmask, hval] at hc
  rw [hl, modOwn_of_core (hcur ▸ ha)]
  refine ⟨?_, hm, hcur⟩
  rw [State.core_modCore, hc, land_eq_withPend, withPend_append]
  rfl

theorem bodyLtrim_of_bad {s : State} {p a : Nat} {r : BitVec 5} (ha : s.cur.agent = .core p) (hr : a = ((s.core p).c (r.truncate 4)).toNat)
    (hbad : a % 32 ≠ 0 ∨ (s.core p).inside a 32 = false) (oc : BitVec 4) : bodyLtrim r oc s = .fault 0x02 7 := by
  subst hr
  simp only [bodyLtrim, srcC_of_core ha, own_of_core ha]
  exact if_pos (by simpa using hbad)

theorem bodyLtrim_of_clear {s : State} {p a : Nat} {r : BitVec 5} {oc : BitVec 4} (ha : s.cur.agent = .core p)
    (hr : a = ((s.core p).c (r.truncate 4)).toNat) (hal : a % 32 = 0) (hin : (s.core p).inside a 32 = true)
    (hc : Clear s p oc.toNat a 32 false) (hu : Unwatched s p a 32) :
    bodyLtrim r oc s = .ok (landTrim (readDone s p a 32) (readSpad s p a 32)) := by
  have hf := readDone_frame ha a 32
  have hown := ownRead_of_clear ha hc hu fun t => .ok (landTrim t (readSpad t t.me a 32))
  rw [me_of_core (hf.cur ▸ ha), hf.readSpad_eq] at hown
  subst hr
  simp only [bodyLtrim, srcC_of_core ha, own_of_core ha]
  rw [if_neg (by simp [hal, hin]), hown]

theorem trimLandsSixLater : TrimLandsSixLater := by
  rintro s p g r oc a b ⟨h, -⟩ hr
  refine ⟨fun hal hin hc hu hb => ?_, fun hbad => faults_of_coreRuns h rfl (bodyLtrim_of_bad h.1 hr hbad oc)⟩
  have hbody := bodyLtrim_of_clear h.1 hr hal hin hc hu
  have hf := readDone_frame h.1 a 32
  obtain ⟨e, u, hcore⟩ := hf.core
  obtain ⟨hland, hmem, hcur⟩ := landTrim_core (hf.cur ▸ h.1) b
  rw [← hb] at hbody
  have hroom : Roomy (landTrim (readDone s p a 32) b) p :=
    (hf.roomy (roomy_of_coreRuns h)).of_queues (by rw [hland]; rfl)
  refine ⟨_, completes_of_coreRuns h rfl hbody (hcur.trans hf.cur) hroom, ?_, hmem.trans hf.mem, ?_, ?_, ?_⟩ <;> rw [hland, hcore]
  · exact (List.append_assoc ..).symm
  · rfl
  · rfl
  · rfl

/-- Settles O20: lset by its count and then by its exit, lupd, halt, and ltrim by its address. -/
theorem loopsTrimAndHalt : Obligations.LoopsTrimAndHalt := ⟨loopsAndHalt, trimLandsSixLater⟩

end Sys2Proof.Proofs
end

section
/-! SUPPORT. The lease instructions and the metadata moves at issue, and the words of mfree (07 R228, R229, R257). -/

namespace Sys2Proof.Proofs
open Sys2Proof Sys2Proof.Machine Sys2Proof.Claims Sys2Proof.Laws

/-! ### mlease and mfree -/

theorem bodyMlease_of_none {s : State} {p : Nat} (ha : s.cur.agent = .core p) (h : (s.core p).run.lease = 0) (n : BitVec 8) :
    bodyMlease n s = .ok (s.modCore p fun c => { c with run := { c.run with lease := 1, allow := n.toNat } }) := by
  rw [bodyMlease, own_of_core ha, if_neg (not_not_intro h), modOwn_of_core ha]

theorem bodyMlease_of_asked {s : State} {p : Nat} (ha : s.cur.agent = .core p) (h : (s.core p).run.lease ≠ 0) (n : BitVec 8) :
    bodyMlease n s = .fault 0x02 5 := by
  rw [bodyMlease, own_of_core ha, if_pos h]

theorem mlease_requests {s : State} {p : Nat} {g : BitVec 4} {n : BitVec 8} (h : CoreRuns s p g (.mlease g n)) :
    ((s.core p).run.lease = 0 → Completes (.mlease g n) s
      (s.modCore p fun c => { c with run := { c.run with lease := 1, allow := n.toNat } })) ∧
    ((s.core p).run.lease ≠ 0 → Completes (.mlease g n) s (takeFault s 0x02 5)) :=
  ⟨fun h0 => completes_of_coreRuns h rfl (bodyMlease_of_none h.1 h0 n) rfl ((roomy_of_coreRuns h).of_queues (by simp)),
    fun h0 => faults_of_coreRuns h rfl (bodyMlease_of_asked h.1 h0 n)⟩

theorem mfree_gives_back {s : State} {p : Nat} {g : BitVec 4} (h : CoreRuns s p g (.mfree g)) : ∃ t : State, Completes (.mfree g) s t ∧
    ((s.core p).run.lease = 2 → (t.core p).run.lease = 3) ∧ ((s.core p).run.lease ≠ 2 → (t.core p).run.lease = 0) ∧ Claims.Kept s t p := by
  refine ⟨_, completes_of_coreRuns h rfl (congrArg Res.ok (modOwn_of_core h.1 _)) rfl ((roomy_of_coreRuns h).of_queues (by simp)), ?_, ?_, ?_⟩
  · intro h2; simp [h2]
  · intro h2; simp [h2]
  · simp [Claims.Kept]

/-! ### The words of mfree -/

theorem extractLsb'_eq_zero_iff {w : Nat} (x : BitVec w) (lo n : Nat) :
    x.extractLsb' lo n = 0 ↔ ∀ i < n, x.getLsbD (lo + i) = false := by
  refine ⟨fun h i hi => ?_, fun h => BitVec.eq_of_getLsbD_eq fun i hi => ?_⟩
  · simpa [hi] using congrArg (·.getLsbD i) h
  · simp [h i hi]

/-- A field of m + n bits is zero where its m low and its n high bits are. -/
theorem extractLsb'_add_eq_zero_iff {w : Nat} (x : BitVec w) (lo m n : Nat) :
    x.extractLsb' lo (m + n) = 0 ↔ x.extractLsb' lo m = 0 ∧ x.extractLsb' (lo + m) n = 0 := by
  simp only [extractLsb'_eq_zero_iff, Nat.add_assoc]
  refine ⟨fun h => ⟨fun i hi => h i (by omega), fun i hi => h (m + i) (by omega)⟩, fun ⟨hlow, hhigh⟩ i hi => ?_⟩
  by_cases him : i < m
  · exact hlow i him
  · have h := hhigh (i - m) (by omega)
    rwa [Nat.add_sub_cancel' (Nat.le_of_not_lt him)] at h

/-- The fields below the guard of an mfree are the 21 low bits. -/
theorem mfree_fields (w : Code) : w.extractLsb' 0 21 = 0 ↔ w.extractLsb' 0 5 = 0 ∧ w.extractLsb' 5 4 = 0 ∧ w.extractLsb' 9 4 = 0 ∧
    w.extractLsb' 13 4 = 0 ∧ w.extractLsb' 17 4 = 0 :=
  (extractLsb'_add_eq_zero_iff w 0 5 16).trans <| and_congr_right' <|
    (extractLsb'_add_eq_zero_iff w 5 4 12).trans <| and_congr_right' <|
      (extractLsb'_add_eq_zero_iff w 9 4 8).trans <| and_congr_right' <| extractLsb'_add_eq_zero_iff w 13 4 4

theorem decodeSlot_mfree {w : Code} (e : Code) (h : w.extractLsb' 25 7 = 2) (hz : w.extractLsb' 0 21 = 0) :
    decodeSlot .m w e = .ok (.mfree (w.extractLsb' 21 4)) := by
  obtain ⟨h0, h5, h9, h13, h17⟩ := (mfree_fields w).mp hz
  have hp : parseSlot .m w e = _ := parseM_2 w h
  simp only [h0, h5, h9, h13, h17, ne_eq, not_true_eq_false, if_false] at hp
  exact decodeSlot_ok hp rfl

/-- An mfree with a bit set below its guard is refused by the operand's number. -/
theorem decodeSlot_mfree_refused {w : Code} (e : Code) (h : w.extractLsb' 25 7 = 2) (hz : w.extractLsb' 0 21 ≠ 0) :
    ∃ n, decodeSlot .m w e = .error (.operand n) := by
  have hp : parseSlot .m w e = _ := parseM_2 w h
  split_ifs at hp with h17 h13 h9 h5 h0
  · exact ⟨0, decodeSlot_error hp⟩
  · exact ⟨1, decodeSlot_error hp⟩
  · exact ⟨2, decodeSlot_error hp⟩
  · exact ⟨4, decodeSlot_error hp⟩
  · exact ⟨4, decodeSlot_error hp⟩
  · exact absurd ((mfree_fields w).mpr ⟨not_not.mp h0, not_not.mp h5, not_not.mp h9, not_not.mp h13, not_not.mp h17⟩) hz

/-! ### Commands sent -/

/-- What the issue of a command leaves of its core p, but for the list of commands in flight and the tag checks that it consumes. -/
structure SentFrame (s t : State) (p : Nat) : Prop where
  kept : Claims.Kept s t p
  queues : (t.core p).queues = (s.core p).queues
  run : (t.core p).run = (s.core p).run
  moves : (t.core p).moves = (s.core p).moves
  cur : t.cur = s.cur

theorem SentFrame.trans {s t u : State} {p : Nat} (h : SentFrame s t p) (k : SentFrame t u p) : SentFrame s u p where
  kept := by
    obtain ⟨hmem, hfiles, hctl, hpipe⟩ := h.kept
    obtain ⟨kmem, kfiles, kctl, kpipe⟩ := k.kept
    exact ⟨kmem.trans hmem, kfiles.trans hfiles, kctl.trans hctl, kpipe.trans hpipe⟩
  queues := k.queues.trans h.queues
  run := k.run.trans h.run
  moves := k.moves.trans h.moves
  cur := k.cur.trans h.cur

theorem consumeTags_frame (s : State) (p : Nat) (ranges : List (Nat × Nat)) : SentFrame s (consumeTags s p ranges).2 p := by
  constructor <;> simp [consumeTags, Claims.Kept]

theorem launch_frame (s : State) (p : Nat) (e : Engine) (oc : Nat) (reads writes : List (Nat × Nat)) :
    SentFrame s (launch s p e oc reads writes).2 p := by
  constructor <;> simp [launch, Claims.Kept]

/-! ### mdld and mdst -/

/-- The move that core p begins: to metadata register k, or from it with its present value (07 R257). -/
def newMove (load : Bool) (k : BitVec 2) (addr oc id : Nat) (tags : List (Nat × Nat)) (s : State) (p : Nat) : MdMove :=
  { id := id, load := load, reg := k.toNat, addr := addr, oc := oc, issued := (s.core p).run.t,
    data := if load then 0 else (s.core p).files.md.toList.getD k.toNat 0, baddr := s.cur.addr, word := s.cur.word, tags := tags }

theorem newMove_data_of_store (k : BitVec 2) (addr oc id : Nat) (tags : List (Nat × Nat)) (s : State) (p : Nat) :
    (newMove false k addr oc id tags s p).data = (s.core p).files.md[k.toNat] := by
  have hk : k.toNat < (s.core p).files.md.toList.length := by rw [Vector.length_toList]; exact k.isLt
  exact (List.getD_eq_getElem _ _ hk).trans (Vector.getElem_toList hk)

theorem exec_mdld (g a c : BitVec 4) (k : BitVec 2) (s : State) :
    exec (.mdld g k a c) s = finish s (queueLimit (issue (.mdld g k a c) g (issueMove true k a c) s)) := rfl

theorem exec_mdst (g a c : BitVec 4) (k : BitVec 2) (s : State) :
    exec (.mdst g k a c) s = finish s (queueLimit (issue (.mdst g k a c) g (issueMove false k a c) s)) := rfl

theorem issueMove_of_misaligned {s : State} {p : Nat} {a : BitVec 4} (ha : s.cur.agent = .core p) (hal : ((s.core p).m a).toNat % 64 ≠ 0)
    (load : Bool) (k : BitVec 2) (c : BitVec 4) : issueMove load k a c s = .fault 0x02 7 := by
  simp only [issueMove, own_of_core ha, if_pos hal]

/-- A move of 3,072 aligned bytes that its range check passes starts, unless its register has a pending write. -/
theorem issueMove_of_ready {s : State} {p : Nat} {a : BitVec 4} {k : BitVec 2} (ha : s.cur.agent = .core p)
    (hal : ((s.core p).m a).toNat % 64 = 0) (hin : (s.core p).blockFault ((s.core p).m a).toNat 3072 = none)
    (hmd : mdPending s p k.toNat = false) (load : Bool) (c : BitVec 4) : ∃ (t : State) (id : Nat) (tags : List (Nat × Nat)), SentFrame s t p ∧
      issueMove load k a c s = .ok (t.modCore p fun r =>
        { r with moves := r.moves ++ [newMove load k ((s.core p).m a).toNat c.toNat id tags t p] }) := by
  unfold issueMove
  rw [own_of_core ha, me_of_core ha, if_neg (not_not_intro hal), hin, hmd]
  cases load with
  | true => exact ⟨_, _, _, (consumeTags_frame ..).trans (launch_frame ..), rfl⟩
  | false => exact ⟨_, _, _, launch_frame .., rfl⟩

/-- A word that issues a move starts it where the move may start; nothing that the move will write has changed. -/
theorem move_starts {s : State} {p : Nat} {g a c : BitVec 4} {k : BitVec 2} {i : Instr} {load : Bool} (h : CoreRuns s p g i)
    (he : exec i s = finish s (queueLimit (issue i g (issueMove load k a c) s))) (hal : ((s.core p).m a).toNat % 64 = 0)
    (hin : (s.core p).blockFault ((s.core p).m a).toNat 3072 = none) (hmd : mdPending s p k.toNat = false) :
    ∃ (t : State) (id : Nat) (tags : List (Nat × Nat)), Completes i s t ∧
      (t.core p).moves = (s.core p).moves ++ [newMove load k ((s.core p).m a).toNat c.toNat id tags s p] ∧ Claims.Kept s t p := by
  obtain ⟨t, id, tags, hf, hb⟩ := issueMove_of_ready h.1 hal hin hmd load c
  have hx : newMove load k ((s.core p).m a).toNat c.toNat id tags t p = newMove load k ((s.core p).m a).toNat c.toNat id tags s p := by
    obtain ⟨-, hfiles, -, -⟩ := hf.kept
    simp only [newMove, hf.run, hf.cur, hfiles]
  rw [hx] at hb
  refine ⟨_, id, tags, completes_of_coreRuns h he hb hf.cur ((roomy_of_coreRuns h).of_queues ?_), ?_, ?_⟩
  · rw [State.core_modCore]; exact hf.queues
  · rw [State.core_modCore, hf.moves]
  · simpa [Claims.Kept] using hf.kept

/-- A word that issues a move of a misaligned address faults. -/
theorem move_faults {s : State} {p : Nat} {g a c : BitVec 4} {k : BitVec 2} {i : Instr} {load : Bool} (h : CoreRuns s p g i)
    (he : exec i s = finish s (queueLimit (issue i g (issueMove load k a c) s))) (hal : ((s.core p).m a).toNat % 64 ≠ 0) :
    Completes i s (takeFault s 0x02 7) :=
  faults_of_coreRuns h he (issueMove_of_misaligned h.1 hal load k c)

/-- Settles O30: mlease and mfree by the state of the lease, the words of mfree by their zero fields, and both moves by the one operation
that starts them. -/
theorem leasesAndMetadataMoves : Obligations.LeasesAndMetadataMoves := by
  refine ⟨fun s p g n h => mlease_requests h.1, fun s p g h => mfree_gives_back h.1,
    fun w e h => ⟨decodeSlot_mfree e h, decodeSlot_mfree_refused e h⟩, fun s p g a c k hal hin hmd => ⟨fun h => ?_, fun h => ?_⟩,
    fun s p g a c k hal => ⟨fun h => ?_, fun h => ?_⟩⟩
  · obtain ⟨t, id, tags, ht, hm, hk⟩ := move_starts h.1 (exec_mdld ..) hal hin hmd
    exact ⟨t, _, ht, hm, rfl, rfl, rfl, rfl, rfl, rfl, hk⟩
  · obtain ⟨t, id, tags, ht, hm, hk⟩ := move_starts h.1 (exec_mdst ..) hal hin hmd
    exact ⟨t, _, ht, hm, rfl, newMove_data_of_store .., rfl, rfl, rfl, hk⟩
  · exact move_faults h.1 (exec_mdld ..) hal
  · exact move_faults h.1 (exec_mdst ..) hal

end Sys2Proof.Proofs
end

section
/-! SUPPORT. A helm core's operations on the records in its scratchpad: the words that it reads and writes, and what that leaves (13 R364, R365). -/

namespace Sys2Proof.Proofs
open Sys2Proof Sys2Proof.Machine Sys2Proof.Claims

/-! ### The words of a record -/

theorem helmAt_of_core {s : State} {p : Nat} (ha : s.cur.agent = .core p) (a : Nat) : s.helmAt a = recordWord s p a := by
  funext i
  rw [State.helmAt, me_of_core ha, recordWord]

theorem helmPut_of_core {s : State} {p : Nat} (ha : s.cur.agent = .core p) (a v : Nat) :
    s.helmPut a v = s.write false (spadBase p + a) v 8 := by
  rw [State.helmPut, me_of_core ha]

theorem helmPut_frame (s : State) (a v : Nat) : WriteFrame s (s.helmPut a v) := State.write_frame ..

theorem helmBad_iff {a align n : Nat} : helmBad a align n = true ↔ ¬ InHelm a align n := by
  simp only [helmBad, InHelm, decide_eq_true_eq]
  omega

theorem not_helmBad {a align n : Nat} (h : InHelm a align n) : ¬ helmBad a align n = true := fun hbad => helmBad_iff.mp hbad h

/-! ### What an operation leaves of its core and of the queues -/

theorem coreKept_of_wrote {s t : State} {p : Nat} (h : (s.core p).Wrote (t.core p)) : CoreKept s t p := by
  obtain ⟨b, w, hc⟩ := h
  simp [CoreKept, hc]

theorem roomy_of_coreKept {s t : State} {p : Nat} (h : CoreKept s t p) (hs : Roomy s p) : Roomy t p := by
  obtain ⟨-, -, -, hqueues, -⟩ := h
  exact hs.of_queues hqueues

/-- An operation that runs, and takes effect, completes where it leaves its core's queues. -/
theorem completes_of_coreKept {s t : State} {p : Nat} {g : BitVec 4} {i : Instr} {body : State → Res} (h : CoreRuns s p g i)
    (he : exec i s = finish s (queueLimit (issue i g body s))) (hb : body s = .ok t) (hc : t.cur = s.cur) (hk : CoreKept s t p) :
    Completes i s t :=
  completes_of_coreRuns h he hb hc (roomy_of_coreKept hk (roomy_of_coreRuns h))

theorem queuesKept_of_writeFrame {s t : State} (h : WriteFrame s t) (d : Nat) : QueuesKept s t d := by
  obtain ⟨_, _, hd⟩ := h.die d
  simp [QueuesKept, hd]

theorem queueOf_of_queuesKept {s t : State} {d : Nat} (h : QueuesKept s t d) (k : Nat) : queueOf (t.die d) k = queueOf (s.die d) k := by
  rw [queueOf, h.1, queueOf]

/-! ### Words written in sequence -/

/-- Bytes that are the same read as the same number. -/
theorem read_congr {m m' : Memory} {a n : Nat} (h : ∀ x, a ≤ x → x < a + n → m.get x = m'.get x) : m.read a n = m'.read a n := by
  induction n generalizing a with
  | zero => rfl
  | succ n ih => rw [Memory.read, Memory.read, h a le_rfl (by omega), ih fun x hl hu => h x (by omega) (by omega)]

theorem read_write_word {m : Memory} (hm : m.wf = true) (a v : Nat) : (m.write a v 8).read a 8 = v % 2 ^ 64 := by
  rw [Memory.read_write _ _ _ _ hm, show 256 ^ 8 = 2 ^ 64 from rfl]

/-- The words of a list written one after the other from address a of the executing helm's scratchpad. -/
def helmPuts (s : State) (a : Nat) : List Nat → State
  | [] => s
  | w :: ws => helmPuts (s.helmPut a w) (a + 8) ws

theorem helmPuts_frame (s : State) (a : Nat) (ws : List Nat) : WriteFrame s (helmPuts s a ws) := by
  induction ws generalizing s a with
  | nil => exact .refl s
  | cons w ws ih => exact (helmPut_frame s a w).trans (ih ..)

/-- The bytes below the first word stay. -/
theorem get_helmPuts_below {s : State} {p : Nat} (ha : s.cur.agent = .core p) (hm : MemoryCanonical s) {a x : Nat} (hx : x < spadBase p + a)
    (ws : List Nat) : (helmPuts s a ws).mem.get x = s.mem.get x := by
  induction ws generalizing s a with
  | nil => rfl
  | cons w ws ih =>
    have hput := helmPut_of_core ha a w
    rw [helmPuts, ih ((helmPut_frame s a w).cur ▸ ha) (hput ▸ State.write_wf _ _ _ _ _ hm) (by omega), hput, State.write_mem,
      Memory.get_write_outside _ _ _ _ _ (.inl hx) hm]

theorem wordsAt_cons {t : State} {a w : Nat} {ws : List Nat} (h : t.mem.read a 8 = w % 2 ^ 64) (hs : WordsAt t (a + 8) ws) :
    WordsAt t a (w :: ws) := by
  rintro (_ | i) hi
  · exact h
  · rw [show a + 8 * (i + 1) = a + 8 + 8 * i by omega, List.getD_cons_succ]
    exact hs i (Nat.lt_of_succ_lt_succ hi)

/-- What was written is read back. -/
theorem wordsAt_helmPuts {s : State} {p : Nat} (ha : s.cur.agent = .core p) (hm : MemoryCanonical s) (a : Nat) (ws : List Nat) :
    WordsAt (helmPuts s a ws) (spadBase p + a) ws := by
  induction ws generalizing s a with
  | nil => exact fun i hi => absurd hi (Nat.not_lt_zero i)
  | cons w ws ih =>
    have hput := helmPut_of_core ha a w
    have ha' : (s.helmPut a w).cur.agent = .core p := (helmPut_frame s a w).cur ▸ ha
    have hm' : MemoryCanonical (s.helmPut a w) := hput ▸ State.write_wf _ _ _ _ _ hm
    refine wordsAt_cons ?_ (ih ha' hm' (a + 8))
    rw [helmPuts, read_congr fun x _ hx => get_helmPuts_below ha' hm' (by omega) ws, hput, State.write_mem, read_write_word hm]

theorem read_helmPut {s : State} {p : Nat} (ha : s.cur.agent = .core p) (hm : MemoryCanonical s) (a : Nat) {v : Nat} (hv : v < 2 ^ 64) :
    (s.helmPut a v).mem.read (spadBase p + a) 8 = v := by
  rw [helmPut_of_core ha, State.write_mem, read_write_word hm, Nat.mod_eq_of_lt hv]

end Sys2Proof.Proofs
end

section
/-! SUPPORT. The queues of a die: their attributes, the policy's pick, and the requests appended and removed (13 R379, R380, R382). -/

namespace Sys2Proof.Proofs
open Sys2Proof Sys2Proof.Machine Sys2Proof.Claims

/-! ### The first of a list in order -/

theorem mem_insertBy {α : Type} {le : α → α → Bool} {x y : α} {l : List α} : y ∈ insertBy le x l ↔ y = x ∨ y ∈ l := by
  induction l with
  | nil => simp [insertBy]
  | cons z l ih =>
    unfold insertBy
    split
    · simp
    · simp only [List.mem_cons, ih]; tauto

theorem mem_sortBy {α : Type} {le : α → α → Bool} {y : α} {l : List α} : y ∈ sortBy le l ↔ y ∈ l := by
  induction l with
  | nil => simp [sortBy]
  | cons x l ih => rw [List.mem_cons, ← ih]; exact mem_insertBy

/-- An entry that comes before every other one stands first in order. -/
theorem sortBy_eq_cons {α : Type} {le : α → α → Bool} {k : α} {l : List α} (hk : k ∈ l)
    (h : ∀ j ∈ l, j ≠ k → le k j = true ∧ le j k = false) : ∃ rest, sortBy le l = k :: rest := by
  induction l with
  | nil => cases hk
  | cons x l ih =>
    have hl := fun j hj => h j (List.mem_cons_of_mem x hj)
    show ∃ rest, insertBy le x (sortBy le l) = k :: rest
    by_cases hx : x = k
    · subst hx
      cases hs : sortBy le l with
      | nil => exact ⟨_, rfl⟩
      | cons y ys =>
        by_cases hy : y = x
        · subst hy; unfold insertBy; split <;> exact ⟨_, rfl⟩
        · have hyl : y ∈ l := mem_sortBy.mp (hs ▸ List.mem_cons_self ..)
          exact ⟨_, if_pos (hl y hyl hy).1⟩
    · obtain ⟨rest, hr⟩ := ih ((List.mem_cons.mp hk).resolve_left (Ne.symm hx)) hl
      rw [hr]
      exact ⟨_, if_neg (by simp [(h x (List.mem_cons_self ..) hx).2])⟩

/-! ### One queue changed -/

theorem getD_setIfInBounds_self (v : Vector Queue 64) {k : Nat} (hk : k < 64) (x : Queue) :
    (v.setIfInBounds k x).toList.getD k {} = x := by
  simp [List.getD_eq_getElem?_getD, hk]

theorem getD_setIfInBounds_other (v : Vector Queue 64) {j k : Nat} (hj : j ≠ k) (x : Queue) :
    (v.setIfInBounds k x).toList.getD j {} = v.toList.getD j {} := by
  simp [List.getD_eq_getElem?_getD, List.getElem?_set_ne (Ne.symm hj)]

/-! ### qpush.cfg -/

/-- The queue with attributes set in a WALL cycle. -/
def configured (q : Queue) (attr : QAttr) (wall : Nat) : Queue := { q with attr := attr, old := q.before wall, setAt := wall }

/-- The attributes that a good configuration block gives. -/
def blockAttr (w : Nat → Nat) : QAttr :=
  { conf := true, tier := bitField (w 0) 0 2, level := bitField (w 0) 4 5, redir := bitField (w 0) 6 6 == 1, deadline := w 1, budget := w 2 }

theorem queueAttr_of_good {w : Nat → Nat} (h0 : w 0 < 2 ^ 7) (hbit : bitField (w 0) 3 3 = 0) (h1 : 1 ≤ w 1) (h1' : w 1 < 2 ^ 48)
    (h2 : w 2 ≤ 12000000) (h3 : w 3 = 0) : queueAttr w = some (blockAttr w) := by
  have hbit' : bitsOf (w 0) 3 3 = 0 := hbit
  exact if_neg (by omega)

theorem queueAttr_of_bad {w : Nat → Nat} (h : 2 ^ 7 ≤ w 0 ∨ w 1 = 0 ∨ 2 ^ 48 ≤ w 1 ∨ 12000000 < w 2 ∨ w 3 ≠ 0) : queueAttr w = none :=
  if_pos (by omega)

/-- A sum over the entries other than k, one after the other. -/
theorem foldl_others {f : Nat → Nat} {k : Nat} (l : List Nat) (n : Nat) :
    l.foldl (fun n i => if i = k then n else n + f i) n = n + ((l.filter (· ≠ k)).map f).sum := by
  induction l generalizing n with
  | nil => rfl
  | cons i l ih =>
    by_cases hi : i = k
    · simp [hi, ih]
    · simp [hi, ih, Nat.add_assoc]

section
variable {s : State} {p k a : Nat} {q b : BitVec 5}

theorem bodyQpushCfg_of_no_queue (ha : s.cur.agent = .core p) (hq : k = ((s.core p).c (q.truncate 4)).toNat) (hk : 64 ≤ k) (b : BitVec 5) :
    bodyQpushCfg q b s = .fault 0x02 1 := by
  simp only [bodyQpushCfg, srcC_of_core ha, ← hq, if_pos hk]

theorem bodyQpushCfg_of_bad (ha : s.cur.agent = .core p) (hq : k = ((s.core p).c (q.truncate 4)).toNat)
    (hb : a = ((s.core p).c (b.truncate 4)).toNat) (hk : k < 64)
    (h : ¬ InHelm a 32 32 ∨ queueAttr (recordWord s p a) = none) : bodyQpushCfg q b s = .fault 0x02 7 := by
  simp only [bodyQpushCfg, srcC_of_core ha, helmAt_of_core ha, ← hq, ← hb, if_neg (Nat.not_le.mpr hk)]
  rcases h with hin | hattr
  · exact if_pos (helmBad_iff.mpr hin)
  · rw [hattr, ite_self]

/-- The queue with its new attributes, where the budgets of all queues stay within a period (13 R379). -/
theorem bodyQpushCfg_of_good (ha : s.cur.agent = .core p) (hq : k = ((s.core p).c (q.truncate 4)).toNat)
    (hb : a = ((s.core p).c (b.truncate 4)).toNat) (hk : k < 64) (hin : InHelm a 32 32) {attr : QAttr}
    (hattr : queueAttr (recordWord s p a) = some attr)
    (hsum : (((List.range 64).filter (· ≠ k)).map fun i => (queueOf (s.die (dieOf p)) i).attr.budget).sum + attr.budget ≤ 12000000) :
    bodyQpushCfg q b s =
      .ok (s.modDie (dieOf p) fun r => { r with queues := r.queues.setIfInBounds k (configured (queueOf r k) attr s.wall) }) := by
  simp only [bodyQpushCfg, srcC_of_core ha, helmAt_of_core ha, me_of_core ha, ← hq, ← hb, if_neg (Nat.not_le.mpr hk), if_neg (not_helmBad hin),
    hattr]
  refine if_neg (Nat.not_lt.mpr ?_)
  rw [foldl_others, Nat.zero_add]
  exact hsum

/-! ### qpush -/

/-- What a qpush to a queue with room does: word 2 of the entry, and the request with its deadline behind the others. -/
def pushed (s : State) (p k a : Nat) : State :=
  let x := queueOf (s.die (dieOf p)) k
  (s.helmPut (a + 16) 1).modDie (dieOf p) fun r => { r with queues := r.queues.setIfInBounds k { x with
    fifo := x.fifo ++ [(BitVec.ofNat 64 (recordWord s p a 0), BitVec.ofNat 64 (recordWord s p a 1), s.wallOf (dieOf p) + x.attr.deadline)] } }

theorem bodyQpush_of_core (ha : s.cur.agent = .core p) (hq : k = ((s.core p).c (q.truncate 4)).toNat)
    (hb : a = ((s.core p).c (b.truncate 4)).toNat) (hk : k < 64) (hin : InHelm a 32 32) : bodyQpush q b s =
      if ¬ (queueOf (s.die (dieOf p)) k).attr.conf then .ok (s.helmPut (a + 16) 2)
      else if 32 ≤ (queueOf (s.die (dieOf p)) k).fifo.length then .ok (s.helmPut (a + 16) 0)
      else .ok (pushed s p k a) := by
  simp only [bodyQpush, srcC_of_core ha, helmAt_of_core ha, me_of_core ha, ← hq, ← hb, if_neg (Nat.not_le.mpr hk), if_neg (not_helmBad hin)]
  rfl

end

/-- A qpush that appends nothing writes word 2 of its entry, and no more. -/
theorem qpush_answers {s : State} {p a v : Nat} {g : BitVec 4} {q b : BitVec 5} (h : CoreRuns s p g (.qpush g q b)) (hm : MemoryCanonical s)
    (hv : v < 2 ^ 64) (hbody : bodyQpush q b s = .ok (s.helmPut (a + 16) v)) :
    ∃ t : State, Completes (.qpush g q b) s t ∧ t.mem.read (spadBase p + a + 16) 8 = v ∧ QueuesKept s t (dieOf p) := by
  have hf := helmPut_frame s (a + 16) v
  exact ⟨_, completes_of_coreKept h rfl hbody hf.cur (coreKept_of_wrote (hf.core p)), read_helmPut h.1 hm _ hv, queuesKept_of_writeFrame hf _⟩

theorem fifo_pushed (s : State) (p a : Nat) {k : Nat} (hk : k < 64) : (queueOf ((pushed s p k a).die (dieOf p)) k).fifo =
    (queueOf (s.die (dieOf p)) k).fifo ++ [(BitVec.ofNat 64 (recordWord s p a 0), BitVec.ofNat 64 (recordWord s p a 1),
      s.wallOf (dieOf p) + (queueOf (s.die (dieOf p)) k).attr.deadline)] := by
  rw [pushed, State.die_modDie, queueOf, getD_setIfInBounds_self _ hk]

theorem lastq_pushed (s : State) (p k a : Nat) : ((pushed s p k a).die (dieOf p)).lastq = (s.die (dieOf p)).lastq := by
  rw [pushed, State.die_modDie]
  exact (queuesKept_of_writeFrame (helmPut_frame s (a + 16) 1) (dieOf p)).2

/-! ### The policy -/

/-- The queues that hold a request. -/
def readyQueues (r : Die) : List Nat := (List.range 64).filter fun i => !(queueOf r i).fifo.isEmpty

/-- Those of them that are urgent. -/
def urgentQueues (r : Die) (wall : Nat) : List Nat := (readyQueues r).filter fun i => (queueOf r i).urgent wall

/-- The highest tier of a queue that holds a request. -/
def topTier (r : Die) : Nat := (readyQueues r).foldl (fun n i => Nat.max n (queueOf r i).attr.tier) 0

/-- The queues that the policy picks from. -/
def candidates (r : Die) (wall : Nat) : List Nat :=
  if (urgentQueues r wall).isEmpty then (readyQueues r).filter fun i => (queueOf r i).attr.tier = topTier r else urgentQueues r wall

/-- Queue i need not follow queue j among the candidates. -/
def dueBefore (r : Die) (i j : Nat) : Bool := decide (headDue r i < headDue r j ∨
  (headDue r i = headDue r j ∧ (i + 63 - r.lastq % 64) % 64 ≤ (j + 63 - r.lastq % 64) % 64))

theorem mem_readyQueues {r : Die} {j : Nat} : j ∈ readyQueues r ↔ j < 64 ∧ (queueOf r j).fifo ≠ [] := by
  simp [readyQueues]

theorem urgent_iff {r : Die} {wall k : Nat} : (queueOf r k).urgent wall = true ↔ Urgent r wall k := decide_eq_true_iff

theorem mem_urgentQueues {r : Die} {wall j : Nat} : j ∈ urgentQueues r wall ↔ j ∈ readyQueues r ∧ Urgent r wall j := by
  rw [urgentQueues, List.mem_filter, urgent_iff]

theorem dueBefore_of_dueFirst {r : Die} {k j : Nat} (h : DueFirst r k j) : dueBefore r k j = true ∧ dueBefore r j k = false := by
  simp only [DueFirst] at h
  simp only [dueBefore, decide_eq_true_eq, decide_eq_false_iff_not]
  omega

/-- The pick is the first of the candidates in order. -/
theorem pickQueue_eq (r : Die) (wall : Nat) : pickQueue r wall =
    (sortBy (dueBefore r) (candidates r wall)).head?.map fun i => (i, !(urgentQueues r wall).isEmpty) := by
  unfold pickQueue
  extract_lets q ready urgent top cand due after
  have hdue : due = headDue r := by
    funext i
    simp only [due, q, headDue, queueOf]
    cases (r.queues.toList.getD i {}).fifo <;> rfl
  clear_value due
  subst hdue
  change (match sortBy (dueBefore r) (candidates r wall) with
    | i :: _ => some (i, !(urgentQueues r wall).isEmpty)
    | [] => none) = _
  cases sortBy (dueBefore r) (candidates r wall) <;> rfl

theorem pickQueue_of_empty {r : Die} (h : ∀ k, k < 64 → (queueOf r k).fifo = []) (wall : Nat) : pickQueue r wall = none := by
  have hready : readyQueues r = [] := List.eq_nil_iff_forall_not_mem.mpr fun j hj => by
    obtain ⟨hlt, hne⟩ := mem_readyQueues.mp hj
    exact hne (h j hlt)
  rw [pickQueue_eq, candidates, urgentQueues, hready]
  rfl

/-- The highest tier, where one queue's is. -/
theorem topTier_of_highest {r : Die} {k : Nat} (hk : k ∈ readyQueues r)
    (h : ∀ j ∈ readyQueues r, (queueOf r j).attr.tier ≤ (queueOf r k).attr.tier) : topTier r = (queueOf r k).attr.tier := by
  have hmax : ((readyQueues r).map fun i => (queueOf r i).attr.tier).max? = some (queueOf r k).attr.tier :=
    List.max?_eq_some_iff.mpr ⟨List.mem_map_of_mem hk, List.forall_mem_map.mpr h⟩
  have hfold : topTier r = ((readyQueues r).map fun i => (queueOf r i).attr.tier).foldl max 0 := List.foldl_map.symm
  rw [hfold, List.foldl_max, hmax, Option.getD_some, Nat.zero_max]

section
variable {r : Die} {wall k : Nat} (hk : k ∈ readyQueues r) (h : ∀ j ∈ readyQueues r, j ≠ k → Ahead r wall k j)
include h

/-- Where the queue ahead of all others is not urgent, the others are of a lower tier, or of its own and due later. -/
theorem tier_of_ahead (hu : ¬ Urgent r wall k) {j : Nat} (hj : j ∈ readyQueues r) (hjk : j ≠ k) :
    (queueOf r j).attr.tier < (queueOf r k).attr.tier ∨ ((queueOf r j).attr.tier = (queueOf r k).attr.tier ∧ DueFirst r k j) := by
  rcases h j hj hjk with ⟨hku, -⟩ | ⟨-, -, htier⟩
  · exact absurd hku hu
  · exact htier

include hk

theorem topTier_of_ahead (hu : ¬ Urgent r wall k) : topTier r = (queueOf r k).attr.tier := by
  refine topTier_of_highest hk fun j hj => ?_
  by_cases hjk : j = k
  · exact hjk ▸ le_rfl
  · rcases tier_of_ahead h hu hj hjk with hlt | ⟨heq, -⟩
    · exact hlt.le
    · exact heq.le

/-- Some queue is urgent exactly where the one ahead of all others is. -/
theorem urgentQueues_isEmpty_of_ahead : (urgentQueues r wall).isEmpty = !(queueOf r k).urgent wall := by
  rw [Bool.eq_iff_iff, List.isEmpty_iff, List.eq_nil_iff_forall_not_mem, Bool.not_eq_true', ← Bool.not_eq_true, urgent_iff]
  refine ⟨fun hnone hu => hnone k (mem_urgentQueues.mpr ⟨hk, hu⟩), fun hu j hj => ?_⟩
  obtain ⟨hj, hju⟩ := mem_urgentQueues.mp hj
  by_cases hjk : j = k
  · exact hu (hjk ▸ hju)
  · rcases h j hj hjk with ⟨hku, -⟩ | ⟨-, hnj, -⟩
    · exact hu hku
    · exact hnj hju

/-- The queue ahead of all others is a candidate, and before each other one by its deadline. -/
theorem candidates_of_ahead : k ∈ candidates r wall ∧ ∀ j ∈ candidates r wall, j ≠ k → DueFirst r k j := by
  rw [candidates, urgentQueues_isEmpty_of_ahead hk h]
  by_cases hu : Urgent r wall k
  · rw [if_neg (by simpa using urgent_iff.mpr hu)]
    refine ⟨mem_urgentQueues.mpr ⟨hk, hu⟩, fun j hj hjk => ?_⟩
    obtain ⟨hj, hju⟩ := mem_urgentQueues.mp hj
    rcases h j hj hjk with ⟨-, hnj | hd⟩ | ⟨hnk, -⟩
    · exact absurd hju hnj
    · exact hd
    · exact absurd hu hnk
  · rw [if_pos (by simpa using mt urgent_iff.mp hu), topTier_of_ahead hk h hu]
    refine ⟨List.mem_filter.mpr ⟨hk, decide_eq_true rfl⟩, fun j hj hjk => ?_⟩
    obtain ⟨hj, htier⟩ := List.mem_filter.mp hj
    rcases tier_of_ahead h hu hj hjk with hlt | ⟨-, hd⟩
    · exact absurd (of_decide_eq_true htier) hlt.ne
    · exact hd

theorem pickQueue_of_ahead : pickQueue r wall = some (k, (queueOf r k).urgent wall) := by
  obtain ⟨hmem, hfirst⟩ := candidates_of_ahead hk h
  obtain ⟨rest, hs⟩ := sortBy_eq_cons (le := dueBefore r) hmem fun j hj hjk => dueBefore_of_dueFirst (hfirst j hj hjk)
  rw [pickQueue_eq, hs, urgentQueues_isEmpty_of_ahead hk h, Bool.not_not]
  rfl

end

/-! ### qpop -/

/-- What a qpop of queue k does: its oldest request is gone, LASTQ is k, and the four words stand at the operand's address. -/
def popped (s : State) (p k a : Nat) (rest : List (Word × Word × Nat)) (ws : List Nat) : State :=
  helmPuts (s.modDie (dieOf p) fun r =>
    { r with lastq := k, queues := r.queues.setIfInBounds k { queueOf (s.die (dieOf p)) k with fifo := rest } }) a ws

section
variable {s : State} {p a : Nat} {b : BitVec 5}

theorem bodyQpop_of_none (ha : s.cur.agent = .core p) (hb : a = ((s.core p).c (b.truncate 4)).toNat) (hin : InHelm a 32 32)
    (hpick : pickQueue (s.die (dieOf p)) (s.wallOf (dieOf p)) = none) : bodyQpop b s = .ok (helmPuts s a [0, 0, 0, 0]) := by
  simp only [bodyQpop, srcC_of_core ha, me_of_core ha, ← hb, if_neg (not_helmBad hin), hpick]
  rfl

theorem bodyQpop_of_some (ha : s.cur.agent = .core p) (hb : a = ((s.core p).c (b.truncate 4)).toNat) (hin : InHelm a 32 32)
    {k due : Nat} {urgent : Bool} {rec_ block : Word} {rest : List (Word × Word × Nat)}
    (hpick : pickQueue (s.die (dieOf p)) (s.wallOf (dieOf p)) = some (k, urgent))
    (hfifo : (queueOf (s.die (dieOf p)) k).fifo = (rec_, block, due) :: rest) :
    bodyQpop b s = .ok (popped s p k a rest [rec_.toNat, block.toNat, due,
      k + (if urgent then 2 ^ 8 else 0) + (if due < s.wallOf (dieOf p) then 2 ^ 9 else 0) + 2 ^ 15]) := by
  have hfifo' : ((s.die (dieOf p)).queues.toList.getD k {}).fifo = (rec_, block, due) :: rest := hfifo
  simp only [bodyQpop, srcC_of_core ha, me_of_core ha, ← hb, if_neg (not_helmBad hin), hpick, hfifo']
  rfl

end

/-- A bit of a word, by what it says. -/
theorem ite_eq_flag {P : Prop} [Decidable P] {u : Nat} (h : u = 1 ↔ P) (hu : u < 2) (n : Nat) : (if P then n else 0) = u * n := by
  split
  · next hp => rw [h.mpr hp, Nat.one_mul]
  · next hp => rw [show u = 0 by have := mt h.mp hp; omega, Nat.zero_mul]

theorem popped_die (s : State) (p a : Nat) {k : Nat} (hk : k < 64) (rest : List (Word × Word × Nat)) (ws : List Nat) :
    (queueOf ((popped s p k a rest ws).die (dieOf p)) k).fifo = rest ∧ ((popped s p k a rest ws).die (dieOf p)).lastq = k ∧
    ∀ j, j ≠ k → queueOf ((popped s p k a rest ws).die (dieOf p)) j = queueOf (s.die (dieOf p)) j := by
  have hkept : QueuesKept _ (popped s p k a rest ws) (dieOf p) := queuesKept_of_writeFrame (helmPuts_frame ..) _
  refine ⟨?_, ?_, fun j hj => ?_⟩
  · rw [queueOf_of_queuesKept hkept, State.die_modDie, queueOf, getD_setIfInBounds_self _ hk]
  · rw [hkept.2, State.die_modDie]
  · rw [queueOf_of_queuesKept hkept, State.die_modDie, queueOf, getD_setIfInBounds_other _ hj, queueOf]

/-! ### The three operations -/

theorem qpushCfg_sets {s : State} {p k : Nat} {g : BitVec 4} {q b : BitVec 5} {attr : QAttr} (h : CoreRuns s p g (.qpushCfg g q b)) (hk : k < 64)
    (hbody : bodyQpushCfg q b s =
      .ok (s.modDie (dieOf p) fun r => { r with queues := r.queues.setIfInBounds k (configured (queueOf r k) attr s.wall) })) :
    ∃ t : State, Completes (.qpushCfg g q b) s t ∧ queueOf (t.die (dieOf p)) k = configured (queueOf (s.die (dieOf p)) k) attr s.wall ∧
      (t.die (dieOf p)).lastq = (s.die (dieOf p)).lastq ∧
      (∀ j, j < 64 → j ≠ k → queueOf (t.die (dieOf p)) j = queueOf (s.die (dieOf p)) j) ∧ t.mem = s.mem ∧ CoreKept s t p := by
  have hkept := coreKept_of_wrote (.refl (s.core p))
  refine ⟨_, completes_of_coreKept h rfl hbody rfl hkept, ?_, ?_, fun j _ hj => ?_, rfl, hkept⟩ <;> rw [State.die_modDie]
  · exact getD_setIfInBounds_self _ hk _
  · exact getD_setIfInBounds_other _ hj _

theorem qpush_appends {s : State} {p k a : Nat} {g : BitVec 4} {q b : BitVec 5} (h : CoreRuns s p g (.qpush g q b)) (hm : MemoryCanonical s)
    (hbody : bodyQpush q b s = .ok (pushed s p k a)) :
    Completes (.qpush g q b) s (pushed s p k a) ∧ (pushed s p k a).mem.read (spadBase p + a + 16) 8 = 1 ∧ CoreKept s (pushed s p k a) p := by
  have hf := helmPut_frame s (a + 16) 1
  have hkept : CoreKept s (pushed s p k a) p := coreKept_of_wrote (hf.core p)
  exact ⟨completes_of_coreKept h rfl hbody hf.cur hkept, read_helmPut h.1 hm _ (by decide), hkept⟩

theorem qpop_answers_none {s : State} {p a : Nat} {g : BitVec 4} {b : BitVec 5} (h : CoreRuns s p g (.qpop g b))
    (hb : a = ((s.core p).c (b.truncate 4)).toNat) (hin : InHelm a 32 32) (hm : MemoryCanonical s)
    (hempty : ∀ k, k < 64 → (queueOf (s.die (dieOf p)) k).fifo = []) :
    ∃ t : State, Completes (.qpop g b) s t ∧ WordsAt t (spadBase p + a) [0, 0, 0, 0] ∧ QueuesKept s t (dieOf p) := by
  have hf := helmPuts_frame s a [0, 0, 0, 0]
  have hbody := bodyQpop_of_none h.1 hb hin (pickQueue_of_empty hempty _)
  exact ⟨_, completes_of_coreKept h rfl hbody hf.cur (coreKept_of_wrote (hf.core p)), wordsAt_helmPuts h.1 hm _ _, queuesKept_of_writeFrame hf _⟩

theorem qpop_removes {s : State} {p k a : Nat} {g : BitVec 4} {b : BitVec 5} {rest : List (Word × Word × Nat)} {ws : List Nat}
    (h : CoreRuns s p g (.qpop g b)) (hm : MemoryCanonical s) (hbody : bodyQpop b s = .ok (popped s p k a rest ws)) :
    Completes (.qpop g b) s (popped s p k a rest ws) ∧ WordsAt (popped s p k a rest ws) (spadBase p + a) ws ∧
      CoreKept s (popped s p k a rest ws) p := by
  have hf : WriteFrame _ (popped s p k a rest ws) := helmPuts_frame ..
  have hkept : CoreKept s (popped s p k a rest ws) p := coreKept_of_wrote (hf.core p)
  exact ⟨completes_of_coreKept h rfl hbody hf.cur hkept, wordsAt_helmPuts (s := s.modDie (dieOf p) _) h.1 hm a ws, hkept⟩

/-- Settles O44: qpush.cfg by its block, qpush by its queue, and qpop by whether a queue is ahead of all others. -/
theorem queuesFollowThePolicy : Obligations.QueuesFollowThePolicy := by
  refine ⟨fun s p k a g q b w ⟨h, _⟩ hq hb hw => ?_, fun s p k a g q b x ⟨h, _⟩ hq hb hx hk hin hm => ?_,
    fun s p a wall g b r ⟨h, _⟩ hb hr hwall hin hm => ?_⟩
  · subst hw
    refine ⟨fun hk hin h0 hbit h1 h1' h3 hsum => ?_, fun hk => ?_, fun hk hbad => ?_⟩
    · have hattr := queueAttr_of_good h0 hbit h1 h1' ((Nat.le_add_left ..).trans hsum) h3
      obtain ⟨t, ht, hset, hlast, hother, hmem, hkept⟩ := qpushCfg_sets h hk (bodyQpushCfg_of_good h.1 hq hb hk hin hattr hsum)
      exact ⟨t, _, ht, hset, rfl, rfl, rfl, beq_iff_eq, rfl, rfl, rfl, rfl, hlast, hother, hmem, hkept⟩
    · exact faults_of_coreRuns h rfl (bodyQpushCfg_of_no_queue h.1 hq hk b)
    · exact faults_of_coreRuns h rfl (bodyQpushCfg_of_bad h.1 hq hb hk (hbad.imp_right queueAttr_of_bad))
  · subst hx
    have hbody := bodyQpush_of_core h.1 hq hb hk hin
    refine ⟨fun hconf hroom => ?_, fun hconf hfull => ?_, fun hconf => ?_⟩
    · rw [if_neg (not_not_intro hconf), if_neg (Nat.not_le.mpr hroom)] at hbody
      obtain ⟨ht, hword, hkept⟩ := qpush_appends h hm hbody
      exact ⟨_, ht, hword, fifo_pushed s p a hk, lastq_pushed .., hkept⟩
    · rw [if_neg (not_not_intro hconf), if_pos hfull] at hbody
      exact qpush_answers h hm (by decide) hbody
    · rw [if_pos (by simp [hconf])] at hbody
      exact qpush_answers h hm (by decide) hbody
  · subst hr hwall
    refine ⟨qpop_answers_none h hb hin hm, fun k due rec_ block rest u l hk hfifo hahead hu hl hu2 hl2 => ?_⟩
    have hpick := pickQueue_of_ahead (mem_readyQueues.mpr ⟨hk, by simp [hfifo]⟩) fun j hj hjk =>
      hahead j (mem_readyQueues.mp hj).1 hjk (mem_readyQueues.mp hj).2
    have hbody := bodyQpop_of_some h.1 hb hin hpick hfifo
    rw [ite_eq_flag (hu.trans urgent_iff.symm) hu2, ite_eq_flag hl hl2] at hbody
    obtain ⟨ht, hwords, hkept⟩ := qpop_removes h hm hbody
    obtain ⟨hrest, hlast, hother⟩ := popped_die s p a hk rest [rec_.toNat, block.toNat, due, k + u * 2 ^ 8 + l * 2 ^ 9 + 2 ^ 15]
    exact ⟨_, ht, hwords, hrest, hlast, fun j _ hj => hother j hj, hkept⟩

end Sys2Proof.Proofs
end
